-- ==== Sys2Proof/Word.lean ====
section
/-! DEFINITION. The word types of the manual: bytes, 32-bit registers and 64-bit records (R107, R283). -/

namespace Sys2Proof

/-- One byte of host memory, DDR5, flash or engine memory. -/
abbrev Byte := BitVec 8

/-- A register of BAR0. -/
abbrev W32 := BitVec 32

/-- A record (R107), or one word of a tile. -/
abbrev W64 := BitVec 64

end Sys2Proof
end

