-- ==== Sys2Proof/Syntax.lean ====
section
/-! DEFINITION. The commands of the block: one constructor of `Instr` per row of spec/opcode_table.json, with the data
that the command brings from outside the model (a register write's function and value, host memory that the device reads,
analogue readings, the contents of received frames). -/

namespace Sys2Proof

/-- One access to BAR0: the PCIe function that makes it and how long it stalled, in ns (R288). -/
structure Access where
  func : Nat
  stall : Nat
  deriving DecidableEq, Repr

/-- The 128 latched taps of the four lines of a lane at the sampling edge, tap 0 nearest the input (R53, R54). -/
structure Taps where
  l0 : BitVec 128
  l1 : BitVec 128
  l2 : BitVec 128
  l3 : BitVec 128
  deriving DecidableEq, Repr

/-- Why a group's DLL may lose lock on its own (R58): a replica error of `e` ticks, or VDDA below its threshold. -/
inductive DllCause where
  | replicaError (e : Int)
  | vdda
  deriving DecidableEq, Repr

/-- What MA0 gives over one borrowed observation (R43, R47): mean and deviation in units of 10 µV. -/
structure BaselineReading where
  mean : Int
  sigma : Nat
  deriving DecidableEq, Repr

/-- How the flash answers a load (R88): whether it responds, and whether each slot's payload fails its CRC on reading. -/
structure FlashRead where
  responds : Bool
  failA : Bool
  failB : Bool
  deriving DecidableEq, Repr

/-- How the flash ends a store write (R89, R91). -/
inductive FlashWriteEnd where
  | done | mismatch | noResponse | aborted
  deriving DecidableEq, Repr

/-- The two half-histograms of one lane of a code-density measurement (R83). -/
structure Histogram where
  lane : Nat
  hA : List Nat
  hB : List Nat
  deriving DecidableEq, Repr

/-- A destination of a queue's read side (R136): a capture ring or a packer stream. -/
inductive Dest where
  | ring (r : Nat)
  | stream (h : Nat)
  deriving DecidableEq, Repr

/-- The parts of the device that latch and apply cfg registers on their own (table *Application boundaries* of R296). -/
inductive UBlock where
  | inLg (g : Nat)      -- IN registers of inputs 8g to 8g + 7 and the LG window of group g
  | busy                -- block-wide LG BUSY registers
  | caGrp (g : Nat)     -- CA_GRP_CFG[g]
  | caCfg
  | mu (u : Nat)
  | cr (r : Nat)
  | pk (h : Nat)
  | pg (s : Nat)
  | mc (n : Nat)
  | tt
  | ma (c : Nat)
  | ep (p : Nat)
  | tp
  | pr
  | mt
  deriving DecidableEq, Repr


/-- A descriptor of a command ring as the device has fetched it, 32 bytes (R270), and the host buffer at ADDR as the device reads
it: none when a read of it fails (R273). -/
structure Command where
  ring : Nat
  bytes : List Byte
  data : Option (List Byte)
  deriving DecidableEq, Repr

/-- A frame as an Ethernet port receives it (R301, R302): its bytes from the destination address on, without the FCS,
whether the FCS matches, and how many ticks before the present T its timestamp point passed. -/
structure Frame where
  port : Nat
  bytes : List Byte
  fcsOk : Bool
  age : Nat
  deriving DecidableEq, Repr

/-- An event that the active of a pair sends to its partner (R368). -/
inductive PairEvent where
  | maq (off : Nat) (v : W32)                                   -- a Maquette write
  | strobe (mask t : Nat)                                       -- an Unveil strobe and the T of its edge
  | adj (v : BitVec 48) (t : Nat)                               -- an ADJ value and the T from which it applies (R372)
  | anchor (k : Nat) (ta : BitVec 104) (sec ns frac : Nat) (adj : BitVec 48) (reason : Nat)
  | veto (g : Nat)
  | mark (r : Nat)
  | gate (c : Nat) (open_ : Bool) (t : Nat)
  | muarm (u t : Nat)
  | commit (q start : Nat) (slot : Option Nat)                  -- the instance that began at word `start` took this jump
  | pllLoss                                                     -- the active's main PLL has lost lock (R376)
  deriving DecidableEq, Repr

/-- A heartbeat (R363): role, T[63:0] at sending and last complete Cast; a yield (R367); a report of a take-over (R367); an alignment
or measurement runs at the sender, whose partner is to stamp the pulses too (R373; DESIGN CHOICE, log 23). -/
structure Heartbeat where
  role : Nat
  t : W64
  castSeq : Nat
  yields : Bool
  tookOver : Bool
  aligning : Bool
  deriving DecidableEq, Repr

/-- What devices exchange at link training (R360). -/
structure Identity where
  ft0512 : Bool
  revision : Nat
  device : Nat
  deriving DecidableEq, Repr

/-- The active's stamps of the pulses of an ALIGN or MEASURE, as the link has brought them (R373). -/
structure Pulses where
  act : List Nat
  deriving DecidableEq, Repr

/-- The servo state that a Cast carries (R368); the quarantine as offsets with and without D, and of a path change the delay samples
taken in it (R311). -/
structure CastServo where
  state : Nat
  i : Int
  samples : List Int
  parent : Option (List Byte)
  td : Option Int
  quar : List (Int × Int)
  path : Option (List Int)
  deriving DecidableEq, Repr

/-- The changed registers, PC and local-memory bytes of a mirrored engine (R369). -/
structure CastEngine where
  e : Nat
  pc : Nat
  regs : List (Nat × W64)
  lmem : List (Nat × Byte)
  deriving DecidableEq, Repr

/-- A complete Cast (R369): `full` when it is the first one behind a RESYNC (R382). -/
structure Cast where
  seq : Nat
  full : Bool
  servo : Option CastServo
  fronts : List (Nat × Option Nat)
  engines : List CastEngine
  deriving DecidableEq, Repr

/-- A module's SPD hub answers (R218): channel and the organisation it reports, in the layout of MC_ORG. -/
structure Spd where
  chan : Nat
  org : W32
  deriving DecidableEq, Repr

/-- A change of V(IN_P[cmp]) − V(IN_N[cmp]) at a wake comparator, in units of 5 µV, and how long the new level has been held (R406). -/
structure WakeStep where
  cmp : Nat
  before : Int
  after : Int
  heldNs : Nat
  deriving DecidableEq, Repr

/-- What a reset release or wake finds outside the device (R398, R399, R260): STRAP[3:0], the PCIe link's trained width and
speed, and the SPD hubs that answer. -/
structure Boot where
  strap : BitVec 4
  width : Nat
  speed : Nat
  spd : List Spd
  deriving DecidableEq, Repr


/-- The commands of the block, one constructor per row of spec/opcode_table.json. -/
inductive Instr where
  /-- POWER_ON (R397): VAON power-on resets everything, the Mitten island included, and keeps only the fuse array. -/
  | powerOn
  /-- RAIL_BELOW_THRESHOLD (R397): A rail other than VAON falls below its monitor threshold, so the device is held in full reset and T restarts at 0. -/
  | railBelowThreshold
  /-- RESET_ASSERT (R397): RST_N or PERST_N goes low: outputs go high-impedance, input cells go fail-safe and a running store write stops after its flash operation. -/
  | resetAssert
  /-- RESET_RELEASE (R398): Reset is released at the later of the RST_N and PERST_N rising edges once the power-on detector no longer holds; straps are sampled and the start-up sequence begins. -/
  | resetRelease (b : Boot)
  /-- MAIN_PLL_LOCK (R92): The main PLL locks after reset release or wake; T and F start at 0, calibration-frame boundary 0 falls and DLL acquisition starts. -/
  | mainPllLock
  /-- MAIN_PLL_LOSS (R95): The main PLL loses lock: Plinth keeps counting, PL_STAT.PLL_UNLOCKED is set, the loss is counted and noticed, and every locked group declares DLL loss. -/
  | mainPllLoss
  /-- MAIN_PLL_RELOCK (R428): The main PLL relocks and every group restarts DLL acquisition from code 0x2000. -/
  | mainPllRelock
  /-- VDDIO_SUPPLY_WARNING (R91): VDDIO below 1.71 V for 1 µs raises the supply warning, which stops a store write after the flash operation in progress and aborts a fuse programming run. -/
  | vddioSupplyWarning
  /-- COMPARATOR_TRANSITION (R54): A selected comparator transition is located in the delay lines; its raw code is mapped to a fine value, and it is either merged into the held stamp or becomes a new stamp. -/
  | comparatorTransition (lane : Nat) (falling : Bool) (taps : Taps) (further : Nat)
  /-- STAMP_EMIT (R130): A complete stamp record leaves the Chisel at S + 5 and enters its lane chain at the next GCLK edge. -/
  | stampEmit (lane : Nat)
  /-- SETTLING_WINDOW_END (R38): A settling window closes after 2,400 PCLK cycles; any calibration suppression of the lanes ends and each lane with edges selected emits its gap record. -/
  | settlingWindowEnd (lane : Nat)
  /-- DLL_LOCK_DECLARE (R58): After 16,384 consecutive PCLK edges with abs(e) at most 8 ticks, a group declares lock, switches bandwidth and sets LOCKED and, after a loss, RELOCKED. -/
  | dllLockDeclare (g : Nat)
  /-- DLL_LOSS_DECLARE (R58): A locked group declares loss on a replica error above 16 ticks, a main-PLL loss, low VDDA or RELOCK; stamps then carry quality 10. -/
  | dllLossDeclare (g : Nat) (c : DllCause)
  /-- DLL_CODE_STEP (R56): The DLL control code moves by at most one step per 64 PCLK cycles. -/
  | dllCodeStep (g : Nat) (code : Nat) (err : BitVec 16)
  /-- LG_DLL_RELOCK (R428): A write of LG_DLL_CTRL.RELOCK declares loss if the group is locked and restarts acquisition in either case. -/
  | lgDllRelock (a : Access) (g : Nat) (v : W32)
  /-- IN_NULLING (R43): An IN_CMD GO with OP = 0 starts offset nulling on an input, or is refused or ignored when MA0 is unavailable, a command is running or the input is absent. -/
  | inNulling (a : Access) (v : W32)
  /-- IN_OPEN_WIRE (R47): An IN_CMD GO with OP = 1 starts open-wire detection on an input. -/
  | inOpenWire (a : Access) (v : W32)
  /-- NULLING_COMPLETE (R44): A nulling command ends at restore: it accepts the searched trims or rejects the command, writes the results, applies held configuration and opens the settling windows. -/
  | nullingComplete (highA : List Nat) (highB : List Nat)
  /-- OPEN_WIRE_COMPLETE (R48): An open-wire command ends: the pulls and termination are restored, the verdict is written and the settling windows open. -/
  | openWireComplete
  /-- MA0_BORROW_START (R359): MA0 is borrowed for a cell command at the end of its current execution, or at once when it is stopped or waiting for a partner. -/
  | ma0BorrowStart
  /-- MA0_BORROW_END (R359): The borrowed samples are taken and MA0 resumes its sequence. -/
  | ma0BorrowEnd (m : BaselineReading)
  /-- LANE_RECORD_TAKE (R133): In a GCLK cycle the group assembler places one due item in the open tile: a marker, a gap record, or a lane record under the allowance. -/
  | laneRecordTake (g : Nat)
  /-- TILE_HOLD_TIMEOUT (R16): An open tile that has not reached seven records is sealed 4 GCLK cycles after its first record. -/
  | tileHoldTimeout (g : Nat)
  /-- ALLOWANCE_RISE (R134): Every 32nd GCLK cycle a group's record allowance rises by 7, capped at 14. -/
  | allowanceRise (g : Nat)
  /-- FABRIC_CREDIT_EARN (R17): Every 32 FCLK cycles a source earns one issue credit, up to 8, which may release a tile waiting for credit. -/
  | fabricCreditEarn (src : Nat)
  /-- GROUP_QUEUE_READ (R136): The read side hands an entry to a destination; the entry's place frees once every selected destination has taken it. -/
  | groupQueueRead (q : Nat) (d : Dest)
  /-- WAITING_WINDOW_ENTRY_WRITE (R138): A window entry that waited for room is written at the first place that frees. -/
  | waitingWindowEntryWrite (g : Nat)
  /-- BUSY_HOLD_EXPIRY (R148): A BUSY pin's minimum hold count reaches 0, and the pin clears when no selected source is busy. -/
  | busyHoldExpiry (p : Nat)
  /-- WINDOW_OPEN (R139): The open event of the framing gate reaches the assembler; a window part opens and a reservation is written into the queue. -/
  | windowOpen (g : Nat)
  /-- WINDOW_CLOSE (R140): A window closes on its gate's close event or when EN is cleared; its window tile is sealed and written as a fill, and any veto-drop entry is handed out. -/
  | windowClose (g : Nat)
  /-- WINDOW_DUR_EXPIRY (R140): DUR × 8 GCLK cycles after opening, the window closes and a gate-close marker is made. -/
  | windowDurExpiry (g : Nat)
  /-- LG_WIN_VETO (R142): A host write of LG_WIN_CMD.VETO requests a veto of the group's open window. -/
  | lgWinVeto (a : Access) (g : Nat) (v : W32)
  /-- VETO_ARRIVAL (R142): A veto reaches the group-queue read side, which fixes the veto point and withholds the window's later data tiles. -/
  | vetoArrival (g : Nat)
  /-- LG_INJ_DATA_WRITE (R145): A write to LG_INJ_DATA appends a word to the injection buffer, or is dropped when the buffer is full or the port is disabled. -/
  | lgInjDataWrite (a : Access) (g : Nat) (v : W32)
  /-- LG_INJ_FLUSH (R145): A write of LG_INJ_CTRL.FLUSH forms an injected tile from the buffered words. -/
  | lgInjFlush (a : Access) (g : Nat) (v : W32)
  /-- INJECTED_TILE_SEAL (R146): An injected tile is sealed in the first cycle in which the assembler is not sealing a lane tile. -/
  | injectedTileSeal (g : Nat)
  /-- LG_Q_PEAK_CLR (R135): A write of LG_Q_OCC.PEAK_CLR sets PEAK to the current occupancy. -/
  | lgQPeakClr (a : Access) (g : Nat) (v : W32)
  /-- EPOCH_BOUNDARY (R100): T reaches a multiple of 2^47 and an epoch marker enters every lane-group stream. -/
  | epochBoundary
  /-- TEMP_DELIVERY (R71): A sensor temperature is delivered to its groups, updating CA_GRP_TEMP and possibly starting a table build. -/
  | tempDelivery
  /-- TEMP_STALE_EXPIRY (R72): No delivery within STALE_MS sets TEMP_STALE and posts a notice once per gap. -/
  | tempStaleExpiry (g : Nat)
  /-- TABLE_BUILD_COMPLETE (R76): A staging build ends staged or rejected by checks 1 to 3, and the pending trigger is evaluated again. -/
  | tableBuildComplete (g : Nat)
  /-- CAL_FRAME_BOUNDARY (R77): Every 2^20 PCLK edges a calibration-frame boundary falls; complete staging copies swap in, CA configuration applies and, on even counts, an integrity scan starts. -/
  | calFrameBoundary
  /-- CAL_STORE_LOAD_COMPLETE (R80): The store load ends at start-up or on reload; working sets and trims are written and each group activates its first table. -/
  | calStoreLoadComplete (f : FlashRead)
  /-- CAL_MEASURE (R83): The command starts or rejects a code-density measurement of selected lanes into a set. -/
  | calMeasure (c : Command)
  /-- CAL_MEASURE_COMPLETE (R85): Collection ends; each lane's candidate set is formed, checked, and accepted into the working sets or rejected. -/
  | calMeasureComplete (g : Nat) (h : List Histogram)
  /-- CAL_TABLE_WRITE (R85): A host-written candidate set is checked by checks 1 to 3 and accepted or rejected. -/
  | calTableWrite (c : Command)
  /-- CAL_TABLE_READ (R82): A working set or the active table is copied to a host buffer. -/
  | calTableRead (c : Command)
  /-- CAL_STORE_WRITE (R89): The command starts a write of the working sets and trims to the target slot, or is refused. -/
  | calStoreWrite (c : Command)
  /-- CAL_STORE_WRITE_COMPLETE (R89): A store write ends with COMMIT programmed, a read-back mismatch, a flash failure or a supply abort. -/
  | calStoreWriteComplete (r : FlashWriteEnd)
  /-- CAL_STORE_RELOAD (R82): The command loads the store again as at start-up. -/
  | calStoreReload (c : Command)
  /-- CAL_FLASH_READ (R272): The command copies bytes of the calibration flash to a host buffer. -/
  | calFlashRead (c : Command) (responds : Bool)
  /-- PL_ADJ_SET_WRITE (R94): A write of PL_ADJ_SET_HI takes the host ADJ pair into effect as a new rate request. -/
  | plAdjSetWrite (a : Access) (v : W32)
  /-- PL_RATE_SRC_CHANGE (R94): A change of PL_CTRL.RATE_SRC applies the newly selected source's value. -/
  | plRateSrcChange (a : Access) (v : W32)
  /-- ADJ_APPLY (R94): A new ADJ is applied at the first even PCLK edge after crossing (paired: at T_req + 2^24) and its application is counted and recorded. -/
  | adjApply
  /-- PL_ORIGIN_WAIT_CLEAR (R105): Clearing PL_CTRL.ORIGIN_WAIT releases the lanes from NOT_READY. -/
  | plOriginWaitClear (a : Access) (v : W32)
  /-- PL_SNAP_GO (R103): A write of PL_SNAP_CTRL.GO arms a snapshot with the latched source. -/
  | plSnapGo (a : Access) (v : W32)
  /-- PL_SNAP_CANCEL (R104): A write of PL_SNAP_CTRL.CANCEL disarms a pending snapshot. -/
  | plSnapCancel (a : Access) (v : W32)
  /-- SNAPSHOT_TAKE (R103): At the snapshot edge, T, F and ADJ are written to the snapshot registers and SEQ increments. -/
  | snapshotTake (pin : Bool)
  /-- FABRIC_ENTRY (R203): A sealed tile crosses into its source's fabric entry buffer. -/
  | fabricEntry (src : Nat)
  /-- FABRIC_GRANT (R204): The arbiter grants up to two of the oldest entry-buffer tiles per FCLK cycle. -/
  | fabricGrant
  /-- FABRIC_DELIVERY (R204): A granted tile reaches its destinations 12 FCLK cycles later: cluster inputs, MU inputs and derived queues. -/
  | fabricDelivery
  /-- CLUSTER_UNPACK (R181): The unpacker verifies a tile and places each admitted record into the cluster's ports. -/
  | clusterUnpack (c : Nat)
  /-- MU_TILE_ARRIVAL (R151): An MU input verifies a fast-tap tile and queues its records for time ordering. -/
  | muTileArrival
  /-- MU_PROCESS_INPUT (R161): An MU processes the next input in T order once it lies below every P_g; gates open and measurements accumulate or close. -/
  | muProcessInput (u : Nat)
  /-- MU_ARM (R153): A host write of MU_CMD.ARM is an arm event at the next PCLK edge. -/
  | muArm (a : Access) (u : Nat) (v : W32)
  /-- MU_CLOSE (R155): A host write of MU_CMD.CLOSE closes the open measurement, or sends an armed MU to IDLE. -/
  | muClose (a : Access) (u : Nat) (v : W32)
  /-- MU_DISARM (R159): A host write of MU_CMD.DISARM aborts and publishes an open measurement, or idles an armed MU. -/
  | muDisarm (a : Access) (u : Nat) (v : W32)
  /-- MU_GATE_LEN_EXPIRY (R155): A measurement closes at T_open + MU_GATE_LEN. -/
  | muGateLenExpiry (u : Nat)
  /-- MU_PUBLISH (R174): Result slots change together, DONE is set and, with EMIT, result records enter the bank. -/
  | muPublish (u : Nat)
  /-- MU_BANK_HOLD_TIMEOUT (R177): A bank tile is sealed 8 FCLK cycles after its first record. -/
  | muBankHoldTimeout (b : Nat)
  /-- CLUSTER_RESULT_TAKE (R195): The cluster result assembler takes one record per cycle round-robin, placing any pending gap triple. -/
  | clusterResultTake (c : Nat)
  /-- CLUSTER_HOLD_TIMEOUT (R195): A cluster result tile is sealed 10 ECLK cycles after its first record. -/
  | clusterHoldTimeout (c : Nat)
  /-- ADD (R185): rd = ra + rb. -/
  | iAdd (e : Nat)
  /-- SUB (R185): rd = ra − rb. -/
  | iSub (e : Nat)
  /-- AND (R185): rd = ra & rb. -/
  | iAnd (e : Nat)
  /-- OR (R185): rd = ra | rb. -/
  | iOr (e : Nat)
  /-- XOR (R185): rd = ra ^ rb. -/
  | iXor (e : Nat)
  /-- SHL (R185): rd = ra shifted left by rb[5:0]. -/
  | iShl (e : Nat)
  /-- SHR (R185): rd = ra shifted right logically by rb[5:0]. -/
  | iShr (e : Nat)
  /-- SAR (R185): rd = ra shifted right arithmetically by rb[5:0]. -/
  | iSar (e : Nat)
  /-- MUL (R185): rd = low 64 bits of ra × rb, in 3 cycles. -/
  | iMul (e : Nat)
  /-- MULHU (R185): rd = high 64 bits of the unsigned product, in 3 cycles. -/
  | iMulhu (e : Nat)
  /-- MIN (R185): rd = signed minimum of ra and rb. -/
  | iMin (e : Nat)
  /-- MAX (R185): rd = signed maximum of ra and rb. -/
  | iMax (e : Nat)
  /-- MINU (R185): rd = unsigned minimum of ra and rb. -/
  | iMinu (e : Nat)
  /-- MAXU (R185): rd = unsigned maximum of ra and rb. -/
  | iMaxu (e : Nat)
  /-- ADDS (R185): rd = ra + rb, saturated to the signed range. -/
  | iAdds (e : Nat)
  /-- SUBS (R185): rd = ra − rb, saturated to the signed range. -/
  | iSubs (e : Nat)
  /-- SLT (R185): rd = 1 if ra < rb signed, else 0. -/
  | iSlt (e : Nat)
  /-- SLTU (R185): rd = 1 if ra < rb unsigned, else 0. -/
  | iSltu (e : Nat)
  /-- SEQ (R185): rd = 1 if ra equals rb, else 0. -/
  | iSeq (e : Nat)
  /-- CLZ (R185): rd = the number of leading zeros of ra. -/
  | iClz (e : Nat)
  /-- POPC (R185): rd = the number of set bits of ra. -/
  | iPopc (e : Nat)
  /-- ADDI (R185): rd = ra + sext(imm16). -/
  | iAddi (e : Nat)
  /-- ANDI (R185): rd = ra & zext(imm16). -/
  | iAndi (e : Nat)
  /-- ORI (R185): rd = ra | zext(imm16). -/
  | iOri (e : Nat)
  /-- XORI (R185): rd = ra ^ zext(imm16). -/
  | iXori (e : Nat)
  /-- SHI (R185): rd = ra shifted or rotated by an immediate, the operation selected by op. -/
  | iShi (e : Nat)
  /-- MOVI (R185): rd = sext(imm16). -/
  | iMovi (e : Nat)
  /-- MOVH (R185): Writes imm16 into one 16-bit lane of rd and keeps its other bits. -/
  | iMovh (e : Nat)
  /-- EXT (R185): Extracts a bit field of ra into rd. -/
  | iExt (e : Nat)
  /-- SEXT (R185): rd = ra sign-extended from bit n. -/
  | iSext (e : Nat)
  /-- BR (R185): Branches to TGT when the condition on ra and rb holds. -/
  | iBr (e : Nat)
  /-- BBIT (R185): Branches to TGT when ra[bit] equals s. -/
  | iBbit (e : Nat)
  /-- JMP (R185): Sets the PC to TGT. -/
  | iJmp (e : Nat)
  /-- CALL (R185): Sets g31 to PC + 1 and the PC to TGT. -/
  | iCall (e : Nat)
  /-- JR (R185): Sets the PC to ra[11:0]. -/
  | iJr (e : Nat)
  /-- LD (R185): Loads a 64-bit word from local memory, or raises a range or alignment exception. -/
  | iLd (e : Nat)
  /-- LDW (R185): Loads a zero-extended 32-bit word from local memory. -/
  | iLdw (e : Nat)
  /-- ST (R185): Stores a 64-bit word to local memory. -/
  | iSt (e : Nat)
  /-- STW (R185): Stores rs[31:0] to local memory. -/
  | iStw (e : Nat)
  /-- HINC (R192): Increments a 32-bit local word as one indivisible step, saturating. -/
  | iHinc (e : Nat)
  /-- HADD (R192): Adds rb[31:0] to a 32-bit local word as one indivisible step, saturating. -/
  | iHadd (e : Nat)
  /-- POP (R187): Pops the head record of a port, or waits when the port is empty. -/
  | iPop (e : Nat)
  /-- POP_WAIT_COMPLETE (R187): A waiting POP completes when a record reaches the head of its port. `waited` names the ECLK
  cycle by how many have begun since the issue. -/
  | popWaitComplete (e waited : Nat)
  /-- TRYPOP (R187): Pops a record if one is present, else returns the filler pattern. -/
  | iTrypop (e : Nat)
  /-- PEEK (R187): Returns the head record without popping it, or the filler pattern. -/
  | iPeek (e : Nat)
  /-- SKIP (R187): Pops up to n records that are present and returns the number popped. -/
  | iSkip (e : Nat)
  /-- WAIT (R188): Waits until a selected port, mailbox or deadline condition holds. -/
  | iWait (e : Nat)
  /-- WAIT_COMPLETE (R188): A waiting WAIT completes when a selected condition holds and writes the cause bits. `waited` is as for
  POP_WAIT_COMPLETE. -/
  | waitComplete (e waited : Nat)
  /-- RECV (R193): Takes the oldest mailbox message for the engine, or branches when there is none. -/
  | iRecv (e : Nat)
  /-- SEND (R193): Places a message in the cluster mailbox, branches when it is full, or discards a message to a halted engine. -/
  | iSend (e : Nat)
  /-- RDS (R191): Reads a selected status value into rd. -/
  | iRds (e : Nat)
  /-- TREB (R191): Rebuilds a 48-bit time about a reference, modulo 2^64. -/
  | iTreb (e : Nat)
  /-- EMIT (R194): Places a result record in the result queue, or drops and counts it when the queue is full. -/
  | iEmit (e : Nat)
  /-- EMITT (R194): Places a result record with a time payload in the result queue. -/
  | iEmitt (e : Nat)
  /-- DRIVE (R196): Issues a pin override decision, or has it refused. -/
  | iDrive (e : Nat)
  /-- PJUMP (R196): Issues a jump request to a sequencer slot. -/
  | iPjump (e : Nat)
  /-- VETO (R196): Issues a veto of a group's open window. -/
  | iVeto (e : Nat)
  /-- MARK (R196): Issues a rewind-mark request to a capture ring. -/
  | iMark (e : Nat)
  /-- GATE (R196): Opens or closes the cluster gate with a chosen T, or has the decision refused. -/
  | iGate (e : Nat)
  /-- MUARM (R196): Issues an arm event to an MU with a chosen T. -/
  | iMuarm (e : Nat)
  /-- NOTE (R196): Posts a Carver notice carrying ra and rb. -/
  | iNote (e : Nat)
  /-- HALT (R199): Halts the engine with cause 0x02 and the instruction's code. -/
  | iHalt (e : Nat)
  /-- ILLEGAL_INSTRUCTION (R184): An illegal word issues and the engine halts with cause 0x03. -/
  | illegalInstruction (e : Nat)
  /-- PC_OVERRUN (R186): The PC would advance past 4,095 and the engine halts with cause 0x06. -/
  | pcOverrun (e : Nat)
  /-- CV_START (R201): A write of CV_CTRL.START starts a halted or never-started engine at START_PC. -/
  | cvStart (a : Access) (e : Nat) (v : W32)
  /-- CV_HALT (R199): A write of CV_CTRL.HALT halts a running engine with cause 0x01 within 8 cycles. -/
  | cvHalt (a : Access) (e : Nat) (v : W32)
  /-- CV_LOAD_IMEM (R200): The command loads instruction-memory words of a halted engine. -/
  | cvLoadImem (c : Command)
  /-- CV_LOAD_LMEM (R200): The command loads local-memory bytes of a halted engine. -/
  | cvLoadLmem (c : Command)
  /-- CV_READ_LMEM (R200): The command copies local-memory bytes of a halted engine to the host. -/
  | cvReadLmem (c : Command)
  /-- CV_SUBSCRIBE (R200): The command replaces a port's subscription and recomputes the cluster's sets. -/
  | cvSubscribe (c : Command)
  /-- CV_DEC_LAT_MAX_CLR (R189): A write of CV_DEC_LAT_MAX.CLR sets MAX to 0. -/
  | cvDecLatMaxClr (a : Access) (e : Nat) (v : W32)
  /-- CC_IN_PEAK_CLR (R206): A write of CC_IN_OCC.PEAK_CLR sets PEAK to the current occupancy. -/
  | ccInPeakClr (a : Access) (c : Nat) (v : W32)
  /-- CC_DQ_PEAK_CLR (R210): A write of CC_DQ_OCC.PEAK_CLR sets PEAK to the current occupancy. -/
  | ccDqPeakClr (a : Access) (d : Nat) (v : W32)
  /-- CC_FAB_WAIT_MAX_CLR (R212): A write of CC_FAB_WAIT_MAX.CLR sets MAX and SRC to 0. -/
  | ccFabWaitMaxClr (a : Access) (v : W32)
  /-- OVERRIDE_APPLY (R336): A DRIVE, host or trigger override takes effect at its sample if the pin's enable bit is set, or lapses and is counted. -/
  | overrideApply (p : Nat)
  /-- OVERRIDE_PULSE_END (R336): A pulse override's sample count runs out and the pin's override returns to none. -/
  | overridePulseEnd (p : Nat)
  /-- JUMP_REQUEST_ARRIVAL (R332): A jump request from PJUMP, a trigger or a GATE pin sets a sequencer slot latch. -/
  | jumpRequestArrival (q : Nat)
  /-- MARK_ARRIVAL (R229): A mark request reaches a capture ring, which sets the mark, or ignores it and counts it. -/
  | markArrival (r : Nat)
  /-- CLUSTER_GATE_ARRIVAL (R213): A cluster gate event reaches the MUs and lane-group assemblers. -/
  | clusterGateArrival (c : Nat)
  /-- MUARM_ARRIVAL (R158): A Carver arm event reaches its MU and is taken at the frontier if it is late. -/
  | muarmArrival (u : Nat)
  /-- MC_TRAIN (R218): A write of MC_CMD.TRAIN trains a channel with MC_ORG. -/
  | mcTrain (a : Access) (n : Nat) (v : W32)
  /-- CHANNEL_TRAIN_COMPLETE (R218): Training of a channel ends trained or with TRAIN_FAIL. -/
  | channelTrainComplete (n : Nat) (ok : Bool) (size : Nat)
  /-- MC_RETIRE (R235): A write of MC_CMD.RETIRE powers the channel down, or is refused while the channel is in use. -/
  | mcRetire (a : Access) (n : Nat) (v : W32)
  /-- SCRUB_READ (R220): Patrol scrub reads a block and writes back a corrected word. -/
  | scrubRead (n : Nat) (blk : Nat) (errs : List (Nat × Bool))
  /-- CR_START (R224): A write of CR_CMD.START starts a capture ring, or is refused. -/
  | crStart (a : Access) (r : Nat) (v : W32)
  /-- CR_STOP (R225): A write of CR_CMD.STOP ends the ring's role as a destination. -/
  | crStop (a : Access) (r : Nat) (v : W32)
  /-- CR_MARK (R229): A host write of CR_CMD.MARK requests a rewind mark. -/
  | crMark (a : Access) (r : Nat) (v : W32)
  /-- CR_RELEASE (R232): A write of CR_CMD.RELEASE clears the mark and the stall. -/
  | crRelease (a : Access) (r : Nat) (v : W32)
  /-- CR_REPLAY (R233): A write of CR_CMD.REPLAY starts a replay from the mark into an export stream, or is refused. -/
  | crReplay (a : Access) (r : Nat) (v : W32)
  /-- CR_MIGRATE (R234): A write of CR_CMD.MIGRATE starts moving a running ring to a new region. -/
  | crMigrate (a : Access) (r : Nat) (v : W32)
  /-- RING_WRITE (R226): The ring writer takes an entry from a source and writes a tile, placeholder, fill or ring note to DDR5. -/
  | ringWrite (r : Nat)
  /-- REPLAY_SLOT_READ (R233): The replay reader reads one slot and delivers a tile, a gap entry or a reservation, ending the replay when the range is covered. -/
  | replaySlotRead (r : Nat) (errs : List (Nat × Bool))
  /-- MIGRATION_COPY (R234): The copier copies an unwritten slot into the new region. -/
  | migrationCopy (r : Nat) (errs : List (Nat × Bool))
  /-- PACKER_TAKE_ITEM (R239): An encoder takes a tile or entry from a stream source, verifies it, encodes it into the open block, and handles reservations, fills and drops. -/
  | packerTakeItem (h : Nat) (rep : Bool) (flip : Nat)
  /-- PK_FLUSH_EXPIRY (R240): FLUSH µs after its first item, the open block closes. -/
  | pkFlushExpiry (h : Nat)
  /-- PK_RATIO_UPDATE (R258): Every 1 ms, PK_RATIO reports the ratio achieved over the last complete interval. -/
  | pkRatioUpdate (h : Nat)
  /-- BUFFER_IDLE_TIMEOUT (R275): 100 µs after its latest block, with no block open, a buffer is completed with PARTIAL. -/
  | bufferIdleTimeout (h : Nat)
  /-- HI_RING_START (R264): A write of HI_RING_CMD.START starts a host ring, or is refused. -/
  | hiRingStart (a : Access) (r : Nat) (v : W32)
  /-- HI_RING_STOP (R265): A write of HI_RING_CMD.STOP sets STOPPING. -/
  | hiRingStop (a : Access) (r : Nat) (v : W32)
  /-- RING_STOPPED (R265): A stopping ring finishes as its kind requires and writes its final device index. -/
  | ringStopped (r : Nat)
  /-- DOORBELL_FETCH (R268): The device reads a function's doorbell block, checks each index and adjusts the fetch interval. -/
  | doorbellFetch (f : Nat) (ok : Bool) (slots : List (Nat × Nat)) (bad : List Nat) (bufs : List (Nat × List (List Byte)))
  /-- HI_KICK (R268): A write of HI_KICK starts a doorbell fetch and resets the interval. -/
  | hiKick (a : Access) (f : Nat) (v : W32)
  /-- NOP (R272): The command does nothing and completes. -/
  | nop (c : Command)
  /-- UNKNOWN_OPCODE (R271): A descriptor with an unlisted opcode or a nonzero reserved field is refused with code 0x02. -/
  | unknownOpcode (c : Command)
  /-- PG_SEG_LOAD (R324): The command writes segment data into a sequencer's store region. -/
  | pgSegLoad (c : Command)
  /-- PG_SEQ_LOAD (R326): The command writes sequence entries in one SCLK word, or is refused. -/
  | pgSeqLoad (c : Command)
  /-- EP_FRAME_LAUNCH (R316): The command queues a host frame for a timed launch, or is refused when the queue or frame buffer is full. -/
  | epFrameLaunch (c : Command)
  /-- COMPLETION_SLOT_WRITE (R269): The device writes a ring's new index to the completion block after the entries it covers. -/
  | completionSlotWrite (r : Nat) (fail : Option Nat)
  /-- MSIX_RAISE (R276): A ring raises its MSI-X vector after a device-index advance. -/
  | msixRaise (r : Nat)
  /-- INTERRUPT_MOD_EXPIRY (R276): When the moderation time ends, a deferred vector is raised. -/
  | interruptModExpiry (r : Nat)
  /-- NOTICE_WRITE (R278): A queued notice held for HOLD µs is written to the notice ring, preceded by an overflow notice when one is due. -/
  | noticeWrite (f : Nat) (ok : Bool)
  /-- FUNCTION_LEVEL_RESET (R282): A Function Level Reset stops the function's rings, clears its doorbell setup and empties its notice queue. -/
  | functionLevelReset (f : Nat)
  /-- PCIE_HOT_RESET (R402): A hot or link-down reset resets HI and IR of every function and the link retrains. -/
  | pcieHotReset (width : Nat) (speed : Nat)
  /-- REGISTER_WRITE (R9): A whole-register write to a register with no row of its own takes effect by field type, with ownership and grd checks. -/
  | registerWrite (a : Access) (off : Nat) (v : W32)
  /-- NARROW_WRITE (R286): A write with partial byte enables is dropped, counted and logged. -/
  | narrowWrite (a : Access) (off : Nat) (be : Nat) (v : W32)
  /-- OVERSIZE_ACCESS (R286): An oversize or unaligned request is refused: a read completes with Unsupported Request, a write is dropped and logged. -/
  | oversizeAccess (a : Access) (off : Nat) (be : Nat) (isWrite : Bool)
  /-- ALIAS_WRITE (R293): A write to a bit alias acts on one bit according to its field type. -/
  | aliasWrite (a : Access) (off : Nat) (v : W32)
  /-- GUARD_OPEN (R291): A write to guard offset 0xF000 + 4k opens a guarded pair, faulting any pair already open. -/
  | guardOpen (a : Access) (blk : Nat) (k : Nat) (v : W32)
  /-- GUARD_CLOSE (R291): A write to guard offset 0xF100 + 4k completes the pair and writes the grd register, or counts a fault. -/
  | guardClose (a : Access) (blk : Nat) (k : Nat) (v : W32)
  /-- GUARD_TIMEOUT (R291): An open pair not closed within 250 BCLK cycles is discarded with a fault. -/
  | guardTimeout (blk : Nat)
  /-- MQ_SCAN_REF_WRITE (R300): A guarded write of MQ_SCAN_REF sets REF_SET and clears REF_STALE. -/
  | mqScanRefWrite (a : Access) (v : W32)
  /-- MQ_UNVEIL (R295): A write of MQ_UNVEIL.MASK issues a register Unveil strobe. -/
  | mqUnveil (a : Access) (v : W32)
  /-- UNVEIL_PIN_STROBE (R295): A falling edge of UNVEIL_N issues a strobe with MQ_PIN_CFG.MASK. -/
  | unveilPinStrobe
  /-- PARTNER_STROBE (R295): A strobe carried from the pair partner is applied at its T, or late with PAIR_LATE. -/
  | partnerStrobe
  /-- UNVEIL_LATCH (R296): At its arrival cycle a block latches the Maquette of each unit in the mask into the committed set, superseding a pending one. -/
  | unveilLatch (u : UBlock)
  /-- COMMITTED_SET_APPLY (R296): A block applies a unit's committed set at its application boundary. -/
  | committedSetApply (u : UBlock)
  /-- INTEGRITY_SCAN_END (R300): An integrity scan ends and is void, compared with MQ_SCAN_REF, or left uncompared. -/
  | integrityScanEnd
  /-- PTP_SYNC_RECEIVE (R303): An accepted Sync yields an offset; the servo issues ADJ and judges lock, discontinuity, quarantine end or anchor. -/
  | ptpSyncReceive (fr : Frame)
  /-- PTP_FOLLOW_UP_RECEIVE (R303): A Follow_Up supplies the master send time of a two-step Sync. -/
  | ptpFollowUpReceive (fr : Frame)
  /-- PTP_DELAY_RESP_RECEIVE (R303): A Delay_Resp yields a delay sample, which may declare a delay step or path change, or is discarded when it does not match. -/
  | ptpDelayRespReceive (fr : Frame)
  /-- PTP_ANNOUNCE_RECEIVE (R310): An Announce feeds the BMCA and may change the parent. -/
  | ptpAnnounceReceive (fr : Frame)
  /-- DELAY_REQ_SEND (R305): At a random interval the slave port sends a one-step Delay_Req. -/
  | delayReqSend (ahead : Nat)
  /-- SYNC_LOSS_TIMEOUT (R306): No accepted Sync for LOSS_N intervals puts the servo in HOLDOVER. -/
  | syncLossTimeout
  /-- TP_ANCHOR (R309): A write of TP_CMD.ANCHOR in AWAIT issues the confirmed anchor. -/
  | tpAnchor (a : Access) (v : W32)
  /-- TP_RESTART (R308): A write of TP_CMD.RESTART enters ACQUIRING and keeps ADJ and the anchors. -/
  | tpRestart (a : Access) (v : W32)
  /-- PTP_FORWARD (R314): The transparent clock queues a received PTP message for the other port, or drops it when the queue is full. -/
  | ptpForward (fr : Frame)
  /-- FRAME_TRANSMIT (R315): A port starts the highest-priority frame that ends before the next launch, correcting a forwarded event message. -/
  | frameTransmit (p : Nat) (ahead : Nat)
  /-- FRAME_LAUNCH (R316): At its launch instant the head of the launch queue is sent, or dropped as late or link-down. -/
  | frameLaunch (p : Nat)
  /-- EP_FLUSH (R316): A write of EP_CMD.FLUSH drops every queued launch. -/
  | epFlush (a : Access) (p : Nat) (v : W32)
  /-- EP_LINK_RESET (R319): A write of EP_CMD.LINK_RESET restarts the PCS, so the link goes down and retrains. -/
  | epLinkReset (a : Access) (p : Nat) (v : W32)
  /-- ETH_LINK_CHANGE (R306): An Ethernet link goes up or down, which may put the servo in holdover. -/
  | ethLinkChange (p : Nat) (up : Bool)
  /-- PPS_OUT_RISE (R317): PPS_OUT rises at a due instant, or the edge is skipped and counted. -/
  | ppsOutRise
  /-- PPS_OUT_FALL (R317): PPS_OUT falls WIDTH × 10 µs after it rose. -/
  | ppsOutFall
  /-- PPS_IN_EDGE (R318): A qualified rising edge of PPS_IN is stamped into TP_PPSIN_T. -/
  | ppsInEdge
  /-- GATE_PIN_EDGE (R157): A GATE pin level change is a gate open or close event, feeding markers, windows, MUs and jump requests. -/
  | gatePinEdge (pin : Nat) (level : Bool)
  /-- PG_START (R327): A write of PG_CMD.START sets START_PEND and begins refill, or is refused. -/
  | pgStart (a : Access) (q : Nat) (v : W32)
  /-- SEQUENCER_FIRST_SAMPLE (R327): The first sample plays at the first word at or after PG_START_T. -/
  | sequencerFirstSample (q : Nat)
  /-- PG_STOP (R328): A write of PG_CMD.STOP stops play and clears the latches. -/
  | pgStop (a : Access) (q : Nat) (v : W32)
  /-- PG_CLRREQ (R332): A write of PG_CMD.CLRREQ clears every jump latch. -/
  | pgClrreq (a : Access) (q : Nat) (v : W32)
  /-- PG_JUMP (R332): A host write of a PG_CMD.JUMP bit requests a jump slot. -/
  | pgJump (a : Access) (q : Nat) (v : W32)
  /-- PG_STORE_CLAIM (R323): A write of PG_STORE_CFG.EN = 1 claims a segment-store region, or is refused. -/
  | pgStoreClaim (a : Access) (q : Nat) (v : W32)
  /-- PG_STORE_RELEASE (R323): A write of PG_STORE_CFG.EN = 0 releases the region unless the sequencer runs. -/
  | pgStoreRelease (a : Access) (q : Nat) (v : W32)
  /-- PG_OVR_CMD (R336): A write of PG_OVR_CMD.GO requests a host override, or is refused when the enable bit is clear. -/
  | pgOvrCmd (a : Access) (v : W32)
  /-- COMMIT_POINT (R333): At the commit word an instance takes its latched requests, fixes the next instance and counts jumps and discards. -/
  | commitPoint (q : Nat)
  /-- SEGMENT_BOUNDARY (R329): An instance begins: play continues, resumes after starvation, or the sequencer stops. -/
  | segmentBoundary (q : Nat)
  /-- GRANULE_STARVE (R334): A granule is not in the cache when due, so the pins take their STARVE levels and refill skips to the next instance. -/
  | granuleStarve (q : Nat)
  /-- REFILL_READ (R331): The refill engine fetches granules into the main or head buffers. -/
  | refillRead (q : Nat) (errs : List (Nat × Bool))
  /-- TT_ARM (R340): A write of TT_CTRL.ARM arms a time trigger, or is refused. -/
  | ttArm (a : Access) (t : Nat) (v : W32)
  /-- TT_DISARM (R342): A write of TT_CTRL.DISARM disarms a trigger and closes a gate it opened. -/
  | ttDisarm (a : Access) (t : Nat) (v : W32)
  /-- TRIGGER_FIRE (R340): A due trigger fires and acts on its target, or fires late. -/
  | triggerFire (t : Nat)
  /-- TRIGGER_GATE_CLOSE (R342): A trigger's gate closes at fire T + ARG, or at the end of its last period. -/
  | triggerGateClose (t : Nat)
  /-- TT_HOST_GATE_OPEN (R344): A write of TT_HOST_GATE.OPEN opens the host gate. -/
  | ttHostGateOpen (a : Access) (v : W32)
  /-- TT_HOST_GATE_CLOSE (R344): A write of TT_HOST_GATE.CLOSE closes the host gate. -/
  | ttHostGateClose (a : Access) (v : W32)
  /-- MA_REF_ENABLE (R356): A write of MA_REF.EN turns the reference buffer on, or off, which stops running converters. -/
  | maRefEnable (a : Access) (v : W32)
  /-- MA_REF_READY (R356): READY sets 2 ms after the buffer is enabled. -/
  | maRefReady
  /-- MA_SELFCAL (R357): A write of MA_CMD.SELFCAL starts self-calibration, or is refused. -/
  | maSelfcal (a : Access) (c : Nat) (v : W32)
  /-- MA_SELFCAL_COMPLETE (R357): Self-calibration ends after 3.1 ms and writes OFS, GAIN and CAL_DONE. -/
  | maSelfcalComplete (c : Nat) (ofs : BitVec 10) (gain : BitVec 16)
  /-- MA_START (R358): A write of MA_CMD.START starts the converter's sequence, or is refused. -/
  | maStart (a : Access) (c : Nat) (v : W32)
  /-- MA_STOP (R358): A write of MA_CMD.STOP abandons the current execution. -/
  | maStop (a : Access) (c : Nat) (v : W32)
  /-- MA_EXECUTION_END (R348): An execution forms its value and delivers it to its accumulator and window comparator, cross-checking when selected. -/
  | maExecutionEnd (x0 : List Int) (x1 : List Int)
  /-- MA_ACC_SNAP (R352): A write of MA_ACC_CFG.SNAP publishes and restarts an accumulator. -/
  | maAccSnap (a : Access) (n : Nat) (v : W32)
  /-- MA_ACC_CLR (R352): A write of MA_ACC_CFG.CLR restarts an accumulator without publishing. -/
  | maAccClr (a : Access) (n : Nat) (v : W32)
  /-- MA_WIN_ENABLE (R354): A write of MA_WIN_CFG.EN = 1 sets the comparator to state IN. -/
  | maWinEnable (a : Access) (n : Nat) (v : W32)
  /-- CAST_LINK_TRAIN (R362): The cast link trains, exchanges identities and reports up or down. -/
  | castLinkTrain (lanes : Nat) (lat : Nat) (p : Identity)
  /-- LINK_RETRANSMIT (R362): A cast-link frame is retransmitted until it is received. -/
  | linkRetransmit
  /-- HEARTBEAT_SEND (R363): Every 64 XCLK cycles a device sends a heartbeat. -/
  | heartbeatSend
  /-- HEARTBEAT_RECEIVE (R363): A received heartbeat is checked against local T, and a yield heartbeat counts as loss. -/
  | heartbeatReceive (h : Heartbeat)
  /-- HEARTBEAT_LOSS (R365): No valid heartbeat for 2 µs declares heartbeat loss. -/
  | heartbeatLoss
  /-- OWN_IN_CHANGE (R364): The OWN_IN level changes, which bears on roles and take-over. -/
  | ownInChange (level : Bool)
  /-- TAKEOVER (R366): A ready standby with heartbeat loss and OWN_IN low for 2 µs takes over at one PCLK edge. -/
  | takeover
  /-- PR_YIELD (R367): A write of PR_CMD.YIELD leaves the active role. -/
  | prYield (a : Access) (v : W32)
  /-- PR_FORCE (R367): A guarded write of 0x1 to PR_FORCE on an aligned standby forces a take-over. -/
  | prForce (a : Access) (v : W32)
  /-- PR_ALIGN (R373): A write of PR_CMD.ALIGN starts alignment on a standby, or is refused. -/
  | prAlign (a : Access) (v : W32) (adj : BitVec 48)
  /-- ALIGN_OFFSET_DONE (R373): The first 2^P pulse pairs give the mean difference, and the origin load is made. -/
  | alignOffsetDone (x : Pulses)
  /-- ALIGN_COMPLETE (R373): The residual is measured and ALIGNED is set. -/
  | alignComplete (x : Pulses)
  /-- PR_MEASURE (R375): A write of PR_CMD.MEASURE measures a lane's static offset without loading T. -/
  | prMeasure (a : Access) (v : W32)
  /-- PR_RESYNC (R369): A write of PR_CMD.RESYNC marks every Cast line as changed. -/
  | prResync (a : Access) (v : W32)
  /-- CAST_START (R369): The active starts a Cast every CAST_PERIOD µs. -/
  | castStart
  /-- CAST_END_RECEIVE (R369): The standby applies a complete Cast when its end word arrives. -/
  | castEndReceive (x : Cast)
  /-- PAIR_EVENT_RECEIVE (R368): The standby applies a mirrored event: Maquette write, strobe, ADJ, anchor, decision or commit outcome. -/
  | pairEventReceive (ev : PairEvent)
  /-- SPLICE_WP_RECORD (R379): At each multiple of 2^26 ticks, each splice ring records its WP. -/
  | spliceWpRecord
  /-- CUT_PLACE (R378): A group's cut finder places a cut at a quiet gap, which later becomes its frontier. -/
  | cutPlace (g : Nat)
  /-- AR_PROG_CMD (R394): A guarded write of 0x1 to AR_PROG_CMD starts a fuse programming run, or is refused. -/
  | arProgCmd (a : Access) (v : W32)
  /-- FUSE_PROG_COMPLETE (R393): A programming run senses the row into AR_PROG_VERIFY and writes the outcome. -/
  | fuseProgComplete (blown : W32)
  /-- FUSE_VPP_CHANGE (R393): FUSE_VPP enters or leaves its range, setting VPP_OK after 1 ms or aborting a run. -/
  | fuseVppChange (inRange : Bool)
  /-- MT_SRST_DEVICE (R402): A guarded write of MT_SRST.DEVICE resets the device as RST_N does. -/
  | mtSrstDevice (a : Access) (v : W32)
  /-- MT_SRST_DATAPATH (R403): A guarded write of MT_SRST.DATAPATH flushes every buffer, halts engines and disarms MUs. -/
  | mtSrstDatapath (a : Access) (v : W32)
  /-- DATAPATH_FLUSH_END (R403): The 2 µs flush ends and DATAPATH reads 0. -/
  | datapathFlushEnd
  /-- MT_SLEEP (R405): A guarded write of 0x1 to MT_SLEEP requests sleep, or is refused. -/
  | mtSleep (a : Access) (v : W32)
  /-- SLEEP_ENTRY (R405): At the entry edge, N_e, T_e, F_e and ADJ_e are recorded and the device powers down to Mitten. -/
  | sleepEntry
  /-- WAKE_EVENT (R407): A wake comparator, the alarm or WAKE_N ends sleep and start-up repeats. -/
  | wakeEvent (wcmp : List WakeStep) (pin : Bool) (b : Boot)
  /-- PLINTH_RESUME (R410): At P_r, T resumes from T_e plus the counted sleep, and sleep-gap markers are issued. -/
  | plinthResume
  /-- REF_LOSS (R404): Mitten loses REF and switches WCLK to the low-power oscillator. -/
  | refLoss
  /-- REF_RESTORE (R404): After REF has been stable for 1 ms while awake, WCLK switches back to REF/4. -/
  | refRestore
  /-- LPO_CAL_WINDOW (R404): At the end of each 2^22-cycle window the oscillator ratio is updated and LPO_CAL is set. -/
  | lpoCalWindow (ratio : Nat)
  /-- GL_STALL_MAX_CLR (R288): A write of GL_STALL_MAX.CLR sets NS and BLOCK to 0. -/
  | glStallMaxClr (a : Access) (v : W32)
  /-- VAON_BELOW_THRESHOLD (R397): VAON falls below its monitor threshold, so the power-on detector holds the device in reset and the Mitten island loses power. -/
  | vaonBelowThreshold
  /-- CAST_LINK_DROP (R362): The cast link drops, or loses lanes and runs narrower, setting PR_STAT.LINK_DOWN and posting notice 0x1302. -/
  | castLinkDrop (lanes : Nat)
  /-- CAST_END (R369): On the active device, a Cast ends with its end word sent; the Cast is counted and its duration recorded, CAST_LAG is judged, and a next Cast that was overdue may start. -/
  | castEnd
  /-- ALIGN_PULSE_TIMEOUT (R373): An ALIGN or MEASURE that has not collected its pulses within 1 s ends with PR_ALIGN_STAT.OUTCOME 3. -/
  | alignPulseTimeout
  /-- MEASURE_COMPLETE (R375): A MEASURE on an aligned standby ends after its pulse pairs and writes the mean difference into PR_ALIGN_RES without loading T. -/
  | measureComplete (x : Pulses)
  /-- ETH_FRAME_RECEIVE (R301): An Ethernet port receives a frame that is not an accepted Sync, Follow_Up, Delay_Resp, Announce or forwarded message: it is counted, a bad FCS sets FCS_ERR, and an unsupported PTP message is discarded and counted in TP_DISC_CNT. -/
  | ethFrameReceive (fr : Frame)
  deriving DecidableEq, Repr

end Sys2Proof
end

