-- ==== Sys2Proof/Config.lean ====
section
/-! DEFINITION. What the manual leaves open: constants with no value, which a meaning applies to the counter of free values
in State or to the operands, so that no proof can rest on one. -/

namespace Sys2Proof.Config

/-- Which of the PCLK edges between 4 ns and 8 ns before its ECLK cycle a cluster's copy of T shows in one reading (R190), from the
latest of them on; there are six or seven. -/
opaque copyLag : Nat → Fin 7

/-- How many PCLK edges, from 0 to 16, the capture rings' copy of T lags in a mark notice (R229: at most 10 ns). -/
opaque markLag : Nat → Fin 17

/-- Which binary64 value within 1 ulp of the exact one a result stated so takes (R168, R172): 0 the value below, 1 the
nearest, 2 the value above, of those that lie within 1 ulp. -/
opaque ulpPick : Nat → Fin 3

/-- A word that no correct read has given: the bytes of a descriptor that could not be read (R273), or the data of an
uncorrectable DDR5 word (R219); also another value that the model takes from what nothing here fixes: segment data after a failed load
(R273), fuse bits of an interrupted run (R394), a random interval (R305), the ADJ of an active that has sent none (R373). -/
opaque badWord : Nat → W64

/-- Whether WAKE_N is low when a request to sleep arrives (R405, R407); no command brings the level of that pin. -/
opaque wakePinLow : Nat → Bool

/-- A byte of a flash slot whose write stopped before COMMIT (R91), by its offset. -/
opaque tornByte : Nat → Nat → Byte

end Sys2Proof.Config
end

