-- ==== Sys2Proof/Machine/RegMap.lean ====
section
/-! DEFINITION. The register maps of the manual (files 00 to 20 of spec/): every register that a map names, its offset
into BAR0, its fields with their types and reset values, and one name per field.  `FTy` is the table *Field types* of R9;
the LO/HI pairing is R289. -/

namespace Sys2Proof.Machine

/-- The field types of R9. -/
inductive FTy where
  | cfg | live | ro | sts | cnt | cmd | grd
  deriving DecidableEq, Repr

/-- Whether a register is half of a LO/HI pair (R289). -/
inductive Half where
  | none | lo | hi
  deriving DecidableEq, Repr

/-- One field of a register map: its bits, its type and its value after reset (R12). -/
structure RField where
  msb : Nat
  lsb : Nat
  ty  : FTy
  rst : Nat
  deriving DecidableEq, Repr

/-- One row of a register map: an array of `n1` × `n2` registers at `base` with strides `s1` and `s2`. -/
structure RegRow where
  base : Nat
  n1 : Nat
  s1 : Nat
  n2 : Nat
  s2 : Nat
  half : Half
  fields : List RField
  deriving DecidableEq, Repr

/-- A field of one register: the register's offset into BAR0 and the field's bits. -/
structure Fld where
  off : Nat
  msb : Nat
  lsb : Nat
  deriving DecidableEq, Repr

/-! ## Block 0, GL -/

/-- `GL_IDENT` (00_scope.md): offset into BAR0. -/
def GL_IDENT.off : Nat := 0x0
def GL_IDENT.FAMILY : Fld := ⟨GL_IDENT.off, 31, 16⟩
def GL_IDENT.VARIANT : Fld := ⟨GL_IDENT.off, 15, 8⟩
def GL_IDENT.REV_MAJOR : Fld := ⟨GL_IDENT.off, 7, 4⟩
def GL_IDENT.REV_MINOR : Fld := ⟨GL_IDENT.off, 3, 0⟩
/-- `GL_ACC_STAT` (14_register_behaviour.md): offset into BAR0. -/
def GL_ACC_STAT.off : Nat := 0x4
def GL_ACC_STAT.OVERSIZE : Fld := ⟨GL_ACC_STAT.off, 2, 2⟩
def GL_ACC_STAT.GUARD : Fld := ⟨GL_ACC_STAT.off, 1, 1⟩
def GL_ACC_STAT.NARROW : Fld := ⟨GL_ACC_STAT.off, 0, 0⟩
/-- `GL_NARROW_CNT` (14_register_behaviour.md): offset into BAR0. -/
def GL_NARROW_CNT.off : Nat := 0x8
def GL_NARROW_CNT.COUNT : Fld := ⟨GL_NARROW_CNT.off, 31, 0⟩
/-- `GL_NARROW_LOG` (14_register_behaviour.md): offset into BAR0. -/
def GL_NARROW_LOG.off : Nat := 0xC
def GL_NARROW_LOG.FUNC : Fld := ⟨GL_NARROW_LOG.off, 31, 29⟩
def GL_NARROW_LOG.OVERSIZE : Fld := ⟨GL_NARROW_LOG.off, 28, 28⟩
def GL_NARROW_LOG.BE : Fld := ⟨GL_NARROW_LOG.off, 25, 22⟩
def GL_NARROW_LOG.OFFSET : Fld := ⟨GL_NARROW_LOG.off, 21, 0⟩
/-- `GL_GUARD_CNT` (14_register_behaviour.md): offset into BAR0. -/
def GL_GUARD_CNT.off : Nat := 0x10
def GL_GUARD_CNT.COUNT : Fld := ⟨GL_GUARD_CNT.off, 31, 0⟩
/-- `GL_GUARD_LOG` (14_register_behaviour.md): offset into BAR0. -/
def GL_GUARD_LOG.off : Nat := 0x14
def GL_GUARD_LOG.FUNC : Fld := ⟨GL_GUARD_LOG.off, 26, 24⟩
def GL_GUARD_LOG.CAUSE : Fld := ⟨GL_GUARD_LOG.off, 23, 21⟩
def GL_GUARD_LOG.BLOCK : Fld := ⟨GL_GUARD_LOG.off, 20, 16⟩
def GL_GUARD_LOG.OFFSET : Fld := ⟨GL_GUARD_LOG.off, 15, 0⟩
/-- `GL_STALL_MAX` (14_register_behaviour.md): offset into BAR0. -/
def GL_STALL_MAX.off : Nat := 0x18
def GL_STALL_MAX.CLR : Fld := ⟨GL_STALL_MAX.off, 31, 31⟩
def GL_STALL_MAX.BLOCK : Fld := ⟨GL_STALL_MAX.off, 20, 16⟩
def GL_STALL_MAX.NS : Fld := ⟨GL_STALL_MAX.off, 15, 0⟩

/-- The register map of block 0 (GL). -/
def regsGL : List RegRow :=
[
   ⟨0x0, 1, 4, 1, 4, .none, [⟨31, 16, .ro, 3953⟩, ⟨15, 8, .ro, 0⟩, ⟨7, 4, .ro, 1⟩, ⟨3, 0, .ro, 1⟩]⟩,
   ⟨0x4, 1, 4, 1, 4, .none, [⟨2, 2, .sts, 0⟩, ⟨1, 1, .sts, 0⟩, ⟨0, 0, .sts, 0⟩]⟩,
   ⟨0x8, 1, 4, 1, 4, .none, [⟨31, 0, .cnt, 0⟩]⟩,
   ⟨0xC, 1, 4, 1, 4, .none, [⟨31, 29, .ro, 0⟩, ⟨28, 28, .ro, 0⟩, ⟨25, 22, .ro, 0⟩, ⟨21, 0, .ro, 0⟩]⟩,
   ⟨0x10, 1, 4, 1, 4, .none, [⟨31, 0, .cnt, 0⟩]⟩,
   ⟨0x14, 1, 4, 1, 4, .none, [⟨26, 24, .ro, 0⟩, ⟨23, 21, .ro, 0⟩, ⟨20, 16, .ro, 0⟩, ⟨15, 0, .ro, 0⟩]⟩,
   ⟨0x18, 1, 4, 1, 4, .none, [⟨31, 31, .cmd, 0⟩, ⟨20, 16, .ro, 0⟩, ⟨15, 0, .ro, 0⟩]⟩]

/-! ## Block 1, AR -/

/-- `AR_STAT` (19_armature_partitions.md): offset into BAR0. -/
def AR_STAT.off : Nat := 0x10000
def AR_STAT.BUSY_IGN : Fld := ⟨AR_STAT.off, 4, 4⟩
def AR_STAT.PROG_BUSY : Fld := ⟨AR_STAT.off, 3, 3⟩
def AR_STAT.VPP_OK : Fld := ⟨AR_STAT.off, 2, 2⟩
def AR_STAT.FINAL : Fld := ⟨AR_STAT.off, 1, 1⟩
def AR_STAT.LOADED : Fld := ⟨AR_STAT.off, 0, 0⟩
/-- `AR_SHADOW_SEL` (19_armature_partitions.md): offset into BAR0. -/
def AR_SHADOW_SEL.off : Nat := 0x10004
def AR_SHADOW_SEL.ROW : Fld := ⟨AR_SHADOW_SEL.off, 6, 0⟩
/-- `AR_SHADOW_DATA` (19_armature_partitions.md): offset into BAR0. -/
def AR_SHADOW_DATA.off : Nat := 0x10008
def AR_SHADOW_DATA.BITS : Fld := ⟨AR_SHADOW_DATA.off, 31, 0⟩
/-- `AR_PROG_ROW` (19_armature_partitions.md): offset into BAR0. -/
def AR_PROG_ROW.off : Nat := 0x10010
def AR_PROG_ROW.ROW : Fld := ⟨AR_PROG_ROW.off, 6, 0⟩
/-- `AR_PROG_DATA` (19_armature_partitions.md): offset into BAR0. -/
def AR_PROG_DATA.off : Nat := 0x10014
def AR_PROG_DATA.BITS : Fld := ⟨AR_PROG_DATA.off, 31, 0⟩
/-- `AR_PROG_CMD` (19_armature_partitions.md): offset into BAR0. -/
def AR_PROG_CMD.off : Nat := 0x10018
def AR_PROG_CMD.KEY : Fld := ⟨AR_PROG_CMD.off, 31, 0⟩
/-- `AR_PROG_RES` (19_armature_partitions.md): offset into BAR0. -/
def AR_PROG_RES.off : Nat := 0x1001C
def AR_PROG_RES.OUTCOME : Fld := ⟨AR_PROG_RES.off, 2, 0⟩
/-- `AR_PROG_VERIFY` (19_armature_partitions.md): offset into BAR0. -/
def AR_PROG_VERIFY.off : Nat := 0x10020
def AR_PROG_VERIFY.BITS : Fld := ⟨AR_PROG_VERIFY.off, 31, 0⟩
/-- `AR_FN_STAT` (19_armature_partitions.md): offset into BAR0. -/
def AR_FN_STAT.off : Nat := 0x10024
def AR_FN_STAT.RIGHTS : Fld := ⟨AR_FN_STAT.off, 4, 4⟩
def AR_FN_STAT.PART : Fld := ⟨AR_FN_STAT.off, 2, 0⟩
/-- `AR_OWN_FAULT_CNT` (19_armature_partitions.md): offset into BAR0. -/
def AR_OWN_FAULT_CNT.off : Nat := 0x10028
def AR_OWN_FAULT_CNT.COUNT : Fld := ⟨AR_OWN_FAULT_CNT.off, 31, 0⟩
/-- `AR_OWN_LOG` (19_armature_partitions.md): offset into BAR0. -/
def AR_OWN_LOG.off : Nat := 0x1002C
def AR_OWN_LOG.FUNC : Fld := ⟨AR_OWN_LOG.off, 31, 29⟩
def AR_OWN_LOG.OFFSET : Fld := ⟨AR_OWN_LOG.off, 21, 0⟩

/-- The register map of block 1 (AR). -/
def regsAR : List RegRow :=
[
   ⟨0x10000, 1, 4, 1, 4, .none, [⟨4, 4, .sts, 0⟩, ⟨3, 3, .ro, 0⟩, ⟨2, 2, .ro, 0⟩, ⟨1, 1, .ro, 0⟩, ⟨0, 0, .ro, 0⟩]⟩,
   ⟨0x10004, 1, 4, 1, 4, .none, [⟨6, 0, .live, 4⟩]⟩,
   ⟨0x10008, 1, 4, 1, 4, .none, [⟨31, 0, .ro, 0⟩]⟩,
   ⟨0x10010, 1, 4, 1, 4, .none, [⟨6, 0, .grd, 0⟩]⟩,
   ⟨0x10014, 1, 4, 1, 4, .none, [⟨31, 0, .grd, 0⟩]⟩,
   ⟨0x10018, 1, 4, 1, 4, .none, [⟨31, 0, .grd, 0⟩]⟩,
   ⟨0x1001C, 1, 4, 1, 4, .none, [⟨2, 0, .ro, 0⟩]⟩,
   ⟨0x10020, 1, 4, 1, 4, .none, [⟨31, 0, .ro, 0⟩]⟩,
   ⟨0x10024, 1, 4, 1, 4, .none, [⟨4, 4, .ro, 0⟩, ⟨2, 0, .ro, 0⟩]⟩,
   ⟨0x10028, 1, 4, 1, 4, .none, [⟨31, 0, .cnt, 0⟩]⟩,
   ⟨0x1002C, 1, 4, 1, 4, .none, [⟨31, 29, .ro, 0⟩, ⟨21, 0, .ro, 0⟩]⟩]

/-! ## Block 2, MQ -/

/-- `MQ_UNVEIL` (14_register_behaviour.md): offset into BAR0. -/
def MQ_UNVEIL.off : Nat := 0x20000
def MQ_UNVEIL.MASK : Fld := ⟨MQ_UNVEIL.off, 15, 0⟩
/-- `MQ_PIN_CFG` (14_register_behaviour.md): offset into BAR0. -/
def MQ_PIN_CFG.off : Nat := 0x20004
def MQ_PIN_CFG.EN : Fld := ⟨MQ_PIN_CFG.off, 31, 31⟩
def MQ_PIN_CFG.MASK : Fld := ⟨MQ_PIN_CFG.off, 15, 0⟩
/-- `MQ_PAIR_CFG` (14_register_behaviour.md): offset into BAR0. -/
def MQ_PAIR_CFG.off : Nat := 0x20008
def MQ_PAIR_CFG.SEND : Fld := ⟨MQ_PAIR_CFG.off, 31, 16⟩
def MQ_PAIR_CFG.ACCEPT : Fld := ⟨MQ_PAIR_CFG.off, 15, 0⟩
/-- `MQ_STAT` (14_register_behaviour.md): offset into BAR0. -/
def MQ_STAT.off : Nat := 0x2000C
def MQ_STAT.PENDING : Fld := ⟨MQ_STAT.off, 31, 16⟩
def MQ_STAT.PAIR_LATE : Fld := ⟨MQ_STAT.off, 1, 1⟩
def MQ_STAT.SUPERSEDED : Fld := ⟨MQ_STAT.off, 0, 0⟩
/-- `MQ_LAST_T_LO` (14_register_behaviour.md): offset into BAR0. -/
def MQ_LAST_T_LO.off : Nat := 0x20010
def MQ_LAST_T_LO.T : Fld := ⟨MQ_LAST_T_LO.off, 31, 0⟩
/-- `MQ_LAST_T_HI` (14_register_behaviour.md): offset into BAR0. -/
def MQ_LAST_T_HI.off : Nat := 0x20014
def MQ_LAST_T_HI.T : Fld := ⟨MQ_LAST_T_HI.off, 31, 0⟩
/-- `MQ_LAST` (14_register_behaviour.md): offset into BAR0. -/
def MQ_LAST.off : Nat := 0x20018
def MQ_LAST.SEQ : Fld := ⟨MQ_LAST.off, 31, 24⟩
def MQ_LAST.SRC : Fld := ⟨MQ_LAST.off, 17, 16⟩
def MQ_LAST.MASK : Fld := ⟨MQ_LAST.off, 15, 0⟩
/-- `MQ_SUPERSEDE_CNT` (14_register_behaviour.md): offset into BAR0. -/
def MQ_SUPERSEDE_CNT.off : Nat := 0x2001C
def MQ_SUPERSEDE_CNT.COUNT : Fld := ⟨MQ_SUPERSEDE_CNT.off, 31, 0⟩
/-- `MQ_VIEW` (14_register_behaviour.md): offset into BAR0. -/
def MQ_VIEW.off : Nat := 0x20020
def MQ_VIEW.COMMITTED : Fld := ⟨MQ_VIEW.off, 0, 0⟩
/-- `MQ_SCAN_REF` (14_register_behaviour.md): offset into BAR0. -/
def MQ_SCAN_REF.off : Nat := 0x20030
def MQ_SCAN_REF.REF : Fld := ⟨MQ_SCAN_REF.off, 31, 0⟩
/-- `MQ_SCAN_LAST` (14_register_behaviour.md): offset into BAR0. -/
def MQ_SCAN_LAST.off : Nat := 0x20034
def MQ_SCAN_LAST.CRC : Fld := ⟨MQ_SCAN_LAST.off, 31, 0⟩
/-- `MQ_SCAN_STAT` (14_register_behaviour.md): offset into BAR0. -/
def MQ_SCAN_STAT.off : Nat := 0x20038
def MQ_SCAN_STAT.SEQ : Fld := ⟨MQ_SCAN_STAT.off, 31, 24⟩
def MQ_SCAN_STAT.VOID : Fld := ⟨MQ_SCAN_STAT.off, 3, 3⟩
def MQ_SCAN_STAT.REF_STALE : Fld := ⟨MQ_SCAN_STAT.off, 2, 2⟩
def MQ_SCAN_STAT.MISMATCH : Fld := ⟨MQ_SCAN_STAT.off, 1, 1⟩
def MQ_SCAN_STAT.REF_SET : Fld := ⟨MQ_SCAN_STAT.off, 0, 0⟩
/-- `MQ_SCAN_MISMATCH_CNT` (14_register_behaviour.md): offset into BAR0. -/
def MQ_SCAN_MISMATCH_CNT.off : Nat := 0x20040
def MQ_SCAN_MISMATCH_CNT.COUNT : Fld := ⟨MQ_SCAN_MISMATCH_CNT.off, 31, 0⟩
/-- `MQ_SCAN_VOID_CNT` (14_register_behaviour.md): offset into BAR0. -/
def MQ_SCAN_VOID_CNT.off : Nat := 0x20044
def MQ_SCAN_VOID_CNT.COUNT : Fld := ⟨MQ_SCAN_VOID_CNT.off, 31, 0⟩
/-- `MQ_UG` (14_register_behaviour.md): offset into BAR0. -/
def MQ_UG.off (k : Nat) : Nat := 0x20100 + 4 * k
def MQ_UG.GROUP (k : Nat) : Fld := ⟨MQ_UG.off k, 31, 0⟩

/-- The register map of block 2 (MQ). -/
def regsMQ : List RegRow :=
[
   ⟨0x20000, 1, 4, 1, 4, .none, [⟨15, 0, .cmd, 0⟩]⟩,
   ⟨0x20004, 1, 4, 1, 4, .none, [⟨31, 31, .live, 0⟩, ⟨15, 0, .live, 0⟩]⟩,
   ⟨0x20008, 1, 4, 1, 4, .none, [⟨31, 16, .live, 0⟩, ⟨15, 0, .live, 0⟩]⟩,
   ⟨0x2000C, 1, 4, 1, 4, .none, [⟨31, 16, .ro, 0⟩, ⟨1, 1, .sts, 0⟩, ⟨0, 0, .sts, 0⟩]⟩,
   ⟨0x20010, 1, 4, 1, 4, .lo, [⟨31, 0, .ro, 0⟩]⟩,
   ⟨0x20014, 1, 4, 1, 4, .hi, [⟨31, 0, .ro, 0⟩]⟩,
   ⟨0x20018, 1, 4, 1, 4, .none, [⟨31, 24, .ro, 0⟩, ⟨17, 16, .ro, 0⟩, ⟨15, 0, .ro, 0⟩]⟩,
   ⟨0x2001C, 1, 4, 1, 4, .none, [⟨31, 0, .cnt, 0⟩]⟩,
   ⟨0x20020, 1, 4, 1, 4, .none, [⟨0, 0, .live, 0⟩]⟩,
   ⟨0x20030, 1, 4, 1, 4, .none, [⟨31, 0, .grd, 0⟩]⟩,
   ⟨0x20034, 1, 4, 1, 4, .none, [⟨31, 0, .ro, 0⟩]⟩,
   ⟨0x20038, 1, 4, 1, 4, .none, [⟨31, 24, .ro, 0⟩, ⟨3, 3, .ro, 0⟩, ⟨2, 2, .ro, 0⟩, ⟨1, 1, .sts, 0⟩, ⟨0, 0, .ro, 0⟩]⟩]
  ++ [
   ⟨0x20040, 1, 4, 1, 4, .none, [⟨31, 0, .cnt, 0⟩]⟩,
   ⟨0x20044, 1, 4, 1, 4, .none, [⟨31, 0, .cnt, 0⟩]⟩,
   ⟨0x20100, 29, 4, 1, 4, .none, [⟨31, 0, .live, 0⟩]⟩]

/-! ## Block 3, HI -/

/-- `HI_RING_BASE_LO` (13_host_rings.md): offset into BAR0. -/
def HI_RING_BASE_LO.off (r : Nat) : Nat := 0x30000 + 64 * r
def HI_RING_BASE_LO.ADDR (r : Nat) : Fld := ⟨HI_RING_BASE_LO.off r, 31, 0⟩
/-- `HI_RING_BASE_HI` (13_host_rings.md): offset into BAR0. -/
def HI_RING_BASE_HI.off (r : Nat) : Nat := 0x30004 + 64 * r
def HI_RING_BASE_HI.ADDR (r : Nat) : Fld := ⟨HI_RING_BASE_HI.off r, 31, 0⟩
/-- `HI_RING_CFG` (13_host_rings.md): offset into BAR0. -/
def HI_RING_CFG.off (r : Nat) : Nat := 0x30008 + 64 * r
def HI_RING_CFG.KIND (r : Nat) : Fld := ⟨HI_RING_CFG.off r, 30, 29⟩
def HI_RING_CFG.VEC (r : Nat) : Fld := ⟨HI_RING_CFG.off r, 28, 24⟩
def HI_RING_CFG.SIZE_LOG2 (r : Nat) : Fld := ⟨HI_RING_CFG.off r, 23, 20⟩
def HI_RING_CFG.PAIR (r : Nat) : Fld := ⟨HI_RING_CFG.off r, 19, 14⟩
def HI_RING_CFG.FUNC (r : Nat) : Fld := ⟨HI_RING_CFG.off r, 13, 11⟩
def HI_RING_CFG.MOD (r : Nat) : Fld := ⟨HI_RING_CFG.off r, 7, 0⟩
/-- `HI_RING_CMD` (13_host_rings.md): offset into BAR0. -/
def HI_RING_CMD.off (r : Nat) : Nat := 0x3000C + 64 * r
def HI_RING_CMD.START (r : Nat) : Fld := ⟨HI_RING_CMD.off r, 31, 31⟩
def HI_RING_CMD.STOP (r : Nat) : Fld := ⟨HI_RING_CMD.off r, 30, 30⟩
/-- `HI_RING_STAT` (13_host_rings.md): offset into BAR0. -/
def HI_RING_STAT.off (r : Nat) : Nat := 0x30010 + 64 * r
def HI_RING_STAT.DMA_ERR (r : Nat) : Fld := ⟨HI_RING_STAT.off r, 11, 11⟩
def HI_RING_STAT.DESC_ERR (r : Nat) : Fld := ⟨HI_RING_STAT.off r, 10, 10⟩
def HI_RING_STAT.IDX_ERR (r : Nat) : Fld := ⟨HI_RING_STAT.off r, 9, 9⟩
def HI_RING_STAT.REF (r : Nat) : Fld := ⟨HI_RING_STAT.off r, 8, 8⟩
def HI_RING_STAT.WAIT (r : Nat) : Fld := ⟨HI_RING_STAT.off r, 2, 2⟩
def HI_RING_STAT.STOPPING (r : Nat) : Fld := ⟨HI_RING_STAT.off r, 1, 1⟩
def HI_RING_STAT.RUNNING (r : Nat) : Fld := ⟨HI_RING_STAT.off r, 0, 0⟩
/-- `HI_RING_IDX` (13_host_rings.md): offset into BAR0. -/
def HI_RING_IDX.off (r : Nat) : Nat := 0x30014 + 64 * r
def HI_RING_IDX.HOST (r : Nat) : Fld := ⟨HI_RING_IDX.off r, 31, 16⟩
def HI_RING_IDX.DEV (r : Nat) : Fld := ⟨HI_RING_IDX.off r, 15, 0⟩
/-- `HI_DB_BASE_LO` (13_host_rings.md): offset into BAR0. -/
def HI_DB_BASE_LO.off (f : Nat) : Nat := 0x32000 + 64 * f
def HI_DB_BASE_LO.ADDR (f : Nat) : Fld := ⟨HI_DB_BASE_LO.off f, 31, 0⟩
/-- `HI_DB_BASE_HI` (13_host_rings.md): offset into BAR0. -/
def HI_DB_BASE_HI.off (f : Nat) : Nat := 0x32004 + 64 * f
def HI_DB_BASE_HI.ADDR (f : Nat) : Fld := ⟨HI_DB_BASE_HI.off f, 31, 0⟩
/-- `HI_CB_BASE_LO` (13_host_rings.md): offset into BAR0. -/
def HI_CB_BASE_LO.off (f : Nat) : Nat := 0x32008 + 64 * f
def HI_CB_BASE_LO.ADDR (f : Nat) : Fld := ⟨HI_CB_BASE_LO.off f, 31, 0⟩
/-- `HI_CB_BASE_HI` (13_host_rings.md): offset into BAR0. -/
def HI_CB_BASE_HI.off (f : Nat) : Nat := 0x3200C + 64 * f
def HI_CB_BASE_HI.ADDR (f : Nat) : Fld := ⟨HI_CB_BASE_HI.off f, 31, 0⟩
/-- `HI_DB_CFG` (13_host_rings.md): offset into BAR0. -/
def HI_DB_CFG.off (f : Nat) : Nat := 0x32010 + 64 * f
def HI_DB_CFG.EN (f : Nat) : Fld := ⟨HI_DB_CFG.off f, 31, 31⟩
def HI_DB_CFG.IDLE_N (f : Nat) : Fld := ⟨HI_DB_CFG.off f, 23, 16⟩
def HI_DB_CFG.ACTIVE (f : Nat) : Fld := ⟨HI_DB_CFG.off f, 15, 0⟩
/-- `HI_KICK` (13_host_rings.md): offset into BAR0. -/
def HI_KICK.off (f : Nat) : Nat := 0x32014 + 64 * f
def HI_KICK.KICK (f : Nat) : Fld := ⟨HI_KICK.off f, 0, 0⟩
/-- `HI_FN_STAT` (13_host_rings.md): offset into BAR0. -/
def HI_FN_STAT.off (f : Nat) : Nat := 0x32018 + 64 * f
def HI_FN_STAT.DMA_ERR (f : Nat) : Fld := ⟨HI_FN_STAT.off f, 1, 1⟩
def HI_FN_STAT.IDLE (f : Nat) : Fld := ⟨HI_FN_STAT.off f, 0, 0⟩
/-- `HI_LINK_STAT` (13_host_rings.md): offset into BAR0. -/
def HI_LINK_STAT.off : Nat := 0x33000
def HI_LINK_STAT.LANE_REV : Fld := ⟨HI_LINK_STAT.off, 16, 16⟩
def HI_LINK_STAT.WIDTH : Fld := ⟨HI_LINK_STAT.off, 9, 4⟩
def HI_LINK_STAT.SPEED : Fld := ⟨HI_LINK_STAT.off, 3, 0⟩

/-- The register map of block 3 (HI). -/
def regsHI : List RegRow :=
[
   ⟨0x30000, 64, 64, 1, 4, .lo, [⟨31, 0, .live, 0⟩]⟩,
   ⟨0x30004, 64, 64, 1, 4, .hi, [⟨31, 0, .live, 0⟩]⟩,
   ⟨0x30008, 64, 64, 1, 4, .none, [⟨30, 29, .live, 0⟩, ⟨28, 24, .live, 0⟩, ⟨23, 20, .live, 0⟩, ⟨19, 14, .live, 0⟩, ⟨13, 11, .ro, 0⟩, ⟨7, 0, .live, 0⟩]⟩,
   ⟨0x3000C, 64, 64, 1, 4, .none, [⟨31, 31, .cmd, 0⟩, ⟨30, 30, .cmd, 0⟩]⟩,
   ⟨0x30010, 64, 64, 1, 4, .none, [⟨11, 11, .sts, 0⟩, ⟨10, 10, .sts, 0⟩, ⟨9, 9, .sts, 0⟩, ⟨8, 8, .sts, 0⟩, ⟨2, 2, .ro, 0⟩, ⟨1, 1, .ro, 0⟩, ⟨0, 0, .ro, 0⟩]⟩,
   ⟨0x30014, 64, 64, 1, 4, .none, [⟨31, 16, .ro, 0⟩, ⟨15, 0, .ro, 0⟩]⟩,
   ⟨0x32000, 8, 64, 1, 4, .lo, [⟨31, 0, .live, 0⟩]⟩,
   ⟨0x32004, 8, 64, 1, 4, .hi, [⟨31, 0, .live, 0⟩]⟩,
   ⟨0x32008, 8, 64, 1, 4, .lo, [⟨31, 0, .live, 0⟩]⟩,
   ⟨0x3200C, 8, 64, 1, 4, .hi, [⟨31, 0, .live, 0⟩]⟩,
   ⟨0x32010, 8, 64, 1, 4, .none, [⟨31, 31, .live, 0⟩, ⟨23, 16, .live, 16⟩, ⟨15, 0, .live, 50⟩]⟩,
   ⟨0x32014, 8, 64, 1, 4, .none, [⟨0, 0, .cmd, 0⟩]⟩]
  ++ [
   ⟨0x32018, 8, 64, 1, 4, .none, [⟨1, 1, .sts, 0⟩, ⟨0, 0, .ro, 0⟩]⟩,
   ⟨0x33000, 1, 4, 1, 4, .none, [⟨16, 16, .ro, 0⟩, ⟨9, 4, .ro, 0⟩, ⟨3, 0, .ro, 0⟩]⟩]

/-! ## Block 4, PL -/

/-- `PL_CTRL` (05_plinth_time_base.md): offset into BAR0. -/
def PL_CTRL.off : Nat := 0x40000
def PL_CTRL.ORIGIN_WAIT : Fld := ⟨PL_CTRL.off, 2, 2⟩
def PL_CTRL.NOTICE_EN : Fld := ⟨PL_CTRL.off, 1, 1⟩
def PL_CTRL.RATE_SRC : Fld := ⟨PL_CTRL.off, 0, 0⟩
/-- `PL_STAT` (05_plinth_time_base.md): offset into BAR0. -/
def PL_STAT.off : Nat := 0x40004
def PL_STAT.ORIGIN_REFUSED : Fld := ⟨PL_STAT.off, 6, 6⟩
def PL_STAT.ORIGIN_LOADED : Fld := ⟨PL_STAT.off, 5, 5⟩
def PL_STAT.EMITTED : Fld := ⟨PL_STAT.off, 4, 4⟩
def PL_STAT.CLAMPED : Fld := ⟨PL_STAT.off, 3, 3⟩
def PL_STAT.PLL_UNLOCKED : Fld := ⟨PL_STAT.off, 2, 2⟩
def PL_STAT.PLL_LOCK : Fld := ⟨PL_STAT.off, 1, 1⟩
def PL_STAT.RUNNING : Fld := ⟨PL_STAT.off, 0, 0⟩
/-- `PL_ADJ_SET_LO` (05_plinth_time_base.md): offset into BAR0. -/
def PL_ADJ_SET_LO.off : Nat := 0x40008
def PL_ADJ_SET_LO.ADJ : Fld := ⟨PL_ADJ_SET_LO.off, 31, 0⟩
/-- `PL_ADJ_SET_HI` (05_plinth_time_base.md): offset into BAR0. -/
def PL_ADJ_SET_HI.off : Nat := 0x4000C
def PL_ADJ_SET_HI.ADJ : Fld := ⟨PL_ADJ_SET_HI.off, 15, 0⟩
/-- `PL_ADJ_LO` (05_plinth_time_base.md): offset into BAR0. -/
def PL_ADJ_LO.off : Nat := 0x40010
def PL_ADJ_LO.ADJ : Fld := ⟨PL_ADJ_LO.off, 31, 0⟩
/-- `PL_ADJ_HI` (05_plinth_time_base.md): offset into BAR0. -/
def PL_ADJ_HI.off : Nat := 0x40014
def PL_ADJ_HI.SEQ : Fld := ⟨PL_ADJ_HI.off, 31, 24⟩
def PL_ADJ_HI.ADJ : Fld := ⟨PL_ADJ_HI.off, 15, 0⟩
/-- `PL_ADJ_T_LO` (05_plinth_time_base.md): offset into BAR0. -/
def PL_ADJ_T_LO.off : Nat := 0x40018
def PL_ADJ_T_LO.T : Fld := ⟨PL_ADJ_T_LO.off, 31, 0⟩
/-- `PL_ADJ_T_HI` (05_plinth_time_base.md): offset into BAR0. -/
def PL_ADJ_T_HI.off : Nat := 0x4001C
def PL_ADJ_T_HI.T : Fld := ⟨PL_ADJ_T_HI.off, 31, 0⟩
/-- `PL_ADJ_CNT` (05_plinth_time_base.md): offset into BAR0. -/
def PL_ADJ_CNT.off : Nat := 0x40020
def PL_ADJ_CNT.COUNT : Fld := ⟨PL_ADJ_CNT.off, 31, 0⟩
/-- `PL_PLL_UNLOCK_CNT` (05_plinth_time_base.md): offset into BAR0. -/
def PL_PLL_UNLOCK_CNT.off : Nat := 0x40024
def PL_PLL_UNLOCK_CNT.COUNT : Fld := ⟨PL_PLL_UNLOCK_CNT.off, 15, 0⟩
/-- `PL_EPOCH` (05_plinth_time_base.md): offset into BAR0. -/
def PL_EPOCH.off : Nat := 0x40028
def PL_EPOCH.EPOCH : Fld := ⟨PL_EPOCH.off, 31, 0⟩
/-- `PL_SNAP_CTRL` (05_plinth_time_base.md): offset into BAR0. -/
def PL_SNAP_CTRL.off : Nat := 0x40040
def PL_SNAP_CTRL.GO : Fld := ⟨PL_SNAP_CTRL.off, 31, 31⟩
def PL_SNAP_CTRL.CANCEL : Fld := ⟨PL_SNAP_CTRL.off, 30, 30⟩
def PL_SNAP_CTRL.SRC : Fld := ⟨PL_SNAP_CTRL.off, 1, 0⟩
/-- `PL_SNAP_STAT` (05_plinth_time_base.md): offset into BAR0. -/
def PL_SNAP_STAT.off : Nat := 0x40044
def PL_SNAP_STAT.SRC_USED : Fld := ⟨PL_SNAP_STAT.off, 9, 8⟩
def PL_SNAP_STAT.SEQ : Fld := ⟨PL_SNAP_STAT.off, 7, 0⟩
/-- `PL_SNAP_T0` (05_plinth_time_base.md): offset into BAR0. -/
def PL_SNAP_T0.off : Nat := 0x40048
def PL_SNAP_T0.T : Fld := ⟨PL_SNAP_T0.off, 31, 0⟩
/-- `PL_SNAP_T1` (05_plinth_time_base.md): offset into BAR0. -/
def PL_SNAP_T1.off : Nat := 0x4004C
def PL_SNAP_T1.T : Fld := ⟨PL_SNAP_T1.off, 31, 0⟩
/-- `PL_SNAP_T2` (05_plinth_time_base.md): offset into BAR0. -/
def PL_SNAP_T2.off : Nat := 0x40050
def PL_SNAP_T2.T : Fld := ⟨PL_SNAP_T2.off, 31, 0⟩
/-- `PL_SNAP_T3` (05_plinth_time_base.md): offset into BAR0. -/
def PL_SNAP_T3.off : Nat := 0x40054
def PL_SNAP_T3.T : Fld := ⟨PL_SNAP_T3.off, 7, 0⟩
/-- `PL_SNAP_FRAC_LO` (05_plinth_time_base.md): offset into BAR0. -/
def PL_SNAP_FRAC_LO.off : Nat := 0x40058
def PL_SNAP_FRAC_LO.F : Fld := ⟨PL_SNAP_FRAC_LO.off, 31, 0⟩
/-- `PL_SNAP_FRAC_HI` (05_plinth_time_base.md): offset into BAR0. -/
def PL_SNAP_FRAC_HI.off : Nat := 0x4005C
def PL_SNAP_FRAC_HI.F : Fld := ⟨PL_SNAP_FRAC_HI.off, 7, 0⟩
/-- `PL_SNAP_ADJ_LO` (05_plinth_time_base.md): offset into BAR0. -/
def PL_SNAP_ADJ_LO.off : Nat := 0x40060
def PL_SNAP_ADJ_LO.ADJ : Fld := ⟨PL_SNAP_ADJ_LO.off, 31, 0⟩
/-- `PL_SNAP_ADJ_HI` (05_plinth_time_base.md): offset into BAR0. -/
def PL_SNAP_ADJ_HI.off : Nat := 0x40064
def PL_SNAP_ADJ_HI.ADJ : Fld := ⟨PL_SNAP_ADJ_HI.off, 15, 0⟩

/-- The register map of block 4 (PL). -/
def regsPL : List RegRow :=
[
   ⟨0x40000, 1, 4, 1, 4, .none, [⟨2, 2, .live, 0⟩, ⟨1, 1, .live, 1⟩, ⟨0, 0, .live, 0⟩]⟩,
   ⟨0x40004, 1, 4, 1, 4, .none, [⟨6, 6, .sts, 0⟩, ⟨5, 5, .sts, 0⟩, ⟨4, 4, .ro, 0⟩, ⟨3, 3, .sts, 0⟩, ⟨2, 2, .sts, 0⟩, ⟨1, 1, .ro, 0⟩, ⟨0, 0, .ro, 0⟩]⟩,
   ⟨0x40008, 1, 4, 1, 4, .lo, [⟨31, 0, .live, 0⟩]⟩,
   ⟨0x4000C, 1, 4, 1, 4, .hi, [⟨15, 0, .live, 0⟩]⟩,
   ⟨0x40010, 1, 4, 1, 4, .lo, [⟨31, 0, .ro, 0⟩]⟩,
   ⟨0x40014, 1, 4, 1, 4, .hi, [⟨31, 24, .ro, 0⟩, ⟨15, 0, .ro, 0⟩]⟩,
   ⟨0x40018, 1, 4, 1, 4, .lo, [⟨31, 0, .ro, 0⟩]⟩,
   ⟨0x4001C, 1, 4, 1, 4, .hi, [⟨31, 0, .ro, 0⟩]⟩,
   ⟨0x40020, 1, 4, 1, 4, .none, [⟨31, 0, .cnt, 0⟩]⟩,
   ⟨0x40024, 1, 4, 1, 4, .none, [⟨15, 0, .cnt, 0⟩]⟩,
   ⟨0x40028, 1, 4, 1, 4, .none, [⟨31, 0, .ro, 0⟩]⟩,
   ⟨0x40040, 1, 4, 1, 4, .none, [⟨31, 31, .cmd, 0⟩, ⟨30, 30, .cmd, 0⟩, ⟨1, 0, .live, 0⟩]⟩]
  ++ [
   ⟨0x40044, 1, 4, 1, 4, .none, [⟨9, 8, .ro, 0⟩, ⟨7, 0, .ro, 0⟩]⟩,
   ⟨0x40048, 1, 4, 1, 4, .none, [⟨31, 0, .ro, 0⟩]⟩,
   ⟨0x4004C, 1, 4, 1, 4, .none, [⟨31, 0, .ro, 0⟩]⟩,
   ⟨0x40050, 1, 4, 1, 4, .none, [⟨31, 0, .ro, 0⟩]⟩,
   ⟨0x40054, 1, 4, 1, 4, .none, [⟨7, 0, .ro, 0⟩]⟩,
   ⟨0x40058, 1, 4, 1, 4, .lo, [⟨31, 0, .ro, 0⟩]⟩,
   ⟨0x4005C, 1, 4, 1, 4, .hi, [⟨7, 0, .ro, 0⟩]⟩,
   ⟨0x40060, 1, 4, 1, 4, .lo, [⟨31, 0, .ro, 0⟩]⟩,
   ⟨0x40064, 1, 4, 1, 4, .hi, [⟨15, 0, .ro, 0⟩]⟩]

/-! ## Block 5, TP -/

/-- `TP_CFG` (15_network_time.md): offset into BAR0. -/
def TP_CFG.off : Nat := 0x50000
def TP_CFG.EN : Fld := ⟨TP_CFG.off, 31, 31⟩
def TP_CFG.TC_EN : Fld := ⟨TP_CFG.off, 30, 30⟩
def TP_CFG.SLAVE_PORT : Fld := ⟨TP_CFG.off, 29, 29⟩
def TP_CFG.AUTO_ANCHOR : Fld := ⟨TP_CFG.off, 28, 28⟩
def TP_CFG.BMCA : Fld := ⟨TP_CFG.off, 27, 27⟩
def TP_CFG.NOTICE_EN : Fld := ⟨TP_CFG.off, 26, 26⟩
def TP_CFG.MAJOR_SDO : Fld := ⟨TP_CFG.off, 23, 20⟩
def TP_CFG.MINOR_SDO : Fld := ⟨TP_CFG.off, 15, 8⟩
def TP_CFG.DOMAIN : Fld := ⟨TP_CFG.off, 7, 0⟩
/-- `TP_SERVO` (15_network_time.md): offset into BAR0. -/
def TP_SERVO.off : Nat := 0x50004
def TP_SERVO.LOCK_N : Fld := ⟨TP_SERVO.off, 31, 24⟩
def TP_SERVO.DFILT : Fld := ⟨TP_SERVO.off, 23, 20⟩
def TP_SERVO.KI : Fld := ⟨TP_SERVO.off, 18, 14⟩
def TP_SERVO.KP : Fld := ⟨TP_SERVO.off, 13, 10⟩
def TP_SERVO.LOCK_THR : Fld := ⟨TP_SERVO.off, 9, 0⟩
/-- `TP_THR` (15_network_time.md): offset into BAR0. -/
def TP_THR.off : Nat := 0x50008
def TP_THR.PATH_THR : Fld := ⟨TP_THR.off, 31, 16⟩
def TP_THR.STEP_THR : Fld := ⟨TP_THR.off, 15, 0⟩
/-- `TP_QUAR` (15_network_time.md): offset into BAR0. -/
def TP_QUAR.off : Nat := 0x5000C
def TP_QUAR.LOSS_N : Fld := ⟨TP_QUAR.off, 15, 8⟩
def TP_QUAR.QUAR : Fld := ⟨TP_QUAR.off, 7, 0⟩
/-- `TP_ASYM` (15_network_time.md): offset into BAR0. -/
def TP_ASYM.off : Nat := 0x50010
def TP_ASYM.A : Fld := ⟨TP_ASYM.off, 31, 0⟩
/-- `TP_CLOCK_ID_LO` (15_network_time.md): offset into BAR0. -/
def TP_CLOCK_ID_LO.off : Nat := 0x50014
def TP_CLOCK_ID_LO.ID : Fld := ⟨TP_CLOCK_ID_LO.off, 31, 0⟩
/-- `TP_CLOCK_ID_HI` (15_network_time.md): offset into BAR0. -/
def TP_CLOCK_ID_HI.off : Nat := 0x50018
def TP_CLOCK_ID_HI.ID : Fld := ⟨TP_CLOCK_ID_HI.off, 31, 0⟩
/-- `TP_PARENT_CFG0` (15_network_time.md): offset into BAR0. -/
def TP_PARENT_CFG0.off : Nat := 0x50020
def TP_PARENT_CFG0.ID : Fld := ⟨TP_PARENT_CFG0.off, 31, 0⟩
/-- `TP_PARENT_CFG1` (15_network_time.md): offset into BAR0. -/
def TP_PARENT_CFG1.off : Nat := 0x50024
def TP_PARENT_CFG1.ID : Fld := ⟨TP_PARENT_CFG1.off, 31, 0⟩
/-- `TP_PARENT_CFG2` (15_network_time.md): offset into BAR0. -/
def TP_PARENT_CFG2.off : Nat := 0x50028
def TP_PARENT_CFG2.ID : Fld := ⟨TP_PARENT_CFG2.off, 15, 0⟩
/-- `TP_CMD` (15_network_time.md): offset into BAR0. -/
def TP_CMD.off : Nat := 0x5002C
def TP_CMD.ANCHOR : Fld := ⟨TP_CMD.off, 31, 31⟩
def TP_CMD.RESTART : Fld := ⟨TP_CMD.off, 30, 30⟩
/-- `TP_STAT` (15_network_time.md): offset into BAR0. -/
def TP_STAT.off : Nat := 0x50030
def TP_STAT.PARENT_CHG : Fld := ⟨TP_STAT.off, 8, 8⟩
def TP_STAT.PATH_CHANGE : Fld := ⟨TP_STAT.off, 7, 7⟩
def TP_STAT.STEP : Fld := ⟨TP_STAT.off, 6, 6⟩
def TP_STAT.SYNC_LOST : Fld := ⟨TP_STAT.off, 5, 5⟩
def TP_STAT.ANCHORED : Fld := ⟨TP_STAT.off, 4, 4⟩
def TP_STAT.STATE : Fld := ⟨TP_STAT.off, 2, 0⟩
/-- `TP_OFFSET` (15_network_time.md): offset into BAR0. -/
def TP_OFFSET.off : Nat := 0x50034
def TP_OFFSET.VALUE : Fld := ⟨TP_OFFSET.off, 31, 0⟩
/-- `TP_DELAY` (15_network_time.md): offset into BAR0. -/
def TP_DELAY.off : Nat := 0x50038
def TP_DELAY.VALUE : Fld := ⟨TP_DELAY.off, 31, 0⟩
/-- `TP_PATH_STEP` (15_network_time.md): offset into BAR0. -/
def TP_PATH_STEP.off : Nat := 0x5003C
def TP_PATH_STEP.DELTA_D : Fld := ⟨TP_PATH_STEP.off, 31, 16⟩
def TP_PATH_STEP.DELTA_O : Fld := ⟨TP_PATH_STEP.off, 15, 0⟩
/-- `TP_PARENT0` (15_network_time.md): offset into BAR0. -/
def TP_PARENT0.off : Nat := 0x50040
def TP_PARENT0.ID : Fld := ⟨TP_PARENT0.off, 31, 0⟩
/-- `TP_PARENT1` (15_network_time.md): offset into BAR0. -/
def TP_PARENT1.off : Nat := 0x50044
def TP_PARENT1.ID : Fld := ⟨TP_PARENT1.off, 31, 0⟩
/-- `TP_PARENT2` (15_network_time.md): offset into BAR0. -/
def TP_PARENT2.off : Nat := 0x50048
def TP_PARENT2.ID : Fld := ⟨TP_PARENT2.off, 15, 0⟩
/-- `TP_ANCH_SEL` (15_network_time.md): offset into BAR0. -/
def TP_ANCH_SEL.off : Nat := 0x50050
def TP_ANCH_SEL.INDEX : Fld := ⟨TP_ANCH_SEL.off, 7, 0⟩
/-- `TP_ANCH_STAT` (15_network_time.md): offset into BAR0. -/
def TP_ANCH_STAT.off : Nat := 0x50054
def TP_ANCH_STAT.SEQ : Fld := ⟨TP_ANCH_STAT.off, 31, 24⟩
def TP_ANCH_STAT.LATEST : Fld := ⟨TP_ANCH_STAT.off, 23, 16⟩
def TP_ANCH_STAT.VALID : Fld := ⟨TP_ANCH_STAT.off, 4, 4⟩
def TP_ANCH_STAT.REASON : Fld := ⟨TP_ANCH_STAT.off, 3, 0⟩
/-- `TP_ANCH_T0` (15_network_time.md): offset into BAR0. -/
def TP_ANCH_T0.off : Nat := 0x50058
def TP_ANCH_T0.T : Fld := ⟨TP_ANCH_T0.off, 31, 0⟩
/-- `TP_ANCH_T1` (15_network_time.md): offset into BAR0. -/
def TP_ANCH_T1.off : Nat := 0x5005C
def TP_ANCH_T1.T : Fld := ⟨TP_ANCH_T1.off, 31, 0⟩
/-- `TP_ANCH_T2` (15_network_time.md): offset into BAR0. -/
def TP_ANCH_T2.off : Nat := 0x50060
def TP_ANCH_T2.T : Fld := ⟨TP_ANCH_T2.off, 31, 0⟩
/-- `TP_ANCH_T3` (15_network_time.md): offset into BAR0. -/
def TP_ANCH_T3.off : Nat := 0x50064
def TP_ANCH_T3.T : Fld := ⟨TP_ANCH_T3.off, 7, 0⟩
/-- `TP_ANCH_SEC_LO` (15_network_time.md): offset into BAR0. -/
def TP_ANCH_SEC_LO.off : Nat := 0x50068
def TP_ANCH_SEC_LO.VALUE : Fld := ⟨TP_ANCH_SEC_LO.off, 31, 0⟩
/-- `TP_ANCH_SEC_HI` (15_network_time.md): offset into BAR0. -/
def TP_ANCH_SEC_HI.off : Nat := 0x5006C
def TP_ANCH_SEC_HI.VALUE : Fld := ⟨TP_ANCH_SEC_HI.off, 31, 0⟩
/-- `TP_ANCH_NS` (15_network_time.md): offset into BAR0. -/
def TP_ANCH_NS.off : Nat := 0x50070
def TP_ANCH_NS.VALUE : Fld := ⟨TP_ANCH_NS.off, 31, 0⟩
/-- `TP_ANCH_FRAC` (15_network_time.md): offset into BAR0. -/
def TP_ANCH_FRAC.off : Nat := 0x50074
def TP_ANCH_FRAC.ADJ : Fld := ⟨TP_ANCH_FRAC.off, 31, 16⟩
def TP_ANCH_FRAC.FRAC : Fld := ⟨TP_ANCH_FRAC.off, 15, 0⟩
/-- `TP_ANCH_ADJ_LO` (15_network_time.md): offset into BAR0. -/
def TP_ANCH_ADJ_LO.off : Nat := 0x50078
def TP_ANCH_ADJ_LO.ADJ : Fld := ⟨TP_ANCH_ADJ_LO.off, 31, 0⟩
/-- `TP_PPS_CFG` (15_network_time.md): offset into BAR0. -/
def TP_PPS_CFG.off : Nat := 0x50080
def TP_PPS_CFG.OE : Fld := ⟨TP_PPS_CFG.off, 31, 31⟩
def TP_PPS_CFG.SRC : Fld := ⟨TP_PPS_CFG.off, 30, 30⟩
def TP_PPS_CFG.WIDTH : Fld := ⟨TP_PPS_CFG.off, 15, 0⟩
/-- `TP_PPS_PERIOD_LO` (15_network_time.md): offset into BAR0. -/
def TP_PPS_PERIOD_LO.off : Nat := 0x50084
def TP_PPS_PERIOD_LO.PERIOD : Fld := ⟨TP_PPS_PERIOD_LO.off, 31, 0⟩
/-- `TP_PPS_PERIOD_HI` (15_network_time.md): offset into BAR0. -/
def TP_PPS_PERIOD_HI.off : Nat := 0x50088
def TP_PPS_PERIOD_HI.PERIOD : Fld := ⟨TP_PPS_PERIOD_HI.off, 31, 0⟩
/-- `TP_PPSIN_T_LO` (15_network_time.md): offset into BAR0. -/
def TP_PPSIN_T_LO.off : Nat := 0x5008C
def TP_PPSIN_T_LO.T : Fld := ⟨TP_PPSIN_T_LO.off, 31, 0⟩
/-- `TP_PPSIN_T_HI` (15_network_time.md): offset into BAR0. -/
def TP_PPSIN_T_HI.off : Nat := 0x50090
def TP_PPSIN_T_HI.T : Fld := ⟨TP_PPSIN_T_HI.off, 31, 0⟩
/-- `TP_PPSIN_STAT` (15_network_time.md): offset into BAR0. -/
def TP_PPSIN_STAT.off : Nat := 0x50094
def TP_PPSIN_STAT.NOTICE_EN : Fld := ⟨TP_PPSIN_STAT.off, 31, 31⟩
def TP_PPSIN_STAT.SEQ : Fld := ⟨TP_PPSIN_STAT.off, 7, 0⟩
/-- `TP_SYNC_CNT` (15_network_time.md): offset into BAR0. -/
def TP_SYNC_CNT.off : Nat := 0x500A0
def TP_SYNC_CNT.COUNT : Fld := ⟨TP_SYNC_CNT.off, 31, 0⟩
/-- `TP_DREQ_CNT` (15_network_time.md): offset into BAR0. -/
def TP_DREQ_CNT.off : Nat := 0x500A4
def TP_DREQ_CNT.COUNT : Fld := ⟨TP_DREQ_CNT.off, 31, 0⟩
/-- `TP_DISC_CNT` (15_network_time.md): offset into BAR0. -/
def TP_DISC_CNT.off : Nat := 0x500A8
def TP_DISC_CNT.COUNT : Fld := ⟨TP_DISC_CNT.off, 31, 0⟩
/-- `TP_STEP_CNT` (15_network_time.md): offset into BAR0. -/
def TP_STEP_CNT.off : Nat := 0x500AC
def TP_STEP_CNT.COUNT : Fld := ⟨TP_STEP_CNT.off, 31, 0⟩
/-- `TP_PATH_CNT` (15_network_time.md): offset into BAR0. -/
def TP_PATH_CNT.off : Nat := 0x500B0
def TP_PATH_CNT.COUNT : Fld := ⟨TP_PATH_CNT.off, 31, 0⟩
/-- `TP_ANCHOR_CNT` (15_network_time.md): offset into BAR0. -/
def TP_ANCHOR_CNT.off : Nat := 0x500B4
def TP_ANCHOR_CNT.COUNT : Fld := ⟨TP_ANCHOR_CNT.off, 31, 0⟩
/-- `TP_PPS_SKIP_CNT` (15_network_time.md): offset into BAR0. -/
def TP_PPS_SKIP_CNT.off : Nat := 0x500B8
def TP_PPS_SKIP_CNT.COUNT : Fld := ⟨TP_PPS_SKIP_CNT.off, 31, 0⟩

/-- The register map of block 5 (TP). -/
def regsTP : List RegRow :=
[
   ⟨0x50000, 1, 4, 1, 4, .none, [⟨31, 31, .cfg, 0⟩, ⟨30, 30, .cfg, 0⟩, ⟨29, 29, .cfg, 0⟩, ⟨28, 28, .cfg, 1⟩, ⟨27, 27, .cfg, 1⟩, ⟨26, 26, .cfg, 1⟩, ⟨23, 20, .cfg, 0⟩, ⟨15, 8, .cfg, 0⟩, ⟨7, 0, .cfg, 0⟩]⟩,
   ⟨0x50004, 1, 4, 1, 4, .none, [⟨31, 24, .cfg, 16⟩, ⟨23, 20, .cfg, 4⟩, ⟨18, 14, .cfg, 6⟩, ⟨13, 10, .cfg, 2⟩, ⟨9, 0, .cfg, 100⟩]⟩,
   ⟨0x50008, 1, 4, 1, 4, .none, [⟨31, 16, .cfg, 32⟩, ⟨15, 0, .cfg, 1000⟩]⟩,
   ⟨0x5000C, 1, 4, 1, 4, .none, [⟨15, 8, .cfg, 4⟩, ⟨7, 0, .cfg, 16⟩]⟩,
   ⟨0x50010, 1, 4, 1, 4, .none, [⟨31, 0, .cfg, 0⟩]⟩,
   ⟨0x50014, 1, 4, 1, 4, .lo, [⟨31, 0, .cfg, 4261412864⟩]⟩,
   ⟨0x50018, 1, 4, 1, 4, .hi, [⟨31, 0, .cfg, 1381584127⟩]⟩,
   ⟨0x50020, 1, 4, 1, 4, .lo, [⟨31, 0, .cfg, 0⟩]⟩,
   ⟨0x50024, 1, 4, 1, 4, .hi, [⟨31, 0, .cfg, 0⟩]⟩,
   ⟨0x50028, 1, 4, 1, 4, .none, [⟨15, 0, .cfg, 0⟩]⟩,
   ⟨0x5002C, 1, 4, 1, 4, .none, [⟨31, 31, .cmd, 0⟩, ⟨30, 30, .cmd, 0⟩]⟩,
   ⟨0x50030, 1, 4, 1, 4, .none, [⟨8, 8, .sts, 0⟩, ⟨7, 7, .sts, 0⟩, ⟨6, 6, .sts, 0⟩, ⟨5, 5, .sts, 0⟩, ⟨4, 4, .ro, 0⟩, ⟨2, 0, .ro, 0⟩]⟩]
  ++ [
   ⟨0x50034, 1, 4, 1, 4, .none, [⟨31, 0, .ro, 0⟩]⟩,
   ⟨0x50038, 1, 4, 1, 4, .none, [⟨31, 0, .ro, 0⟩]⟩,
   ⟨0x5003C, 1, 4, 1, 4, .none, [⟨31, 16, .ro, 0⟩, ⟨15, 0, .ro, 0⟩]⟩,
   ⟨0x50040, 1, 4, 1, 4, .none, [⟨31, 0, .ro, 0⟩]⟩,
   ⟨0x50044, 1, 4, 1, 4, .none, [⟨31, 0, .ro, 0⟩]⟩,
   ⟨0x50048, 1, 4, 1, 4, .none, [⟨15, 0, .ro, 0⟩]⟩,
   ⟨0x50050, 1, 4, 1, 4, .none, [⟨7, 0, .live, 0⟩]⟩,
   ⟨0x50054, 1, 4, 1, 4, .none, [⟨31, 24, .ro, 0⟩, ⟨23, 16, .ro, 0⟩, ⟨4, 4, .ro, 0⟩, ⟨3, 0, .ro, 0⟩]⟩,
   ⟨0x50058, 1, 4, 1, 4, .none, [⟨31, 0, .ro, 0⟩]⟩,
   ⟨0x5005C, 1, 4, 1, 4, .none, [⟨31, 0, .ro, 0⟩]⟩,
   ⟨0x50060, 1, 4, 1, 4, .none, [⟨31, 0, .ro, 0⟩]⟩,
   ⟨0x50064, 1, 4, 1, 4, .none, [⟨7, 0, .ro, 0⟩]⟩]
  ++ [
   ⟨0x50068, 1, 4, 1, 4, .lo, [⟨31, 0, .ro, 0⟩]⟩,
   ⟨0x5006C, 1, 4, 1, 4, .hi, [⟨31, 0, .ro, 0⟩]⟩,
   ⟨0x50070, 1, 4, 1, 4, .none, [⟨31, 0, .ro, 0⟩]⟩,
   ⟨0x50074, 1, 4, 1, 4, .none, [⟨31, 16, .ro, 0⟩, ⟨15, 0, .ro, 0⟩]⟩,
   ⟨0x50078, 1, 4, 1, 4, .none, [⟨31, 0, .ro, 0⟩]⟩,
   ⟨0x50080, 1, 4, 1, 4, .none, [⟨31, 31, .cfg, 0⟩, ⟨30, 30, .cfg, 0⟩, ⟨15, 0, .cfg, 10000⟩]⟩,
   ⟨0x50084, 1, 4, 1, 4, .lo, [⟨31, 0, .cfg, 2017460224⟩]⟩,
   ⟨0x50088, 1, 4, 1, 4, .hi, [⟨31, 0, .cfg, 381⟩]⟩,
   ⟨0x5008C, 1, 4, 1, 4, .lo, [⟨31, 0, .ro, 0⟩]⟩,
   ⟨0x50090, 1, 4, 1, 4, .hi, [⟨31, 0, .ro, 0⟩]⟩,
   ⟨0x50094, 1, 4, 1, 4, .none, [⟨31, 31, .live, 0⟩, ⟨7, 0, .ro, 0⟩]⟩,
   ⟨0x500A0, 1, 4, 1, 4, .none, [⟨31, 0, .cnt, 0⟩]⟩]
  ++ [
   ⟨0x500A4, 1, 4, 1, 4, .none, [⟨31, 0, .cnt, 0⟩]⟩,
   ⟨0x500A8, 1, 4, 1, 4, .none, [⟨31, 0, .cnt, 0⟩]⟩,
   ⟨0x500AC, 1, 4, 1, 4, .none, [⟨31, 0, .cnt, 0⟩]⟩,
   ⟨0x500B0, 1, 4, 1, 4, .none, [⟨31, 0, .cnt, 0⟩]⟩,
   ⟨0x500B4, 1, 4, 1, 4, .none, [⟨31, 0, .cnt, 0⟩]⟩,
   ⟨0x500B8, 1, 4, 1, 4, .none, [⟨31, 0, .cnt, 0⟩]⟩]

/-! ## Block 6, EP -/

/-- `EP_CFG` (15_network_time.md): offset into BAR0. -/
def EP_CFG.off (p : Nat) : Nat := 0x60000 + 256 * p
def EP_CFG.EN (p : Nat) : Fld := ⟨EP_CFG.off p, 31, 31⟩
def EP_CFG.FEC (p : Nat) : Fld := ⟨EP_CFG.off p, 30, 30⟩
def EP_CFG.TRANSPORT (p : Nat) : Fld := ⟨EP_CFG.off p, 18, 16⟩
def EP_CFG.VLAN_EN (p : Nat) : Fld := ⟨EP_CFG.off p, 15, 15⟩
def EP_CFG.PCP (p : Nat) : Fld := ⟨EP_CFG.off p, 14, 12⟩
def EP_CFG.VID (p : Nat) : Fld := ⟨EP_CFG.off p, 11, 0⟩
/-- `EP_RX_DELAY` (15_network_time.md): offset into BAR0. -/
def EP_RX_DELAY.off (p : Nat) : Nat := 0x60004 + 256 * p
def EP_RX_DELAY.TICKS (p : Nat) : Fld := ⟨EP_RX_DELAY.off p, 19, 0⟩
/-- `EP_TX_DELAY` (15_network_time.md): offset into BAR0. -/
def EP_TX_DELAY.off (p : Nat) : Nat := 0x60008 + 256 * p
def EP_TX_DELAY.TICKS (p : Nat) : Fld := ⟨EP_TX_DELAY.off p, 19, 0⟩
/-- `EP_MAC_LO` (15_network_time.md): offset into BAR0. -/
def EP_MAC_LO.off (p : Nat) : Nat := 0x6000C + 256 * p
def EP_MAC_LO.ADDR (p : Nat) : Fld := ⟨EP_MAC_LO.off p, 31, 0⟩
/-- `EP_MAC_HI` (15_network_time.md): offset into BAR0. -/
def EP_MAC_HI.off (p : Nat) : Nat := 0x60010 + 256 * p
def EP_MAC_HI.ADDR (p : Nat) : Fld := ⟨EP_MAC_HI.off p, 15, 0⟩
/-- `EP_IP4` (15_network_time.md): offset into BAR0. -/
def EP_IP4.off (p : Nat) : Nat := 0x60014 + 256 * p
def EP_IP4.ADDR (p : Nat) : Fld := ⟨EP_IP4.off p, 31, 0⟩
/-- `EP_IP6_0` (15_network_time.md): offset into BAR0. -/
def EP_IP6_0.off (p : Nat) : Nat := 0x60018 + 256 * p
def EP_IP6_0.ADDR (p : Nat) : Fld := ⟨EP_IP6_0.off p, 31, 0⟩
/-- `EP_IP6_1` (15_network_time.md): offset into BAR0. -/
def EP_IP6_1.off (p : Nat) : Nat := 0x6001C + 256 * p
def EP_IP6_1.ADDR (p : Nat) : Fld := ⟨EP_IP6_1.off p, 31, 0⟩
/-- `EP_IP6_2` (15_network_time.md): offset into BAR0. -/
def EP_IP6_2.off (p : Nat) : Nat := 0x60020 + 256 * p
def EP_IP6_2.ADDR (p : Nat) : Fld := ⟨EP_IP6_2.off p, 31, 0⟩
/-- `EP_IP6_3` (15_network_time.md): offset into BAR0. -/
def EP_IP6_3.off (p : Nat) : Nat := 0x60024 + 256 * p
def EP_IP6_3.ADDR (p : Nat) : Fld := ⟨EP_IP6_3.off p, 31, 0⟩
/-- `EP_CMD` (15_network_time.md): offset into BAR0. -/
def EP_CMD.off (p : Nat) : Nat := 0x60028 + 256 * p
def EP_CMD.FLUSH (p : Nat) : Fld := ⟨EP_CMD.off p, 31, 31⟩
def EP_CMD.LINK_RESET (p : Nat) : Fld := ⟨EP_CMD.off p, 30, 30⟩
/-- `EP_STAT` (15_network_time.md): offset into BAR0. -/
def EP_STAT.off (p : Nat) : Nat := 0x6002C + 256 * p
def EP_STAT.FWD_DROP (p : Nat) : Fld := ⟨EP_STAT.off p, 7, 7⟩
def EP_STAT.LINK_DROP (p : Nat) : Fld := ⟨EP_STAT.off p, 6, 6⟩
def EP_STAT.LATE (p : Nat) : Fld := ⟨EP_STAT.off p, 5, 5⟩
def EP_STAT.FCS_ERR (p : Nat) : Fld := ⟨EP_STAT.off p, 4, 4⟩
def EP_STAT.LINK_DOWN (p : Nat) : Fld := ⟨EP_STAT.off p, 3, 3⟩
def EP_STAT.BLOCK_LOCK (p : Nat) : Fld := ⟨EP_STAT.off p, 1, 1⟩
def EP_STAT.LINK (p : Nat) : Fld := ⟨EP_STAT.off p, 0, 0⟩
/-- `EP_LAUNCH_STAT` (15_network_time.md): offset into BAR0. -/
def EP_LAUNCH_STAT.off (p : Nat) : Nat := 0x60030 + 256 * p
def EP_LAUNCH_STAT.QUEUED (p : Nat) : Fld := ⟨EP_LAUNCH_STAT.off p, 24, 16⟩
def EP_LAUNCH_STAT.FREE (p : Nat) : Fld := ⟨EP_LAUNCH_STAT.off p, 10, 0⟩
/-- `EP_RX_CNT` (15_network_time.md): offset into BAR0. -/
def EP_RX_CNT.off (p : Nat) : Nat := 0x60040 + 256 * p
def EP_RX_CNT.COUNT (p : Nat) : Fld := ⟨EP_RX_CNT.off p, 31, 0⟩
/-- `EP_RX_ERR_CNT` (15_network_time.md): offset into BAR0. -/
def EP_RX_ERR_CNT.off (p : Nat) : Nat := 0x60044 + 256 * p
def EP_RX_ERR_CNT.COUNT (p : Nat) : Fld := ⟨EP_RX_ERR_CNT.off p, 31, 0⟩
/-- `EP_TX_CNT` (15_network_time.md): offset into BAR0. -/
def EP_TX_CNT.off (p : Nat) : Nat := 0x60048 + 256 * p
def EP_TX_CNT.COUNT (p : Nat) : Fld := ⟨EP_TX_CNT.off p, 31, 0⟩
/-- `EP_FWD_CNT` (15_network_time.md): offset into BAR0. -/
def EP_FWD_CNT.off (p : Nat) : Nat := 0x6004C + 256 * p
def EP_FWD_CNT.COUNT (p : Nat) : Fld := ⟨EP_FWD_CNT.off p, 31, 0⟩
/-- `EP_FWD_DROP_CNT` (15_network_time.md): offset into BAR0. -/
def EP_FWD_DROP_CNT.off (p : Nat) : Nat := 0x60050 + 256 * p
def EP_FWD_DROP_CNT.COUNT (p : Nat) : Fld := ⟨EP_FWD_DROP_CNT.off p, 31, 0⟩
/-- `EP_LAUNCH_CNT` (15_network_time.md): offset into BAR0. -/
def EP_LAUNCH_CNT.off (p : Nat) : Nat := 0x60054 + 256 * p
def EP_LAUNCH_CNT.COUNT (p : Nat) : Fld := ⟨EP_LAUNCH_CNT.off p, 31, 0⟩
/-- `EP_LATE_CNT` (15_network_time.md): offset into BAR0. -/
def EP_LATE_CNT.off (p : Nat) : Nat := 0x60058 + 256 * p
def EP_LATE_CNT.COUNT (p : Nat) : Fld := ⟨EP_LATE_CNT.off p, 31, 0⟩
/-- `EP_LINKDROP_CNT` (15_network_time.md): offset into BAR0. -/
def EP_LINKDROP_CNT.off (p : Nat) : Nat := 0x6005C + 256 * p
def EP_LINKDROP_CNT.COUNT (p : Nat) : Fld := ⟨EP_LINKDROP_CNT.off p, 31, 0⟩
/-- `EP_FLUSH_CNT` (15_network_time.md): offset into BAR0. -/
def EP_FLUSH_CNT.off (p : Nat) : Nat := 0x60060 + 256 * p
def EP_FLUSH_CNT.COUNT (p : Nat) : Fld := ⟨EP_FLUSH_CNT.off p, 31, 0⟩

/-- The register map of block 6 (EP). -/
def regsEP : List RegRow :=
[
   ⟨0x60000, 2, 256, 1, 4, .none, [⟨31, 31, .cfg, 0⟩, ⟨30, 30, .cfg, 0⟩, ⟨18, 16, .cfg, 7⟩, ⟨15, 15, .cfg, 0⟩, ⟨14, 12, .cfg, 0⟩, ⟨11, 0, .cfg, 0⟩]⟩,
   ⟨0x60004, 2, 256, 1, 4, .none, [⟨19, 0, .cfg, 0⟩]⟩,
   ⟨0x60008, 2, 256, 1, 4, .none, [⟨19, 0, .cfg, 0⟩]⟩,
   ⟨0x6000C, 2, 256, 1, 4, .lo, [⟨31, 0, .cfg, 0⟩]⟩,
   ⟨0x60010, 2, 256, 1, 4, .hi, [⟨15, 0, .cfg, 0⟩]⟩,
   ⟨0x60014, 2, 256, 1, 4, .none, [⟨31, 0, .cfg, 0⟩]⟩,
   ⟨0x60018, 2, 256, 1, 4, .none, [⟨31, 0, .cfg, 0⟩]⟩,
   ⟨0x6001C, 2, 256, 1, 4, .none, [⟨31, 0, .cfg, 0⟩]⟩,
   ⟨0x60020, 2, 256, 1, 4, .none, [⟨31, 0, .cfg, 0⟩]⟩,
   ⟨0x60024, 2, 256, 1, 4, .none, [⟨31, 0, .cfg, 0⟩]⟩,
   ⟨0x60028, 2, 256, 1, 4, .none, [⟨31, 31, .cmd, 0⟩, ⟨30, 30, .cmd, 0⟩]⟩,
   ⟨0x6002C, 2, 256, 1, 4, .none, [⟨7, 7, .sts, 0⟩, ⟨6, 6, .sts, 0⟩, ⟨5, 5, .sts, 0⟩, ⟨4, 4, .sts, 0⟩, ⟨3, 3, .sts, 0⟩, ⟨1, 1, .ro, 0⟩, ⟨0, 0, .ro, 0⟩]⟩]
  ++ [
   ⟨0x60030, 2, 256, 1, 4, .none, [⟨24, 16, .ro, 0⟩, ⟨10, 0, .ro, 1024⟩]⟩,
   ⟨0x60040, 2, 256, 1, 4, .none, [⟨31, 0, .cnt, 0⟩]⟩,
   ⟨0x60044, 2, 256, 1, 4, .none, [⟨31, 0, .cnt, 0⟩]⟩,
   ⟨0x60048, 2, 256, 1, 4, .none, [⟨31, 0, .cnt, 0⟩]⟩,
   ⟨0x6004C, 2, 256, 1, 4, .none, [⟨31, 0, .cnt, 0⟩]⟩,
   ⟨0x60050, 2, 256, 1, 4, .none, [⟨31, 0, .cnt, 0⟩]⟩,
   ⟨0x60054, 2, 256, 1, 4, .none, [⟨31, 0, .cnt, 0⟩]⟩,
   ⟨0x60058, 2, 256, 1, 4, .none, [⟨31, 0, .cnt, 0⟩]⟩,
   ⟨0x6005C, 2, 256, 1, 4, .none, [⟨31, 0, .cnt, 0⟩]⟩,
   ⟨0x60060, 2, 256, 1, 4, .none, [⟨31, 0, .cnt, 0⟩]⟩]

/-! ## Block 7, IN -/

/-- `IN_CFG` (02_input_cells.md): offset into BAR0. -/
def IN_CFG.off (i : Nat) : Nat := 0x70000 + 16 * i
def IN_CFG.HYST_B (i : Nat) : Fld := ⟨IN_CFG.off i, 31, 27⟩
def IN_CFG.HYST_A (i : Nat) : Fld := ⟨IN_CFG.off i, 26, 22⟩
def IN_CFG.EDGE_B (i : Nat) : Fld := ⟨IN_CFG.off i, 21, 20⟩
def IN_CFG.EDGE_A (i : Nat) : Fld := ⟨IN_CFG.off i, 19, 18⟩
def IN_CFG.TERM (i : Nat) : Fld := ⟨IN_CFG.off i, 17, 17⟩
def IN_CFG.OW_PULL (i : Nat) : Fld := ⟨IN_CFG.off i, 16, 16⟩
def IN_CFG.TRIM_SRC (i : Nat) : Fld := ⟨IN_CFG.off i, 15, 15⟩
def IN_CFG.MTRIM_B (i : Nat) : Fld := ⟨IN_CFG.off i, 11, 6⟩
def IN_CFG.MTRIM_A (i : Nat) : Fld := ⟨IN_CFG.off i, 5, 0⟩
/-- `IN_THR` (02_input_cells.md): offset into BAR0. -/
def IN_THR.off (i : Nat) : Nat := 0x70004 + 16 * i
def IN_THR.TH_B (i : Nat) : Fld := ⟨IN_THR.off i, 27, 16⟩
def IN_THR.TH_A (i : Nat) : Fld := ⟨IN_THR.off i, 11, 0⟩
/-- `IN_TRIM` (02_input_cells.md): offset into BAR0. -/
def IN_TRIM.off (i : Nat) : Nat := 0x70008 + 16 * i
def IN_TRIM.NULL_RES (i : Nat) : Fld := ⟨IN_TRIM.off i, 31, 30⟩
def IN_TRIM.OW_RES (i : Nat) : Fld := ⟨IN_TRIM.off i, 29, 28⟩
def IN_TRIM.ACT_B (i : Nat) : Fld := ⟨IN_TRIM.off i, 25, 20⟩
def IN_TRIM.ACT_A (i : Nat) : Fld := ⟨IN_TRIM.off i, 19, 14⟩
def IN_TRIM.STORED_B (i : Nat) : Fld := ⟨IN_TRIM.off i, 11, 6⟩
def IN_TRIM.STORED_A (i : Nat) : Fld := ⟨IN_TRIM.off i, 5, 0⟩
/-- `IN_STAT` (02_input_cells.md): offset into BAR0. -/
def IN_STAT.off (i : Nat) : Nat := 0x7000C + 16 * i
def IN_STAT.OW_UNDET (i : Nat) : Fld := ⟨IN_STAT.off i, 10, 10⟩
def IN_STAT.OW_OPEN (i : Nat) : Fld := ⟨IN_STAT.off i, 9, 9⟩
def IN_STAT.NULL_FAIL (i : Nat) : Fld := ⟨IN_STAT.off i, 8, 8⟩
def IN_STAT.CMD_ACTIVE (i : Nat) : Fld := ⟨IN_STAT.off i, 4, 4⟩
def IN_STAT.SETTLE_B (i : Nat) : Fld := ⟨IN_STAT.off i, 3, 3⟩
def IN_STAT.SETTLE_A (i : Nat) : Fld := ⟨IN_STAT.off i, 2, 2⟩
def IN_STAT.CMP_B (i : Nat) : Fld := ⟨IN_STAT.off i, 1, 1⟩
def IN_STAT.CMP_A (i : Nat) : Fld := ⟨IN_STAT.off i, 0, 0⟩
/-- `IN_CMD` (02_input_cells.md): offset into BAR0. -/
def IN_CMD.off : Nat := 0x72000
def IN_CMD.GO : Fld := ⟨IN_CMD.off, 31, 31⟩
def IN_CMD.OP : Fld := ⟨IN_CMD.off, 12, 12⟩
def IN_CMD.INPUT : Fld := ⟨IN_CMD.off, 8, 0⟩
/-- `IN_CMD_RESULT` (02_input_cells.md): offset into BAR0. -/
def IN_CMD_RESULT.off : Nat := 0x72004
def IN_CMD_RESULT.VALUE : Fld := ⟨IN_CMD_RESULT.off, 27, 16⟩
def IN_CMD_RESULT.TOG_B : Fld := ⟨IN_CMD_RESULT.off, 11, 8⟩
def IN_CMD_RESULT.TOG_A : Fld := ⟨IN_CMD_RESULT.off, 7, 4⟩
def IN_CMD_RESULT.OUTCOME : Fld := ⟨IN_CMD_RESULT.off, 2, 0⟩
/-- `IN_CMD_BUSY_CNT` (02_input_cells.md): offset into BAR0. -/
def IN_CMD_BUSY_CNT.off : Nat := 0x72008
def IN_CMD_BUSY_CNT.COUNT : Fld := ⟨IN_CMD_BUSY_CNT.off, 15, 0⟩
/-- `IN_NULL_REJ_CNT` (02_input_cells.md): offset into BAR0. -/
def IN_NULL_REJ_CNT.off : Nat := 0x7200C
def IN_NULL_REJ_CNT.COUNT : Fld := ⟨IN_NULL_REJ_CNT.off, 15, 0⟩
/-- `IN_OPEN_MAP` (02_input_cells.md): offset into BAR0. -/
def IN_OPEN_MAP.off (k : Nat) : Nat := 0x72100 + 4 * k
def IN_OPEN_MAP.OPEN (k : Nat) : Fld := ⟨IN_OPEN_MAP.off k, 31, 0⟩

/-- The register map of block 7 (IN). -/
def regsIN : List RegRow :=
[
   ⟨0x70000, 512, 16, 1, 4, .none, [⟨31, 27, .cfg, 0⟩, ⟨26, 22, .cfg, 0⟩, ⟨21, 20, .cfg, 0⟩, ⟨19, 18, .cfg, 0⟩, ⟨17, 17, .cfg, 0⟩, ⟨16, 16, .cfg, 0⟩, ⟨15, 15, .cfg, 0⟩, ⟨11, 6, .cfg, 0⟩, ⟨5, 0, .cfg, 0⟩]⟩,
   ⟨0x70004, 512, 16, 1, 4, .none, [⟨27, 16, .cfg, 2048⟩, ⟨11, 0, .cfg, 2048⟩]⟩,
   ⟨0x70008, 512, 16, 1, 4, .none, [⟨31, 30, .ro, 0⟩, ⟨29, 28, .ro, 0⟩, ⟨25, 20, .ro, 0⟩, ⟨19, 14, .ro, 0⟩, ⟨11, 6, .ro, 0⟩, ⟨5, 0, .ro, 0⟩]⟩,
   ⟨0x7000C, 512, 16, 1, 4, .none, [⟨10, 10, .sts, 0⟩, ⟨9, 9, .sts, 0⟩, ⟨8, 8, .sts, 0⟩, ⟨4, 4, .ro, 0⟩, ⟨3, 3, .ro, 0⟩, ⟨2, 2, .ro, 0⟩, ⟨1, 1, .ro, 0⟩, ⟨0, 0, .ro, 0⟩]⟩,
   ⟨0x72000, 1, 4, 1, 4, .none, [⟨31, 31, .cmd, 0⟩, ⟨12, 12, .live, 0⟩, ⟨8, 0, .live, 0⟩]⟩,
   ⟨0x72004, 1, 4, 1, 4, .none, [⟨27, 16, .ro, 0⟩, ⟨11, 8, .ro, 0⟩, ⟨7, 4, .ro, 0⟩, ⟨2, 0, .ro, 0⟩]⟩,
   ⟨0x72008, 1, 4, 1, 4, .none, [⟨15, 0, .cnt, 0⟩]⟩,
   ⟨0x7200C, 1, 4, 1, 4, .none, [⟨15, 0, .cnt, 0⟩]⟩,
   ⟨0x72100, 16, 4, 1, 4, .none, [⟨31, 0, .ro, 0⟩]⟩]

/-! ## Block 8, LG -/

/-- `LG_DLL_CTRL` (03_chisel_interpolator.md): offset into BAR0. -/
def LG_DLL_CTRL.off (g : Nat) : Nat := 0x800C0 + 256 * g
def LG_DLL_CTRL.RELOCK (g : Nat) : Fld := ⟨LG_DLL_CTRL.off g, 31, 31⟩
def LG_DLL_CTRL.NOTICE_EN (g : Nat) : Fld := ⟨LG_DLL_CTRL.off g, 0, 0⟩
/-- `LG_DLL_STAT` (03_chisel_interpolator.md): offset into BAR0. -/
def LG_DLL_STAT.off (g : Nat) : Nat := 0x800C4 + 256 * g
def LG_DLL_STAT.CTRL (g : Nat) : Fld := ⟨LG_DLL_STAT.off g, 29, 16⟩
def LG_DLL_STAT.RELOCKED (g : Nat) : Fld := ⟨LG_DLL_STAT.off g, 2, 2⟩
def LG_DLL_STAT.UNLOCKED (g : Nat) : Fld := ⟨LG_DLL_STAT.off g, 1, 1⟩
def LG_DLL_STAT.LOCKED (g : Nat) : Fld := ⟨LG_DLL_STAT.off g, 0, 0⟩
/-- `LG_DLL_ERR` (03_chisel_interpolator.md): offset into BAR0. -/
def LG_DLL_ERR.off (g : Nat) : Nat := 0x800C8 + 256 * g
def LG_DLL_ERR.ERR (g : Nat) : Fld := ⟨LG_DLL_ERR.off g, 15, 0⟩
/-- `LG_DLL_UNLOCK_CNT` (03_chisel_interpolator.md): offset into BAR0. -/
def LG_DLL_UNLOCK_CNT.off (g : Nat) : Nat := 0x800CC + 256 * g
def LG_DLL_UNLOCK_CNT.COUNT (g : Nat) : Fld := ⟨LG_DLL_UNLOCK_CNT.off g, 15, 0⟩
/-- `LG_PILEUP_CNT` (03_chisel_interpolator.md): offset into BAR0. -/
def LG_PILEUP_CNT.off (g : Nat) : Nat := 0x800D0 + 256 * g
def LG_PILEUP_CNT.COUNT (g : Nat) : Fld := ⟨LG_PILEUP_CNT.off g, 31, 0⟩
/-- `LG_STAT` (07_lane_chains_and_queues.md): offset into BAR0. -/
def LG_STAT.off (g : Nat) : Nat := 0x80000 + 256 * g
def LG_STAT.CFG_ERR (g : Nat) : Fld := ⟨LG_STAT.off g, 8, 8⟩
def LG_STAT.INJ_OVF (g : Nat) : Fld := ⟨LG_STAT.off g, 7, 7⟩
def LG_STAT.Q_LOST (g : Nat) : Fld := ⟨LG_STAT.off g, 6, 6⟩
def LG_STAT.CHAIN_LOST (g : Nat) : Fld := ⟨LG_STAT.off g, 5, 5⟩
def LG_STAT.WM_LOW_SEEN (g : Nat) : Fld := ⟨LG_STAT.off g, 4, 4⟩
def LG_STAT.WM_HIGH_SEEN (g : Nat) : Fld := ⟨LG_STAT.off g, 3, 3⟩
def LG_STAT.VETOED (g : Nat) : Fld := ⟨LG_STAT.off g, 2, 2⟩
def LG_STAT.WIN_OPEN (g : Nat) : Fld := ⟨LG_STAT.off g, 1, 1⟩
def LG_STAT.BUSY (g : Nat) : Fld := ⟨LG_STAT.off g, 0, 0⟩
/-- `LG_WM` (07_lane_chains_and_queues.md): offset into BAR0. -/
def LG_WM.off (g : Nat) : Nat := 0x80004 + 256 * g
def LG_WM.HIGH (g : Nat) : Fld := ⟨LG_WM.off g, 26, 16⟩
def LG_WM.LOW (g : Nat) : Fld := ⟨LG_WM.off g, 10, 0⟩
/-- `LG_Q_OCC` (07_lane_chains_and_queues.md): offset into BAR0. -/
def LG_Q_OCC.off (g : Nat) : Nat := 0x80008 + 256 * g
def LG_Q_OCC.PEAK (g : Nat) : Fld := ⟨LG_Q_OCC.off g, 26, 16⟩
def LG_Q_OCC.PEAK_CLR (g : Nat) : Fld := ⟨LG_Q_OCC.off g, 15, 15⟩
def LG_Q_OCC.OCC (g : Nat) : Fld := ⟨LG_Q_OCC.off g, 10, 0⟩
/-- `LG_WM_CROSS_CNT` (07_lane_chains_and_queues.md): offset into BAR0. -/
def LG_WM_CROSS_CNT.off (g : Nat) : Nat := 0x8000C + 256 * g
def LG_WM_CROSS_CNT.COUNT (g : Nat) : Fld := ⟨LG_WM_CROSS_CNT.off g, 31, 0⟩
/-- `LG_Q_LOST_CNT` (07_lane_chains_and_queues.md): offset into BAR0. -/
def LG_Q_LOST_CNT.off (g : Nat) : Nat := 0x80010 + 256 * g
def LG_Q_LOST_CNT.COUNT (g : Nat) : Fld := ⟨LG_Q_LOST_CNT.off g, 31, 0⟩
/-- `LG_CHAIN_LOST_CNT` (07_lane_chains_and_queues.md): offset into BAR0. -/
def LG_CHAIN_LOST_CNT.off (g : Nat) : Nat := 0x80014 + 256 * g
def LG_CHAIN_LOST_CNT.COUNT (g : Nat) : Fld := ⟨LG_CHAIN_LOST_CNT.off g, 31, 0⟩
/-- `LG_CHAIN_LOST_MAP` (07_lane_chains_and_queues.md): offset into BAR0. -/
def LG_CHAIN_LOST_MAP.off (g : Nat) : Nat := 0x80018 + 256 * g
def LG_CHAIN_LOST_MAP.LANE (g : Nat) : Fld := ⟨LG_CHAIN_LOST_MAP.off g, 15, 0⟩
/-- `LG_CREDIT_WAIT_CNT` (07_lane_chains_and_queues.md): offset into BAR0. -/
def LG_CREDIT_WAIT_CNT.off (g : Nat) : Nat := 0x8001C + 256 * g
def LG_CREDIT_WAIT_CNT.COUNT (g : Nat) : Fld := ⟨LG_CREDIT_WAIT_CNT.off g, 31, 0⟩
/-- `LG_SEQ` (07_lane_chains_and_queues.md): offset into BAR0. -/
def LG_SEQ.off (g : Nat) : Nat := 0x80020 + 256 * g
def LG_SEQ.SEQ (g : Nat) : Fld := ⟨LG_SEQ.off g, 15, 0⟩
/-- `LG_WIN_CFG` (07_lane_chains_and_queues.md): offset into BAR0. -/
def LG_WIN_CFG.off (g : Nat) : Nat := 0x80030 + 256 * g
def LG_WIN_CFG.DUR (g : Nat) : Fld := ⟨LG_WIN_CFG.off g, 31, 16⟩
def LG_WIN_CFG.GATE_ID (g : Nat) : Fld := ⟨LG_WIN_CFG.off g, 15, 8⟩
def LG_WIN_CFG.EN (g : Nat) : Fld := ⟨LG_WIN_CFG.off g, 0, 0⟩
/-- `LG_WIN_CMD` (07_lane_chains_and_queues.md): offset into BAR0. -/
def LG_WIN_CMD.off (g : Nat) : Nat := 0x80034 + 256 * g
def LG_WIN_CMD.VETO (g : Nat) : Fld := ⟨LG_WIN_CMD.off g, 0, 0⟩
/-- `LG_WIN_STAT` (07_lane_chains_and_queues.md): offset into BAR0. -/
def LG_WIN_STAT.off (g : Nat) : Nat := 0x80038 + 256 * g
def LG_WIN_STAT.WINDOW (g : Nat) : Fld := ⟨LG_WIN_STAT.off g, 31, 0⟩
/-- `LG_WIN_REOPEN_CNT` (07_lane_chains_and_queues.md): offset into BAR0. -/
def LG_WIN_REOPEN_CNT.off (g : Nat) : Nat := 0x8003C + 256 * g
def LG_WIN_REOPEN_CNT.COUNT (g : Nat) : Fld := ⟨LG_WIN_REOPEN_CNT.off g, 15, 0⟩
/-- `LG_WIN_VETO_LATE_CNT` (07_lane_chains_and_queues.md): offset into BAR0. -/
def LG_WIN_VETO_LATE_CNT.off (g : Nat) : Nat := 0x80040 + 256 * g
def LG_WIN_VETO_LATE_CNT.COUNT (g : Nat) : Fld := ⟨LG_WIN_VETO_LATE_CNT.off g, 15, 0⟩
/-- `LG_GATE_SEL0` (07_lane_chains_and_queues.md): offset into BAR0. -/
def LG_GATE_SEL0.off (g : Nat) : Nat := 0x80044 + 256 * g
def LG_GATE_SEL0.CLUSTER (g : Nat) : Fld := ⟨LG_GATE_SEL0.off g, 31, 16⟩
def LG_GATE_SEL0.PIN (g : Nat) : Fld := ⟨LG_GATE_SEL0.off g, 15, 0⟩
/-- `LG_GATE_SEL1` (07_lane_chains_and_queues.md): offset into BAR0. -/
def LG_GATE_SEL1.off (g : Nat) : Nat := 0x80048 + 256 * g
def LG_GATE_SEL1.TT (g : Nat) : Fld := ⟨LG_GATE_SEL1.off g, 31, 0⟩
/-- `LG_GATE_SEL2` (07_lane_chains_and_queues.md): offset into BAR0. -/
def LG_GATE_SEL2.off (g : Nat) : Nat := 0x8004C + 256 * g
def LG_GATE_SEL2.HOST (g : Nat) : Fld := ⟨LG_GATE_SEL2.off g, 0, 0⟩
/-- `LG_INJ_CTRL` (07_lane_chains_and_queues.md): offset into BAR0. -/
def LG_INJ_CTRL.off (g : Nat) : Nat := 0x80050 + 256 * g
def LG_INJ_CTRL.FLUSH (g : Nat) : Fld := ⟨LG_INJ_CTRL.off g, 31, 31⟩
def LG_INJ_CTRL.FILL (g : Nat) : Fld := ⟨LG_INJ_CTRL.off g, 4, 1⟩
def LG_INJ_CTRL.EN (g : Nat) : Fld := ⟨LG_INJ_CTRL.off g, 0, 0⟩
/-- `LG_INJ_DATA` (07_lane_chains_and_queues.md): offset into BAR0. -/
def LG_INJ_DATA.off (g : Nat) : Nat := 0x80054 + 256 * g
def LG_INJ_DATA.WORD (g : Nat) : Fld := ⟨LG_INJ_DATA.off g, 31, 0⟩
/-- `LG_INJ_OVF_CNT` (07_lane_chains_and_queues.md): offset into BAR0. -/
def LG_INJ_OVF_CNT.off (g : Nat) : Nat := 0x80058 + 256 * g
def LG_INJ_OVF_CNT.COUNT (g : Nat) : Fld := ⟨LG_INJ_OVF_CNT.off g, 15, 0⟩
/-- `LG_WIN_REFUSED_CNT` (07_lane_chains_and_queues.md): offset into BAR0. -/
def LG_WIN_REFUSED_CNT.off (g : Nat) : Nat := 0x8005C + 256 * g
def LG_WIN_REFUSED_CNT.COUNT (g : Nat) : Fld := ⟨LG_WIN_REFUSED_CNT.off g, 15, 0⟩
/-- `LG_BUSY_GRP_LO` (07_lane_chains_and_queues.md): offset into BAR0. -/
def LG_BUSY_GRP_LO.off (p : Nat) : Nat := 0x84000 + 16 * p
def LG_BUSY_GRP_LO.GROUP (p : Nat) : Fld := ⟨LG_BUSY_GRP_LO.off p, 31, 0⟩
/-- `LG_BUSY_GRP_HI` (07_lane_chains_and_queues.md): offset into BAR0. -/
def LG_BUSY_GRP_HI.off (p : Nat) : Nat := 0x84004 + 16 * p
def LG_BUSY_GRP_HI.GROUP (p : Nat) : Fld := ⟨LG_BUSY_GRP_HI.off p, 31, 0⟩
/-- `LG_BUSY_CFG` (07_lane_chains_and_queues.md): offset into BAR0. -/
def LG_BUSY_CFG.off (p : Nat) : Nat := 0x84008 + 16 * p
def LG_BUSY_CFG.OE (p : Nat) : Fld := ⟨LG_BUSY_CFG.off p, 31, 31⟩
def LG_BUSY_CFG.RING (p : Nat) : Fld := ⟨LG_BUSY_CFG.off p, 15, 0⟩
/-- `LG_BUSY_MIN` (07_lane_chains_and_queues.md): offset into BAR0. -/
def LG_BUSY_MIN.off (p : Nat) : Nat := 0x8400C + 16 * p
def LG_BUSY_MIN.MIN (p : Nat) : Fld := ⟨LG_BUSY_MIN.off p, 15, 0⟩
/-- `LG_BUSY_STAT` (07_lane_chains_and_queues.md): offset into BAR0. -/
def LG_BUSY_STAT.off : Nat := 0x84100
def LG_BUSY_STAT.SEEN : Fld := ⟨LG_BUSY_STAT.off, 31, 16⟩
def LG_BUSY_STAT.STATE : Fld := ⟨LG_BUSY_STAT.off, 15, 0⟩

/-- The register map of block 8 (LG). -/
def regsLG : List RegRow :=
[
   ⟨0x800C0, 64, 256, 1, 4, .none, [⟨31, 31, .cmd, 0⟩, ⟨0, 0, .live, 1⟩]⟩,
   ⟨0x800C4, 64, 256, 1, 4, .none, [⟨29, 16, .ro, 8192⟩, ⟨2, 2, .sts, 0⟩, ⟨1, 1, .sts, 0⟩, ⟨0, 0, .ro, 0⟩]⟩,
   ⟨0x800C8, 64, 256, 1, 4, .none, [⟨15, 0, .ro, 0⟩]⟩,
   ⟨0x800CC, 64, 256, 1, 4, .none, [⟨15, 0, .cnt, 0⟩]⟩,
   ⟨0x800D0, 64, 256, 1, 4, .none, [⟨31, 0, .cnt, 0⟩]⟩,
   ⟨0x80000, 64, 256, 1, 4, .none, [⟨8, 8, .sts, 0⟩, ⟨7, 7, .sts, 0⟩, ⟨6, 6, .sts, 0⟩, ⟨5, 5, .sts, 0⟩, ⟨4, 4, .sts, 0⟩, ⟨3, 3, .sts, 0⟩, ⟨2, 2, .ro, 0⟩, ⟨1, 1, .ro, 0⟩, ⟨0, 0, .ro, 0⟩]⟩,
   ⟨0x80004, 64, 256, 1, 4, .none, [⟨26, 16, .cfg, 768⟩, ⟨10, 0, .cfg, 512⟩]⟩,
   ⟨0x80008, 64, 256, 1, 4, .none, [⟨26, 16, .ro, 0⟩, ⟨15, 15, .cmd, 0⟩, ⟨10, 0, .ro, 0⟩]⟩,
   ⟨0x8000C, 64, 256, 1, 4, .none, [⟨31, 0, .cnt, 0⟩]⟩,
   ⟨0x80010, 64, 256, 1, 4, .none, [⟨31, 0, .cnt, 0⟩]⟩,
   ⟨0x80014, 64, 256, 1, 4, .none, [⟨31, 0, .cnt, 0⟩]⟩,
   ⟨0x80018, 64, 256, 1, 4, .none, [⟨15, 0, .sts, 0⟩]⟩]
  ++ [
   ⟨0x8001C, 64, 256, 1, 4, .none, [⟨31, 0, .cnt, 0⟩]⟩,
   ⟨0x80020, 64, 256, 1, 4, .none, [⟨15, 0, .ro, 0⟩]⟩,
   ⟨0x80030, 64, 256, 1, 4, .none, [⟨31, 16, .cfg, 0⟩, ⟨15, 8, .cfg, 0⟩, ⟨0, 0, .cfg, 0⟩]⟩,
   ⟨0x80034, 64, 256, 1, 4, .none, [⟨0, 0, .cmd, 0⟩]⟩,
   ⟨0x80038, 64, 256, 1, 4, .none, [⟨31, 0, .ro, 0⟩]⟩,
   ⟨0x8003C, 64, 256, 1, 4, .none, [⟨15, 0, .cnt, 0⟩]⟩,
   ⟨0x80040, 64, 256, 1, 4, .none, [⟨15, 0, .cnt, 0⟩]⟩,
   ⟨0x80044, 64, 256, 1, 4, .none, [⟨31, 16, .cfg, 0⟩, ⟨15, 0, .cfg, 0⟩]⟩,
   ⟨0x80048, 64, 256, 1, 4, .none, [⟨31, 0, .cfg, 0⟩]⟩,
   ⟨0x8004C, 64, 256, 1, 4, .none, [⟨0, 0, .cfg, 0⟩]⟩,
   ⟨0x80050, 64, 256, 1, 4, .none, [⟨31, 31, .cmd, 0⟩, ⟨4, 1, .ro, 0⟩, ⟨0, 0, .live, 0⟩]⟩,
   ⟨0x80054, 64, 256, 1, 4, .none, [⟨31, 0, .live, 0⟩]⟩]
  ++ [
   ⟨0x80058, 64, 256, 1, 4, .none, [⟨15, 0, .cnt, 0⟩]⟩,
   ⟨0x8005C, 64, 256, 1, 4, .none, [⟨15, 0, .cnt, 0⟩]⟩,
   ⟨0x84000, 16, 16, 1, 4, .none, [⟨31, 0, .cfg, 0⟩]⟩,
   ⟨0x84004, 16, 16, 1, 4, .none, [⟨31, 0, .cfg, 0⟩]⟩,
   ⟨0x84008, 16, 16, 1, 4, .none, [⟨31, 31, .cfg, 0⟩, ⟨15, 0, .cfg, 0⟩]⟩,
   ⟨0x8400C, 16, 16, 1, 4, .none, [⟨15, 0, .cfg, 10⟩]⟩,
   ⟨0x84100, 1, 4, 1, 4, .none, [⟨31, 16, .sts, 0⟩, ⟨15, 0, .ro, 0⟩]⟩]

/-! ## Block 9, CA -/

/-- `CA_CFG` (04_bin_tables.md): offset into BAR0. -/
def CA_CFG.off : Nat := 0x90000
def CA_CFG.NOTICE_EN : Fld := ⟨CA_CFG.off, 8, 8⟩
def CA_CFG.STALE_MS : Fld := ⟨CA_CFG.off, 7, 0⟩
/-- `CA_FRAME_CNT` (04_bin_tables.md): offset into BAR0. -/
def CA_FRAME_CNT.off : Nat := 0x90004
def CA_FRAME_CNT.COUNT : Fld := ⟨CA_FRAME_CNT.off, 31, 0⟩
/-- `CA_FRAME_T_LO` (04_bin_tables.md): offset into BAR0. -/
def CA_FRAME_T_LO.off : Nat := 0x90008
def CA_FRAME_T_LO.T : Fld := ⟨CA_FRAME_T_LO.off, 31, 0⟩
/-- `CA_FRAME_T_HI` (04_bin_tables.md): offset into BAR0. -/
def CA_FRAME_T_HI.off : Nat := 0x9000C
def CA_FRAME_T_HI.T : Fld := ⟨CA_FRAME_T_HI.off, 31, 0⟩
/-- `CA_STORE_STAT` (04_bin_tables.md): offset into BAR0. -/
def CA_STORE_STAT.off : Nat := 0x90010
def CA_STORE_STAT.WRITE_BUSY : Fld := ⟨CA_STORE_STAT.off, 7, 7⟩
def CA_STORE_STAT.LOCKED : Fld := ⟨CA_STORE_STAT.off, 6, 6⟩
def CA_STORE_STAT.SKIPPED : Fld := ⟨CA_STORE_STAT.off, 5, 5⟩
def CA_STORE_STAT.NONE : Fld := ⟨CA_STORE_STAT.off, 4, 4⟩
def CA_STORE_STAT.B_VALID : Fld := ⟨CA_STORE_STAT.off, 3, 3⟩
def CA_STORE_STAT.A_VALID : Fld := ⟨CA_STORE_STAT.off, 2, 2⟩
def CA_STORE_STAT.ACTIVE_SLOT : Fld := ⟨CA_STORE_STAT.off, 1, 1⟩
def CA_STORE_STAT.LOADED : Fld := ⟨CA_STORE_STAT.off, 0, 0⟩
/-- `CA_STORE_SEQ_A` (04_bin_tables.md): offset into BAR0. -/
def CA_STORE_SEQ_A.off : Nat := 0x90014
def CA_STORE_SEQ_A.SEQ : Fld := ⟨CA_STORE_SEQ_A.off, 31, 0⟩
/-- `CA_STORE_SEQ_B` (04_bin_tables.md): offset into BAR0. -/
def CA_STORE_SEQ_B.off : Nat := 0x90018
def CA_STORE_SEQ_B.SEQ : Fld := ⟨CA_STORE_SEQ_B.off, 31, 0⟩
/-- `CA_STORE_ACTIVE_SEQ` (04_bin_tables.md): offset into BAR0. -/
def CA_STORE_ACTIVE_SEQ.off : Nat := 0x9001C
def CA_STORE_ACTIVE_SEQ.ACTIVE_SEQ : Fld := ⟨CA_STORE_ACTIVE_SEQ.off, 31, 0⟩
/-- `CA_STORE_RES` (04_bin_tables.md): offset into BAR0. -/
def CA_STORE_RES.off : Nat := 0x90020
def CA_STORE_RES.OUTCOME : Fld := ⟨CA_STORE_RES.off, 2, 0⟩
/-- `CA_STORE_ABORT_CNT` (04_bin_tables.md): offset into BAR0. -/
def CA_STORE_ABORT_CNT.off : Nat := 0x90024
def CA_STORE_ABORT_CNT.COUNT : Fld := ⟨CA_STORE_ABORT_CNT.off, 15, 0⟩
/-- `CA_GRP_CFG` (04_bin_tables.md): offset into BAR0. -/
def CA_GRP_CFG.off (g : Nat) : Nat := 0x91000 + 16 * g
def CA_GRP_CFG.TSEL (g : Nat) : Fld := ⟨CA_GRP_CFG.off g, 21, 17⟩
def CA_GRP_CFG.TOVR_EN (g : Nat) : Fld := ⟨CA_GRP_CFG.off g, 16, 16⟩
def CA_GRP_CFG.TOVR (g : Nat) : Fld := ⟨CA_GRP_CFG.off g, 15, 0⟩
/-- `CA_GRP_STAT` (04_bin_tables.md): offset into BAR0. -/
def CA_GRP_STAT.off (g : Nat) : Nat := 0x91004 + 16 * g
def CA_GRP_STAT.T_USED (g : Nat) : Fld := ⟨CA_GRP_STAT.off g, 31, 16⟩
def CA_GRP_STAT.INTERP_FAIL (g : Nat) : Fld := ⟨CA_GRP_STAT.off g, 5, 5⟩
def CA_GRP_STAT.TEMP_STALE (g : Nat) : Fld := ⟨CA_GRP_STAT.off g, 4, 4⟩
def CA_GRP_STAT.TEMP_WAIT (g : Nat) : Fld := ⟨CA_GRP_STAT.off g, 3, 3⟩
def CA_GRP_STAT.STAGED (g : Nat) : Fld := ⟨CA_GRP_STAT.off g, 2, 2⟩
def CA_GRP_STAT.BUILDING (g : Nat) : Fld := ⟨CA_GRP_STAT.off g, 1, 1⟩
def CA_GRP_STAT.EXTRAP (g : Nat) : Fld := ⟨CA_GRP_STAT.off g, 0, 0⟩
/-- `CA_GRP_TEMP` (04_bin_tables.md): offset into BAR0. -/
def CA_GRP_TEMP.off (g : Nat) : Nat := 0x91008 + 16 * g
def CA_GRP_TEMP.TEMP (g : Nat) : Fld := ⟨CA_GRP_TEMP.off g, 15, 0⟩
/-- `CA_GRP_SWAP_CNT` (04_bin_tables.md): offset into BAR0. -/
def CA_GRP_SWAP_CNT.off (g : Nat) : Nat := 0x9100C + 16 * g
def CA_GRP_SWAP_CNT.COUNT (g : Nat) : Fld := ⟨CA_GRP_SWAP_CNT.off g, 31, 0⟩
/-- `CA_LANE_RES` (04_bin_tables.md): offset into BAR0. -/
def CA_LANE_RES.off (n : Nat) : Nat := 0x92000 + 4 * n
def CA_LANE_RES.CHI (n : Nat) : Fld := ⟨CA_LANE_RES.off n, 31, 16⟩
def CA_LANE_RES.SET (n : Nat) : Fld := ⟨CA_LANE_RES.off n, 11, 10⟩
def CA_LANE_RES.CHECKS (n : Nat) : Fld := ⟨CA_LANE_RES.off n, 7, 4⟩
def CA_LANE_RES.OUTCOME (n : Nat) : Fld := ⟨CA_LANE_RES.off n, 3, 0⟩

/-- The register map of block 9 (CA). -/
def regsCA : List RegRow :=
[
   ⟨0x90000, 1, 4, 1, 4, .none, [⟨8, 8, .cfg, 1⟩, ⟨7, 0, .cfg, 100⟩]⟩,
   ⟨0x90004, 1, 4, 1, 4, .none, [⟨31, 0, .ro, 0⟩]⟩,
   ⟨0x90008, 1, 4, 1, 4, .lo, [⟨31, 0, .ro, 0⟩]⟩,
   ⟨0x9000C, 1, 4, 1, 4, .hi, [⟨31, 0, .ro, 0⟩]⟩,
   ⟨0x90010, 1, 4, 1, 4, .none, [⟨7, 7, .ro, 0⟩, ⟨6, 6, .ro, 0⟩, ⟨5, 5, .ro, 0⟩, ⟨4, 4, .ro, 0⟩, ⟨3, 3, .ro, 0⟩, ⟨2, 2, .ro, 0⟩, ⟨1, 1, .ro, 0⟩, ⟨0, 0, .ro, 0⟩]⟩,
   ⟨0x90014, 1, 4, 1, 4, .none, [⟨31, 0, .ro, 0⟩]⟩,
   ⟨0x90018, 1, 4, 1, 4, .none, [⟨31, 0, .ro, 0⟩]⟩,
   ⟨0x9001C, 1, 4, 1, 4, .none, [⟨31, 0, .ro, 0⟩]⟩,
   ⟨0x90020, 1, 4, 1, 4, .none, [⟨2, 0, .ro, 0⟩]⟩,
   ⟨0x90024, 1, 4, 1, 4, .none, [⟨15, 0, .cnt, 0⟩]⟩,
   ⟨0x91000, 64, 16, 1, 4, .none, [⟨21, 17, .cfg, 0⟩, ⟨16, 16, .cfg, 0⟩, ⟨15, 0, .cfg, 3840⟩]⟩,
   ⟨0x91004, 64, 16, 1, 4, .none, [⟨31, 16, .ro, 0⟩, ⟨5, 5, .sts, 0⟩, ⟨4, 4, .sts, 0⟩, ⟨3, 3, .ro, 0⟩, ⟨2, 2, .ro, 0⟩, ⟨1, 1, .ro, 0⟩, ⟨0, 0, .ro, 0⟩]⟩]
  ++ [
   ⟨0x91008, 64, 16, 1, 4, .none, [⟨15, 0, .ro, 0⟩]⟩,
   ⟨0x9100C, 64, 16, 1, 4, .none, [⟨31, 0, .cnt, 0⟩]⟩,
   ⟨0x92000, 1024, 4, 1, 4, .none, [⟨31, 16, .ro, 0⟩, ⟨11, 10, .ro, 0⟩, ⟨7, 4, .ro, 0⟩, ⟨3, 0, .ro, 0⟩]⟩]

/-! ## Block 10, CV -/

/-- `CV_CTRL` (09_carver_engines.md): offset into BAR0. -/
def CV_CTRL.off (e : Nat) : Nat := 0xA0000 + 256 * e
def CV_CTRL.START (e : Nat) : Fld := ⟨CV_CTRL.off e, 31, 31⟩
def CV_CTRL.HALT (e : Nat) : Fld := ⟨CV_CTRL.off e, 30, 30⟩
def CV_CTRL.CLR_REGS (e : Nat) : Fld := ⟨CV_CTRL.off e, 29, 29⟩
def CV_CTRL.START_PC (e : Nat) : Fld := ⟨CV_CTRL.off e, 11, 0⟩
/-- `CV_STAT` (09_carver_engines.md): offset into BAR0. -/
def CV_STAT.off (e : Nat) : Nat := 0xA0004 + 256 * e
def CV_STAT.GATE_LATE (e : Nat) : Fld := ⟨CV_STAT.off e, 19, 19⟩
def CV_STAT.MB_FULL (e : Nat) : Fld := ⟨CV_STAT.off e, 18, 18⟩
def CV_STAT.HIST_SAT (e : Nat) : Fld := ⟨CV_STAT.off e, 17, 17⟩
def CV_STAT.DEC_REFUSED (e : Nat) : Fld := ⟨CV_STAT.off e, 16, 16⟩
def CV_STAT.EMIT_LOST (e : Nat) : Fld := ⟨CV_STAT.off e, 15, 15⟩
def CV_STAT.EXC (e : Nat) : Fld := ⟨CV_STAT.off e, 14, 14⟩
def CV_STAT.CAUSE (e : Nat) : Fld := ⟨CV_STAT.off e, 13, 8⟩
def CV_STAT.STATE (e : Nat) : Fld := ⟨CV_STAT.off e, 2, 0⟩
/-- `CV_PC` (09_carver_engines.md): offset into BAR0. -/
def CV_PC.off (e : Nat) : Nat := 0xA0008 + 256 * e
def CV_PC.PC (e : Nat) : Fld := ⟨CV_PC.off e, 11, 0⟩
/-- `CV_HALT_INFO` (09_carver_engines.md): offset into BAR0. -/
def CV_HALT_INFO.off (e : Nat) : Nat := 0xA000C + 256 * e
def CV_HALT_INFO.CODE (e : Nat) : Fld := ⟨CV_HALT_INFO.off e, 31, 24⟩
def CV_HALT_INFO.EMPTIED (e : Nat) : Fld := ⟨CV_HALT_INFO.off e, 7, 0⟩
/-- `CV_HALT_T_LO` (09_carver_engines.md): offset into BAR0. -/
def CV_HALT_T_LO.off (e : Nat) : Nat := 0xA0010 + 256 * e
def CV_HALT_T_LO.T (e : Nat) : Fld := ⟨CV_HALT_T_LO.off e, 31, 0⟩
/-- `CV_HALT_T_HI` (09_carver_engines.md): offset into BAR0. -/
def CV_HALT_T_HI.off (e : Nat) : Nat := 0xA0014 + 256 * e
def CV_HALT_T_HI.T (e : Nat) : Fld := ⟨CV_HALT_T_HI.off e, 31, 0⟩
/-- `CV_POP_CNT` (09_carver_engines.md): offset into BAR0. -/
def CV_POP_CNT.off (e : Nat) : Nat := 0xA0018 + 256 * e
def CV_POP_CNT.COUNT (e : Nat) : Fld := ⟨CV_POP_CNT.off e, 31, 0⟩
/-- `CV_EMIT_CNT` (09_carver_engines.md): offset into BAR0. -/
def CV_EMIT_CNT.off (e : Nat) : Nat := 0xA001C + 256 * e
def CV_EMIT_CNT.COUNT (e : Nat) : Fld := ⟨CV_EMIT_CNT.off e, 31, 0⟩
/-- `CV_EMIT_LOST_CNT` (09_carver_engines.md): offset into BAR0. -/
def CV_EMIT_LOST_CNT.off (e : Nat) : Nat := 0xA0020 + 256 * e
def CV_EMIT_LOST_CNT.COUNT (e : Nat) : Fld := ⟨CV_EMIT_LOST_CNT.off e, 31, 0⟩
/-- `CV_DEC_CNT` (09_carver_engines.md): offset into BAR0. -/
def CV_DEC_CNT.off (e : Nat) : Nat := 0xA0024 + 256 * e
def CV_DEC_CNT.COUNT (e : Nat) : Fld := ⟨CV_DEC_CNT.off e, 31, 0⟩
/-- `CV_DEC_REFUSED_CNT` (09_carver_engines.md): offset into BAR0. -/
def CV_DEC_REFUSED_CNT.off (e : Nat) : Nat := 0xA0028 + 256 * e
def CV_DEC_REFUSED_CNT.COUNT (e : Nat) : Fld := ⟨CV_DEC_REFUSED_CNT.off e, 31, 0⟩
/-- `CV_DEC_LAT_MAX` (09_carver_engines.md): offset into BAR0. -/
def CV_DEC_LAT_MAX.off (e : Nat) : Nat := 0xA002C + 256 * e
def CV_DEC_LAT_MAX.CLR (e : Nat) : Fld := ⟨CV_DEC_LAT_MAX.off e, 31, 31⟩
def CV_DEC_LAT_MAX.MAX (e : Nat) : Fld := ⟨CV_DEC_LAT_MAX.off e, 15, 0⟩
/-- `CV_PORT_OCC` (09_carver_engines.md): offset into BAR0. -/
def CV_PORT_OCC.off (e : Nat) : Nat := 0xA0030 + 256 * e
def CV_PORT_OCC.P1 (e : Nat) : Fld := ⟨CV_PORT_OCC.off e, 22, 16⟩
def CV_PORT_OCC.P0 (e : Nat) : Fld := ⟨CV_PORT_OCC.off e, 6, 0⟩
/-- `CV_KIND` (09_carver_engines.md): offset into BAR0. -/
def CV_KIND.off (e : Nat) : Nat := 0xA0034 + 256 * e
def CV_KIND.P1 (e : Nat) : Fld := ⟨CV_KIND.off e, 15, 8⟩
def CV_KIND.P0 (e : Nat) : Fld := ⟨CV_KIND.off e, 7, 0⟩
/-- `CV_RSRC0` (09_carver_engines.md): offset into BAR0. -/
def CV_RSRC0.off (e : Nat) : Nat := 0xA0038 + 256 * e
def CV_RSRC0.SRC (e : Nat) : Fld := ⟨CV_RSRC0.off e, 19, 0⟩
/-- `CV_RSRC1` (09_carver_engines.md): offset into BAR0. -/
def CV_RSRC1.off (e : Nat) : Nat := 0xA003C + 256 * e
def CV_RSRC1.SRC (e : Nat) : Fld := ⟨CV_RSRC1.off e, 19, 0⟩
/-- `CV_MASK_SEL` (09_carver_engines.md): offset into BAR0. -/
def CV_MASK_SEL.off (e : Nat) : Nat := 0xA0040 + 256 * e
def CV_MASK_SEL.PORT (e : Nat) : Fld := ⟨CV_MASK_SEL.off e, 5, 5⟩
def CV_MASK_SEL.WORD (e : Nat) : Fld := ⟨CV_MASK_SEL.off e, 4, 0⟩
/-- `CV_MASK_DATA` (09_carver_engines.md): offset into BAR0. -/
def CV_MASK_DATA.off (e : Nat) : Nat := 0xA0044 + 256 * e
def CV_MASK_DATA.LANES (e : Nat) : Fld := ⟨CV_MASK_DATA.off e, 31, 0⟩
/-- `CV_GREG_SEL` (09_carver_engines.md): offset into BAR0. -/
def CV_GREG_SEL.off (e : Nat) : Nat := 0xA0048 + 256 * e
def CV_GREG_SEL.REG (e : Nat) : Fld := ⟨CV_GREG_SEL.off e, 4, 0⟩
/-- `CV_GREG_LO` (09_carver_engines.md): offset into BAR0. -/
def CV_GREG_LO.off (e : Nat) : Nat := 0xA004C + 256 * e
def CV_GREG_LO.VALUE (e : Nat) : Fld := ⟨CV_GREG_LO.off e, 31, 0⟩
/-- `CV_GREG_HI` (09_carver_engines.md): offset into BAR0. -/
def CV_GREG_HI.off (e : Nat) : Nat := 0xA0050 + 256 * e
def CV_GREG_HI.VALUE (e : Nat) : Fld := ⟨CV_GREG_HI.off e, 31, 0⟩

/-- The register map of block 10 (CV). -/
def regsCV : List RegRow :=
[
   ⟨0xA0000, 256, 256, 1, 4, .none, [⟨31, 31, .cmd, 0⟩, ⟨30, 30, .cmd, 0⟩, ⟨29, 29, .live, 1⟩, ⟨11, 0, .live, 0⟩]⟩,
   ⟨0xA0004, 256, 256, 1, 4, .none, [⟨19, 19, .sts, 0⟩, ⟨18, 18, .sts, 0⟩, ⟨17, 17, .sts, 0⟩, ⟨16, 16, .sts, 0⟩, ⟨15, 15, .sts, 0⟩, ⟨14, 14, .sts, 0⟩, ⟨13, 8, .ro, 0⟩, ⟨2, 0, .ro, 0⟩]⟩,
   ⟨0xA0008, 256, 256, 1, 4, .none, [⟨11, 0, .ro, 0⟩]⟩,
   ⟨0xA000C, 256, 256, 1, 4, .none, [⟨31, 24, .ro, 0⟩, ⟨7, 0, .ro, 0⟩]⟩,
   ⟨0xA0010, 256, 256, 1, 4, .lo, [⟨31, 0, .ro, 0⟩]⟩,
   ⟨0xA0014, 256, 256, 1, 4, .hi, [⟨31, 0, .ro, 0⟩]⟩,
   ⟨0xA0018, 256, 256, 1, 4, .none, [⟨31, 0, .cnt, 0⟩]⟩,
   ⟨0xA001C, 256, 256, 1, 4, .none, [⟨31, 0, .cnt, 0⟩]⟩,
   ⟨0xA0020, 256, 256, 1, 4, .none, [⟨31, 0, .cnt, 0⟩]⟩,
   ⟨0xA0024, 256, 256, 1, 4, .none, [⟨31, 0, .cnt, 0⟩]⟩,
   ⟨0xA0028, 256, 256, 1, 4, .none, [⟨31, 0, .cnt, 0⟩]⟩,
   ⟨0xA002C, 256, 256, 1, 4, .none, [⟨31, 31, .cmd, 0⟩, ⟨15, 0, .ro, 0⟩]⟩]
  ++ [
   ⟨0xA0030, 256, 256, 1, 4, .none, [⟨22, 16, .ro, 0⟩, ⟨6, 0, .ro, 0⟩]⟩,
   ⟨0xA0034, 256, 256, 1, 4, .none, [⟨15, 8, .ro, 0⟩, ⟨7, 0, .ro, 0⟩]⟩,
   ⟨0xA0038, 256, 256, 1, 4, .none, [⟨19, 0, .ro, 0⟩]⟩,
   ⟨0xA003C, 256, 256, 1, 4, .none, [⟨19, 0, .ro, 0⟩]⟩,
   ⟨0xA0040, 256, 256, 1, 4, .none, [⟨5, 5, .live, 0⟩, ⟨4, 0, .live, 0⟩]⟩,
   ⟨0xA0044, 256, 256, 1, 4, .none, [⟨31, 0, .ro, 0⟩]⟩,
   ⟨0xA0048, 256, 256, 1, 4, .none, [⟨4, 0, .live, 0⟩]⟩,
   ⟨0xA004C, 256, 256, 1, 4, .lo, [⟨31, 0, .ro, 0⟩]⟩,
   ⟨0xA0050, 256, 256, 1, 4, .hi, [⟨31, 0, .ro, 0⟩]⟩]

/-! ## Block 11, CC -/

/-- `CC_STAT` (10_fabric_and_decisions.md): offset into BAR0. -/
def CC_STAT.off (c : Nat) : Nat := 0xB0000 + 256 * c
def CC_STAT.IN_LATE (c : Nat) : Fld := ⟨CC_STAT.off c, 4, 4⟩
def CC_STAT.MB_DISC (c : Nat) : Fld := ⟨CC_STAT.off c, 3, 3⟩
def CC_STAT.CORRUPT (c : Nat) : Fld := ⟨CC_STAT.off c, 2, 2⟩
def CC_STAT.PORT_LOST (c : Nat) : Fld := ⟨CC_STAT.off c, 1, 1⟩
def CC_STAT.IN_DROP (c : Nat) : Fld := ⟨CC_STAT.off c, 0, 0⟩
/-- `CC_IN_OCC` (10_fabric_and_decisions.md): offset into BAR0. -/
def CC_IN_OCC.off (c : Nat) : Nat := 0xB0004 + 256 * c
def CC_IN_OCC.PEAK (c : Nat) : Fld := ⟨CC_IN_OCC.off c, 21, 16⟩
def CC_IN_OCC.PEAK_CLR (c : Nat) : Fld := ⟨CC_IN_OCC.off c, 15, 15⟩
def CC_IN_OCC.OCC (c : Nat) : Fld := ⟨CC_IN_OCC.off c, 5, 0⟩
/-- `CC_IN_DROP_CNT` (10_fabric_and_decisions.md): offset into BAR0. -/
def CC_IN_DROP_CNT.off (c : Nat) : Nat := 0xB0008 + 256 * c
def CC_IN_DROP_CNT.COUNT (c : Nat) : Fld := ⟨CC_IN_DROP_CNT.off c, 31, 0⟩
/-- `CC_CORRUPT_CNT` (10_fabric_and_decisions.md): offset into BAR0. -/
def CC_CORRUPT_CNT.off (c : Nat) : Nat := 0xB000C + 256 * c
def CC_CORRUPT_CNT.COUNT (c : Nat) : Fld := ⟨CC_CORRUPT_CNT.off c, 31, 0⟩
/-- `CC_PORT_LOST_CNT` (10_fabric_and_decisions.md): offset into BAR0. -/
def CC_PORT_LOST_CNT.off (c : Nat) : Nat := 0xB0010 + 256 * c
def CC_PORT_LOST_CNT.COUNT (c : Nat) : Fld := ⟨CC_PORT_LOST_CNT.off c, 31, 0⟩
/-- `CC_PORT_LOST_MAP` (10_fabric_and_decisions.md): offset into BAR0. -/
def CC_PORT_LOST_MAP.off (c : Nat) : Nat := 0xB0014 + 256 * c
def CC_PORT_LOST_MAP.PORT (c : Nat) : Fld := ⟨CC_PORT_LOST_MAP.off c, 31, 0⟩
/-- `CC_MB_DISC_CNT` (10_fabric_and_decisions.md): offset into BAR0. -/
def CC_MB_DISC_CNT.off (c : Nat) : Nat := 0xB0018 + 256 * c
def CC_MB_DISC_CNT.COUNT (c : Nat) : Fld := ⟨CC_MB_DISC_CNT.off c, 15, 0⟩
/-- `CC_RES_SEQ` (10_fabric_and_decisions.md): offset into BAR0. -/
def CC_RES_SEQ.off (c : Nat) : Nat := 0xB001C + 256 * c
def CC_RES_SEQ.SEQ (c : Nat) : Fld := ⟨CC_RES_SEQ.off c, 15, 0⟩
/-- `CC_CREDIT_WAIT_CNT` (10_fabric_and_decisions.md): offset into BAR0. -/
def CC_CREDIT_WAIT_CNT.off (c : Nat) : Nat := 0xB0020 + 256 * c
def CC_CREDIT_WAIT_CNT.COUNT (c : Nat) : Fld := ⟨CC_CREDIT_WAIT_CNT.off c, 31, 0⟩
/-- `CC_GROUPS_LO` (10_fabric_and_decisions.md): offset into BAR0. -/
def CC_GROUPS_LO.off (c : Nat) : Nat := 0xB0024 + 256 * c
def CC_GROUPS_LO.GROUP (c : Nat) : Fld := ⟨CC_GROUPS_LO.off c, 31, 0⟩
/-- `CC_GROUPS_HI` (10_fabric_and_decisions.md): offset into BAR0. -/
def CC_GROUPS_HI.off (c : Nat) : Nat := 0xB0028 + 256 * c
def CC_GROUPS_HI.GROUP (c : Nat) : Fld := ⟨CC_GROUPS_HI.off c, 31, 0⟩
/-- `CC_RSRC` (10_fabric_and_decisions.md): offset into BAR0. -/
def CC_RSRC.off (c : Nat) : Nat := 0xB002C + 256 * c
def CC_RSRC.SRC (c : Nat) : Fld := ⟨CC_RSRC.off c, 19, 0⟩
/-- `CC_NOTICE_CFG` (10_fabric_and_decisions.md): offset into BAR0. -/
def CC_NOTICE_CFG.off (c : Nat) : Nat := 0xB0030 + 256 * c
def CC_NOTICE_CFG.MB_DISC (c : Nat) : Fld := ⟨CC_NOTICE_CFG.off c, 3, 3⟩
def CC_NOTICE_CFG.CORRUPT (c : Nat) : Fld := ⟨CC_NOTICE_CFG.off c, 2, 2⟩
def CC_NOTICE_CFG.PORT_LOST (c : Nat) : Fld := ⟨CC_NOTICE_CFG.off c, 1, 1⟩
def CC_NOTICE_CFG.IN_DROP (c : Nat) : Fld := ⟨CC_NOTICE_CFG.off c, 0, 0⟩
/-- `CC_GATE_STAT` (10_fabric_and_decisions.md): offset into BAR0. -/
def CC_GATE_STAT.off (c : Nat) : Nat := 0xB0034 + 256 * c
def CC_GATE_STAT.OPEN (c : Nat) : Fld := ⟨CC_GATE_STAT.off c, 0, 0⟩
/-- `CC_IN_LATE_CNT` (10_fabric_and_decisions.md): offset into BAR0. -/
def CC_IN_LATE_CNT.off (c : Nat) : Nat := 0xB0038 + 256 * c
def CC_IN_LATE_CNT.COUNT (c : Nat) : Fld := ⟨CC_IN_LATE_CNT.off c, 31, 0⟩
/-- `CC_FAB_GRANT_LO` (10_fabric_and_decisions.md): offset into BAR0. -/
def CC_FAB_GRANT_LO.off : Nat := 0xB1000
def CC_FAB_GRANT_LO.COUNT : Fld := ⟨CC_FAB_GRANT_LO.off, 31, 0⟩
/-- `CC_FAB_GRANT_HI` (10_fabric_and_decisions.md): offset into BAR0. -/
def CC_FAB_GRANT_HI.off : Nat := 0xB1004
def CC_FAB_GRANT_HI.COUNT : Fld := ⟨CC_FAB_GRANT_HI.off, 31, 0⟩
/-- `CC_FAB_LATE_CNT` (10_fabric_and_decisions.md): offset into BAR0. -/
def CC_FAB_LATE_CNT.off : Nat := 0xB1008
def CC_FAB_LATE_CNT.COUNT : Fld := ⟨CC_FAB_LATE_CNT.off, 31, 0⟩
/-- `CC_FAB_WAIT_MAX` (10_fabric_and_decisions.md): offset into BAR0. -/
def CC_FAB_WAIT_MAX.off : Nat := 0xB100C
def CC_FAB_WAIT_MAX.CLR : Fld := ⟨CC_FAB_WAIT_MAX.off, 31, 31⟩
def CC_FAB_WAIT_MAX.SRC : Fld := ⟨CC_FAB_WAIT_MAX.off, 23, 16⟩
def CC_FAB_WAIT_MAX.MAX : Fld := ⟨CC_FAB_WAIT_MAX.off, 8, 0⟩
/-- `CC_DQ_OCC` (10_fabric_and_decisions.md): offset into BAR0. -/
def CC_DQ_OCC.off (d : Nat) : Nat := 0xB2000 + 16 * d
def CC_DQ_OCC.PEAK (d : Nat) : Fld := ⟨CC_DQ_OCC.off d, 26, 16⟩
def CC_DQ_OCC.PEAK_CLR (d : Nat) : Fld := ⟨CC_DQ_OCC.off d, 15, 15⟩
def CC_DQ_OCC.OCC (d : Nat) : Fld := ⟨CC_DQ_OCC.off d, 10, 0⟩
/-- `CC_DQ_LOST_CNT` (10_fabric_and_decisions.md): offset into BAR0. -/
def CC_DQ_LOST_CNT.off (d : Nat) : Nat := 0xB2004 + 16 * d
def CC_DQ_LOST_CNT.COUNT (d : Nat) : Fld := ⟨CC_DQ_LOST_CNT.off d, 31, 0⟩
/-- `CC_DQ_STAT` (10_fabric_and_decisions.md): offset into BAR0. -/
def CC_DQ_STAT.off (d : Nat) : Nat := 0xB2008 + 16 * d
def CC_DQ_STAT.Q_LOST (d : Nat) : Fld := ⟨CC_DQ_STAT.off d, 0, 0⟩

/-- The register map of block 11 (CC). -/
def regsCC : List RegRow :=
[
   ⟨0xB0000, 16, 256, 1, 4, .none, [⟨4, 4, .sts, 0⟩, ⟨3, 3, .sts, 0⟩, ⟨2, 2, .sts, 0⟩, ⟨1, 1, .sts, 0⟩, ⟨0, 0, .sts, 0⟩]⟩,
   ⟨0xB0004, 16, 256, 1, 4, .none, [⟨21, 16, .ro, 0⟩, ⟨15, 15, .cmd, 0⟩, ⟨5, 0, .ro, 0⟩]⟩,
   ⟨0xB0008, 16, 256, 1, 4, .none, [⟨31, 0, .cnt, 0⟩]⟩,
   ⟨0xB000C, 16, 256, 1, 4, .none, [⟨31, 0, .cnt, 0⟩]⟩,
   ⟨0xB0010, 16, 256, 1, 4, .none, [⟨31, 0, .cnt, 0⟩]⟩,
   ⟨0xB0014, 16, 256, 1, 4, .none, [⟨31, 0, .sts, 0⟩]⟩,
   ⟨0xB0018, 16, 256, 1, 4, .none, [⟨15, 0, .cnt, 0⟩]⟩,
   ⟨0xB001C, 16, 256, 1, 4, .none, [⟨15, 0, .ro, 0⟩]⟩,
   ⟨0xB0020, 16, 256, 1, 4, .none, [⟨31, 0, .cnt, 0⟩]⟩,
   ⟨0xB0024, 16, 256, 1, 4, .none, [⟨31, 0, .ro, 0⟩]⟩,
   ⟨0xB0028, 16, 256, 1, 4, .none, [⟨31, 0, .ro, 0⟩]⟩,
   ⟨0xB002C, 16, 256, 1, 4, .none, [⟨19, 0, .ro, 0⟩]⟩]
  ++ [
   ⟨0xB0030, 16, 256, 1, 4, .none, [⟨3, 3, .live, 1⟩, ⟨2, 2, .live, 1⟩, ⟨1, 1, .live, 1⟩, ⟨0, 0, .live, 1⟩]⟩,
   ⟨0xB0034, 16, 256, 1, 4, .none, [⟨0, 0, .ro, 0⟩]⟩,
   ⟨0xB0038, 16, 256, 1, 4, .none, [⟨31, 0, .cnt, 0⟩]⟩,
   ⟨0xB1000, 1, 4, 1, 4, .lo, [⟨31, 0, .cnt, 0⟩]⟩,
   ⟨0xB1004, 1, 4, 1, 4, .hi, [⟨31, 0, .cnt, 0⟩]⟩,
   ⟨0xB1008, 1, 4, 1, 4, .none, [⟨31, 0, .cnt, 0⟩]⟩,
   ⟨0xB100C, 1, 4, 1, 4, .none, [⟨31, 31, .cmd, 0⟩, ⟨23, 16, .ro, 0⟩, ⟨8, 0, .ro, 0⟩]⟩,
   ⟨0xB2000, 20, 16, 1, 4, .none, [⟨26, 16, .ro, 0⟩, ⟨15, 15, .cmd, 0⟩, ⟨10, 0, .ro, 0⟩]⟩,
   ⟨0xB2004, 20, 16, 1, 4, .none, [⟨31, 0, .cnt, 0⟩]⟩,
   ⟨0xB2008, 20, 16, 1, 4, .none, [⟨0, 0, .sts, 0⟩]⟩]

/-! ## Block 12, MU -/

/-- `MU_CFG` (08_measurements.md): offset into BAR0. -/
def MU_CFG.off (u : Nat) : Nat := 0xC0000 + 256 * u
def MU_CFG.MODE (u : Nat) : Fld := ⟨MU_CFG.off u, 27, 24⟩
def MU_CFG.SIGNED (u : Nat) : Fld := ⟨MU_CFG.off u, 23, 23⟩
def MU_CFG.STAT_SRC (u : Nat) : Fld := ⟨MU_CFG.off u, 22, 22⟩
def MU_CFG.WITH_T (u : Nat) : Fld := ⟨MU_CFG.off u, 21, 21⟩
def MU_CFG.EMIT (u : Nat) : Fld := ⟨MU_CFG.off u, 20, 20⟩
def MU_CFG.PEND (u : Nat) : Fld := ⟨MU_CFG.off u, 19, 16⟩
def MU_CFG.EDGE_B (u : Nat) : Fld := ⟨MU_CFG.off u, 11, 10⟩
def MU_CFG.EDGE_A (u : Nat) : Fld := ⟨MU_CFG.off u, 9, 8⟩
/-- `MU_LANES` (08_measurements.md): offset into BAR0. -/
def MU_LANES.off (u : Nat) : Nat := 0xC0004 + 256 * u
def MU_LANES.LANE_B (u : Nat) : Fld := ⟨MU_LANES.off u, 25, 16⟩
def MU_LANES.LANE_A (u : Nat) : Fld := ⟨MU_LANES.off u, 9, 0⟩
/-- `MU_ARM_CFG` (08_measurements.md): offset into BAR0. -/
def MU_ARM_CFG.off (u : Nat) : Nat := 0xC0008 + 256 * u
def MU_ARM_CFG.REPEAT (u : Nat) : Fld := ⟨MU_ARM_CFG.off u, 31, 31⟩
def MU_ARM_CFG.GSRC (u : Nat) : Fld := ⟨MU_ARM_CFG.off u, 17, 16⟩
def MU_ARM_CFG.GSEL (u : Nat) : Fld := ⟨MU_ARM_CFG.off u, 9, 0⟩
/-- `MU_GATE_LEN_LO` (08_measurements.md): offset into BAR0. -/
def MU_GATE_LEN_LO.off (u : Nat) : Nat := 0xC000C + 256 * u
def MU_GATE_LEN_LO.LEN (u : Nat) : Fld := ⟨MU_GATE_LEN_LO.off u, 31, 0⟩
/-- `MU_GATE_LEN_HI` (08_measurements.md): offset into BAR0. -/
def MU_GATE_LEN_HI.off (u : Nat) : Nat := 0xC0010 + 256 * u
def MU_GATE_LEN_HI.LEN (u : Nat) : Fld := ⟨MU_GATE_LEN_HI.off u, 31, 0⟩
/-- `MU_NMAX_LO` (08_measurements.md): offset into BAR0. -/
def MU_NMAX_LO.off (u : Nat) : Nat := 0xC0014 + 256 * u
def MU_NMAX_LO.NMAX (u : Nat) : Fld := ⟨MU_NMAX_LO.off u, 31, 0⟩
/-- `MU_NMAX_HI` (08_measurements.md): offset into BAR0. -/
def MU_NMAX_HI.off (u : Nat) : Nat := 0xC0018 + 256 * u
def MU_NMAX_HI.NMAX (u : Nat) : Fld := ⟨MU_NMAX_HI.off u, 7, 0⟩
/-- `MU_CMD` (08_measurements.md): offset into BAR0. -/
def MU_CMD.off (u : Nat) : Nat := 0xC001C + 256 * u
def MU_CMD.CLOSE (u : Nat) : Fld := ⟨MU_CMD.off u, 2, 2⟩
def MU_CMD.DISARM (u : Nat) : Fld := ⟨MU_CMD.off u, 1, 1⟩
def MU_CMD.ARM (u : Nat) : Fld := ⟨MU_CMD.off u, 0, 0⟩
/-- `MU_STAT` (08_measurements.md): offset into BAR0. -/
def MU_STAT.off (u : Nat) : Nat := 0xC0020 + 256 * u
def MU_STAT.OPEN_REFUSED (u : Nat) : Fld := ⟨MU_STAT.off u, 9, 9⟩
def MU_STAT.LATE (u : Nat) : Fld := ⟨MU_STAT.off u, 8, 8⟩
def MU_STAT.ORDER (u : Nat) : Fld := ⟨MU_STAT.off u, 7, 7⟩
def MU_STAT.CORRUPT (u : Nat) : Fld := ⟨MU_STAT.off u, 6, 6⟩
def MU_STAT.LIMIT (u : Nat) : Fld := ⟨MU_STAT.off u, 5, 5⟩
def MU_STAT.ABORTED (u : Nat) : Fld := ⟨MU_STAT.off u, 4, 4⟩
def MU_STAT.DONE (u : Nat) : Fld := ⟨MU_STAT.off u, 3, 3⟩
def MU_STAT.FINISHING (u : Nat) : Fld := ⟨MU_STAT.off u, 2, 2⟩
def MU_STAT.OPEN (u : Nat) : Fld := ⟨MU_STAT.off u, 1, 1⟩
def MU_STAT.ARMED (u : Nat) : Fld := ⟨MU_STAT.off u, 0, 0⟩
/-- `MU_START_DISC_CNT` (08_measurements.md): offset into BAR0. -/
def MU_START_DISC_CNT.off (u : Nat) : Nat := 0xC0024 + 256 * u
def MU_START_DISC_CNT.COUNT (u : Nat) : Fld := ⟨MU_START_DISC_CNT.off u, 31, 0⟩
/-- `MU_STOP_DISC_CNT` (08_measurements.md): offset into BAR0. -/
def MU_STOP_DISC_CNT.off (u : Nat) : Nat := 0xC0028 + 256 * u
def MU_STOP_DISC_CNT.COUNT (u : Nat) : Fld := ⟨MU_STOP_DISC_CNT.off u, 31, 0⟩
/-- `MU_CORRUPT_CNT` (08_measurements.md): offset into BAR0. -/
def MU_CORRUPT_CNT.off (u : Nat) : Nat := 0xC002C + 256 * u
def MU_CORRUPT_CNT.COUNT (u : Nat) : Fld := ⟨MU_CORRUPT_CNT.off u, 31, 0⟩
/-- `MU_RESULT_CNT` (08_measurements.md): offset into BAR0. -/
def MU_RESULT_CNT.off (u : Nat) : Nat := 0xC0030 + 256 * u
def MU_RESULT_CNT.COUNT (u : Nat) : Fld := ⟨MU_RESULT_CNT.off u, 31, 0⟩
/-- `MU_OPEN_REFUSED_CNT` (08_measurements.md): offset into BAR0. -/
def MU_OPEN_REFUSED_CNT.off (u : Nat) : Nat := 0xC0034 + 256 * u
def MU_OPEN_REFUSED_CNT.COUNT (u : Nat) : Fld := ⟨MU_OPEN_REFUSED_CNT.off u, 15, 0⟩
/-- `MU_RES_LO` (08_measurements.md): offset into BAR0. -/
def MU_RES_LO.off (u : Nat) (i : Nat) : Nat := 0xC0040 + 256 * u + 8 * i
def MU_RES_LO.VALUE (u : Nat) (i : Nat) : Fld := ⟨MU_RES_LO.off u i, 31, 0⟩
/-- `MU_RES_HI` (08_measurements.md): offset into BAR0. -/
def MU_RES_HI.off (u : Nat) (i : Nat) : Nat := 0xC0044 + 256 * u + 8 * i
def MU_RES_HI.SEQ (u : Nat) (i : Nat) : Fld := ⟨MU_RES_HI.off u i, 31, 24⟩
def MU_RES_HI.VALUE (u : Nat) (i : Nat) : Fld := ⟨MU_RES_HI.off u i, 23, 0⟩
/-- `MU_BANK_LOST_CNT` (08_measurements.md): offset into BAR0. -/
def MU_BANK_LOST_CNT.off (b : Nat) : Nat := 0xC4000 + 16 * b
def MU_BANK_LOST_CNT.COUNT (b : Nat) : Fld := ⟨MU_BANK_LOST_CNT.off b, 31, 0⟩
/-- `MU_BANK_SEQ` (08_measurements.md): offset into BAR0. -/
def MU_BANK_SEQ.off (b : Nat) : Nat := 0xC4004 + 16 * b
def MU_BANK_SEQ.SEQ (b : Nat) : Fld := ⟨MU_BANK_SEQ.off b, 15, 0⟩
/-- `MU_BANK_OCC` (08_measurements.md): offset into BAR0. -/
def MU_BANK_OCC.off (b : Nat) : Nat := 0xC4008 + 16 * b
def MU_BANK_OCC.PEAK (b : Nat) : Fld := ⟨MU_BANK_OCC.off b, 23, 16⟩
def MU_BANK_OCC.OCC (b : Nat) : Fld := ⟨MU_BANK_OCC.off b, 7, 0⟩
/-- `MU_BANK_CREDIT_WAIT_CNT` (08_measurements.md): offset into BAR0. -/
def MU_BANK_CREDIT_WAIT_CNT.off (b : Nat) : Nat := 0xC400C + 16 * b
def MU_BANK_CREDIT_WAIT_CNT.COUNT (b : Nat) : Fld := ⟨MU_BANK_CREDIT_WAIT_CNT.off b, 31, 0⟩

/-- The register map of block 12 (MU). -/
def regsMU : List RegRow :=
[
   ⟨0xC0000, 64, 256, 1, 4, .none, [⟨27, 24, .cfg, 0⟩, ⟨23, 23, .cfg, 0⟩, ⟨22, 22, .cfg, 0⟩, ⟨21, 21, .cfg, 0⟩, ⟨20, 20, .cfg, 0⟩, ⟨19, 16, .cfg, 0⟩, ⟨11, 10, .cfg, 3⟩, ⟨9, 8, .cfg, 3⟩]⟩,
   ⟨0xC0004, 64, 256, 1, 4, .none, [⟨25, 16, .cfg, 0⟩, ⟨9, 0, .cfg, 0⟩]⟩,
   ⟨0xC0008, 64, 256, 1, 4, .none, [⟨31, 31, .cfg, 0⟩, ⟨17, 16, .cfg, 0⟩, ⟨9, 0, .cfg, 0⟩]⟩,
   ⟨0xC000C, 64, 256, 1, 4, .lo, [⟨31, 0, .cfg, 0⟩]⟩,
   ⟨0xC0010, 64, 256, 1, 4, .hi, [⟨31, 0, .cfg, 0⟩]⟩,
   ⟨0xC0014, 64, 256, 1, 4, .lo, [⟨31, 0, .cfg, 0⟩]⟩,
   ⟨0xC0018, 64, 256, 1, 4, .hi, [⟨7, 0, .cfg, 0⟩]⟩,
   ⟨0xC001C, 64, 256, 1, 4, .none, [⟨2, 2, .cmd, 0⟩, ⟨1, 1, .cmd, 0⟩, ⟨0, 0, .cmd, 0⟩]⟩,
   ⟨0xC0020, 64, 256, 1, 4, .none, [⟨9, 9, .sts, 0⟩, ⟨8, 8, .sts, 0⟩, ⟨7, 7, .sts, 0⟩, ⟨6, 6, .sts, 0⟩, ⟨5, 5, .sts, 0⟩, ⟨4, 4, .sts, 0⟩, ⟨3, 3, .sts, 0⟩, ⟨2, 2, .ro, 0⟩, ⟨1, 1, .ro, 0⟩, ⟨0, 0, .ro, 0⟩]⟩,
   ⟨0xC0024, 64, 256, 1, 4, .none, [⟨31, 0, .cnt, 0⟩]⟩,
   ⟨0xC0028, 64, 256, 1, 4, .none, [⟨31, 0, .cnt, 0⟩]⟩,
   ⟨0xC002C, 64, 256, 1, 4, .none, [⟨31, 0, .cnt, 0⟩]⟩]
  ++ [
   ⟨0xC0030, 64, 256, 1, 4, .none, [⟨31, 0, .cnt, 0⟩]⟩,
   ⟨0xC0034, 64, 256, 1, 4, .none, [⟨15, 0, .cnt, 0⟩]⟩,
   ⟨0xC0040, 64, 256, 24, 8, .lo, [⟨31, 0, .ro, 0⟩]⟩,
   ⟨0xC0044, 64, 256, 24, 8, .hi, [⟨31, 24, .ro, 0⟩, ⟨23, 0, .ro, 0⟩]⟩,
   ⟨0xC4000, 4, 16, 1, 4, .none, [⟨31, 0, .cnt, 0⟩]⟩,
   ⟨0xC4004, 4, 16, 1, 4, .none, [⟨15, 0, .ro, 0⟩]⟩,
   ⟨0xC4008, 4, 16, 1, 4, .none, [⟨23, 16, .ro, 0⟩, ⟨7, 0, .ro, 0⟩]⟩,
   ⟨0xC400C, 4, 16, 1, 4, .none, [⟨31, 0, .cnt, 0⟩]⟩]

/-! ## Block 13, MC -/

/-- `MC_CMD` (11_capture_memory.md): offset into BAR0. -/
def MC_CMD.off (n : Nat) : Nat := 0xD0000 + 256 * n
def MC_CMD.TRAIN (n : Nat) : Fld := ⟨MC_CMD.off n, 31, 31⟩
def MC_CMD.RETIRE (n : Nat) : Fld := ⟨MC_CMD.off n, 30, 30⟩
/-- `MC_STAT` (11_capture_memory.md): offset into BAR0. -/
def MC_STAT.off (n : Nat) : Nat := 0xD0004 + 256 * n
def MC_STAT.SIZE (n : Nat) : Fld := ⟨MC_STAT.off n, 31, 25⟩
def MC_STAT.UE (n : Nat) : Fld := ⟨MC_STAT.off n, 8, 8⟩
def MC_STAT.CE (n : Nat) : Fld := ⟨MC_STAT.off n, 7, 7⟩
def MC_STAT.RETIRE_REF (n : Nat) : Fld := ⟨MC_STAT.off n, 6, 6⟩
def MC_STAT.TRAIN_FAIL (n : Nat) : Fld := ⟨MC_STAT.off n, 5, 5⟩
def MC_STAT.RETIRED (n : Nat) : Fld := ⟨MC_STAT.off n, 4, 4⟩
def MC_STAT.TRAINING (n : Nat) : Fld := ⟨MC_STAT.off n, 3, 3⟩
def MC_STAT.TRAINED (n : Nat) : Fld := ⟨MC_STAT.off n, 2, 2⟩
def MC_STAT.SPD (n : Nat) : Fld := ⟨MC_STAT.off n, 1, 1⟩
def MC_STAT.PRESENT (n : Nat) : Fld := ⟨MC_STAT.off n, 0, 0⟩
/-- `MC_ORG` (11_capture_memory.md): offset into BAR0. -/
def MC_ORG.off (n : Nat) : Nat := 0xD0008 + 256 * n
def MC_ORG.SPEED (n : Nat) : Fld := ⟨MC_ORG.off n, 31, 30⟩
def MC_ORG.FORM (n : Nat) : Fld := ⟨MC_ORG.off n, 29, 29⟩
def MC_ORG.RANKS (n : Nat) : Fld := ⟨MC_ORG.off n, 17, 16⟩
def MC_ORG.DENSITY (n : Nat) : Fld := ⟨MC_ORG.off n, 15, 14⟩
def MC_ORG.WIDTH (n : Nat) : Fld := ⟨MC_ORG.off n, 13, 13⟩
/-- `MC_SHARE` (11_capture_memory.md): offset into BAR0. -/
def MC_SHARE.off (n : Nat) : Nat := 0xD000C + 256 * n
def MC_SHARE.CP (n : Nat) : Fld := ⟨MC_SHARE.off n, 27, 24⟩
def MC_SHARE.RD (n : Nat) : Fld := ⟨MC_SHARE.off n, 23, 20⟩
def MC_SHARE.WR (n : Nat) : Fld := ⟨MC_SHARE.off n, 19, 16⟩
def MC_SHARE.PG_CAP (n : Nat) : Fld := ⟨MC_SHARE.off n, 15, 0⟩
/-- `MC_SCRUB` (11_capture_memory.md): offset into BAR0. -/
def MC_SCRUB.off (n : Nat) : Nat := 0xD0010 + 256 * n
def MC_SCRUB.EN (n : Nat) : Fld := ⟨MC_SCRUB.off n, 31, 31⟩
def MC_SCRUB.PERIOD (n : Nat) : Fld := ⟨MC_SCRUB.off n, 7, 0⟩
/-- `MC_CE_CNT` (11_capture_memory.md): offset into BAR0. -/
def MC_CE_CNT.off (n : Nat) : Nat := 0xD0014 + 256 * n
def MC_CE_CNT.COUNT (n : Nat) : Fld := ⟨MC_CE_CNT.off n, 31, 0⟩
/-- `MC_UE_CNT` (11_capture_memory.md): offset into BAR0. -/
def MC_UE_CNT.off (n : Nat) : Nat := 0xD0018 + 256 * n
def MC_UE_CNT.COUNT (n : Nat) : Fld := ⟨MC_UE_CNT.off n, 31, 0⟩
/-- `MC_ERR_LO` (11_capture_memory.md): offset into BAR0. -/
def MC_ERR_LO.off (n : Nat) : Nat := 0xD001C + 256 * n
def MC_ERR_LO.OFFSET (n : Nat) : Fld := ⟨MC_ERR_LO.off n, 31, 0⟩
/-- `MC_ERR_HI` (11_capture_memory.md): offset into BAR0. -/
def MC_ERR_HI.off (n : Nat) : Nat := 0xD0020 + 256 * n
def MC_ERR_HI.UE (n : Nat) : Fld := ⟨MC_ERR_HI.off n, 31, 31⟩
def MC_ERR_HI.SRC (n : Nat) : Fld := ⟨MC_ERR_HI.off n, 30, 29⟩
def MC_ERR_HI.OFFSET (n : Nat) : Fld := ⟨MC_ERR_HI.off n, 3, 0⟩
/-- `MC_IL_CFG` (11_capture_memory.md): offset into BAR0. -/
def MC_IL_CFG.off (s : Nat) : Nat := 0xD1000 + 16 * s
def MC_IL_CFG.INUSE (s : Nat) : Fld := ⟨MC_IL_CFG.off s, 31, 31⟩
def MC_IL_CFG.VALID (s : Nat) : Fld := ⟨MC_IL_CFG.off s, 30, 30⟩
def MC_IL_CFG.MEMBERS (s : Nat) : Fld := ⟨MC_IL_CFG.off s, 3, 0⟩
/-- `MC_IL_BASE` (11_capture_memory.md): offset into BAR0. -/
def MC_IL_BASE.off (s : Nat) : Nat := 0xD1004 + 16 * s
def MC_IL_BASE.VALUE (s : Nat) : Fld := ⟨MC_IL_BASE.off s, 24, 0⟩
/-- `MC_IL_LEN` (11_capture_memory.md): offset into BAR0. -/
def MC_IL_LEN.off (s : Nat) : Nat := 0xD1008 + 16 * s
def MC_IL_LEN.VALUE (s : Nat) : Fld := ⟨MC_IL_LEN.off s, 24, 0⟩

/-- The register map of block 13 (MC). -/
def regsMC : List RegRow :=
[
   ⟨0xD0000, 4, 256, 1, 4, .none, [⟨31, 31, .cmd, 0⟩, ⟨30, 30, .cmd, 0⟩]⟩,
   ⟨0xD0004, 4, 256, 1, 4, .none, [⟨31, 25, .ro, 0⟩, ⟨8, 8, .sts, 0⟩, ⟨7, 7, .sts, 0⟩, ⟨6, 6, .sts, 0⟩, ⟨5, 5, .sts, 0⟩, ⟨4, 4, .ro, 0⟩, ⟨3, 3, .ro, 0⟩, ⟨2, 2, .ro, 0⟩, ⟨1, 1, .ro, 0⟩, ⟨0, 0, .ro, 0⟩]⟩,
   ⟨0xD0008, 4, 256, 1, 4, .none, [⟨31, 30, .live, 0⟩, ⟨29, 29, .live, 0⟩, ⟨17, 16, .live, 0⟩, ⟨15, 14, .live, 0⟩, ⟨13, 13, .live, 0⟩]⟩,
   ⟨0xD000C, 4, 256, 1, 4, .none, [⟨27, 24, .cfg, 2⟩, ⟨23, 20, .cfg, 4⟩, ⟨19, 16, .cfg, 10⟩, ⟨15, 0, .cfg, 128⟩]⟩,
   ⟨0xD0010, 4, 256, 1, 4, .none, [⟨31, 31, .cfg, 1⟩, ⟨7, 0, .cfg, 24⟩]⟩,
   ⟨0xD0014, 4, 256, 1, 4, .none, [⟨31, 0, .cnt, 0⟩]⟩,
   ⟨0xD0018, 4, 256, 1, 4, .none, [⟨31, 0, .cnt, 0⟩]⟩,
   ⟨0xD001C, 4, 256, 1, 4, .lo, [⟨31, 0, .ro, 0⟩]⟩,
   ⟨0xD0020, 4, 256, 1, 4, .hi, [⟨31, 31, .ro, 0⟩, ⟨30, 29, .ro, 0⟩, ⟨3, 0, .ro, 0⟩]⟩,
   ⟨0xD1000, 4, 16, 1, 4, .none, [⟨31, 31, .ro, 0⟩, ⟨30, 30, .ro, 0⟩, ⟨3, 0, .live, 0⟩]⟩,
   ⟨0xD1004, 4, 16, 1, 4, .none, [⟨24, 0, .live, 0⟩]⟩,
   ⟨0xD1008, 4, 16, 1, 4, .none, [⟨24, 0, .live, 0⟩]⟩]

/-! ## Block 14, CR -/

/-- `CR_CFG` (11_capture_memory.md): offset into BAR0. -/
def CR_CFG.off (r : Nat) : Nat := 0xE0000 + 256 * r
def CR_CFG.NOTICE_EN (r : Nat) : Fld := ⟨CR_CFG.off r, 31, 31⟩
def CR_CFG.BIND (r : Nat) : Fld := ⟨CR_CFG.off r, 10, 8⟩
def CR_CFG.AUTO_REL (r : Nat) : Fld := ⟨CR_CFG.off r, 1, 1⟩
def CR_CFG.MODE (r : Nat) : Fld := ⟨CR_CFG.off r, 0, 0⟩
/-- `CR_BASE` (11_capture_memory.md): offset into BAR0. -/
def CR_BASE.off (r : Nat) : Nat := 0xE0004 + 256 * r
def CR_BASE.VALUE (r : Nat) : Fld := ⟨CR_BASE.off r, 26, 0⟩
/-- `CR_SIZE` (11_capture_memory.md): offset into BAR0. -/
def CR_SIZE.off (r : Nat) : Nat := 0xE0008 + 256 * r
def CR_SIZE.VALUE (r : Nat) : Fld := ⟨CR_SIZE.off r, 26, 0⟩
/-- `CR_SRC_LO` (11_capture_memory.md): offset into BAR0. -/
def CR_SRC_LO.off (r : Nat) : Nat := 0xE000C + 256 * r
def CR_SRC_LO.SRC (r : Nat) : Fld := ⟨CR_SRC_LO.off r, 31, 0⟩
/-- `CR_SRC_HI` (11_capture_memory.md): offset into BAR0. -/
def CR_SRC_HI.off (r : Nat) : Nat := 0xE0010 + 256 * r
def CR_SRC_HI.SRC (r : Nat) : Fld := ⟨CR_SRC_HI.off r, 31, 0⟩
/-- `CR_SRC_DQ` (11_capture_memory.md): offset into BAR0. -/
def CR_SRC_DQ.off (r : Nat) : Nat := 0xE0014 + 256 * r
def CR_SRC_DQ.SRC (r : Nat) : Fld := ⟨CR_SRC_DQ.off r, 31, 0⟩
/-- `CR_LOOKBACK` (11_capture_memory.md): offset into BAR0. -/
def CR_LOOKBACK.off (r : Nat) : Nat := 0xE0018 + 256 * r
def CR_LOOKBACK.TILES (r : Nat) : Fld := ⟨CR_LOOKBACK.off r, 31, 0⟩
/-- `CR_REPLAY` (11_capture_memory.md): offset into BAR0. -/
def CR_REPLAY.off (r : Nat) : Nat := 0xE001C + 256 * r
def CR_REPLAY.HRING (r : Nat) : Fld := ⟨CR_REPLAY.off r, 5, 0⟩
/-- `CR_MIG` (11_capture_memory.md): offset into BAR0. -/
def CR_MIG.off (r : Nat) : Nat := 0xE0020 + 256 * r
def CR_MIG.BIND (r : Nat) : Fld := ⟨CR_MIG.off r, 29, 27⟩
def CR_MIG.BASE (r : Nat) : Fld := ⟨CR_MIG.off r, 25, 0⟩
/-- `CR_CMD` (11_capture_memory.md): offset into BAR0. -/
def CR_CMD.off (r : Nat) : Nat := 0xE0024 + 256 * r
def CR_CMD.START (r : Nat) : Fld := ⟨CR_CMD.off r, 31, 31⟩
def CR_CMD.STOP (r : Nat) : Fld := ⟨CR_CMD.off r, 30, 30⟩
def CR_CMD.MARK (r : Nat) : Fld := ⟨CR_CMD.off r, 29, 29⟩
def CR_CMD.RELEASE (r : Nat) : Fld := ⟨CR_CMD.off r, 28, 28⟩
def CR_CMD.REPLAY (r : Nat) : Fld := ⟨CR_CMD.off r, 27, 27⟩
def CR_CMD.MIGRATE (r : Nat) : Fld := ⟨CR_CMD.off r, 26, 26⟩
/-- `CR_STAT` (11_capture_memory.md): offset into BAR0. -/
def CR_STAT.off (r : Nat) : Nat := 0xE0028 + 256 * r
def CR_STAT.REF_CODE (r : Nat) : Fld := ⟨CR_STAT.off r, 18, 16⟩
def CR_STAT.CORRUPT (r : Nat) : Fld := ⟨CR_STAT.off r, 11, 11⟩
def CR_STAT.CFG_ERR (r : Nat) : Fld := ⟨CR_STAT.off r, 10, 10⟩
def CR_STAT.CMD_REF (r : Nat) : Fld := ⟨CR_STAT.off r, 9, 9⟩
def CR_STAT.MARK_OVERRUN (r : Nat) : Fld := ⟨CR_STAT.off r, 8, 8⟩
def CR_STAT.MIGRATING (r : Nat) : Fld := ⟨CR_STAT.off r, 4, 4⟩
def CR_STAT.REPLAYING (r : Nat) : Fld := ⟨CR_STAT.off r, 3, 3⟩
def CR_STAT.STALLED (r : Nat) : Fld := ⟨CR_STAT.off r, 2, 2⟩
def CR_STAT.MARK_SET (r : Nat) : Fld := ⟨CR_STAT.off r, 1, 1⟩
def CR_STAT.RUNNING (r : Nat) : Fld := ⟨CR_STAT.off r, 0, 0⟩
/-- `CR_WP` (11_capture_memory.md): offset into BAR0. -/
def CR_WP.off (r : Nat) : Nat := 0xE002C + 256 * r
def CR_WP.VALUE (r : Nat) : Fld := ⟨CR_WP.off r, 31, 0⟩
/-- `CR_MARK` (11_capture_memory.md): offset into BAR0. -/
def CR_MARK.off (r : Nat) : Nat := 0xE0030 + 256 * r
def CR_MARK.VALUE (r : Nat) : Fld := ⟨CR_MARK.off r, 31, 0⟩
/-- `CR_FILL` (11_capture_memory.md): offset into BAR0. -/
def CR_FILL.off (r : Nat) : Nat := 0xE0034 + 256 * r
def CR_FILL.VALUE (r : Nat) : Fld := ⟨CR_FILL.off r, 31, 0⟩
/-- `CR_BIND_RD` (11_capture_memory.md): offset into BAR0. -/
def CR_BIND_RD.off (r : Nat) : Nat := 0xE0038 + 256 * r
def CR_BIND_RD.BIND (r : Nat) : Fld := ⟨CR_BIND_RD.off r, 29, 27⟩
def CR_BIND_RD.BASE (r : Nat) : Fld := ⟨CR_BIND_RD.off r, 25, 0⟩
/-- `CR_SKIP_CNT` (11_capture_memory.md): offset into BAR0. -/
def CR_SKIP_CNT.off (r : Nat) : Nat := 0xE003C + 256 * r
def CR_SKIP_CNT.COUNT (r : Nat) : Fld := ⟨CR_SKIP_CNT.off r, 31, 0⟩
/-- `CR_DROP_CNT` (11_capture_memory.md): offset into BAR0. -/
def CR_DROP_CNT.off (r : Nat) : Nat := 0xE0040 + 256 * r
def CR_DROP_CNT.COUNT (r : Nat) : Fld := ⟨CR_DROP_CNT.off r, 31, 0⟩
/-- `CR_CORRUPT_CNT` (11_capture_memory.md): offset into BAR0. -/
def CR_CORRUPT_CNT.off (r : Nat) : Nat := 0xE0044 + 256 * r
def CR_CORRUPT_CNT.COUNT (r : Nat) : Fld := ⟨CR_CORRUPT_CNT.off r, 31, 0⟩
/-- `CR_MARK_IGN_CNT` (11_capture_memory.md): offset into BAR0. -/
def CR_MARK_IGN_CNT.off (r : Nat) : Nat := 0xE0048 + 256 * r
def CR_MARK_IGN_CNT.COUNT (r : Nat) : Fld := ⟨CR_MARK_IGN_CNT.off r, 31, 0⟩
/-- `CR_FILL_LOST_CNT` (11_capture_memory.md): offset into BAR0. -/
def CR_FILL_LOST_CNT.off (r : Nat) : Nat := 0xE004C + 256 * r
def CR_FILL_LOST_CNT.COUNT (r : Nat) : Fld := ⟨CR_FILL_LOST_CNT.off r, 31, 0⟩
/-- `CR_HELD` (11_capture_memory.md): offset into BAR0. -/
def CR_HELD.off (r : Nat) : Nat := 0xE0050 + 256 * r
def CR_HELD.K (r : Nat) : Fld := ⟨CR_HELD.off r, 31, 0⟩

/-- The register map of block 14 (CR). -/
def regsCR : List RegRow :=
[
   ⟨0xE0000, 16, 256, 1, 4, .none, [⟨31, 31, .cfg, 1⟩, ⟨10, 8, .cfg, 0⟩, ⟨1, 1, .cfg, 0⟩, ⟨0, 0, .cfg, 0⟩]⟩,
   ⟨0xE0004, 16, 256, 1, 4, .none, [⟨26, 0, .cfg, 0⟩]⟩,
   ⟨0xE0008, 16, 256, 1, 4, .none, [⟨26, 0, .cfg, 0⟩]⟩,
   ⟨0xE000C, 16, 256, 1, 4, .none, [⟨31, 0, .cfg, 0⟩]⟩,
   ⟨0xE0010, 16, 256, 1, 4, .none, [⟨31, 0, .cfg, 0⟩]⟩,
   ⟨0xE0014, 16, 256, 1, 4, .none, [⟨31, 0, .cfg, 0⟩]⟩,
   ⟨0xE0018, 16, 256, 1, 4, .none, [⟨31, 0, .cfg, 0⟩]⟩,
   ⟨0xE001C, 16, 256, 1, 4, .none, [⟨5, 0, .live, 0⟩]⟩,
   ⟨0xE0020, 16, 256, 1, 4, .none, [⟨29, 27, .live, 0⟩, ⟨25, 0, .live, 0⟩]⟩,
   ⟨0xE0024, 16, 256, 1, 4, .none, [⟨31, 31, .cmd, 0⟩, ⟨30, 30, .cmd, 0⟩, ⟨29, 29, .cmd, 0⟩, ⟨28, 28, .cmd, 0⟩, ⟨27, 27, .cmd, 0⟩, ⟨26, 26, .cmd, 0⟩]⟩,
   ⟨0xE0028, 16, 256, 1, 4, .none, [⟨18, 16, .ro, 0⟩, ⟨11, 11, .sts, 0⟩, ⟨10, 10, .sts, 0⟩, ⟨9, 9, .sts, 0⟩, ⟨8, 8, .sts, 0⟩, ⟨4, 4, .ro, 0⟩, ⟨3, 3, .ro, 0⟩, ⟨2, 2, .ro, 0⟩, ⟨1, 1, .ro, 0⟩, ⟨0, 0, .ro, 0⟩]⟩,
   ⟨0xE002C, 16, 256, 1, 4, .none, [⟨31, 0, .ro, 0⟩]⟩]
  ++ [
   ⟨0xE0030, 16, 256, 1, 4, .none, [⟨31, 0, .ro, 0⟩]⟩,
   ⟨0xE0034, 16, 256, 1, 4, .none, [⟨31, 0, .ro, 0⟩]⟩,
   ⟨0xE0038, 16, 256, 1, 4, .none, [⟨29, 27, .ro, 0⟩, ⟨25, 0, .ro, 0⟩]⟩,
   ⟨0xE003C, 16, 256, 1, 4, .none, [⟨31, 0, .cnt, 0⟩]⟩,
   ⟨0xE0040, 16, 256, 1, 4, .none, [⟨31, 0, .cnt, 0⟩]⟩,
   ⟨0xE0044, 16, 256, 1, 4, .none, [⟨31, 0, .cnt, 0⟩]⟩,
   ⟨0xE0048, 16, 256, 1, 4, .none, [⟨31, 0, .cnt, 0⟩]⟩,
   ⟨0xE004C, 16, 256, 1, 4, .none, [⟨31, 0, .cnt, 0⟩]⟩,
   ⟨0xE0050, 16, 256, 1, 4, .none, [⟨31, 0, .ro, 0⟩]⟩]

/-! ## Block 15, PK -/

/-- `PK_CFG` (12_packer.md): offset into BAR0. -/
def PK_CFG.off (h : Nat) : Nat := 0xF0000 + 64 * h
def PK_CFG.EN (h : Nat) : Fld := ⟨PK_CFG.off h, 31, 31⟩
def PK_CFG.DROP (h : Nat) : Fld := ⟨PK_CFG.off h, 30, 30⟩
def PK_CFG.NOTICE_EN (h : Nat) : Fld := ⟨PK_CFG.off h, 29, 29⟩
def PK_CFG.MODE (h : Nat) : Fld := ⟨PK_CFG.off h, 26, 24⟩
def PK_CFG.Q (h : Nat) : Fld := ⟨PK_CFG.off h, 23, 20⟩
def PK_CFG.FLUSH (h : Nat) : Fld := ⟨PK_CFG.off h, 15, 0⟩
/-- `PK_SRC_LO` (12_packer.md): offset into BAR0. -/
def PK_SRC_LO.off (h : Nat) : Nat := 0xF0004 + 64 * h
def PK_SRC_LO.SRC (h : Nat) : Fld := ⟨PK_SRC_LO.off h, 31, 0⟩
/-- `PK_SRC_HI` (12_packer.md): offset into BAR0. -/
def PK_SRC_HI.off (h : Nat) : Nat := 0xF0008 + 64 * h
def PK_SRC_HI.SRC (h : Nat) : Fld := ⟨PK_SRC_HI.off h, 31, 0⟩
/-- `PK_SRC_DQ` (12_packer.md): offset into BAR0. -/
def PK_SRC_DQ.off (h : Nat) : Nat := 0xF000C + 64 * h
def PK_SRC_DQ.SRC (h : Nat) : Fld := ⟨PK_SRC_DQ.off h, 31, 0⟩
/-- `PK_BLK_MAX` (12_packer.md): offset into BAR0. -/
def PK_BLK_MAX.off (h : Nat) : Nat := 0xF0010 + 64 * h
def PK_BLK_MAX.MAX (h : Nat) : Fld := ⟨PK_BLK_MAX.off h, 10, 0⟩
/-- `PK_STAT` (12_packer.md): offset into BAR0. -/
def PK_STAT.off (h : Nat) : Nat := 0xF0014 + 64 * h
def PK_STAT.BUF_WAIT (h : Nat) : Fld := ⟨PK_STAT.off h, 8, 8⟩
def PK_STAT.DROPPED (h : Nat) : Fld := ⟨PK_STAT.off h, 7, 7⟩
def PK_STAT.SELF_FAIL (h : Nat) : Fld := ⟨PK_STAT.off h, 6, 6⟩
def PK_STAT.RAW_MARKED (h : Nat) : Fld := ⟨PK_STAT.off h, 5, 5⟩
def PK_STAT.CORRUPT_SEEN (h : Nat) : Fld := ⟨PK_STAT.off h, 4, 4⟩
def PK_STAT.CFG_ERR (h : Nat) : Fld := ⟨PK_STAT.off h, 3, 3⟩
def PK_STAT.WIN_PENDING (h : Nat) : Fld := ⟨PK_STAT.off h, 2, 2⟩
def PK_STAT.REPLAY_IN (h : Nat) : Fld := ⟨PK_STAT.off h, 1, 1⟩
def PK_STAT.ACTIVE (h : Nat) : Fld := ⟨PK_STAT.off h, 0, 0⟩
/-- `PK_IN_CNT` (12_packer.md): offset into BAR0. -/
def PK_IN_CNT.off (h : Nat) : Nat := 0xF0018 + 64 * h
def PK_IN_CNT.COUNT (h : Nat) : Fld := ⟨PK_IN_CNT.off h, 31, 0⟩
/-- `PK_BLK_SEQ` (12_packer.md): offset into BAR0. -/
def PK_BLK_SEQ.off (h : Nat) : Nat := 0xF001C + 64 * h
def PK_BLK_SEQ.SEQ (h : Nat) : Fld := ⟨PK_BLK_SEQ.off h, 31, 0⟩
/-- `PK_OUT_LO` (12_packer.md): offset into BAR0. -/
def PK_OUT_LO.off (h : Nat) : Nat := 0xF0020 + 64 * h
def PK_OUT_LO.COUNT (h : Nat) : Fld := ⟨PK_OUT_LO.off h, 31, 0⟩
/-- `PK_OUT_HI` (12_packer.md): offset into BAR0. -/
def PK_OUT_HI.off (h : Nat) : Nat := 0xF0024 + 64 * h
def PK_OUT_HI.COUNT (h : Nat) : Fld := ⟨PK_OUT_HI.off h, 31, 0⟩
/-- `PK_CORRUPT_CNT` (12_packer.md): offset into BAR0. -/
def PK_CORRUPT_CNT.off (h : Nat) : Nat := 0xF0028 + 64 * h
def PK_CORRUPT_CNT.COUNT (h : Nat) : Fld := ⟨PK_CORRUPT_CNT.off h, 31, 0⟩
/-- `PK_DROP_CNT` (12_packer.md): offset into BAR0. -/
def PK_DROP_CNT.off (h : Nat) : Nat := 0xF002C + 64 * h
def PK_DROP_CNT.COUNT (h : Nat) : Fld := ⟨PK_DROP_CNT.off h, 31, 0⟩
/-- `PK_SELF_FAIL_CNT` (12_packer.md): offset into BAR0. -/
def PK_SELF_FAIL_CNT.off (h : Nat) : Nat := 0xF0030 + 64 * h
def PK_SELF_FAIL_CNT.COUNT (h : Nat) : Fld := ⟨PK_SELF_FAIL_CNT.off h, 31, 0⟩
/-- `PK_RATIO` (12_packer.md): offset into BAR0. -/
def PK_RATIO.off (h : Nat) : Nat := 0xF0034 + 64 * h
def PK_RATIO.RATIO (h : Nat) : Fld := ⟨PK_RATIO.off h, 15, 0⟩
/-- `PK_BUF_WAIT_CNT` (12_packer.md): offset into BAR0. -/
def PK_BUF_WAIT_CNT.off (h : Nat) : Nat := 0xF0038 + 64 * h
def PK_BUF_WAIT_CNT.COUNT (h : Nat) : Fld := ⟨PK_BUF_WAIT_CNT.off h, 31, 0⟩

/-- The register map of block 15 (PK). -/
def regsPK : List RegRow :=
[
   ⟨0xF0000, 64, 64, 1, 4, .none, [⟨31, 31, .cfg, 0⟩, ⟨30, 30, .cfg, 0⟩, ⟨29, 29, .cfg, 1⟩, ⟨26, 24, .cfg, 0⟩, ⟨23, 20, .cfg, 0⟩, ⟨15, 0, .cfg, 16⟩]⟩,
   ⟨0xF0004, 64, 64, 1, 4, .none, [⟨31, 0, .cfg, 0⟩]⟩,
   ⟨0xF0008, 64, 64, 1, 4, .none, [⟨31, 0, .cfg, 0⟩]⟩,
   ⟨0xF000C, 64, 64, 1, 4, .none, [⟨31, 0, .cfg, 0⟩]⟩,
   ⟨0xF0010, 64, 64, 1, 4, .none, [⟨10, 0, .cfg, 1024⟩]⟩,
   ⟨0xF0014, 64, 64, 1, 4, .none, [⟨8, 8, .sts, 0⟩, ⟨7, 7, .sts, 0⟩, ⟨6, 6, .sts, 0⟩, ⟨5, 5, .sts, 0⟩, ⟨4, 4, .sts, 0⟩, ⟨3, 3, .sts, 0⟩, ⟨2, 2, .ro, 0⟩, ⟨1, 1, .ro, 0⟩, ⟨0, 0, .ro, 0⟩]⟩,
   ⟨0xF0018, 64, 64, 1, 4, .none, [⟨31, 0, .cnt, 0⟩]⟩,
   ⟨0xF001C, 64, 64, 1, 4, .none, [⟨31, 0, .ro, 0⟩]⟩,
   ⟨0xF0020, 64, 64, 1, 4, .lo, [⟨31, 0, .cnt, 0⟩]⟩,
   ⟨0xF0024, 64, 64, 1, 4, .hi, [⟨31, 0, .cnt, 0⟩]⟩,
   ⟨0xF0028, 64, 64, 1, 4, .none, [⟨31, 0, .cnt, 0⟩]⟩,
   ⟨0xF002C, 64, 64, 1, 4, .none, [⟨31, 0, .cnt, 0⟩]⟩]
  ++ [
   ⟨0xF0030, 64, 64, 1, 4, .none, [⟨31, 0, .cnt, 0⟩]⟩,
   ⟨0xF0034, 64, 64, 1, 4, .none, [⟨15, 0, .ro, 0⟩]⟩,
   ⟨0xF0038, 64, 64, 1, 4, .none, [⟨31, 0, .cnt, 0⟩]⟩]

/-! ## Block 16, PG -/

/-- `PG_CMD` (16_playback_and_triggers.md): offset into BAR0. -/
def PG_CMD.off (s : Nat) : Nat := 0x100000 + 256 * s
def PG_CMD.START (s : Nat) : Fld := ⟨PG_CMD.off s, 31, 31⟩
def PG_CMD.STOP (s : Nat) : Fld := ⟨PG_CMD.off s, 30, 30⟩
def PG_CMD.CLRREQ (s : Nat) : Fld := ⟨PG_CMD.off s, 29, 29⟩
def PG_CMD.JUMP (s : Nat) : Fld := ⟨PG_CMD.off s, 3, 0⟩
/-- `PG_CFG` (16_playback_and_triggers.md): offset into BAR0. -/
def PG_CFG.off (s : Nat) : Nat := 0x100004 + 256 * s
def PG_CFG.NOTICE_EN (s : Nat) : Fld := ⟨PG_CFG.off s, 31, 31⟩
def PG_CFG.START_ENTRY (s : Nat) : Fld := ⟨PG_CFG.off s, 9, 0⟩
/-- `PG_GATEJ` (16_playback_and_triggers.md): offset into BAR0. -/
def PG_GATEJ.off (s : Nat) : Nat := 0x100008 + 256 * s
def PG_GATEJ.SLOT (s : Nat) : Fld := ⟨PG_GATEJ.off s, 31, 0⟩
/-- `PG_START_T_LO` (16_playback_and_triggers.md): offset into BAR0. -/
def PG_START_T_LO.off (s : Nat) : Nat := 0x10000C + 256 * s
def PG_START_T_LO.T (s : Nat) : Fld := ⟨PG_START_T_LO.off s, 31, 0⟩
/-- `PG_START_T_HI` (16_playback_and_triggers.md): offset into BAR0. -/
def PG_START_T_HI.off (s : Nat) : Nat := 0x100010 + 256 * s
def PG_START_T_HI.T (s : Nat) : Fld := ⟨PG_START_T_HI.off s, 31, 0⟩
/-- `PG_STORE_CFG` (16_playback_and_triggers.md): offset into BAR0. -/
def PG_STORE_CFG.off (s : Nat) : Nat := 0x100014 + 256 * s
def PG_STORE_CFG.EN (s : Nat) : Fld := ⟨PG_STORE_CFG.off s, 31, 31⟩
def PG_STORE_CFG.BIND (s : Nat) : Fld := ⟨PG_STORE_CFG.off s, 10, 8⟩
/-- `PG_STORE_BASE` (16_playback_and_triggers.md): offset into BAR0. -/
def PG_STORE_BASE.off (s : Nat) : Nat := 0x100018 + 256 * s
def PG_STORE_BASE.VALUE (s : Nat) : Fld := ⟨PG_STORE_BASE.off s, 24, 0⟩
/-- `PG_STORE_SIZE` (16_playback_and_triggers.md): offset into BAR0. -/
def PG_STORE_SIZE.off (s : Nat) : Nat := 0x10001C + 256 * s
def PG_STORE_SIZE.VALUE (s : Nat) : Fld := ⟨PG_STORE_SIZE.off s, 24, 0⟩
/-- `PG_STAT` (16_playback_and_triggers.md): offset into BAR0. -/
def PG_STAT.off (s : Nat) : Nat := 0x100020 + 256 * s
def PG_STAT.REF_CODE (s : Nat) : Fld := ⟨PG_STAT.off s, 18, 16⟩
def PG_STAT.START_LATE (s : Nat) : Fld := ⟨PG_STAT.off s, 12, 12⟩
def PG_STAT.STORE_REF (s : Nat) : Fld := ⟨PG_STAT.off s, 11, 11⟩
def PG_STAT.REF (s : Nat) : Fld := ⟨PG_STAT.off s, 10, 10⟩
def PG_STAT.JREQ_DISC (s : Nat) : Fld := ⟨PG_STAT.off s, 9, 9⟩
def PG_STAT.DEFERRED (s : Nat) : Fld := ⟨PG_STAT.off s, 8, 8⟩
def PG_STAT.STARVED (s : Nat) : Fld := ⟨PG_STAT.off s, 7, 7⟩
def PG_STAT.STORE_ON (s : Nat) : Fld := ⟨PG_STAT.off s, 4, 4⟩
def PG_STAT.STARVING (s : Nat) : Fld := ⟨PG_STAT.off s, 2, 2⟩
def PG_STAT.START_PEND (s : Nat) : Fld := ⟨PG_STAT.off s, 1, 1⟩
def PG_STAT.RUNNING (s : Nat) : Fld := ⟨PG_STAT.off s, 0, 0⟩
/-- `PG_POS` (16_playback_and_triggers.md): offset into BAR0. -/
def PG_POS.off (s : Nat) : Nat := 0x100024 + 256 * s
def PG_POS.ITER (s : Nat) : Fld := ⟨PG_POS.off s, 29, 10⟩
def PG_POS.ENTRY (s : Nat) : Fld := ⟨PG_POS.off s, 9, 0⟩
/-- `PG_TL_LO` (16_playback_and_triggers.md): offset into BAR0. -/
def PG_TL_LO.off (s : Nat) : Nat := 0x100028 + 256 * s
def PG_TL_LO.SAMPLES (s : Nat) : Fld := ⟨PG_TL_LO.off s, 31, 0⟩
/-- `PG_TL_HI` (16_playback_and_triggers.md): offset into BAR0. -/
def PG_TL_HI.off (s : Nat) : Nat := 0x10002C + 256 * s
def PG_TL_HI.SAMPLES (s : Nat) : Fld := ⟨PG_TL_HI.off s, 31, 0⟩
/-- `PG_JREQ` (16_playback_and_triggers.md): offset into BAR0. -/
def PG_JREQ.off (s : Nat) : Nat := 0x100030 + 256 * s
def PG_JREQ.DEFER (s : Nat) : Fld := ⟨PG_JREQ.off s, 7, 4⟩
def PG_JREQ.PEND (s : Nat) : Fld := ⟨PG_JREQ.off s, 3, 0⟩
/-- `PG_JUMP_CNT` (16_playback_and_triggers.md): offset into BAR0. -/
def PG_JUMP_CNT.off (s : Nat) : Nat := 0x100034 + 256 * s
def PG_JUMP_CNT.COUNT (s : Nat) : Fld := ⟨PG_JUMP_CNT.off s, 31, 0⟩
/-- `PG_DEFER_CNT` (16_playback_and_triggers.md): offset into BAR0. -/
def PG_DEFER_CNT.off (s : Nat) : Nat := 0x100038 + 256 * s
def PG_DEFER_CNT.COUNT (s : Nat) : Fld := ⟨PG_DEFER_CNT.off s, 31, 0⟩
/-- `PG_JREQ_DISC_CNT` (16_playback_and_triggers.md): offset into BAR0. -/
def PG_JREQ_DISC_CNT.off (s : Nat) : Nat := 0x10003C + 256 * s
def PG_JREQ_DISC_CNT.COUNT (s : Nat) : Fld := ⟨PG_JREQ_DISC_CNT.off s, 31, 0⟩
/-- `PG_STARVE_CNT` (16_playback_and_triggers.md): offset into BAR0. -/
def PG_STARVE_CNT.off (s : Nat) : Nat := 0x100040 + 256 * s
def PG_STARVE_CNT.COUNT (s : Nat) : Fld := ⟨PG_STARVE_CNT.off s, 31, 0⟩
/-- `PG_STARVE_GR_CNT` (16_playback_and_triggers.md): offset into BAR0. -/
def PG_STARVE_GR_CNT.off (s : Nat) : Nat := 0x100044 + 256 * s
def PG_STARVE_GR_CNT.COUNT (s : Nat) : Fld := ⟨PG_STARVE_GR_CNT.off s, 31, 0⟩
/-- `PG_PIN_CFG` (16_playback_and_triggers.md): offset into BAR0. -/
def PG_PIN_CFG.off (p : Nat) : Nat := 0x101000 + 4 * p
def PG_PIN_CFG.OE (p : Nat) : Fld := ⟨PG_PIN_CFG.off p, 31, 31⟩
def PG_PIN_CFG.IDLE (p : Nat) : Fld := ⟨PG_PIN_CFG.off p, 30, 30⟩
def PG_PIN_CFG.STARVE (p : Nat) : Fld := ⟨PG_PIN_CFG.off p, 29, 28⟩
def PG_PIN_CFG.SRC (p : Nat) : Fld := ⟨PG_PIN_CFG.off p, 24, 24⟩
def PG_PIN_CFG.RG (p : Nat) : Fld := ⟨PG_PIN_CFG.off p, 19, 16⟩
/-- `PG_OVR_EN_LO` (16_playback_and_triggers.md): offset into BAR0. -/
def PG_OVR_EN_LO.off : Nat := 0x102000
def PG_OVR_EN_LO.EN : Fld := ⟨PG_OVR_EN_LO.off, 31, 0⟩
/-- `PG_OVR_EN_HI` (16_playback_and_triggers.md): offset into BAR0. -/
def PG_OVR_EN_HI.off : Nat := 0x102004
def PG_OVR_EN_HI.EN : Fld := ⟨PG_OVR_EN_HI.off, 31, 0⟩
/-- `PG_OVR_CMD` (16_playback_and_triggers.md): offset into BAR0. -/
def PG_OVR_CMD.off : Nat := 0x102008
def PG_OVR_CMD.GO : Fld := ⟨PG_OVR_CMD.off, 31, 31⟩
def PG_OVR_CMD.PIN : Fld := ⟨PG_OVR_CMD.off, 29, 24⟩
def PG_OVR_CMD.ACT : Fld := ⟨PG_OVR_CMD.off, 21, 20⟩
def PG_OVR_CMD.N : Fld := ⟨PG_OVR_CMD.off, 15, 0⟩
/-- `PG_OVR_STAT_LO` (16_playback_and_triggers.md): offset into BAR0. -/
def PG_OVR_STAT_LO.off : Nat := 0x102010
def PG_OVR_STAT_LO.ACTIVE : Fld := ⟨PG_OVR_STAT_LO.off, 31, 0⟩
/-- `PG_OVR_STAT_HI` (16_playback_and_triggers.md): offset into BAR0. -/
def PG_OVR_STAT_HI.off : Nat := 0x102014
def PG_OVR_STAT_HI.ACTIVE : Fld := ⟨PG_OVR_STAT_HI.off, 31, 0⟩
/-- `PG_OVR_REF_CNT` (16_playback_and_triggers.md): offset into BAR0. -/
def PG_OVR_REF_CNT.off : Nat := 0x102018
def PG_OVR_REF_CNT.COUNT : Fld := ⟨PG_OVR_REF_CNT.off, 31, 0⟩

/-- The register map of block 16 (PG). -/
def regsPG : List RegRow :=
[
   ⟨0x100000, 4, 256, 1, 4, .none, [⟨31, 31, .cmd, 0⟩, ⟨30, 30, .cmd, 0⟩, ⟨29, 29, .cmd, 0⟩, ⟨3, 0, .cmd, 0⟩]⟩,
   ⟨0x100004, 4, 256, 1, 4, .none, [⟨31, 31, .cfg, 1⟩, ⟨9, 0, .cfg, 0⟩]⟩,
   ⟨0x100008, 4, 256, 1, 4, .none, [⟨31, 0, .cfg, 0⟩]⟩,
   ⟨0x10000C, 4, 256, 1, 4, .lo, [⟨31, 0, .live, 0⟩]⟩,
   ⟨0x100010, 4, 256, 1, 4, .hi, [⟨31, 0, .live, 0⟩]⟩,
   ⟨0x100014, 4, 256, 1, 4, .none, [⟨31, 31, .live, 0⟩, ⟨10, 8, .live, 0⟩]⟩,
   ⟨0x100018, 4, 256, 1, 4, .none, [⟨24, 0, .live, 0⟩]⟩,
   ⟨0x10001C, 4, 256, 1, 4, .none, [⟨24, 0, .live, 0⟩]⟩,
   ⟨0x100020, 4, 256, 1, 4, .none, [⟨18, 16, .ro, 0⟩, ⟨12, 12, .sts, 0⟩, ⟨11, 11, .sts, 0⟩, ⟨10, 10, .sts, 0⟩, ⟨9, 9, .sts, 0⟩, ⟨8, 8, .sts, 0⟩, ⟨7, 7, .sts, 0⟩, ⟨4, 4, .ro, 0⟩, ⟨2, 2, .ro, 0⟩, ⟨1, 1, .ro, 0⟩, ⟨0, 0, .ro, 0⟩]⟩,
   ⟨0x100024, 4, 256, 1, 4, .none, [⟨29, 10, .ro, 0⟩, ⟨9, 0, .ro, 0⟩]⟩,
   ⟨0x100028, 4, 256, 1, 4, .lo, [⟨31, 0, .ro, 0⟩]⟩,
   ⟨0x10002C, 4, 256, 1, 4, .hi, [⟨31, 0, .ro, 0⟩]⟩]
  ++ [
   ⟨0x100030, 4, 256, 1, 4, .none, [⟨7, 4, .ro, 0⟩, ⟨3, 0, .ro, 0⟩]⟩,
   ⟨0x100034, 4, 256, 1, 4, .none, [⟨31, 0, .cnt, 0⟩]⟩,
   ⟨0x100038, 4, 256, 1, 4, .none, [⟨31, 0, .cnt, 0⟩]⟩,
   ⟨0x10003C, 4, 256, 1, 4, .none, [⟨31, 0, .cnt, 0⟩]⟩,
   ⟨0x100040, 4, 256, 1, 4, .none, [⟨31, 0, .cnt, 0⟩]⟩,
   ⟨0x100044, 4, 256, 1, 4, .none, [⟨31, 0, .cnt, 0⟩]⟩,
   ⟨0x101000, 64, 4, 1, 4, .none, [⟨31, 31, .cfg, 0⟩, ⟨30, 30, .cfg, 0⟩, ⟨29, 28, .cfg, 0⟩, ⟨24, 24, .cfg, 0⟩, ⟨19, 16, .cfg, 0⟩]⟩,
   ⟨0x102000, 1, 4, 1, 4, .none, [⟨31, 0, .live, 0⟩]⟩,
   ⟨0x102004, 1, 4, 1, 4, .none, [⟨31, 0, .live, 0⟩]⟩,
   ⟨0x102008, 1, 4, 1, 4, .none, [⟨31, 31, .cmd, 0⟩, ⟨29, 24, .live, 0⟩, ⟨21, 20, .live, 0⟩, ⟨15, 0, .live, 0⟩]⟩,
   ⟨0x102010, 1, 4, 1, 4, .none, [⟨31, 0, .ro, 0⟩]⟩,
   ⟨0x102014, 1, 4, 1, 4, .none, [⟨31, 0, .ro, 0⟩]⟩]
  ++ [
   ⟨0x102018, 1, 4, 1, 4, .none, [⟨31, 0, .cnt, 0⟩]⟩]

/-! ## Block 17, TT -/

/-- `TT_CTRL` (16_playback_and_triggers.md): offset into BAR0. -/
def TT_CTRL.off (t : Nat) : Nat := 0x110000 + 64 * t
def TT_CTRL.ARM (t : Nat) : Fld := ⟨TT_CTRL.off t, 31, 31⟩
def TT_CTRL.DISARM (t : Nat) : Fld := ⟨TT_CTRL.off t, 30, 30⟩
/-- `TT_CFG` (16_playback_and_triggers.md): offset into BAR0. -/
def TT_CFG.off (t : Nat) : Nat := 0x110004 + 64 * t
def TT_CFG.PERIODIC (t : Nat) : Fld := ⟨TT_CFG.off t, 31, 31⟩
def TT_CFG.NOTICE_EN (t : Nat) : Fld := ⟨TT_CFG.off t, 30, 30⟩
def TT_CFG.TARGET (t : Nat) : Fld := ⟨TT_CFG.off t, 18, 16⟩
def TT_CFG.SEL (t : Nat) : Fld := ⟨TT_CFG.off t, 15, 0⟩
/-- `TT_T_LO` (16_playback_and_triggers.md): offset into BAR0. -/
def TT_T_LO.off (t : Nat) : Nat := 0x110008 + 64 * t
def TT_T_LO.VALUE (t : Nat) : Fld := ⟨TT_T_LO.off t, 31, 0⟩
/-- `TT_T_HI` (16_playback_and_triggers.md): offset into BAR0. -/
def TT_T_HI.off (t : Nat) : Nat := 0x11000C + 64 * t
def TT_T_HI.VALUE (t : Nat) : Fld := ⟨TT_T_HI.off t, 31, 0⟩
/-- `TT_PERIOD_LO` (16_playback_and_triggers.md): offset into BAR0. -/
def TT_PERIOD_LO.off (t : Nat) : Nat := 0x110010 + 64 * t
def TT_PERIOD_LO.VALUE (t : Nat) : Fld := ⟨TT_PERIOD_LO.off t, 31, 0⟩
/-- `TT_PERIOD_HI` (16_playback_and_triggers.md): offset into BAR0. -/
def TT_PERIOD_HI.off (t : Nat) : Nat := 0x110014 + 64 * t
def TT_PERIOD_HI.VALUE (t : Nat) : Fld := ⟨TT_PERIOD_HI.off t, 31, 0⟩
/-- `TT_COUNT` (16_playback_and_triggers.md): offset into BAR0. -/
def TT_COUNT.off (t : Nat) : Nat := 0x110018 + 64 * t
def TT_COUNT.VALUE (t : Nat) : Fld := ⟨TT_COUNT.off t, 31, 0⟩
/-- `TT_ARG` (16_playback_and_triggers.md): offset into BAR0. -/
def TT_ARG.off (t : Nat) : Nat := 0x11001C + 64 * t
def TT_ARG.VALUE (t : Nat) : Fld := ⟨TT_ARG.off t, 31, 0⟩
/-- `TT_STAT` (16_playback_and_triggers.md): offset into BAR0. -/
def TT_STAT.off (t : Nat) : Nat := 0x110020 + 64 * t
def TT_STAT.WR_IGN (t : Nat) : Fld := ⟨TT_STAT.off t, 5, 5⟩
def TT_STAT.REFUSED (t : Nat) : Fld := ⟨TT_STAT.off t, 4, 4⟩
def TT_STAT.LATE (t : Nat) : Fld := ⟨TT_STAT.off t, 3, 3⟩
def TT_STAT.DONE (t : Nat) : Fld := ⟨TT_STAT.off t, 2, 2⟩
def TT_STAT.ARMED (t : Nat) : Fld := ⟨TT_STAT.off t, 0, 0⟩
/-- `TT_FIRE_CNT` (16_playback_and_triggers.md): offset into BAR0. -/
def TT_FIRE_CNT.off (t : Nat) : Nat := 0x110024 + 64 * t
def TT_FIRE_CNT.COUNT (t : Nat) : Fld := ⟨TT_FIRE_CNT.off t, 31, 0⟩
/-- `TT_NEXT_LO` (16_playback_and_triggers.md): offset into BAR0. -/
def TT_NEXT_LO.off (t : Nat) : Nat := 0x110028 + 64 * t
def TT_NEXT_LO.T (t : Nat) : Fld := ⟨TT_NEXT_LO.off t, 31, 0⟩
/-- `TT_NEXT_HI` (16_playback_and_triggers.md): offset into BAR0. -/
def TT_NEXT_HI.off (t : Nat) : Nat := 0x11002C + 64 * t
def TT_NEXT_HI.T (t : Nat) : Fld := ⟨TT_NEXT_HI.off t, 31, 0⟩
/-- `TT_RG_CFG` (16_playback_and_triggers.md): offset into BAR0. -/
def TT_RG_CFG.off (n : Nat) : Nat := 0x111000 + 32 * n
def TT_RG_CFG.EN (n : Nat) : Fld := ⟨TT_RG_CFG.off n, 31, 31⟩
/-- `TT_RG_FREQ_LO` (16_playback_and_triggers.md): offset into BAR0. -/
def TT_RG_FREQ_LO.off (n : Nat) : Nat := 0x111004 + 32 * n
def TT_RG_FREQ_LO.FREQ (n : Nat) : Fld := ⟨TT_RG_FREQ_LO.off n, 31, 0⟩
/-- `TT_RG_FREQ_HI` (16_playback_and_triggers.md): offset into BAR0. -/
def TT_RG_FREQ_HI.off (n : Nat) : Nat := 0x111008 + 32 * n
def TT_RG_FREQ_HI.FREQ (n : Nat) : Fld := ⟨TT_RG_FREQ_HI.off n, 31, 0⟩
/-- `TT_RG_PHASE` (16_playback_and_triggers.md): offset into BAR0. -/
def TT_RG_PHASE.off (n : Nat) : Nat := 0x11100C + 32 * n
def TT_RG_PHASE.PHASE (n : Nat) : Fld := ⟨TT_RG_PHASE.off n, 31, 0⟩
/-- `TT_RG_APPLY_T_LO` (16_playback_and_triggers.md): offset into BAR0. -/
def TT_RG_APPLY_T_LO.off (n : Nat) : Nat := 0x111010 + 32 * n
def TT_RG_APPLY_T_LO.T (n : Nat) : Fld := ⟨TT_RG_APPLY_T_LO.off n, 31, 0⟩
/-- `TT_RG_APPLY_T_HI` (16_playback_and_triggers.md): offset into BAR0. -/
def TT_RG_APPLY_T_HI.off (n : Nat) : Nat := 0x111014 + 32 * n
def TT_RG_APPLY_T_HI.T (n : Nat) : Fld := ⟨TT_RG_APPLY_T_HI.off n, 31, 0⟩
/-- `TT_RG_STAT` (16_playback_and_triggers.md): offset into BAR0. -/
def TT_RG_STAT.off (n : Nat) : Nat := 0x111018 + 32 * n
def TT_RG_STAT.RUNNING (n : Nat) : Fld := ⟨TT_RG_STAT.off n, 31, 31⟩
def TT_RG_STAT.SEQ (n : Nat) : Fld := ⟨TT_RG_STAT.off n, 7, 0⟩
/-- `TT_HOST_GATE` (16_playback_and_triggers.md): offset into BAR0. -/
def TT_HOST_GATE.off : Nat := 0x112000
def TT_HOST_GATE.OPEN : Fld := ⟨TT_HOST_GATE.off, 31, 31⟩
def TT_HOST_GATE.CLOSE : Fld := ⟨TT_HOST_GATE.off, 30, 30⟩
def TT_HOST_GATE.IGN : Fld := ⟨TT_HOST_GATE.off, 1, 1⟩
def TT_HOST_GATE.STATE : Fld := ⟨TT_HOST_GATE.off, 0, 0⟩

/-- The register map of block 17 (TT). -/
def regsTT : List RegRow :=
[
   ⟨0x110000, 32, 64, 1, 4, .none, [⟨31, 31, .cmd, 0⟩, ⟨30, 30, .cmd, 0⟩]⟩,
   ⟨0x110004, 32, 64, 1, 4, .none, [⟨31, 31, .live, 0⟩, ⟨30, 30, .live, 1⟩, ⟨18, 16, .live, 0⟩, ⟨15, 0, .live, 0⟩]⟩,
   ⟨0x110008, 32, 64, 1, 4, .lo, [⟨31, 0, .live, 0⟩]⟩,
   ⟨0x11000C, 32, 64, 1, 4, .hi, [⟨31, 0, .live, 0⟩]⟩,
   ⟨0x110010, 32, 64, 1, 4, .lo, [⟨31, 0, .live, 0⟩]⟩,
   ⟨0x110014, 32, 64, 1, 4, .hi, [⟨31, 0, .live, 0⟩]⟩,
   ⟨0x110018, 32, 64, 1, 4, .none, [⟨31, 0, .live, 0⟩]⟩,
   ⟨0x11001C, 32, 64, 1, 4, .none, [⟨31, 0, .live, 0⟩]⟩,
   ⟨0x110020, 32, 64, 1, 4, .none, [⟨5, 5, .sts, 0⟩, ⟨4, 4, .sts, 0⟩, ⟨3, 3, .sts, 0⟩, ⟨2, 2, .sts, 0⟩, ⟨0, 0, .ro, 0⟩]⟩,
   ⟨0x110024, 32, 64, 1, 4, .none, [⟨31, 0, .cnt, 0⟩]⟩,
   ⟨0x110028, 32, 64, 1, 4, .lo, [⟨31, 0, .ro, 0⟩]⟩,
   ⟨0x11002C, 32, 64, 1, 4, .hi, [⟨31, 0, .ro, 0⟩]⟩]
  ++ [
   ⟨0x111000, 16, 32, 1, 4, .none, [⟨31, 31, .cfg, 0⟩]⟩,
   ⟨0x111004, 16, 32, 1, 4, .lo, [⟨31, 0, .cfg, 0⟩]⟩,
   ⟨0x111008, 16, 32, 1, 4, .hi, [⟨31, 0, .cfg, 0⟩]⟩,
   ⟨0x11100C, 16, 32, 1, 4, .none, [⟨31, 0, .cfg, 0⟩]⟩,
   ⟨0x111010, 16, 32, 1, 4, .lo, [⟨31, 0, .ro, 0⟩]⟩,
   ⟨0x111014, 16, 32, 1, 4, .hi, [⟨31, 0, .ro, 0⟩]⟩,
   ⟨0x111018, 16, 32, 1, 4, .none, [⟨31, 31, .ro, 0⟩, ⟨7, 0, .ro, 0⟩]⟩,
   ⟨0x112000, 1, 4, 1, 4, .none, [⟨31, 31, .cmd, 0⟩, ⟨30, 30, .cmd, 0⟩, ⟨1, 1, .sts, 0⟩, ⟨0, 0, .ro, 0⟩]⟩]

/-! ## Block 18, MA -/

/-- `MA_CMD` (17_monitor_converters.md): offset into BAR0. -/
def MA_CMD.off (c : Nat) : Nat := 0x120000 + 256 * c
def MA_CMD.START (c : Nat) : Fld := ⟨MA_CMD.off c, 31, 31⟩
def MA_CMD.STOP (c : Nat) : Fld := ⟨MA_CMD.off c, 30, 30⟩
def MA_CMD.SELFCAL (c : Nat) : Fld := ⟨MA_CMD.off c, 29, 29⟩
/-- `MA_CFG` (17_monitor_converters.md): offset into BAR0. -/
def MA_CFG.off (c : Nat) : Nat := 0x120004 + 256 * c
def MA_CFG.NOTICE_EN (c : Nat) : Fld := ⟨MA_CFG.off c, 31, 31⟩
def MA_CFG.LEN (c : Nat) : Fld := ⟨MA_CFG.off c, 6, 0⟩
/-- `MA_STAT` (17_monitor_converters.md): offset into BAR0. -/
def MA_STAT.off (c : Nat) : Nat := 0x120008 + 256 * c
def MA_STAT.CAL_REF (c : Nat) : Fld := ⟨MA_STAT.off c, 9, 9⟩
def MA_STAT.START_REF (c : Nat) : Fld := ⟨MA_STAT.off c, 8, 8⟩
def MA_STAT.REF_LOST (c : Nat) : Fld := ⟨MA_STAT.off c, 7, 7⟩
def MA_STAT.SRC_ERR (c : Nat) : Fld := ⟨MA_STAT.off c, 6, 6⟩
def MA_STAT.XCHK_SKIP (c : Nat) : Fld := ⟨MA_STAT.off c, 5, 5⟩
def MA_STAT.XCHK_FAIL (c : Nat) : Fld := ⟨MA_STAT.off c, 4, 4⟩
def MA_STAT.CAL_DONE (c : Nat) : Fld := ⟨MA_STAT.off c, 3, 3⟩
def MA_STAT.STATE (c : Nat) : Fld := ⟨MA_STAT.off c, 2, 0⟩
/-- `MA_POS` (17_monitor_converters.md): offset into BAR0. -/
def MA_POS.off (c : Nat) : Nat := 0x12000C + 256 * c
def MA_POS.LOOPS (c : Nat) : Fld := ⟨MA_POS.off c, 31, 8⟩
def MA_POS.ENTRY (c : Nat) : Fld := ⟨MA_POS.off c, 5, 0⟩
/-- `MA_CAL` (17_monitor_converters.md): offset into BAR0. -/
def MA_CAL.off (c : Nat) : Nat := 0x120010 + 256 * c
def MA_CAL.GAIN (c : Nat) : Fld := ⟨MA_CAL.off c, 31, 16⟩
def MA_CAL.OFS (c : Nat) : Fld := ⟨MA_CAL.off c, 9, 0⟩
/-- `MA_BORROW_CNT` (17_monitor_converters.md): offset into BAR0. -/
def MA_BORROW_CNT.off (c : Nat) : Nat := 0x120014 + 256 * c
def MA_BORROW_CNT.COUNT (c : Nat) : Fld := ⟨MA_BORROW_CNT.off c, 31, 0⟩
/-- `MA_SEQ_A` (17_monitor_converters.md): offset into BAR0. -/
def MA_SEQ_A.off (c : Nat) (i : Nat) : Nat := 0x121000 + 512 * c + 8 * i
def MA_SEQ_A.XCHK (c : Nat) (i : Nat) : Fld := ⟨MA_SEQ_A.off c i, 31, 31⟩
def MA_SEQ_A.GAIN (c : Nat) (i : Nat) : Fld := ⟨MA_SEQ_A.off c i, 30, 30⟩
def MA_SEQ_A.AVG (c : Nat) (i : Nat) : Fld := ⟨MA_SEQ_A.off c i, 29, 26⟩
def MA_SEQ_A.DELAY (c : Nat) (i : Nat) : Fld := ⟨MA_SEQ_A.off c i, 25, 19⟩
def MA_SEQ_A.REP (c : Nat) (i : Nat) : Fld := ⟨MA_SEQ_A.off c i, 18, 11⟩
def MA_SEQ_A.SRC (c : Nat) (i : Nat) : Fld := ⟨MA_SEQ_A.off c i, 9, 0⟩
/-- `MA_SEQ_B` (17_monitor_converters.md): offset into BAR0. -/
def MA_SEQ_B.off (c : Nat) (i : Nat) : Nat := 0x121004 + 512 * c + 8 * i
def MA_SEQ_B.SUB (c : Nat) (i : Nat) : Fld := ⟨MA_SEQ_B.off c i, 31, 28⟩
def MA_SEQ_B.WIN (c : Nat) (i : Nat) : Fld := ⟨MA_SEQ_B.off c i, 22, 16⟩
def MA_SEQ_B.TGT (c : Nat) (i : Nat) : Fld := ⟨MA_SEQ_B.off c i, 6, 0⟩
/-- `MA_ACC_CFG` (17_monitor_converters.md): offset into BAR0. -/
def MA_ACC_CFG.off (a : Nat) : Nat := 0x122000 + 32 * a
def MA_ACC_CFG.SNAP (a : Nat) : Fld := ⟨MA_ACC_CFG.off a, 31, 31⟩
def MA_ACC_CFG.CLR (a : Nat) : Fld := ⟨MA_ACC_CFG.off a, 30, 30⟩
def MA_ACC_CFG.LEN (a : Nat) : Fld := ⟨MA_ACC_CFG.off a, 23, 0⟩
/-- `MA_ACC_SUM_LO` (17_monitor_converters.md): offset into BAR0. -/
def MA_ACC_SUM_LO.off (a : Nat) : Nat := 0x122004 + 32 * a
def MA_ACC_SUM_LO.SUM (a : Nat) : Fld := ⟨MA_ACC_SUM_LO.off a, 31, 0⟩
/-- `MA_ACC_SUM_HI` (17_monitor_converters.md): offset into BAR0. -/
def MA_ACC_SUM_HI.off (a : Nat) : Nat := 0x122008 + 32 * a
def MA_ACC_SUM_HI.SEQ (a : Nat) : Fld := ⟨MA_ACC_SUM_HI.off a, 31, 24⟩
def MA_ACC_SUM_HI.SUM (a : Nat) : Fld := ⟨MA_ACC_SUM_HI.off a, 15, 0⟩
/-- `MA_ACC_CNT` (17_monitor_converters.md): offset into BAR0. -/
def MA_ACC_CNT.off (a : Nat) : Nat := 0x12200C + 32 * a
def MA_ACC_CNT.VALUE (a : Nat) : Fld := ⟨MA_ACC_CNT.off a, 31, 0⟩
/-- `MA_ACC_BLANK` (17_monitor_converters.md): offset into BAR0. -/
def MA_ACC_BLANK.off (a : Nat) : Nat := 0x122014 + 32 * a
def MA_ACC_BLANK.VALUE (a : Nat) : Fld := ⟨MA_ACC_BLANK.off a, 31, 0⟩
/-- `MA_ACC_MINMAX` (17_monitor_converters.md): offset into BAR0. -/
def MA_ACC_MINMAX.off (a : Nat) : Nat := 0x122010 + 32 * a
def MA_ACC_MINMAX.MAX (a : Nat) : Fld := ⟨MA_ACC_MINMAX.off a, 31, 16⟩
def MA_ACC_MINMAX.MIN (a : Nat) : Fld := ⟨MA_ACC_MINMAX.off a, 15, 0⟩
/-- `MA_ACC_STAT` (17_monitor_converters.md): offset into BAR0. -/
def MA_ACC_STAT.off (a : Nat) : Nat := 0x122018 + 32 * a
def MA_ACC_STAT.OVF (a : Nat) : Fld := ⟨MA_ACC_STAT.off a, 11, 11⟩
def MA_ACC_STAT.MIXED (a : Nat) : Fld := ⟨MA_ACC_STAT.off a, 10, 10⟩
def MA_ACC_STAT.SRC (a : Nat) : Fld := ⟨MA_ACC_STAT.off a, 9, 0⟩
/-- `MA_WIN_LO` (17_monitor_converters.md): offset into BAR0. -/
def MA_WIN_LO.off (w : Nat) : Nat := 0x123000 + 16 * w
def MA_WIN_LO.LIMIT (w : Nat) : Fld := ⟨MA_WIN_LO.off w, 15, 0⟩
/-- `MA_WIN_HI` (17_monitor_converters.md): offset into BAR0. -/
def MA_WIN_HI.off (w : Nat) : Nat := 0x123004 + 16 * w
def MA_WIN_HI.LIMIT (w : Nat) : Fld := ⟨MA_WIN_HI.off w, 15, 0⟩
/-- `MA_WIN_CFG` (17_monitor_converters.md): offset into BAR0. -/
def MA_WIN_CFG.off (w : Nat) : Nat := 0x123008 + 16 * w
def MA_WIN_CFG.EN (w : Nat) : Fld := ⟨MA_WIN_CFG.off w, 31, 31⟩
def MA_WIN_CFG.ALARM (w : Nat) : Fld := ⟨MA_WIN_CFG.off w, 30, 30⟩
def MA_WIN_CFG.HYST (w : Nat) : Fld := ⟨MA_WIN_CFG.off w, 15, 0⟩
/-- `MA_WIN_CNT` (17_monitor_converters.md): offset into BAR0. -/
def MA_WIN_CNT.off (w : Nat) : Nat := 0x12300C + 16 * w
def MA_WIN_CNT.COUNT (w : Nat) : Fld := ⟨MA_WIN_CNT.off w, 31, 0⟩
/-- `MA_REF` (17_monitor_converters.md): offset into BAR0. -/
def MA_REF.off : Nat := 0x124000
def MA_REF.EN : Fld := ⟨MA_REF.off, 31, 31⟩
def MA_REF.READY : Fld := ⟨MA_REF.off, 0, 0⟩
/-- `MA_XCHK_LIM` (17_monitor_converters.md): offset into BAR0. -/
def MA_XCHK_LIM.off : Nat := 0x124004
def MA_XCHK_LIM.VALUE : Fld := ⟨MA_XCHK_LIM.off, 15, 0⟩
/-- `MA_XCHK_CNT` (17_monitor_converters.md): offset into BAR0. -/
def MA_XCHK_CNT.off : Nat := 0x124008
def MA_XCHK_CNT.VALUE : Fld := ⟨MA_XCHK_CNT.off, 31, 0⟩
/-- `MA_WIN_STAT_LO` (17_monitor_converters.md): offset into BAR0. -/
def MA_WIN_STAT_LO.off : Nat := 0x12400C
def MA_WIN_STAT_LO.EXIT : Fld := ⟨MA_WIN_STAT_LO.off, 31, 0⟩
/-- `MA_WIN_STAT_HI` (17_monitor_converters.md): offset into BAR0. -/
def MA_WIN_STAT_HI.off : Nat := 0x124010
def MA_WIN_STAT_HI.EXIT : Fld := ⟨MA_WIN_STAT_HI.off, 31, 0⟩

/-- The register map of block 18 (MA). -/
def regsMA : List RegRow :=
[
   ⟨0x120000, 2, 256, 1, 4, .none, [⟨31, 31, .cmd, 0⟩, ⟨30, 30, .cmd, 0⟩, ⟨29, 29, .cmd, 0⟩]⟩,
   ⟨0x120004, 2, 256, 1, 4, .none, [⟨31, 31, .cfg, 1⟩, ⟨6, 0, .cfg, 1⟩]⟩,
   ⟨0x120008, 2, 256, 1, 4, .none, [⟨9, 9, .sts, 0⟩, ⟨8, 8, .sts, 0⟩, ⟨7, 7, .sts, 0⟩, ⟨6, 6, .sts, 0⟩, ⟨5, 5, .sts, 0⟩, ⟨4, 4, .sts, 0⟩, ⟨3, 3, .ro, 0⟩, ⟨2, 0, .ro, 0⟩]⟩,
   ⟨0x12000C, 2, 256, 1, 4, .none, [⟨31, 8, .ro, 0⟩, ⟨5, 0, .ro, 0⟩]⟩,
   ⟨0x120010, 2, 256, 1, 4, .none, [⟨31, 16, .ro, 32768⟩, ⟨9, 0, .ro, 0⟩]⟩,
   ⟨0x120014, 2, 256, 1, 4, .none, [⟨31, 0, .cnt, 0⟩]⟩,
   ⟨0x121000, 2, 512, 64, 8, .none, [⟨31, 31, .cfg, 0⟩, ⟨30, 30, .cfg, 0⟩, ⟨29, 26, .cfg, 0⟩, ⟨25, 19, .cfg, 0⟩, ⟨18, 11, .cfg, 0⟩, ⟨9, 0, .cfg, 624⟩]⟩,
   ⟨0x121004, 2, 512, 64, 8, .none, [⟨31, 28, .cfg, 0⟩, ⟨22, 16, .cfg, 127⟩, ⟨6, 0, .cfg, 0⟩]⟩,
   ⟨0x122000, 128, 32, 1, 4, .none, [⟨31, 31, .cmd, 0⟩, ⟨30, 30, .cmd, 0⟩, ⟨23, 0, .live, 0⟩]⟩,
   ⟨0x122004, 128, 32, 1, 4, .lo, [⟨31, 0, .ro, 0⟩]⟩,
   ⟨0x122008, 128, 32, 1, 4, .hi, [⟨31, 24, .ro, 0⟩, ⟨15, 0, .ro, 0⟩]⟩,
   ⟨0x12200C, 128, 32, 1, 4, .none, [⟨31, 0, .ro, 0⟩]⟩]
  ++ [
   ⟨0x122014, 128, 32, 1, 4, .none, [⟨31, 0, .ro, 0⟩]⟩,
   ⟨0x122010, 128, 32, 1, 4, .none, [⟨31, 16, .ro, 0⟩, ⟨15, 0, .ro, 0⟩]⟩,
   ⟨0x122018, 128, 32, 1, 4, .none, [⟨11, 11, .sts, 0⟩, ⟨10, 10, .ro, 0⟩, ⟨9, 0, .ro, 0⟩]⟩,
   ⟨0x123000, 64, 16, 1, 4, .none, [⟨15, 0, .live, 32768⟩]⟩,
   ⟨0x123004, 64, 16, 1, 4, .none, [⟨15, 0, .live, 32767⟩]⟩,
   ⟨0x123008, 64, 16, 1, 4, .none, [⟨31, 31, .live, 0⟩, ⟨30, 30, .live, 0⟩, ⟨15, 0, .live, 0⟩]⟩,
   ⟨0x12300C, 64, 16, 1, 4, .none, [⟨31, 0, .cnt, 0⟩]⟩,
   ⟨0x124000, 1, 4, 1, 4, .none, [⟨31, 31, .live, 0⟩, ⟨0, 0, .ro, 0⟩]⟩,
   ⟨0x124004, 1, 4, 1, 4, .none, [⟨15, 0, .live, 64⟩]⟩,
   ⟨0x124008, 1, 4, 1, 4, .none, [⟨31, 0, .cnt, 0⟩]⟩,
   ⟨0x12400C, 1, 4, 1, 4, .none, [⟨31, 0, .sts, 0⟩]⟩,
   ⟨0x124010, 1, 4, 1, 4, .none, [⟨31, 0, .sts, 0⟩]⟩]

/-! ## Block 19, PR -/

/-- `PR_CFG` (18_mirrored_pairs.md): offset into BAR0. -/
def PR_CFG.off : Nat := 0x130000
def PR_CFG.EN : Fld := ⟨PR_CFG.off, 31, 31⟩
def PR_CFG.NOTICE_EN : Fld := ⟨PR_CFG.off, 30, 30⟩
def PR_CFG.CUT_GUARD : Fld := ⟨PR_CFG.off, 23, 16⟩
def PR_CFG.CAST_PERIOD : Fld := ⟨PR_CFG.off, 15, 0⟩
/-- `PR_CMD` (18_mirrored_pairs.md): offset into BAR0. -/
def PR_CMD.off : Nat := 0x130004
def PR_CMD.ALIGN : Fld := ⟨PR_CMD.off, 31, 31⟩
def PR_CMD.MEASURE : Fld := ⟨PR_CMD.off, 30, 30⟩
def PR_CMD.YIELD : Fld := ⟨PR_CMD.off, 29, 29⟩
def PR_CMD.RESYNC : Fld := ⟨PR_CMD.off, 28, 28⟩
/-- `PR_STAT` (18_mirrored_pairs.md): offset into BAR0. -/
def PR_STAT.off : Nat := 0x130008
def PR_STAT.MISMATCH : Fld := ⟨PR_STAT.off, 12, 12⟩
def PR_STAT.SPLIT : Fld := ⟨PR_STAT.off, 11, 11⟩
def PR_STAT.CAST_LAG : Fld := ⟨PR_STAT.off, 10, 10⟩
def PR_STAT.ALIGN_LOST : Fld := ⟨PR_STAT.off, 9, 9⟩
def PR_STAT.LINK_DOWN : Fld := ⟨PR_STAT.off, 8, 8⟩
def PR_STAT.HB_LOST : Fld := ⟨PR_STAT.off, 7, 7⟩
def PR_STAT.TAKEOVER : Fld := ⟨PR_STAT.off, 6, 6⟩
def PR_STAT.OWN_IN : Fld := ⟨PR_STAT.off, 5, 5⟩
def PR_STAT.ALIGNED : Fld := ⟨PR_STAT.off, 4, 4⟩
def PR_STAT.LINK_UP : Fld := ⟨PR_STAT.off, 3, 3⟩
def PR_STAT.ROLE : Fld := ⟨PR_STAT.off, 2, 0⟩
/-- `PR_LINK` (18_mirrored_pairs.md): offset into BAR0. -/
def PR_LINK.off : Nat := 0x13000C
def PR_LINK.LAT : Fld := ⟨PR_LINK.off, 15, 8⟩
def PR_LINK.WIDTH : Fld := ⟨PR_LINK.off, 2, 0⟩
/-- `PR_ALIGN_CFG` (18_mirrored_pairs.md): offset into BAR0. -/
def PR_ALIGN_CFG.off : Nat := 0x130010
def PR_ALIGN_CFG.P : Fld := ⟨PR_ALIGN_CFG.off, 15, 12⟩
def PR_ALIGN_CFG.COMP : Fld := ⟨PR_ALIGN_CFG.off, 9, 9⟩
def PR_ALIGN_CFG.INPUT : Fld := ⟨PR_ALIGN_CFG.off, 8, 0⟩
/-- `PR_ALIGN_RES` (18_mirrored_pairs.md): offset into BAR0. -/
def PR_ALIGN_RES.off : Nat := 0x130014
def PR_ALIGN_RES.D : Fld := ⟨PR_ALIGN_RES.off, 31, 0⟩
/-- `PR_FORCE` (18_mirrored_pairs.md): offset into BAR0. -/
def PR_FORCE.off : Nat := 0x130018
def PR_FORCE.KEY : Fld := ⟨PR_FORCE.off, 31, 0⟩
/-- `PR_SPLICE_RING` (18_mirrored_pairs.md): offset into BAR0. -/
def PR_SPLICE_RING.off : Nat := 0x13001C
def PR_SPLICE_RING.RING : Fld := ⟨PR_SPLICE_RING.off, 15, 0⟩
/-- `PR_CV_MIRROR` (18_mirrored_pairs.md): offset into BAR0. -/
def PR_CV_MIRROR.off (k : Nat) : Nat := 0x130020 + 4 * k
def PR_CV_MIRROR.ENGINE (k : Nat) : Fld := ⟨PR_CV_MIRROR.off k, 31, 0⟩
/-- `PR_CAST_STAT` (18_mirrored_pairs.md): offset into BAR0. -/
def PR_CAST_STAT.off : Nat := 0x130040
def PR_CAST_STAT.SEQ : Fld := ⟨PR_CAST_STAT.off, 31, 16⟩
def PR_CAST_STAT.AGE : Fld := ⟨PR_CAST_STAT.off, 15, 0⟩
/-- `PR_TAKE_T_LO` (18_mirrored_pairs.md): offset into BAR0. -/
def PR_TAKE_T_LO.off : Nat := 0x130044
def PR_TAKE_T_LO.T : Fld := ⟨PR_TAKE_T_LO.off, 31, 0⟩
/-- `PR_TAKE_T_HI` (18_mirrored_pairs.md): offset into BAR0. -/
def PR_TAKE_T_HI.off : Nat := 0x130048
def PR_TAKE_T_HI.T : Fld := ⟨PR_TAKE_T_HI.off, 31, 0⟩
/-- `PR_FRONT_SEL` (18_mirrored_pairs.md): offset into BAR0. -/
def PR_FRONT_SEL.off : Nat := 0x13004C
def PR_FRONT_SEL.GROUP : Fld := ⟨PR_FRONT_SEL.off, 5, 0⟩
/-- `PR_FRONT_T_LO` (18_mirrored_pairs.md): offset into BAR0. -/
def PR_FRONT_T_LO.off : Nat := 0x130050
def PR_FRONT_T_LO.T : Fld := ⟨PR_FRONT_T_LO.off, 31, 0⟩
/-- `PR_FRONT_T_HI` (18_mirrored_pairs.md): offset into BAR0. -/
def PR_FRONT_T_HI.off : Nat := 0x130054
def PR_FRONT_T_HI.T : Fld := ⟨PR_FRONT_T_HI.off, 31, 0⟩
/-- `PR_SUPPRESS_CNT` (18_mirrored_pairs.md): offset into BAR0. -/
def PR_SUPPRESS_CNT.off : Nat := 0x130058
def PR_SUPPRESS_CNT.COUNT : Fld := ⟨PR_SUPPRESS_CNT.off, 31, 0⟩
/-- `PR_CAST_CNT` (18_mirrored_pairs.md): offset into BAR0. -/
def PR_CAST_CNT.off : Nat := 0x13005C
def PR_CAST_CNT.COUNT : Fld := ⟨PR_CAST_CNT.off, 31, 0⟩
/-- `PR_TAKEOVER_CNT` (18_mirrored_pairs.md): offset into BAR0. -/
def PR_TAKEOVER_CNT.off : Nat := 0x130060
def PR_TAKEOVER_CNT.COUNT : Fld := ⟨PR_TAKEOVER_CNT.off, 31, 0⟩
/-- `PR_RETX_CNT` (18_mirrored_pairs.md): offset into BAR0. -/
def PR_RETX_CNT.off : Nat := 0x130064
def PR_RETX_CNT.COUNT : Fld := ⟨PR_RETX_CNT.off, 31, 0⟩
/-- `PR_ALIGN_STAT` (18_mirrored_pairs.md): offset into BAR0. -/
def PR_ALIGN_STAT.off : Nat := 0x130068
def PR_ALIGN_STAT.PAIRS : Fld := ⟨PR_ALIGN_STAT.off, 31, 16⟩
def PR_ALIGN_STAT.OUTCOME : Fld := ⟨PR_ALIGN_STAT.off, 2, 0⟩

/-- The register map of block 19 (PR). -/
def regsPR : List RegRow :=
[
   ⟨0x130000, 1, 4, 1, 4, .none, [⟨31, 31, .cfg, 0⟩, ⟨30, 30, .cfg, 1⟩, ⟨23, 16, .cfg, 80⟩, ⟨15, 0, .cfg, 20⟩]⟩,
   ⟨0x130004, 1, 4, 1, 4, .none, [⟨31, 31, .cmd, 0⟩, ⟨30, 30, .cmd, 0⟩, ⟨29, 29, .cmd, 0⟩, ⟨28, 28, .cmd, 0⟩]⟩,
   ⟨0x130008, 1, 4, 1, 4, .none, [⟨12, 12, .sts, 0⟩, ⟨11, 11, .sts, 0⟩, ⟨10, 10, .sts, 0⟩, ⟨9, 9, .sts, 0⟩, ⟨8, 8, .sts, 0⟩, ⟨7, 7, .sts, 0⟩, ⟨6, 6, .sts, 0⟩, ⟨5, 5, .ro, 0⟩, ⟨4, 4, .ro, 0⟩, ⟨3, 3, .ro, 0⟩, ⟨2, 0, .ro, 0⟩]⟩,
   ⟨0x13000C, 1, 4, 1, 4, .none, [⟨15, 8, .ro, 0⟩, ⟨2, 0, .ro, 0⟩]⟩,
   ⟨0x130010, 1, 4, 1, 4, .none, [⟨15, 12, .live, 12⟩, ⟨9, 9, .live, 0⟩, ⟨8, 0, .live, 0⟩]⟩,
   ⟨0x130014, 1, 4, 1, 4, .none, [⟨31, 0, .ro, 0⟩]⟩,
   ⟨0x130018, 1, 4, 1, 4, .none, [⟨31, 0, .grd, 0⟩]⟩,
   ⟨0x13001C, 1, 4, 1, 4, .none, [⟨15, 0, .cfg, 0⟩]⟩,
   ⟨0x130020, 8, 4, 1, 4, .none, [⟨31, 0, .cfg, 0⟩]⟩,
   ⟨0x130040, 1, 4, 1, 4, .none, [⟨31, 16, .ro, 0⟩, ⟨15, 0, .ro, 0⟩]⟩,
   ⟨0x130044, 1, 4, 1, 4, .lo, [⟨31, 0, .ro, 0⟩]⟩,
   ⟨0x130048, 1, 4, 1, 4, .hi, [⟨31, 0, .ro, 0⟩]⟩]
  ++ [
   ⟨0x13004C, 1, 4, 1, 4, .none, [⟨5, 0, .live, 0⟩]⟩,
   ⟨0x130050, 1, 4, 1, 4, .lo, [⟨31, 0, .ro, 0⟩]⟩,
   ⟨0x130054, 1, 4, 1, 4, .hi, [⟨31, 0, .ro, 0⟩]⟩,
   ⟨0x130058, 1, 4, 1, 4, .none, [⟨31, 0, .cnt, 0⟩]⟩,
   ⟨0x13005C, 1, 4, 1, 4, .none, [⟨31, 0, .cnt, 0⟩]⟩,
   ⟨0x130060, 1, 4, 1, 4, .none, [⟨31, 0, .cnt, 0⟩]⟩,
   ⟨0x130064, 1, 4, 1, 4, .none, [⟨31, 0, .cnt, 0⟩]⟩,
   ⟨0x130068, 1, 4, 1, 4, .none, [⟨31, 16, .ro, 0⟩, ⟨2, 0, .ro, 0⟩]⟩]

/-! ## Block 20, MT -/

/-- `MT_STAT` (20_power_reset_mitten.md): offset into BAR0. -/
def MT_STAT.off : Nat := 0x140000
def MT_STAT.LPO_CAL : Fld := ⟨MT_STAT.off, 3, 3⟩
def MT_STAT.SRC_LPO : Fld := ⟨MT_STAT.off, 2, 2⟩
def MT_STAT.REF_LOST : Fld := ⟨MT_STAT.off, 1, 1⟩
def MT_STAT.SLEPT : Fld := ⟨MT_STAT.off, 0, 0⟩
/-- `MT_WAKE_CAUSE` (20_power_reset_mitten.md): offset into BAR0. -/
def MT_WAKE_CAUSE.off : Nat := 0x140004
def MT_WAKE_CAUSE.RESET : Fld := ⟨MT_WAKE_CAUSE.off, 10, 10⟩
def MT_WAKE_CAUSE.PIN : Fld := ⟨MT_WAKE_CAUSE.off, 9, 9⟩
def MT_WAKE_CAUSE.ALARM : Fld := ⟨MT_WAKE_CAUSE.off, 8, 8⟩
def MT_WAKE_CAUSE.WCMP : Fld := ⟨MT_WAKE_CAUSE.off, 7, 0⟩
/-- `MT_CFG` (20_power_reset_mitten.md): offset into BAR0. -/
def MT_CFG.off : Nat := 0x140008
def MT_CFG.REF_RX : Fld := ⟨MT_CFG.off, 31, 31⟩
def MT_CFG.WAKE_OUT : Fld := ⟨MT_CFG.off, 30, 30⟩
def MT_CFG.NOTICE_EN : Fld := ⟨MT_CFG.off, 29, 29⟩
/-- `MT_WAKE_EN` (20_power_reset_mitten.md): offset into BAR0. -/
def MT_WAKE_EN.off : Nat := 0x14000C
def MT_WAKE_EN.PIN : Fld := ⟨MT_WAKE_EN.off, 9, 9⟩
def MT_WAKE_EN.ALARM : Fld := ⟨MT_WAKE_EN.off, 8, 8⟩
def MT_WAKE_EN.WCMP : Fld := ⟨MT_WAKE_EN.off, 7, 0⟩
/-- `MT_SLEEP` (20_power_reset_mitten.md): offset into BAR0. -/
def MT_SLEEP.off : Nat := 0x140010
def MT_SLEEP.KEY : Fld := ⟨MT_SLEEP.off, 31, 0⟩
/-- `MT_SRST` (20_power_reset_mitten.md): offset into BAR0. -/
def MT_SRST.off : Nat := 0x140014
def MT_SRST.DATAPATH : Fld := ⟨MT_SRST.off, 1, 1⟩
def MT_SRST.DEVICE : Fld := ⟨MT_SRST.off, 0, 0⟩
/-- `MT_SLEEP_RES` (20_power_reset_mitten.md): offset into BAR0. -/
def MT_SLEEP_RES.off : Nat := 0x140018
def MT_SLEEP_RES.OUTCOME : Fld := ⟨MT_SLEEP_RES.off, 2, 0⟩
/-- `MT_WCMP` (20_power_reset_mitten.md): offset into BAR0. -/
def MT_WCMP.off (k : Nat) : Nat := 0x140020 + 4 * k
def MT_WCMP.EDGE (k : Nat) : Fld := ⟨MT_WCMP.off k, 8, 8⟩
def MT_WCMP.THR (k : Nat) : Fld := ⟨MT_WCMP.off k, 7, 0⟩
/-- `MT_COUNT_LO` (20_power_reset_mitten.md): offset into BAR0. -/
def MT_COUNT_LO.off : Nat := 0x140040
def MT_COUNT_LO.COUNT : Fld := ⟨MT_COUNT_LO.off, 31, 0⟩
/-- `MT_COUNT_HI` (20_power_reset_mitten.md): offset into BAR0. -/
def MT_COUNT_HI.off : Nat := 0x140044
def MT_COUNT_HI.COUNT : Fld := ⟨MT_COUNT_HI.off, 31, 0⟩
/-- `MT_COUNT_FRAC` (20_power_reset_mitten.md): offset into BAR0. -/
def MT_COUNT_FRAC.off : Nat := 0x140048
def MT_COUNT_FRAC.FRAC : Fld := ⟨MT_COUNT_FRAC.off, 23, 0⟩
/-- `MT_ALARM_LO` (20_power_reset_mitten.md): offset into BAR0. -/
def MT_ALARM_LO.off : Nat := 0x140050
def MT_ALARM_LO.COUNT : Fld := ⟨MT_ALARM_LO.off, 31, 0⟩
/-- `MT_ALARM_HI` (20_power_reset_mitten.md): offset into BAR0. -/
def MT_ALARM_HI.off : Nat := 0x140054
def MT_ALARM_HI.COUNT : Fld := ⟨MT_ALARM_HI.off, 31, 0⟩
/-- `MT_ENTRY_T_LO` (20_power_reset_mitten.md): offset into BAR0. -/
def MT_ENTRY_T_LO.off : Nat := 0x140060
def MT_ENTRY_T_LO.T : Fld := ⟨MT_ENTRY_T_LO.off, 31, 0⟩
/-- `MT_ENTRY_T_HI` (20_power_reset_mitten.md): offset into BAR0. -/
def MT_ENTRY_T_HI.off : Nat := 0x140064
def MT_ENTRY_T_HI.T : Fld := ⟨MT_ENTRY_T_HI.off, 31, 0⟩
/-- `MT_GAP_BOUND_LO` (20_power_reset_mitten.md): offset into BAR0. -/
def MT_GAP_BOUND_LO.off : Nat := 0x140068
def MT_GAP_BOUND_LO.B : Fld := ⟨MT_GAP_BOUND_LO.off, 31, 0⟩
/-- `MT_GAP_BOUND_HI` (20_power_reset_mitten.md): offset into BAR0. -/
def MT_GAP_BOUND_HI.off : Nat := 0x14006C
def MT_GAP_BOUND_HI.B : Fld := ⟨MT_GAP_BOUND_HI.off, 31, 0⟩
/-- `MT_LPO_RATIO` (20_power_reset_mitten.md): offset into BAR0. -/
def MT_LPO_RATIO.off : Nat := 0x140070
def MT_LPO_RATIO.RATIO : Fld := ⟨MT_LPO_RATIO.off, 31, 0⟩
/-- `MT_STRAP` (20_power_reset_mitten.md): offset into BAR0. -/
def MT_STRAP.off : Nat := 0x140074
def MT_STRAP.STRAP : Fld := ⟨MT_STRAP.off, 3, 0⟩
/-- `MT_BOOT` (20_power_reset_mitten.md): offset into BAR0. -/
def MT_BOOT.off : Nat := 0x140078
def MT_BOOT.LANES_READY : Fld := ⟨MT_BOOT.off, 4, 4⟩
def MT_BOOT.CAL_LOADED : Fld := ⟨MT_BOOT.off, 3, 3⟩
def MT_BOOT.DLLS_LOCKED : Fld := ⟨MT_BOOT.off, 2, 2⟩
def MT_BOOT.SHADOWS : Fld := ⟨MT_BOOT.off, 1, 1⟩
def MT_BOOT.PLL_LOCK : Fld := ⟨MT_BOOT.off, 0, 0⟩
/-- `MT_SLEEP_CNT` (20_power_reset_mitten.md): offset into BAR0. -/
def MT_SLEEP_CNT.off : Nat := 0x14007C
def MT_SLEEP_CNT.COUNT : Fld := ⟨MT_SLEEP_CNT.off, 31, 0⟩

/-- The register map of block 20 (MT). -/
def regsMT : List RegRow :=
[
   ⟨0x140000, 1, 4, 1, 4, .none, [⟨3, 3, .ro, 0⟩, ⟨2, 2, .ro, 0⟩, ⟨1, 1, .sts, 0⟩, ⟨0, 0, .sts, 0⟩]⟩,
   ⟨0x140004, 1, 4, 1, 4, .none, [⟨10, 10, .ro, 0⟩, ⟨9, 9, .ro, 0⟩, ⟨8, 8, .ro, 0⟩, ⟨7, 0, .ro, 0⟩]⟩,
   ⟨0x140008, 1, 4, 1, 4, .none, [⟨31, 31, .cfg, 1⟩, ⟨30, 30, .cfg, 1⟩, ⟨29, 29, .cfg, 1⟩]⟩,
   ⟨0x14000C, 1, 4, 1, 4, .none, [⟨9, 9, .cfg, 1⟩, ⟨8, 8, .cfg, 0⟩, ⟨7, 0, .cfg, 0⟩]⟩,
   ⟨0x140010, 1, 4, 1, 4, .none, [⟨31, 0, .grd, 0⟩]⟩,
   ⟨0x140014, 1, 4, 1, 4, .none, [⟨1, 1, .grd, 0⟩, ⟨0, 0, .grd, 0⟩]⟩,
   ⟨0x140018, 1, 4, 1, 4, .none, [⟨2, 0, .ro, 0⟩]⟩,
   ⟨0x140020, 8, 4, 1, 4, .none, [⟨8, 8, .cfg, 0⟩, ⟨7, 0, .cfg, 128⟩]⟩,
   ⟨0x140040, 1, 4, 1, 4, .lo, [⟨31, 0, .ro, 0⟩]⟩,
   ⟨0x140044, 1, 4, 1, 4, .hi, [⟨31, 0, .ro, 0⟩]⟩,
   ⟨0x140048, 1, 4, 1, 4, .none, [⟨23, 0, .ro, 0⟩]⟩,
   ⟨0x140050, 1, 4, 1, 4, .lo, [⟨31, 0, .live, 4294967295⟩]⟩]
  ++ [
   ⟨0x140054, 1, 4, 1, 4, .hi, [⟨31, 0, .live, 4294967295⟩]⟩,
   ⟨0x140060, 1, 4, 1, 4, .lo, [⟨31, 0, .ro, 0⟩]⟩,
   ⟨0x140064, 1, 4, 1, 4, .hi, [⟨31, 0, .ro, 0⟩]⟩,
   ⟨0x140068, 1, 4, 1, 4, .lo, [⟨31, 0, .ro, 0⟩]⟩,
   ⟨0x14006C, 1, 4, 1, 4, .hi, [⟨31, 0, .ro, 0⟩]⟩,
   ⟨0x140070, 1, 4, 1, 4, .none, [⟨31, 0, .ro, 16777216⟩]⟩,
   ⟨0x140074, 1, 4, 1, 4, .none, [⟨3, 0, .ro, 0⟩]⟩,
   ⟨0x140078, 1, 4, 1, 4, .none, [⟨4, 4, .ro, 0⟩, ⟨3, 3, .ro, 0⟩, ⟨2, 2, .ro, 0⟩, ⟨1, 1, .ro, 0⟩, ⟨0, 0, .ro, 0⟩]⟩,
   ⟨0x14007C, 1, 4, 1, 4, .none, [⟨31, 0, .cnt, 0⟩]⟩]

/-! ## Block 21, IR -/

/-- `IR_NCFG` (13_host_rings.md): offset into BAR0. -/
def IR_NCFG.off (f : Nat) : Nat := 0x150000 + 64 * f
def IR_NCFG.EN (f : Nat) : Fld := ⟨IR_NCFG.off f, 31, 31⟩
def IR_NCFG.RING (f : Nat) : Fld := ⟨IR_NCFG.off f, 29, 24⟩
def IR_NCFG.HOLD (f : Nat) : Fld := ⟨IR_NCFG.off f, 15, 0⟩
/-- `IR_NSTAT` (13_host_rings.md): offset into BAR0. -/
def IR_NSTAT.off (f : Nat) : Nat := 0x150004 + 64 * f
def IR_NSTAT.RING_ERR (f : Nat) : Fld := ⟨IR_NSTAT.off f, 17, 17⟩
def IR_NSTAT.OVF (f : Nat) : Fld := ⟨IR_NSTAT.off f, 16, 16⟩
def IR_NSTAT.OCC (f : Nat) : Fld := ⟨IR_NSTAT.off f, 8, 0⟩
/-- `IR_NDROP_CNT` (13_host_rings.md): offset into BAR0. -/
def IR_NDROP_CNT.off (f : Nat) : Nat := 0x150008 + 64 * f
def IR_NDROP_CNT.COUNT (f : Nat) : Fld := ⟨IR_NDROP_CNT.off f, 31, 0⟩
/-- `IR_NSEQ` (13_host_rings.md): offset into BAR0. -/
def IR_NSEQ.off (f : Nat) : Nat := 0x15000C + 64 * f
def IR_NSEQ.SEQ (f : Nat) : Fld := ⟨IR_NSEQ.off f, 15, 0⟩
/-- `IR_NMASK` (13_host_rings.md): offset into BAR0. -/
def IR_NMASK.off (f : Nat) : Nat := 0x150010 + 64 * f
def IR_NMASK.BLOCK (f : Nat) : Fld := ⟨IR_NMASK.off f, 31, 0⟩
/-- `IR_ALARM_EN` (13_host_rings.md): offset into BAR0. -/
def IR_ALARM_EN.off : Nat := 0x151000
def IR_ALARM_EN.EN : Fld := ⟨IR_ALARM_EN.off, 7, 0⟩
/-- `IR_ALARM_STAT` (13_host_rings.md): offset into BAR0. -/
def IR_ALARM_STAT.off : Nat := 0x151004
def IR_ALARM_STAT.PAIR : Fld := ⟨IR_ALARM_STAT.off, 7, 7⟩
def IR_ALARM_STAT.MA_CROSS : Fld := ⟨IR_ALARM_STAT.off, 6, 6⟩
def IR_ALARM_STAT.MA_WINDOW : Fld := ⟨IR_ALARM_STAT.off, 5, 5⟩
def IR_ALARM_STAT.INTEGRITY : Fld := ⟨IR_ALARM_STAT.off, 4, 4⟩
def IR_ALARM_STAT.NOTICE_OVF : Fld := ⟨IR_ALARM_STAT.off, 3, 3⟩
def IR_ALARM_STAT.MC_UE : Fld := ⟨IR_ALARM_STAT.off, 2, 2⟩
def IR_ALARM_STAT.DLL : Fld := ⟨IR_ALARM_STAT.off, 1, 1⟩
def IR_ALARM_STAT.CAL_NONE : Fld := ⟨IR_ALARM_STAT.off, 0, 0⟩

/-- The register map of block 21 (IR). -/
def regsIR : List RegRow :=
[
   ⟨0x150000, 8, 64, 1, 4, .none, [⟨31, 31, .live, 0⟩, ⟨29, 24, .live, 0⟩, ⟨15, 0, .live, 0⟩]⟩,
   ⟨0x150004, 8, 64, 1, 4, .none, [⟨17, 17, .sts, 0⟩, ⟨16, 16, .sts, 0⟩, ⟨8, 0, .ro, 0⟩]⟩,
   ⟨0x150008, 8, 64, 1, 4, .none, [⟨31, 0, .cnt, 0⟩]⟩,
   ⟨0x15000C, 8, 64, 1, 4, .none, [⟨15, 0, .ro, 0⟩]⟩,
   ⟨0x150010, 8, 64, 1, 4, .none, [⟨31, 0, .live, 4294967295⟩]⟩,
   ⟨0x151000, 1, 4, 1, 4, .none, [⟨7, 0, .live, 255⟩]⟩,
   ⟨0x151004, 1, 4, 1, 4, .none, [⟨7, 7, .sts, 0⟩, ⟨6, 6, .sts, 0⟩, ⟨5, 5, .sts, 0⟩, ⟨4, 4, .sts, 0⟩, ⟨3, 3, .sts, 0⟩, ⟨2, 2, .sts, 0⟩, ⟨1, 1, .sts, 0⟩, ⟨0, 0, .sts, 0⟩]⟩]

/-- The register map of a block by its number (R283); blocks 22 to 31 are reserved and hold none (R284). -/
def regsOfBlock (b : Nat) : List RegRow :=
  match b with
  | 0 => regsGL
  | 1 => regsAR
  | 2 => regsMQ
  | 3 => regsHI
  | 4 => regsPL
  | 5 => regsTP
  | 6 => regsEP
  | 7 => regsIN
  | 8 => regsLG
  | 9 => regsCA
  | 10 => regsCV
  | 11 => regsCC
  | 12 => regsMU
  | 13 => regsMC
  | 14 => regsCR
  | 15 => regsPK
  | 16 => regsPG
  | 17 => regsTT
  | 18 => regsMA
  | 19 => regsPR
  | 20 => regsMT
  | 21 => regsIR
  | _ => []

end Sys2Proof.Machine
end

