-- ==== Sys2Proof/Machine/State.lean ====
section
/-! DEFINITION. The state of the block: every register, FIFO, buffer, counter, mode and pin the manual gives it, as plain
data, and the queue of waiting commands.  Each field's comment names the file and rule of spec/ and the reset value. -/

namespace Sys2Proof.Machine

/-- A sparse table: a list of key and value pairs, keys strictly rising, no value equal to what an unlisted key reads as.
`Store.wf` (Machine/Ops.lean) is that form. -/
abbrev Store (α : Type) := List (Nat × α)

/-- Byte memory in the same form; every unlisted address reads as one byte named by the memory's owner. -/
abbrev Mem := List Host.Cell

/-- A sealed tile (R118): the header word and the seven record slots. -/
structure Tile where
  hdr : W64
  slots : List W64
  deriving DecidableEq, Repr

/-! ## Registers and the bus (14_register_behaviour.md) -/

/-- An open guarded pair of one block (R291). -/
structure GuardPair where
  slot : Nat
  value : W32
  func : Nat
  opened : Nat          -- `now` at the opening write
  broken : Bool         -- another write reached the block in between (cause 3)
  noReg : Bool          -- slot names no grd register (cause 5)
  noRights : Bool       -- writing function lacks rights (cause 6)
  deriving DecidableEq, Repr

/-- A strobe on its way to the blocks (R295, R296). -/
structure Strobe where
  mask : Nat
  func : Nat            -- function whose units a register or time-trigger strobe is limited to; 0 otherwise
  src : Nat             -- 0 register, 1 time trigger, 2 UNVEIL_N, 3 partner
  edge : Nat            -- the strobe edge P, in PCLK edges
  left : List UBlock    -- blocks of its groups that have not latched yet
  done : List UBlock    -- blocks that have latched
  deriving DecidableEq, Repr

structure Bus where
  /-- every register's value in force, by BAR0 offset: live, sts, cnt, ro, grd fields and the cfg fields in force
  (14, R9, R12; reset: the Reset column of each map) -/
  regs : Store W32 := []
  /-- the Maquette: staged cfg values by BAR0 offset (14, R294; reset as the maps) -/
  maq : Store W32 := []
  /-- the committed sets: cfg values latched by the last strobe (14, R296; reset as the maps) -/
  com : Store W32 := []
  /-- the holding latch of each LO/HI pair, by the LO register's offset (14, R289; none: the LO value in force) -/
  latch : Store (Option W32) := []
  /-- MQ_VIEW of each function (14, R298; reset 0) -/
  view : Store W32 := []
  /-- the open guarded pair of each block (14, R291; reset none) -/
  pair : Store (Option GuardPair) := []
  /-- strobes that some block has still to latch or that have still to reach one, oldest first (14, R294, R296; reset none) -/
  strobes : List Strobe := []
  /-- units whose committed set awaits its application boundary (14, R296; reset none), with their Unveil group -/
  waiting : List (UBlock × Nat) := []
  /-- the edges of the last strobes recorded in MQ_LAST: coincident ones merge (14, R295; reset none) -/
  seen : List Nat := []
  /-- rate generators whose registers the strobes of the waiting TT set have latched, one bit each (16, R339; reset none) -/
  ttLatched : Nat := 0
  /-- an integrity scan is running (14, R299; reset no) -/
  scanOn : Bool := false
  /-- a set was latched during the running scan (14, R300; reset no) -/
  scanVoid : Bool := false
  /-- `now` at which MT_SRST/RST_N/PERST_N release happened: BAR0 answers 20 ms later (00, R7; R398) -/
  releasedAt : Nat := 0
  deriving DecidableEq, Repr

/-! ## Plinth (05_plinth_time_base.md) -/

structure Plinth where
  /-- the main PLL has started Plinth: T and F count (05, R92; reset no) -/
  running : Bool := false
  /-- T, 104 bits (05, R92; reset 0) -/
  t : BitVec 104 := 0
  /-- F, 40 bits, in units of 2^-40 tick (05, R92; reset 0) -/
  f : BitVec 40 := 0
  /-- T at the PCLK edge before the last: the coarse edge of a stamp sampled at the last edge (05, R97; reset 0) -/
  tc : BitVec 104 := 0
  /-- F at that coarse edge (05, R97; reset 0) -/
  fc : BitVec 40 := 0
  /-- ADJ of the increment added at the last edge (05, R97, R103; reset 0) -/
  adjLast : BitVec 48 := 0
  /-- ADJ in force for the next increments (05, R93; reset 0) -/
  adj : BitVec 48 := 0
  /-- a requested ADJ not yet applied (05, R94; reset none), with the T from which a pair may apply it (18, R372) -/
  adjReq : Option (BitVec 48 × Nat) := none
  /-- the last value the network-time servo issued (05, R94; reset 0) -/
  servoAdj : BitVec 48 := 0
  /-- PCLK edges counted since calibration-frame boundary 0 (04, R76; reset 0) -/
  edge : Nat := 0
  /-- T at the latest edge that is a multiple of 2^20, until CAL_FRAME_BOUNDARY takes it (04, R76; reset none) -/
  frameT : Option (BitVec 104) := none
  /-- the epoch of the last epoch marker round (05, R100; reset 0) -/
  epochSeen : Nat := 0
  /-- T at the last seventeen edges, newest first: what the copies of T of the clusters and capture rings may show (09, R190;
  11, R229; reset none) -/
  hist : List (BitVec 104) := []
  /-- the source latched by the pending snapshot (05, R103; reset 0) -/
  snapSrc : Nat := 0
  /-- PCLK edge at which its GO write crossed: the snapshot edge is a later one (05, R103; reset 0) -/
  snapEdge : Nat := 0
  /-- T and BOUND_EXP of the sleep-gap marker that each stream's start carries after a wake (20, R412; reset none) -/
  gap : Option (Nat × Nat) := none
  /-- an origin load has been made since reset (05, R105; reset no) -/
  originDone : Bool := false
  deriving DecidableEq, Repr

/-! ## Input cells and Chisel (02_input_cells.md, 03_chisel_interpolator.md) -/

/-- A stamp in the Chisel pipeline of its lane (R63, R65). -/
structure Held where
  s : Nat               -- full stamp time of R97
  falling : Bool
  pile : Bool
  quality : Nat
  at_ : Nat             -- PCLK edge S at which it was sampled
  deriving DecidableEq, Repr

/-- A record in a lane chain (R130): the record, its full time and the GCLK cycle in which it entered. -/
structure ChainRec where
  word : W64
  s : Nat
  cyc : Nat
  deriving DecidableEq, Repr

structure Lane where
  /-- comparator output, IN_STAT.CMP_A or CMP_B (02, R35; reset low) -/
  level : Bool := false
  /-- coarse edge and fine value of the last emitted stamp (03, R64; reset none) -/
  last : Option (Nat × Nat) := none
  /-- stamps held in the Chisel pipeline, oldest first (03, R63; reset none) -/
  pipe : List Held := []
  /-- the lane chain, head first, at most 32 records (07, R130; reset empty) -/
  chain : List ChainRec := []
  /-- pending-loss count, 32 bits saturating (07, R131; reset 0) -/
  lost : Nat := 0
  /-- suppressed-transition count while a calibration command suppresses the lane (02, R45; reset none) -/
  supp : Option Nat := none
  /-- the suppression is that of an input command, which its last settling window ends (02, R45; reset no) -/
  suppCmd : Bool := false
  /-- PCLK edge before which the settling window is open (02, R38; reset 0) -/
  settleEnd : Nat := 0
  deriving DecidableEq, Repr

/-- Phases of the input command that runs (R43, R47). -/
inductive InPhase where
  | wait1 | read1 | search | wait2 | read2 | ending
  deriving DecidableEq, Repr

structure InCmd where
  input : Nat
  openWire : Bool
  phase : InPhase
  m1 : Option BaselineReading
  m2 : Option BaselineReading
  togA : Nat := 0       -- transitions of the two comparators in the present or last observation (R43, R47)
  togB : Nat := 0
  highA : Bool := false -- level of the two comparators in it
  highB : Bool := false
  reject : Nat          -- outcome fixed before the end: 0 none, 4 transitions, 5 sigma
  at_ : Nat             -- `now` at which the phase began
  deriving DecidableEq, Repr

structure Inputs where
  /-- lanes 0 to 1,023 (02, R31) -/
  lanes : Store Lane := []
  /-- the command that runs in the IN block (02, R50; reset none) -/
  cmd : Option InCmd := none
  /-- a change to the commanded input's registers is held until the command ends (02, R46; reset none) -/
  held : List (Nat × W32) := []
  /-- levels of GATE pins 0 to 15, one bit each (08, R157; reset low) -/
  gatePins : Nat := 0
  deriving DecidableEq, Repr

/-! ## Calibration (04_bin_tables.md) -/

/-- A staging copy of one group (R70, R76). -/
structure Staging where
  temp : Int
  tables : List (List Nat)   -- sixteen tables of 512 entries
  nominal : Bool             -- built from a set still marked nominal (R81)
  startEdge : Nat
  firstTable : Bool          -- a first table of R80, activated without a boundary
  deriving DecidableEq, Repr

/-- A code-density measurement that runs in a group (R83). -/
structure Measure where
  mask : Nat
  set : Nat
  p : Nat
  ring : Nat
  cmd : Command
  dllLost : Bool
  temps : Option (Int × Int)   -- least and greatest temperature delivered during collection
  at_ : Nat             -- `now` of acceptance
  deriving DecidableEq, Repr

structure CalGroup where
  /-- the group's first table is active (04, R80; reset no) -/
  first : Bool := false
  /-- the group's staging build in progress (04, R76; reset none) -/
  building : Option Staging := none
  /-- the complete staging copy (04, R70; reset none) -/
  staged : Option Staging := none
  /-- temperature of the newest build (04, R76; reset none) -/
  tUsed : Option Int := none
  /-- a delivery has arrived since reset (04, R80; reset no) -/
  delivered : Bool := false
  /-- a trigger arrived during the build and is judged again at its end (04, R76; reset no) -/
  again : Bool := false
  /-- the active table uses a set marked nominal, or the S60 copy (04, R80, R81; reset no) -/
  flagged : Bool := false
  /-- `now` from which the staleness interval counts, while it counts (04, R72; reset none) -/
  staleFrom : Option Nat := none
  /-- the present gap in deliveries has been reported stale (04, R72; reset no) -/
  staleSeen : Bool := false
  /-- the measurement that runs in the group (04, R82; reset none) -/
  measure : Option Measure := none
  deriving DecidableEq, Repr

/-- One slot of the calibration flash as programmed (R87). `sets` is keyed 3n + k, `trims` by lane. -/
structure Slot where
  /-- header programmed with MAGIC and FORMAT of R87 -/
  header : Bool := false
  seq : Nat := 0
  ident : W32 := 0xFFFFFFFF
  payload : Bool := false
  sets : Store (List Nat) := []
  trims : Store (BitVec 6) := []
  /-- the payload failed its CRC when a load read it (R88) -/
  bad : Bool := false
  /-- a write of the slot runs or stopped before COMMIT: its erased and programmed content is unspecified, but for what the steps that
  are done have left (04, R89, R91) -/
  torn : Bool := false
  /-- which free values its unspecified bytes are: they stay as they are once the write has stopped (04, R91) -/
  key : Nat := 0
  /-- the COMMIT word; 0 only after a complete program (R89) -/
  commit : W32 := 0xFFFFFFFF
  deriving DecidableEq, Repr

/-- The store operation that runs (R82, R89). -/
inductive StoreOp where
  | load (start : Bool) | write (slot : Nat) (seq : Nat)
  deriving DecidableEq, Repr

structure Cal where
  /-- working sets, keyed 3 × lane + set, 512 entries each (04, R69; reset nominal, DESIGN CHOICE) -/
  sets : Store (List Nat) := []
  /-- sets that have been loaded or accepted since the last nominal load: not marked nominal (04, R81; reset all) -/
  nominal : Store Bool := []
  /-- active table of each lane (04, R70; reset nominal, DESIGN CHOICE) -/
  active : Store (List Nat) := []
  /-- calibration state of groups 0 to 63 (04) -/
  groups : Store CalGroup := []
  /-- flash slot A (04, R87; reset erased, DESIGN CHOICE) -/
  slotA : Slot := {}
  /-- flash slot B (04, R87; reset erased, DESIGN CHOICE) -/
  slotB : Slot := {}
  /-- the store operation that runs (04, R82; the start-up load runs from reset release, R398) -/
  op : Option StoreOp := none
  /-- the command that started it (04, R82) -/
  opCmd : Option Command := none
  /-- a supply warning or reset has stopped the write in progress (04, R91; reset no) -/
  aborted : Bool := false
  deriving DecidableEq, Repr

/-! ## Lane groups (07_lane_chains_and_queues.md) -/

/-- A time marker due to an assembler (R110): PCLK edge at which it is due, its class in the order of R110 and its word. -/
structure Mark where
  edge : Nat
  cls : Nat
  word : W64
  deriving DecidableEq, Repr

/-- What one place of a queue holds (R135), or the veto-drop entry the read side makes (R142). -/
inductive QItem where
  | tile (t : Tile) (window : Option (Nat × Nat))   -- window and part it belongs to
  | reservation (window part : Nat)
  | fill (window part : Nat) (t : Tile)
  | vetoDrop (count seq : Nat)
  deriving DecidableEq, Repr

/-- A queue entry with the destinations that have still to take it, and whether any has taken it (R136). -/
structure QEntry where
  item : QItem
  left : List Dest
  taken : Bool
  deriving DecidableEq, Repr

/-- The part of the open window (R139 to R141). -/
structure Win where
  num : Nat
  part : Nat
  gate : Nat
  openMark : W64
  openedCyc : Nat
  dur : Nat                 -- DUR in force at the opening (R149)
  len : Nat                 -- data tiles of the part that are handed out
  firstSeq : Option Nat     -- SEQ of the part's first data tile
  vetoed : Bool
  dropped : Nat             -- tiles dropped from the veto point on
  dropSeq : Nat             -- SEQ of the first tile after the dropped span so far
  deriving DecidableEq, Repr

/-- A gate event on its way to an assembler (R139, R144). -/
structure GateEv where
  open_ : Bool
  id : Nat
  t : Nat
  deriving DecidableEq, Repr

structure Group where
  /-- the lanes have left NOT_READY (04, R80; reset NOT_READY) -/
  ready : Bool := false
  /-- DLL: the loop acquires or tracks, from the PCLK edge at `now` = `dllRun` on without a bad edge (03, R58; reset stopped) -/
  dllOn : Bool := false
  /-- PCLK edge from which every edge has been good (03, R58; reset 0) -/
  dllRun : Nat := 0
  /-- the group has lost lock since reset (03, R58; reset no) -/
  dllLost : Bool := false
  /-- PCLK edge of the last code step (03, R56; reset 0) -/
  dllStep : Nat := 0
  /-- time markers due to the assembler (07, R133; reset none) -/
  marks : List Mark := []
  /-- queue discards not yet reported by a reason-0x1 gap record (07, R138; reset 0) -/
  qGap : Nat := 0
  /-- pending reason-0x2 gap records: lane and count (02, R45; reset none) -/
  supGaps : List (Nat × Nat) := []
  /-- an epoch marker is owed after a loss gap record (07, R132; reset no) -/
  epochDue : Bool := false
  /-- records of the open tile in order (07, R133; reset none open) -/
  tile : List W64 := []
  /-- full times of the stamps in the open tile (08, R161; reset none) -/
  tileTimes : List Nat := []
  /-- GCLK cycle of the open tile's first record (01, R16; reset 0) -/
  tileCyc : Nat := 0
  /-- the open tile waits for a credit or for entry-buffer space (01, R17; reset no) -/
  waitCredit : Bool := false
  /-- GCLK cycle of the last seal of a lane tile (07, R146; reset none) -/
  sealedCyc : Option Nat := none
  /-- GCLK cycle of the last record placed (07, R133; reset none) -/
  placed : Option Nat := none
  /-- record allowance B, 0 to 14 (07, R134; reset 14) -/
  allow : Nat := 14
  /-- number of allowance rises so far (07, R134; reset 0) -/
  rises : Nat := 0
  /-- round-robin pointer among the sixteen lanes (07, R133; reset 0, DESIGN CHOICE) -/
  rr : Nat := 0
  /-- the group queue, oldest entry first, at most 1,024 places (07, R135; reset empty) -/
  queue : List QEntry := []
  /-- window entries waiting for room, at most 8 (07, R138; reset none) -/
  waitWin : List QItem := []
  /-- the open window (07, R139; reset none) -/
  win : Option Win := none
  /-- WINDOW of the next window (07, R116; reset 0) -/
  nextWin : Nat := 0
  /-- gate events of the framing gate that have reached the assembler (07, R139; reset none) -/
  winEv : List GateEv := []
  /-- injection buffer words, at most 14 (07, R145; reset empty) -/
  inj : List W32 := []
  /-- words of the injected tile that awaits its seal (07, R146; reset none) -/
  injTile : Option (List W32) := none
  /-- a FLUSH found words while another tile awaited its seal (07, R145; reset no) -/
  injFlush : Bool := false
  /-- a host or Carver veto on its way to the read side: count (07, R142; reset 0) -/
  vetoes : Nat := 0
  /-- new watermarks have been applied: the GCLK cycle in which they were, and the value of LG_WM that is evaluated in it (07, R147;
  reset none) -/
  wmOld : Option (Nat × W32) := none
  deriving DecidableEq, Repr

/-! ## Stamp fabric, clusters and engines (09_carver_engines.md, 10_fabric_and_decisions.md) -/

/-- A fabric source: lane group, cluster or MU bank, keyed by its group code (R202, R203). -/
structure Source where
  /-- sealed tiles that have not crossed into FCLK yet, oldest first (10, R203; reset none) -/
  crossing : List Tile := []
  /-- entry buffer, oldest first, with the FCLK cycle of entry (10, R203; reset empty) -/
  entry : List (Tile × Nat) := []
  /-- fabric issue credits, 0 to 8 (01, R17; reset 8, DESIGN CHOICE) -/
  credits : Nat := 8
  /-- credits earned so far, one per 32 FCLK cycles (01, R17; reset 0) -/
  earned : Nat := 0
  deriving DecidableEq, Repr

/-- A mailbox message (R193). -/
structure Msg where
  payload : W64
  src : Nat
  dst : Nat
  cyc : Nat
  deriving DecidableEq, Repr

/-- A stream input port of an engine (R181 to R183). -/
structure Port where
  /-- port queue, head first, at most 64 records (09, R182; reset empty) -/
  q : List W64 := []
  /-- subscription lane mask (09, R181; reset 0) -/
  mask : BitVec 1024 := 0
  /-- subscription kind filter (09, R181; reset 0) -/
  kind : BitVec 8 := 0
  /-- subscription result-source mask (09, R181; reset 0) -/
  rsrc : BitVec 20 := 0
  /-- lost-record count, 32 bits saturating (09, R182; reset 0) -/
  lost : Nat := 0
  deriving DecidableEq, Repr

structure Engine where
  /-- 0 never started, 1 halted, 2 running, 3 waiting in POP or WAIT (09, CV_STAT.STATE; reset 0) -/
  st : Nat := 0
  /-- program counter, 12 bits (09, R178; reset 0) -/
  pc : Nat := 0
  /-- general registers g1 to g31 (09, R178; reset 0, DESIGN CHOICE for g1 to g31) -/
  g : Store W64 := []
  /-- instruction memory, 4,096 words (09, R200; reset 0xFFFF_FFFF) -/
  imem : Store W32 := []
  /-- local memory, 128 KiB (09, R192; reset 0) -/
  lmem : Mem := []
  /-- port P0 (09, R178) -/
  p0 : Port := {}
  /-- port P1 (09, R178) -/
  p1 : Port := {}
  /-- result queue: records placed and not yet taken, with the number dropped directly before each (09, R194, R195; reset
  empty) -/
  rq : List (W64 × Nat) := []
  /-- result records dropped since the last one accepted (09, R195; reset 0) -/
  rqLost : Nat := 0
  /-- ECLK cycle in which the engine last started (09, R180, R201; reset 0) -/
  at0 : Nat := 0
  /-- ECLK cycles since the engine last started, RDS selector 6 (09, R201; reset 0) -/
  cyc : Nat := 0
  /-- cycle count of the decision path, while one runs (09, R189; reset none) -/
  lat : Option Nat := none
  /-- the PC cannot advance past 4,095: PC overrun is due (09, R186; reset no) -/
  overrun : Bool := false
  deriving DecidableEq, Repr

/-- A decision between its issue and its target (R213). -/
inductive Decision where
  | drive (pin act n : Nat)
  | pjump (seq slot : Nat)
  | veto (g : Nat)
  | mark (r : Nat)
  | gate (c : Nat) (open_ : Bool) (t : Nat)
  | muarm (u : Nat) (t : Nat)
  deriving DecidableEq, Repr

/-- A decision on its way, with the ECLK cycle of its issue and the engine that issued it (R198, R214); 256 stands for the
partner's engines. -/
structure SentDec where
  cyc : Nat
  eng : Nat
  d : Decision
  deriving DecidableEq, Repr

structure Cluster where
  /-- tiles of the cluster input that are not yet unpacked, oldest first, with the FCLK cycle in which each crosses into ECLK; those
  whose cycle has not come are in the input buffer, at most 32 (10, R206, R211; reset empty) -/
  inBuf : List (Tile × Nat) := []
  /-- ECLK cycle in which the unpacker last took a tile (10, R206; reset none) -/
  unpCyc : Option Nat := none
  /-- mailbox, oldest first, at most 16 messages (09, R193; reset empty) -/
  box : List Msg := []
  /-- T of the cluster gate's previous event (09, R197; reset 0) -/
  gateT : Nat := 0
  /-- T last shown by the cluster copy, before the modulus 2^64 (09, R190; reset 0) -/
  tCopy : Nat := 0
  /-- the ECLK cycle of that reading: one value a cycle (09, R190; reset none) -/
  tCyc : Option Nat := none
  /-- records of the open result tile (09, R195; reset none open) -/
  tile : List W64 := []
  /-- ECLK cycle of its first record (09, R195; reset 0) -/
  tileCyc : Nat := 0
  /-- ECLK cycle of the last record placed (09, R195; reset none) -/
  placed : Option Nat := none
  /-- the result tile waits for a credit or entry-buffer space (10, R203; reset no) -/
  waitCredit : Bool := false
  /-- engine after the one last served, 0 to 15 (09, R195; reset 0, DESIGN CHOICE) -/
  rr : Nat := 0
  /-- words that the assembler places in its next turns, directly ahead of the record that `lead` names (06, R110; 09, R195;
  reset none) -/
  due : List W64 := []
  /-- the engine whose record follows them (09, R195; reset none) -/
  lead : Option Nat := none
  /-- anchor markers due (06, R110; reset none) -/
  marks : List W64 := []
  /-- the stream has started: its first epoch marker is placed (06, R110; reset no) -/
  started : Bool := false
  /-- the stream's first epoch marker is not yet in a sealed tile (06, R110; reset no) -/
  fresh : Bool := false
  /-- epoch of the last marker in the stream; none where a flush has taken it (06, R110; 20, R403; reset none) -/
  epoch : Option Nat := none
  /-- derived-queue discards to report with reason 0x1 (10, R210; reset 0) -/
  qGap : Nat := 0
  /-- records of the next tile that complete a run begun with a reason-0x3 gap record in the last one (09, R195; reset 0) -/
  cont : Nat := 0
  deriving DecidableEq, Repr

structure Fabric where
  /-- the 84 sources by group code (10, R202) -/
  src : Store Source := []
  /-- granted tiles in the multicast pipeline, oldest first: the source, the tile, the FCLK cycle of its grant and the
  clusters it goes to, bit c (10, R204, R205; reset none) -/
  pipe : List (Nat × Tile × Nat × Nat) := []
  /-- number of 32-cycle periods of FCLK that had passed at the last reset: credits count from there (01, R17; reset 0) -/
  creditFrom : Nat := 0
  /-- FCLK cycle of the last grant (10, R204; reset none) -/
  grantCyc : Option Nat := none
  /-- decisions on their way to their targets, in order of issue cycle, then of engine (09, R198; 10, R213, R214; reset none) -/
  decs : List SentDec := []
  /-- Carver MARKs that have reached their rings in the present MCLK cycle, oldest first: the ring and the T that its copy showed; each is
  applied at the end of the cycle, behind the host's writes and the tiles of that cycle (10, R214; 11, R229; reset none) -/
  marksIn : List (Nat × W64) := []
  /-- override enables as they stood before each change of the last 20 ns, with `now` of the change, oldest first: the clusters'
  copies still hold the oldest (10, R215; reset none) -/
  ovrWas : List (Nat × W64) := []
  /-- tiles at the MU inputs, oldest first (10, R209; reset none) -/
  muIn : List Tile := []
  /-- clusters 0 to 15 (10, R205) -/
  clusters : Store Cluster := []
  /-- engines 0 to 255 (09, R178) -/
  engines : Store Engine := []
  /-- derived queues 0 to 19 (10, R210; reset empty) -/
  dq : Store (List QEntry) := []
  deriving DecidableEq, Repr

/-! ## Measurement units (08_measurements.md) -/

/-- A stamp waiting for time order in an MU (R161, R162): its rebuilt time, the record, and the role of its lane: 0 gate lane,
2 lane B, 3 lane A. -/
structure MuRec where
  t : Nat
  word : W64
  role : Nat
  deriving DecidableEq, Repr

/-- An event known to an MU at its own T (R153 to R155), and whether it was taken at the frontier (R158). -/
inductive MuEv where
  | arm (t : Nat) (late : Bool)
  | gateOpen (t : Nat) (late : Bool)
  | gateClose (t : Nat)
  | hostClose (t : Nat)
  deriving DecidableEq, Repr

/-- One accumulator set (R160, R163 to R173). -/
structure Meas where
  tOpen : Nat
  mode : Nat
  gateLen : Nat
  nmax : Nat
  withT : Bool
  emit : Bool
  flags : Nat := 0
  n : Nat := 0                 -- counted items: N, or pairs reported
  sk : Nat := 0
  st : Nat := 0
  skt : Nat := 0
  stt : Nat := 0
  first : Nat := 0
  last : Nat := 0
  starts : List MuRec := []    -- pending starts
  stops : List MuRec := []     -- unmatched stops of signed mode
  sx : Int := 0
  sxx : Nat := 0
  xmin : Int := 0
  xmax : Int := 0
  r1 : Option Nat := none      -- latest reference stamp
  per : Option Nat := none     -- interval before it
  rFirst : Nat := 0
  rLast : Nat := 0
  nRef : Nat := 0
  prev : Option Nat := none    -- previous stamp of lane A (mode 6, periods)
  lossPair : Bool := false     -- a loss since the previous pair
  lastStart : Nat := 0
  lastStop : Nat := 0
  lastD : Int := 0
  deriving DecidableEq, Repr

/-- A publication that waits for its slots and records (R174, R176). -/
structure Pub where
  slots : List Nat             -- 24 slot values of 56 bits
  recs : List W64              -- result records, empty without EMIT
  frees : Bool                 -- the publication of a close: frees its accumulator set
  deriving DecidableEq, Repr

structure Mu where
  /-- 0 IDLE, 1 ARMED, 2 OPEN (08, R153; reset IDLE) -/
  st : Nat := 0
  /-- T_arm (08, R153; reset 0) -/
  tArm : Nat := 0
  /-- processing frontier: largest T processed (08, R158; reset 0) -/
  frontier : Nat := 0
  /-- records waiting for time order, in order of arrival, at most 256 per lane role (08, R162; reset none) -/
  recs : List MuRec := []
  /-- events waiting for time order (08, R161; reset none) -/
  evs : List MuEv := []
  /-- the open measurement (08, R160; reset none) -/
  meas : Option Meas := none
  /-- closed sets that await publication: 0 to 2 (08, R160; reset 0) -/
  busy : Nat := 0
  /-- publications in order (08, R174; reset none) -/
  pubs : List Pub := []
  /-- publication sequence (08, R174; reset 0) -/
  seq : Nat := 0
  deriving DecidableEq, Repr

structure MuBank where
  /-- records held, the open tile first, at most 128 (08, R177; reset none) -/
  recs : List W64 := []
  /-- FCLK cycle of the open tile's first record (08, R177; reset 0) -/
  tileCyc : Nat := 0
  /-- a tile waits for a credit or entry-buffer space (08, R177; reset no) -/
  waitCredit : Bool := false
  /-- anchor markers that found the bank full, oldest first (06, R110; 08, R177; reset none) -/
  marks : List W64 := []
  /-- dropped records to report with reason 0x3 (08, R177; reset 0) -/
  lost : Nat := 0
  /-- derived-queue discards to report with reason 0x1 (10, R210; reset 0) -/
  qGap : Nat := 0
  /-- the stream has started (06, R110; reset no) -/
  started : Bool := false
  /-- the stream's first epoch marker is not yet in a sealed tile (06, R110; reset no) -/
  fresh : Bool := false
  /-- epoch of the last marker in the stream; none where a flush has taken it (06, R110; 20, R403; reset none) -/
  epoch : Option Nat := none
  /-- records at the head of the next tile that complete a run begun with a reason-0x3 gap record in the last one (08, R177; reset 0) -/
  cont : Nat := 0
  deriving DecidableEq, Repr

structure Mus where
  /-- measurement units 0 to 63 (08, R150) -/
  mu : Store Mu := []
  /-- MU banks 0 to 3 (08, R177) -/
  bank : Store MuBank := []
  deriving DecidableEq, Repr
/-! ## Capture memory (11_capture_memory.md) -/

/-- A region of memory: binding 0 to 3 a channel, 4 to 7 an interleave set; base and size in units of 4 KiB (R223). -/
structure Region where
  bind : Nat
  base : Nat
  size : Nat
  deriving DecidableEq, Repr

/-- What reaches a destination: an entry with the group code it came from (R136). -/
structure Inbound where
  code : Nat
  item : QItem
  deriving DecidableEq, Repr

/-- What a replay hands to a packer stream (R228, R233). -/
inductive RItem where
  | gap (reason code seq count : Nat)
  | tile (code : Nat) (t : Tile)
  | reservation (code num part : Nat)
  | fill (code num part : Nat) (t : Option Tile)   -- none: the fill was lost
  deriving DecidableEq, Repr

/-- A replay in progress (R233). -/
structure Replay where
  hring : Nat
  total : Nat             -- K_r
  read : Nat              -- slots read
  done : Nat              -- slots read and passed over
  next : Nat              -- the slot to read next
  passed : Nat            -- slots passed over since the last read
  held : List RItem       -- a gap entry that awaits the next tile, and what follows it
  cyc : Option Nat        -- FCLK cycle of the last slot read
  deriving DecidableEq, Repr

/-- A migration in progress (R234): slots at distance below `written` from `start` have been written since the splice,
those below `copied` copied or passed by the copier, and `fills` were written out of order. -/
structure Migration where
  bind : Nat
  base : Nat
  start : Nat
  written : Nat
  copied : Nat
  fills : List Nat
  deriving DecidableEq, Repr

/-- A placeholder that a replay has delivered (R228). -/
structure Handed where
  slot : Nat
  code : Nat
  num : Nat
  part : Nat
  hring : Nat
  deriving DecidableEq, Repr

structure CRing where
  /-- N, slots of the region (11, R223; reset 0) -/
  n : Nat := 0
  /-- WP (11, R226, CR_WP; reset 0) -/
  wp : Nat := 0
  /-- FILL (11, R226, CR_FILL; reset 0) -/
  fill : Nat := 0
  /-- M (11, R229, CR_MARK; reset 0) -/
  m : Nat := 0
  /-- held count K (11, R229, CR_HELD; reset 0) -/
  k : Nat := 0
  /-- SKIP (11, R230; reset 0) -/
  skip : Nat := 0
  /-- the first overrun of the mark has been noticed (11, R230; reset no) -/
  overran : Bool := false
  /-- reservation table by lane group: slot, NUMBER and PART (11, R228; reset empty) -/
  resv : Store (Option (Nat × Nat × Nat)) := []
  /-- per-source drop counts by group code (11, R231; reset 0) -/
  drops : Store Nat := []
  /-- placeholders that replays have delivered and whose fill is outstanding (11, R228; reset none) -/
  handed : List Handed := []
  /-- the write buffer: entries that the read side has handed to the ring, oldest first, at most 256 (11, R226; reset empty) -/
  inbox : List Inbound := []
  /-- FCLK cycle in which the writer last took an entry (11, R226; reset none) -/
  takeCyc : Option Nat := none
  /-- group code after the source last served, where the round-robin goes on (11, R226; reset 0, DESIGN CHOICE) -/
  rr : Nat := 0
  /-- slots whose tile CR_CORRUPT_CNT has counted (06, R125; 11, R227; reset none) -/
  counted : List Nat := []
  /-- the replay in progress (11, R233; reset none) -/
  replay : Option Replay := none
  /-- entries of the write buffer that a take-over's replay still waits for, before it latches its range (18, R379; reset none) -/
  splice : Option Nat := none
  /-- the migration in progress (11, R234; reset none) -/
  mig : Option Migration := none
  deriving DecidableEq, Repr

/-- A memory channel beyond its registers. -/
structure Chan where
  /-- capture writes, replay reads and copies served in the running round of class 3 (11, R236; reset 0, DESIGN CHOICE) -/
  wr : Nat := 0
  rd : Nat := 0
  cp : Nat := 0
  /-- from when on MC_SHARE.PG_CAP lets a refill be served, in 2^-16 PCLK periods (11, R236; reset 0) -/
  pgNext : Nat := 0
  /-- MC_ORG and MC_STAT.PRESENT as the training took them (11, R218; reset 0) -/
  org : W32 := 0
  orgPresent : Bool := false
  /-- the block that patrol scrub reads next (11, R220; reset 0) -/
  scrub : Nat := 0
  /-- `now` from which its interval runs (11, R220; reset 0) -/
  scrubAt : Nat := 0
  deriving DecidableEq, Repr

structure Ddr where
  /-- DDR5 content by 38-bit memory address (11, R221; reset 0 where nothing is written, DESIGN CHOICE) -/
  mem : Mem := []
  /-- stored ECC errors by word address / 8: 1 single-bit, 2 uncorrectable (11, R219; reset none) -/
  err : Store Nat := []
  /-- channels 0 to 3 (11, R217) -/
  chans : Store Chan := []
  /-- capture rings 0 to 15 (11, R223) -/
  rings : Store CRing := []
  /-- segment-store regions claimed, by sequencer (16, R323; reset none) -/
  claims : Store (Option Region) := []
  deriving DecidableEq, Repr

/-! ## Packer streams (12_packer.md) -/

/-- A summary entry while it is formed (table *Summary entry* of R256). -/
structure Summary where
  first : Nat
  last : Nat
  qmax : Nat
  npile : Nat
  n : Nat
  nqual : Nat
  dmin : Nat
  dmax : Nat
  sdd : Nat
  deriving DecidableEq, Repr

/-- The open block of a stream (R240 to R257). -/
structure Blk where
  rep : Bool
  mode : Nat
  q : Nat
  seq : Nat
  off : Nat               -- byte offset in the buffer
  limit : Nat             -- L in bytes
  refT : Nat
  at_ : Nat               -- `now` when the first item was taken
  shut : Bool              -- closed while the stream could not write (R259): it takes nothing more
  hasTile : Bool
  pay : Nat               -- payload bits, bit i at weight 2^i
  nbits : Nat
  list : List W64
  corrupt : Bool
  rawMarked : Bool
  prev : Store (Option Nat)              -- by lane group
  hist : Store (Nat × Nat × Nat)         -- n, t0, t1 by 2 × lane + edge
  sums : Store (Option Summary)          -- by 2 × lane + edge
  kept : List W64
  raws : List Tile
  seqs : Store (Option Nat)              -- by lane group, the SEQ after the last live tile in the block
  deriving DecidableEq, Repr

/-- A host buffer that a stream holds (R274, R275). -/
structure Buf where
  id : Nat
  addr : Nat
  tag : W32
  used : Nat              -- bytes holding blocks or set aside
  blocks : List (Nat × Nat)   -- BLOCK_SEQ and flag bits, in buffer order
  pending : Nat           -- window blocks set aside and not yet written
  closed : Bool           -- the stream has moved on, or the buffer is completed early
  part : Bool
  lastAt : Option Nat     -- `now` at which the latest block was written into it
  seqs : Store (Option Nat)   -- by lane group, the SEQ after the last live tile in the buffer
  deriving DecidableEq, Repr

/-- A window block set aside (R242). -/
structure Aside where
  rep : Bool
  code : Nat
  num : Nat
  part : Nat
  buf : Nat
  off : Nat
  seq : Nat
  refT : Nat
  deriving DecidableEq, Repr

/-- A packer encoder (R239). -/
structure Encoder where
  /-- FCLK cycle in which it last took an item (12, R239; reset none) -/
  takeCyc : Option Nat := none
  /-- the stream after the one last served, 0 to 63 (12, R239; reset 0, DESIGN CHOICE) -/
  rr : Nat := 0
  deriving DecidableEq, Repr

structure Stream where
  /-- the live entry handed to the stream and not yet taken (12, R239; reset none) -/
  live : Option Inbound := none
  /-- group code after the live source last served (12, R239; reset 0, DESIGN CHOICE) -/
  rr : Nat := 0
  /-- replay entries not yet taken, oldest first (12, R245; reset none) -/
  rep : List RItem := []
  /-- capture ring after the one whose replay was last served (12, R239; reset 0, DESIGN CHOICE) -/
  rrRep : Nat := 0
  /-- buffers held, oldest first (12, R274; reset none) -/
  bufs : List Buf := []
  /-- number of buffers taken, naming each (the model's own; reset 0) -/
  nbuf : Nat := 0
  /-- the open block (12, R240; reset none) -/
  blk : Option Blk := none
  /-- window blocks set aside (12, R242; reset none) -/
  asides : List Aside := []
  /-- dropped reservations: code, NUMBER and PART (12, R244; reset none) -/
  rdrop : List (Nat × Nat × Nat) := []
  /-- tiles dropped and not yet reported, by group code (12, R244; reset 0) -/
  drops : Store Nat := []
  /-- veto-drop gap entries held while there is no buffer, with their group code (12, R244; reset none) -/
  held : List (Nat × W64) := []
  /-- the stream waits for a buffer, the wait being counted (12, R244; reset no) -/
  waiting : Bool := false
  /-- the last block closed was a live one (12, R245; reset no) -/
  lastLive : Bool := false
  /-- tile bytes taken in the running 1 ms (12, PK_RATIO; reset 0) -/
  inBytes : Nat := 0
  /-- block bytes written in the running 1 ms (12, PK_RATIO; reset 0) -/
  outBytes : Nat := 0
  /-- `now` at which the running 1 ms began (12, PK_RATIO; reset 0) -/
  ratioAt : Nat := 0
  deriving DecidableEq, Repr

/-! ## Host rings (13_host_rings.md) -/

structure HRing where
  /-- START accepted; RUNNING sets with the completion slot's write (13, R264; reset no) -/
  starting : Bool := false
  /-- a host index has been fetched since START (13, R264; reset no) -/
  fetched : Bool := false
  /-- device index whose completion slot write is due (13, R269; reset none) -/
  slotDue : Option Nat := none
  /-- `now` of the last completion-slot write (13, R269; reset none) -/
  slotAt : Option Nat := none
  /-- an advance that raises the vector awaits its slot write (13, R276; reset no) -/
  irqDue : Bool := false
  /-- the slot write is done and the vector is to be raised (13, R276; reset no) -/
  raise : Bool := false
  /-- the vector waits for the moderation time (13, R276; reset no) -/
  deferred : Bool := false
  /-- `now` of the last raise (13, R276; reset none) -/
  raisedAt : Option Nat := none
  /-- free-buffer descriptors fetched and not taken: ADDR and TAG (13, R274; reset none) -/
  avail : List (Nat × W32) := []
  /-- the command in progress (13, R271; reset none) -/
  cmd : Option Command := none
  /-- OUTCOME and code of that command, where it ended while its function was in D3hot (13, R260, R271; reset none) -/
  cmdEnd : Option (Nat × Nat) := none
  /-- entries and STATUS words written since the last completion slot, newest first: the host address, and the bytes that stood
  there before (13, R269, R273; reset none) -/
  unack : List (Nat × List Byte) := []
  deriving DecidableEq, Repr

/-! ## Lane-group block -/

structure Lg where
  /-- lane groups 0 to 63 (07) -/
  groups : Store Group := []
  /-- hold counts of BUSY pins 0 to 15, in GCLK cycles (07, R148; reset 0) -/
  hold : Store Nat := []
  /-- the pin states of the last eight GCLK cycles, newest first, one bit a pin: the pins follow the oldest (07, R148; reset none,
  which reads low) -/
  busyHist : List Nat := []
  /-- the nine words that the last read of a read port returned (07, R137; the model's own record; reset none) -/
  readPort : List W64 := []
  deriving DecidableEq, Repr

/-! ## Armature (19_armature_partitions.md) -/

structure Armature where
  /-- the fuse array, 128 rows of 32 bits, programmed from 0 to 1 only (19, R384; reset blank, R5; kept through reset) -/
  array : Store W32 := []
  /-- the on-die shadows of the rows (19, R384; reset: the array as sensed at reset release) -/
  shadow : Store W32 := []
  /-- FUSE_VPP lies in its range since `now` (19, R393; reset out of range) -/
  vppSince : Option Nat := none
  /-- the row and data of the programming run in progress (19, R393; reset none) -/
  run : Option (Nat × W32) := none
  /-- `now` at which the run started: each bit takes 20 µs (19, R393; reset 0) -/
  runAt : Nat := 0
  /-- the run ends after the bit in progress (19, R394; reset no) -/
  stop : Bool := false
  /-- `now` at which that was decided (19, R394; reset 0) -/
  stopAt : Nat := 0
  deriving DecidableEq, Repr

/-! ## Notices and host rings (13_host_rings.md) -/

/-- A queued notice (R277); `at_` is the time of its first queueing, from which HOLD counts. -/
structure Notice where
  ty : Nat
  source : Nat
  aux : Nat
  merged : Nat
  t : W64
  at_ : Nat
  data : BitVec 128
  deriving DecidableEq, Repr

/-- One vector of a function's MSI-X table and its bit of the PBA (R260, R276). -/
structure MsixVec where
  /-- message address (13, R276; reset 0, PRESUMED) -/
  addr : W64 := 0
  /-- message data (13, R276; reset 0, PRESUMED) -/
  data : W32 := 0
  /-- vector control, bit 0 the mask (13, R276; reset 1, PRESUMED) -/
  ctrl : W32 := 1
  /-- the vector's PBA bit: a message waits for the mask to clear (13, R276; reset no) -/
  pending : Bool := false
  deriving DecidableEq, Repr

/-- The registers of a function's AER capability that hold what software or an error wrote (R260, PCIe); no event of the block sets a
status bit (log 15). -/
structure Aer where
  /-- uncorrectable error status (13, R260; reset 0, PRESUMED) -/
  ueStat : W32 := 0
  /-- uncorrectable error mask (13, R260; reset 0x0040_0000, PRESUMED) -/
  ueMask : W32 := 0x400000
  /-- uncorrectable error severity (13, R260; reset 0x0046_2030, PRESUMED) -/
  ueSev : W32 := 0x462030
  /-- correctable error status (13, R260; reset 0, PRESUMED) -/
  ceStat : W32 := 0
  /-- correctable error mask (13, R260; reset 0x0000_E000, PRESUMED) -/
  ceMask : W32 := 0xE000
  deriving DecidableEq, Repr

/-- What the host interface keeps for one PCIe function. -/
structure FnHost where
  /-- notice queue, oldest first, at most 256 (13, R278; reset empty) -/
  nq : List Notice := []
  /-- notices dropped since the last overflow notice (13, R280; reset 0) -/
  dropped : Nat := 0
  /-- present fetch interval in units of 625 ps; 0 stands for ACTIVE (13, R268; reset 0) -/
  interval : Nat := 0
  /-- consecutive idle fetches (13, R268; reset 0) -/
  idle : Nat := 0
  /-- `now` of the last doorbell fetch (13, R268; reset 0) -/
  fetchAt : Nat := 0
  /-- a KICK asks for a fetch (13, R268; reset no) -/
  kick : Bool := false
  /-- MSI-X messages sent, by vector (13, R276; the model's own record; reset 0) -/
  raised : Store Nat := []
  /-- the MSI-X table and PBA in BAR2, by vector (13, R260, R276) -/
  msix : Store MsixVec := []
  /-- MSI-X Enable of Message Control (13, R276; reset no, PRESUMED) -/
  msixEn : Bool := false
  /-- the Function Mask of Message Control (13, R276; reset no, PRESUMED) -/
  msixMask : Bool := false
  /-- the function is in D3hot (13, R260; reset D0, PRESUMED) -/
  d3hot : Bool := false
  /-- BAR0, an address with its low 22 bits 0 (13, R260; reset 0, PRESUMED) -/
  bar0 : W64 := 0
  /-- BAR2, an address with its low 14 bits 0 (13, R260; reset 0, PRESUMED) -/
  bar2 : W64 := 0
  /-- Max_Payload_Size: 0 to 2 for 128 to 512 bytes (13, R260; reset 0, PRESUMED) -/
  maxPayload : Nat := 0
  /-- Max_Read_Request_Size: 0 to 5 for 128 to 4,096 bytes (13, R260; reset 2, PRESUMED) -/
  maxRead : Nat := 2
  /-- the AER capability (13, R260) -/
  aer : Aer := {}
  deriving DecidableEq, Repr

structure HostIf where
  /-- functions 0 to 7 (13, R260) -/
  fns : Store FnHost := []
  /-- host rings 0 to 63 (13, R262) -/
  rings : Store HRing := []
  /-- the packer's encoders 0 to 7 (12, R239) -/
  encs : Store Encoder := []
  /-- packer streams 0 to 63 (12, R238) -/
  streams : Store Stream := []
  /-- host memory as the device has written it, by host address; 0 where it has written nothing (13, R269 to R275) -/
  mem : Mem := []
  deriving DecidableEq, Repr
/-! ## Monitor converters (17_monitor_converters.md) -/

/-- The part an execution plays in a cross-check (R355). -/
inductive ConvRole where
  | own | waiting | serving | owner
  deriving DecidableEq, Repr

structure Conv where
  /-- the sequence runs (17, R348, R358; reset stopped) -/
  run : Bool := false
  /-- executions of the entry already done (17, R348; reset 0) -/
  rep : Nat := 0
  /-- source, SUB, effective gain and AVG of the previous execution (17, R349; reset none: a change of everything) -/
  prev : Option (Nat × Nat × Nat × Nat) := none
  /-- `now` at which the execution in progress began (17, R348; reset none) -/
  startAt : Option Nat := none
  /-- the converter's part in a cross-check (17, R355; reset its own execution) -/
  role : ConvRole := .own
  /-- `now` at which self-calibration ends, while it runs (17, R357; reset none) -/
  calEnd : Option Nat := none
  /-- `now` at which the borrow began, while borrowed (17, R359; reset none) -/
  borrowAt : Option Nat := none
  deriving DecidableEq, Repr

/-- An accumulator (R351). -/
structure Acc where
  /-- 17, R351; reset 0 -/
  sum : Int := 0
  /-- 17, R351; reset 0 -/
  count : Nat := 0
  /-- 17, R352; reset 0x7FFF -/
  min : Int := 32767
  /-- 17, R352; reset 0x8000 -/
  max : Int := -32768
  /-- 17, R351; reset 0 -/
  blank : Nat := 0
  /-- 17, R351; reset 0 -/
  src : Nat := 0
  /-- 17, R351; reset 0 -/
  mixed : Bool := false
  deriving DecidableEq, Repr

structure Mon where
  /-- MA0 (17, R345) -/
  c0 : Conv := {}
  /-- MA1 (17, R345) -/
  c1 : Conv := {}
  /-- accumulators 0 to 127 (17, R351) -/
  acc : Store Acc := []
  /-- window comparators 0 to 63: state OUT (17, R354; reset IN) -/
  out : Store Bool := []
  /-- `now` at which the reference buffer was enabled, until READY (17, R356; reset none) -/
  refAt : Option Nat := none
  /-- sensor temperatures on their way to the lane groups, in units of 1/64 degree (17, R353; reset none) -/
  temps : List (Nat × Int) := []
  deriving DecidableEq, Repr

/-! ## Network time (15_network_time.md) -/

/-- An anchor (R312): MT_a is seconds, nanoseconds and the fraction in units of 2^-16 ns. -/
structure Anchor where
  ta : BitVec 104
  sec : Nat
  ns : Nat
  frac : Nat
  adj : BitVec 48
  reason : Nat
  deriving DecidableEq, Repr

/-- A foreign master (R310, clause 9.3 of IEEE 1588): its portIdentity, the data set of its last Announce in the order in
which data sets compare, steps removed, and its last Announces' times, newest first. -/
structure Foreign where
  id : List Byte
  quality : List Byte     -- priority1, class, accuracy, variance, priority2, grandmaster identity
  steps : Nat
  log : Int               -- logMessageInterval
  times : List Nat        -- `now` of the last two Announces
  deriving DecidableEq, Repr

/-- An accepted Sync whose offset awaits its Follow_Up (R303). -/
structure SyncPend where
  seq : Nat
  t2 : Int                -- ticks
  corr : Int              -- units of 2^-16 ns
  edge : Nat
  edges : Nat             -- n of R307
  deriving DecidableEq, Repr

/-- The latest accepted Sync whose m1 is known. -/
structure SyncDone where
  m1 : Int
  t2 : Int
  edge : Nat
  deriving DecidableEq, Repr

/-- A Delay_Req sent and not yet answered (R303), with the latest Sync before t3. -/
structure DreqOut where
  seq : Nat
  t3 : Int
  t2 : Int
  m1 : Option Int
  m4 : Option Int          -- of a Delay_Resp that came ahead of the Sync's Follow_Up
  deriving DecidableEq, Repr

/-- An offset of the quarantine, and its value before D is taken off (R309, R311). -/
structure QOff where
  ok : Int
  raw : Int
  deriving DecidableEq, Repr

/-- A PTP message queued for forwarding (R314). -/
structure Fwd where
  bytes : List Byte
  event : Bool            -- Sync or Delay_Req
  tin : Int               -- ingress T at the MDI
  deriving DecidableEq, Repr

/-- A queued launch (R316). -/
structure Launch where
  t : W64
  tag : W32
  bytes : List Byte
  deriving DecidableEq, Repr

/-- What a sent frame was: the device's own Delay_Req, with the Sync's frame head and the sequenceId that it took, a forwarded message,
or a launched frame. -/
inductive SentAs where
  | own (head : List Byte) (seq : Nat)
  | fwd (f : Fwd)
  | launched
  deriving DecidableEq, Repr

structure EPort where
  /-- messages queued for forwarding out of the port, oldest first, at most 32 (15, R314; reset empty) -/
  fwd : List Fwd := []
  /-- launch queue, head first, at most 256 (15, R316; reset empty) -/
  launch : List Launch := []
  /-- when the head was at the head with the wire free: T there in 1/125 of a tick, and the time in units of 5 ps (15, R316; reset
  none) -/
  headAt : Option (Int × Nat) := none
  /-- the wire is occupied until this time, in units of 5 ps (15, R315; reset free) -/
  busy : Nat := 0
  /-- the last frame sent, without FCS, and the T of its timestamp point at the MDI (the model's own record; reset none) -/
  sent : Option (List Byte × Int) := none
  /-- what that frame was (15, R319; the model's own record; reset a launched frame, with none sent) -/
  sentAs : SentAs := .launched
  /-- T of each change of EP_RX_DELAY and the value before it, oldest first: for frames whose timestamp point passed before (15, R319;
  reset none) -/
  rxWas : List (Nat × Nat) := []
  deriving DecidableEq, Repr

structure NetTime where
  /-- anchors 0 to 255 (15, R312; reset none) -/
  anchors : Store (Option Anchor) := []
  /-- ports 0 and 1 (15, R314 to R316) -/
  ports : Store EPort := []
  /-- parent portIdentity, ten bytes (15, R310; reset none) -/
  parent : Option (List Byte) := none
  /-- foreign masters heard on the slave port (15, R310; reset none) -/
  foreign : List Foreign := []
  /-- header of the parent's last Sync up to the PTP message: the transport of Delay_Req (15, R305; reset none) -/
  syncHead : Option (List Byte) := none
  /-- logMessageInterval of the parent's last Sync (15, R306; reset 0, DESIGN CHOICE; unused before a Sync) -/
  syncLog : Int := 0
  /-- `now` of the last accepted Sync (15, R306; reset none) -/
  syncAt : Option Nat := none
  /-- the Sync that awaits its Follow_Up (15, R303; reset none) -/
  pend : Option SyncPend := none
  /-- the latest Sync with its m1 (15, R303; reset none) -/
  last : Option SyncDone := none
  /-- PCLK edge of the latest accepted Sync's ingress (15, R307; reset none) -/
  lastEdge : Option Nat := none
  /-- t2 of the latest accepted Sync (15, R303; reset none) -/
  lastT2 : Option Int := none
  /-- Delay_Req messages that await a Delay_Resp (15, R303; reset none) -/
  dreq : List DreqOut := []
  /-- sequenceId of the next Delay_Req (15, R305; reset 0, DESIGN CHOICE) -/
  dseq : Nat := 0
  /-- a Delay_Req waits for the wire (15, R315; reset no) -/
  ownReq : Bool := false
  /-- logMinDelayReqInterval of the parent's last Delay_Resp (15, R305; reset 0, DESIGN CHOICE) -/
  dreqLog : Int := 0
  /-- `now` from which the next Delay_Req is due: the random interval of IEEE 1588 clause 9.5.11.2 has passed (15, R305; reset 0, DESIGN
  CHOICE: the first is due at once) -/
  dreqNext : Nat := 0
  /-- TP_SERVO, TP_THR and TP_QUAR as the servo uses them, taken over at each accepted Sync (15, R319; reset: the maps') -/
  used : Store W32 := []
  /-- raw delay samples, newest first, at most 64 (15, R303; reset none) -/
  samples : List Int := []
  /-- integral term i (15, R307; reset 0) -/
  i : Int := 0
  /-- the first Sync of the frequency measurement: m1, t2 and its edge (15, R307; reset none) -/
  freq : Option SyncDone := none
  /-- i has been set in this acquisition (15, R307; reset no) -/
  freqDone : Bool := false
  /-- provisional mapping: a T and its master time (15, R307; reset none) -/
  prov : Option (Int × Int) := none
  /-- consecutive Syncs within LOCK_THR (15, R308; reset 0) -/
  lockRun : Nat := 0
  /-- no lock since ACQUIRING was last entered (15, R306; reset yes) -/
  acq : Bool := true
  /-- T_d of the quarantine (15, R309; reset none): none while it waits for a first Sync -/
  td : Option Int := none
  /-- offsets of the quarantine, newest first (15, R309; reset none) -/
  quar : List QOff := []
  /-- the quarantine is that of a path change: delay samples taken in it, newest first (15, R311; reset no) -/
  pathQ : Option (List Int) := none
  /-- the last four offsets, newest first (15, R311; reset none) -/
  recent : List Int := []
  /-- consecutive deviating delay samples, newest first (15, R311; reset none) -/
  dev : List Int := []
  /-- they lie above D (15, R311; reset no) -/
  devUp : Bool := false
  /-- the last four offsets before the first deviating sample (15, R311; reset none) -/
  devBefore : List Int := []
  /-- offsets since that sample (15, R311; reset none) -/
  devSince : List Int := []
  /-- PPS_OUT is high (15, R317; reset low) -/
  ppsHigh : Bool := false
  /-- `now` of the last PPS_OUT rise (15, R317; reset none) -/
  ppsAt : Option Nat := none
  /-- the last due instant passed: the second, or the multiple of the period (15, R317; reset 0) -/
  ppsSeen : Int := 0
  deriving DecidableEq, Repr

/-! ## Segment playback and triggers (16_playback_and_triggers.md) -/

/-- One playing of a sequence entry (R326): the entry, the iteration, and the content it fixed when it was read. -/
structure Inst where
  entry : Nat
  iter : Nat
  w0 : W64
  w1 : W64
  deriving DecidableEq, Repr

/-- An instance in the refill cache (R330): granules 0 up to `hlim` come from a head buffer, those from `first` on stand in
`got`. -/
structure Fetched where
  inst : Inst
  hlim : Nat
  hgot : List (List Byte)
  first : Nat
  got : List (List Byte)
  jump : Option Nat        -- the head buffer that a jump to the instance plays from
  deriving DecidableEq, Repr

/-- A head buffer (R330). -/
structure Head where
  inst : Inst
  got : List (List Byte)
  deriving DecidableEq, Repr

structure Sequencer where
  /-- sequence entries 0 to 1,023, words 0 and 1 (16, R325; reset 0) -/
  table : Store (W64 × W64) := []
  /-- PCLK edge of the first sample (16, R327; reset none: stopped) -/
  firstEdge : Option Nat := none
  /-- SCLK word of the current instance's first sample; while a start is pending, the earliest word of the first sample (16,
  R327, R329; reset 0) -/
  start : Nat := 0
  /-- instances in play order, the current one first (16, R330; reset none) -/
  path : List Fetched := []
  /-- the commit point of the current instance has passed (16, R333; reset no) -/
  fixed : Bool := false
  /-- the sequencer stops at the end of the current instance (16, R329; reset no) -/
  ending : Bool := false
  /-- head buffers 0 to 3 (16, R330; reset empty) -/
  heads : Store (Option Head) := []
  /-- jump latches: the SCLK words in which each was set, and not cleared by a commit point since (16, R332, R333; reset clear) -/
  latch : Store (List Nat) := []
  /-- the word from which the last CLRREQ has cleared the latches (16, R332; reset 0) -/
  clr : Nat := 0
  /-- a pending start waits for no time: none was given, or it had passed (16, R327, R416; reset no) -/
  atOnce : Bool := false
  /-- granule of the current instance from which nothing plays, while it starves (16, R334; reset none) -/
  starveFrom : Option Nat := none
  /-- granules not played since starvation began, up to the current instance (16, R335; reset 0) -/
  unplayed : Nat := 0
  /-- the last sample played (16, PG_PIN_CFG.STARVE; reset 0) -/
  last : BitVec 16 := 0
  /-- past instances with the words in which they began, newest first, at most 16 (18, R371; reset none) -/
  past : List (Nat × Inst) := []
  /-- casted outcomes of the active, by word of the instance's start since the first sample (18, R371; reset none) -/
  outcomes : List (Nat × Option Nat) := []
  /-- the word from which a STOP acts (16, R328; reset none) -/
  stopAt : Option Nat := none
  /-- standby: PCLK edge of the first sample of a run that ended by its entry, which a late outcome may take up again (18, R371; reset
  none) -/
  wasEdge : Option Nat := none
  deriving DecidableEq, Repr

/-- A jump request on its way from a trigger or GATE pin (R332). -/
structure JReq where
  q : Nat
  slot : Nat
  edge : Nat
  deriving DecidableEq, Repr

/-- An override on its way to its sample (R336): act as DRIVE; source 0 trigger, 1 host, 2 decision. -/
structure OvrReq where
  pin : Nat
  act : Nat
  n : Nat
  src : Nat
  sample : Nat
  deriving DecidableEq, Repr

/-- A pin's override state (R336); a pulse with its first sample and length. -/
inductive Override where
  | low | high | pulse (first n : Nat)
  deriving DecidableEq, Repr

structure Trigger where
  /-- fires that count toward TT_COUNT (16, R340; reset 0) -/
  fired : Nat := 0
  /-- armed when it was already due (16, R341; reset no) -/
  late : Bool := false
  /-- the gate it opened, while open: the T at which it closes, if ARG fixes one (16, R342; reset closed) -/
  gate : Option (Option Int) := none
  /-- it disarms at its last gate's close (16, R342; reset no) -/
  lastGate : Bool := false
  /-- the last PCLK edge before ARM crossed (16, R341; reset 0) -/
  armedAt : Nat := 0
  deriving DecidableEq, Repr

structure Play where
  /-- sequencers 0 to 3 (16, R320) -/
  seqs : Store Sequencer := []
  /-- jump requests on their way, oldest first (16, R332; reset none) -/
  jreqs : List JReq := []
  /-- override state of pins 0 to 63 (16, R336; reset none) -/
  ovr : Store (Option Override) := []
  /-- what stood before, newest first, at most 8 by pin: the sample from which it was replaced, and the state (16, R336; the model's
  own record of the samples of one period; reset none) -/
  ovrWas : Store (List (Nat × Option Override)) := []
  /-- host and trigger overrides on their way, oldest first (16, R336; reset none) -/
  ovrReqs : List OvrReq := []
  /-- time triggers 0 to 31 (16, R340) -/
  trig : Store Trigger := []
  /-- accumulators A of rate generators 0 to 15 (16, R338; reset 0) -/
  acc : Store Nat := []
  deriving DecidableEq, Repr

/-! ## Mirrored pairs (18_mirrored_pairs.md) -/

/-- A partner strobe that awaits its T (R295). -/
structure PartnerStrobe where
  mask : Nat
  t : Nat
  late : Bool
  arrived : Nat            -- the last PCLK edge at its arrival
  deriving DecidableEq, Repr

/-- An alignment or measurement that runs (R373, R375). -/
structure AlignRun where
  measure : Bool
  residual : Bool          -- the origin load is made; the residual is being measured
  pairs : Nat
  at_ : Nat
  own : List Nat           -- this device's stamps of the pulses, oldest first
  deriving DecidableEq, Repr

/-- The cut finder and export frontier of one lane group (R378). -/
structure Cut where
  /-- stamp times not yet ruled out, rising (18, R378; reset none) -/
  times : List Nat := []
  /-- the previous cut (18, R378; reset 0) -/
  last : Nat := 0
  /-- cuts whose tiles are not all completed: C and the last SEQ, oldest first (18, R378; reset none) -/
  cuts : List (Nat × Nat) := []
  /-- the SEQ after the last tile of the group completed to the host (18, R378; reset none) -/
  done : Option Nat := none
  /-- F_g of this device as active (18, R378; reset none) -/
  front : Option Nat := none
  deriving DecidableEq, Repr

/-- A 256-byte line of Cast state (R369, table *Mirrored state*): the servo state, 32 groups' frontiers, or an engine's registers and PC
or 256 bytes of its local memory. -/
inductive CastLine where
  | servo (x : CastServo)
  | fronts (half : Nat) (fs : List (Option Nat))
  | regs (e pc : Nat) (g : List W64)
  | lmem (e line : Nat) (bytes : List Byte)
  deriving DecidableEq, Repr

/-- A message that waits for the cast link (R362). -/
inductive LinkMsg where
  | heartbeat (h : Heartbeat)
  | event (e : PairEvent)
  | stamp (t : Nat)                       -- the active's stamp of an alignment pulse (R373)
  | line (x : CastLine)
  | castEnd (seq : Nat) (full : Bool)     -- full: the first Cast behind a RESYNC (R382)
  deriving DecidableEq, Repr

structure Pair where
  /-- the partner's identity at training (18, R360; reset none) -/
  partner : Option Identity := none
  /-- `now` of the last change of OWN_IN (18, R364; reset 0) -/
  ownSince : Nat := 0
  /-- a heartbeat from an active partner has arrived (18, R364; reset no) -/
  activeSeen : Bool := false
  /-- `now` of the last valid heartbeat (18, R363; reset none) -/
  hbAt : Option Nat := none
  /-- heartbeat loss is declared, and why: 1 timeout, 2 yield (18, R363; reset 0) -/
  hbLost : Nat := 0
  /-- `now` of the last heartbeat given to the link, and the heartbeat as it then was (18, R363; reset none) -/
  hbSent : Option (Nat × Heartbeat) := none
  /-- number of events sent, and the last (18, R368; the model's own record; reset none) -/
  sent : Nat := 0
  lastEvent : Option PairEvent := none
  /-- messages that wait for the cast link, oldest first in each class (18, R362; reset none) -/
  linkQ : List LinkMsg := []
  /-- `now` until which the message on the link takes it (18, R362; reset 0) -/
  linkBusy : Nat := 0
  /-- the last message sent, with `now` (18, R362; the model's own record; reset none) -/
  linkSent : Option (Nat × LinkMsg) := none
  /-- the active's ADJ, as its last event gave it (18, R373; reset none) -/
  activeAdj : Option (BitVec 48) := none
  /-- coarse offset, active minus standby, in ticks, from the last heartbeat (18, R373; reset none) -/
  hbOff : Option Int := none
  /-- the active role was taken by force (18, R367; reset no) -/
  forced : Bool := false
  /-- the SCLK word from which a new active drives its outputs (18, R366; reset 0) -/
  outFrom : Nat := 0
  /-- `now` at which PR_CFG.EN made the device active (18, R364; reset none) -/
  elected : Option Nat := none
  /-- partner strobes that await their T, oldest first (14, R295; reset none) -/
  strobes : List PartnerStrobe := []
  /-- alignment or measurement in progress (18, R373; reset none) -/
  align : Option AlignRun := none
  /-- active: `now` at which the running Cast began (18, R369; reset none) -/
  castAt : Option Nat := none
  /-- active: `now` at which the last Cast began (18, R369; reset none) -/
  castLast : Option Nat := none
  /-- every line counts as changed for the next Cast (18, R369; reset no) -/
  resync : Bool := false
  /-- active: the running Cast is the first behind a RESYNC (18, R369, R382; reset no) -/
  castFull : Bool := false
  /-- active: the lines of the running Cast's state: those of the last Cast once it ends (18, R369; reset none) -/
  castNext : Option (List CastLine) := none
  /-- active: the partner aligns or measures: pulses are stamped for it (18, R373; reset no) -/
  partnerAligns : Bool := false
  /-- new active: splice rings and their streams whose replay the frontiers wait for (18, R378, R379; reset none) -/
  splicing : List (Nat × Nat) := []
  /-- active: the lines of the last Cast's state, from which changed lines are told (18, R369; reset none: every line is changed) -/
  castPrev : Option (List CastLine) := none
  /-- standby: `now` at which the last complete Cast was applied (18, PR_CAST_STAT; reset none) -/
  castApplied : Option Nat := none
  /-- standby: the first Cast after a RESYNC is complete (18, R382; reset no) -/
  castOk : Bool := false
  /-- standby: the casted servo state (18, R368; reset none) -/
  servo : Option CastServo := none
  /-- frontiers of the last complete Cast, by lane group (18, R368, PR_FRONT; reset none) -/
  fronts : Store (Option Nat) := []
  /-- cut finders by lane group (18, R378) -/
  cuts : Store Cut := []
  /-- WP of each splice ring at multiples of 2^26 ticks: multiple and WP, newest first, at most 256 (18, R379; reset none) -/
  splice : Store (List (Nat × Nat)) := []
  /-- the last multiple of 2^26 ticks recorded (18, R379; reset 0) -/
  spliceAt : Nat := 0
  deriving DecidableEq, Repr

/-! ## Power, reset and the Mitten island (20_power_reset_mitten.md) -/

/-- What a sleep keeps for the wake (R405, R408). -/
structure Sleep where
  n : Nat                 -- N_e in units of 2^-24 of 40 ns
  t : BitVec 104          -- T_e
  f : BitVec 40           -- F_e
  adj : BitVec 48         -- ADJ_e
  lpoCal : Bool           -- LPO_CAL at entry
  lpo : Nat               -- part of the count taken from the oscillator, in the unit of n
  anyLpo : Bool           -- WCLK came from the oscillator at some time
  refLost : Bool          -- REF was lost
  anchor : Option (Nat × Anchor)
  deriving DecidableEq, Repr

/-- What Mitten and Plinth record at the entry edge of a sleep (R405). -/
structure EntryEdge where
  n : Nat                 -- N_e in units of 2^-24 of 40 ns
  t : BitVec 104
  f : BitVec 40
  adj : BitVec 48
  deriving DecidableEq, Repr

structure Mitten where
  /-- the entry edge has come: N_e, T_e, F_e and ADJ_e (20, R405; reset none) -/
  entry : Option EntryEdge := none
  /-- P_r has come: MT_COUNT there, and `now` (20, R410; reset none) -/
  resumeAt : Option (Nat × Nat) := none
  /-- `now` from which REF may have been stable: its last loss, or the wake that turned its receiver on (20, R404; reset 0) -/
  refAt : Nat := 0
  /-- REF is back and stable: WCLK switches to it at the next whole unit (20, R404; reset no) -/
  refBack : Bool := false
  /-- REF is absent (20, R398, R408; reset no) -/
  refGone : Bool := false
  /-- start-up waits for REF (20, R398, R408; reset no) -/
  refWait : Bool := false
  /-- VAON is at or above its threshold (20, R397; reset yes) -/
  vaon : Bool := true
  /-- the power-on detector, RST_N or PERST_N holds the device in reset (20, R397; reset released) -/
  inReset : Bool := false
  /-- the device sleeps (20, R405; reset awake) -/
  asleep : Bool := false
  /-- MT_COUNT with its fraction, in units of 2^-24 of 40 ns (20, R404; reset 0 at VAON power-on) -/
  count : Nat := 0
  /-- an accepted sleep request, with MT_COUNT when it was written (20, R405; reset none) -/
  sleepReq : Option Nat := none
  /-- the sleep in progress, or the one that a wake resumes from (20, R405, R410; reset none) -/
  sleep : Option Sleep := none
  /-- the wake's main PLL has locked and Plinth has not resumed (20, R410; reset no) -/
  resume : Bool := false
  /-- `now` at which a datapath flush began (20, R403; reset none) -/
  flushAt : Option Nat := none
  /-- the last start-up was a wake (20, R407; reset no) -/
  woke : Bool := false
  deriving DecidableEq, Repr

/-! ## The block -/

structure State where
  /-- commands that are waiting, first in, first out (the model's own; reset empty) -/
  pending : List Instr := []
  /-- real time in units of 625 ps since the model's reset state (the model's own clock; reset 0, DESIGN CHOICE) -/
  now : Nat := 0
  /-- counter that the opaque free values of Config are applied to (the model's own; reset 0, DESIGN CHOICE) -/
  free : Nat := 0
  /-- the variant fuses name the FT0512 (00, R1, R5; reset FT1024) -/
  ft0512 : Bool := false
  bus : Bus := {}
  pl : Plinth := {}
  inp : Inputs := {}
  cal : Cal := {}
  lg : Lg := {}
  fab : Fabric := {}
  mus : Mus := {}
  ar : Armature := {}
  ddr : Ddr := {}
  host : HostIf := {}
  mon : Mon := {}
  tp : NetTime := {}
  play : Play := {}
  pr : Pair := {}
  mt : Mitten := {}
  deriving DecidableEq, Repr

/-- Right after reset release of the largest configuration with blank fuses and every strap 0 (R5, R12, R398): the fuse
shadows are sensed (AR_STAT.LOADED, R384) and the load of the calibration store runs (CA_STORE_STAT.WRITE_BUSY, R88). -/
def State.reset : State :=
  { bus := { regs := [(0x10000, 1#32), (0x90010, 0x80#32)] }
    cal := { op := some (.load true) } }

/-- The block raises no fault of its own: every command has an effect, or none. -/
inductive Fault where
  /-- never raised: kept so that the outcome type names one fault; safe -/
  | none
  deriving DecidableEq, Repr

/-- Why a command has no meaning. -/
inductive Refusal where
  /-- raised by Dispatch for a row whose meaning is not modelled; safe -/
  | notModelled (mnemonic : String)
  deriving DecidableEq, Repr

end Sys2Proof.Machine
end

