-- ==== Sys2Proof/Machine/Ops.lean ====
section
/-! DEFINITION. The named operations over the state: sparse tables and byte memories, which units are present, registers
and their fields, T, the Armature's shadows, and the posting of notices. -/

namespace Sys2Proof.Machine

/-! ## Sparse tables -/

/-- Read a table; an unlisted key reads as `d` names it. -/
def sget {α : Type} (d : Nat → α) : Store α → Nat → α
  | [], k => d k
  | (j, v) :: r, k => if j = k then v else sget d r k

/-- A table without a key. -/
def sdel {α : Type} (m : Store α) (k : Nat) : Store α := m.filter fun x => x.1 ≠ k

/-- Write a table, keeping keys rising and listing nothing that equals what its key reads as unlisted. -/
def sset {α : Type} [DecidableEq α] (d : Nat → α) : Store α → Nat → α → Store α
  | [], k, v => if v = d k then [] else [(k, v)]
  | (j, w) :: r, k, v =>
    if k < j then (if v = d k then (j, w) :: sdel r k else (k, v) :: (j, w) :: r)
    else if k = j then (if v = d k then sdel r k else (k, v) :: r)
    else (j, w) :: sset d r k v

/-- The canonical form of a table: keys strictly rising from `lo`, no value equal to the unlisted one. -/
def wfFrom {α : Type} [DecidableEq α] (d : Nat → α) : Nat → Store α → Bool
  | _, [] => true
  | lo, (j, v) :: r => decide (lo ≤ j) && decide (v ≠ d j) && wfFrom d (j + 1) r

/-- The canonical form of a table. -/
def storeWf {α : Type} [DecidableEq α] (d : Nat → α) (m : Store α) : Bool := wfFrom d 0 m

/-! ## Byte memories -/

/-- Read one byte; an unlisted address reads as `d`. -/
def mget (d : Byte) (m : Mem) (a : Nat) : Byte := sget (fun _ => d) m a

/-- Write one byte. -/
def mset (d : Byte) (m : Mem) (a : Nat) (v : Byte) : Mem := sset (fun _ => d) m a v

/-- The canonical form of a byte memory: addresses strictly rising, no entry equal to what an unlisted address reads as. -/
def Memory.wf (d : Byte) (m : Mem) : Bool := storeWf (fun _ => d) m

/-- Read `n` bytes from `a` upwards. -/
def mreadBytes (d : Byte) (m : Mem) (a : Nat) : Nat → List Byte
  | 0 => []
  | n + 1 => mget d m a :: mreadBytes d m (a + 1) n

/-- Write bytes from `a` upwards. -/
def mwriteBytes (d : Byte) (m : Mem) (a : Nat) : List Byte → Mem
  | [] => m
  | b :: r => mwriteBytes d (mset d m a b) (a + 1) r

/-- The value of bytes taken little-endian (R107). -/
def leNat : List Byte → Nat
  | [] => 0
  | b :: r => b.toNat + 256 * leNat r

/-- `n` bytes of a value, little-endian (R107). -/
def leBytes (v : Nat) : Nat → List Byte
  | 0 => []
  | n + 1 => BitVec.ofNat 8 v :: leBytes (v / 256) n

/-- Bits `msb` down to `lsb` of a value. -/
def bitsOf (v msb lsb : Nat) : Nat := (v / 2 ^ lsb) % 2 ^ (msb + 1 - lsb)

/-- `v` with bits `msb` down to `lsb` replaced by `x` (its low bits). -/
def withBits (v msb lsb x : Nat) : Nat :=
  v - bitsOf v msb lsb * 2 ^ lsb + (x % 2 ^ (msb + 1 - lsb)) * 2 ^ lsb

/-- Two's complement reading of the low `w` bits of `v`. -/
def signedOf (w v : Nat) : Int :=
  let u := v % 2 ^ w
  if 2 * u < 2 ^ w then Int.ofNat u else Int.ofNat u - Int.ofNat (2 ^ w)

/-- The low `w` bits of an integer. -/
def wrapInt (w : Nat) (x : Int) : Nat := (x % Int.ofNat (2 ^ w)).toNat

/-! ## Which units are present (R1, R2) -/

/-- FT0512: the higher half of each scaled unit class is absent. -/
def half (s : State) (n : Nat) : Nat := if s.ft0512 then n / 2 else n

def nInputs (s : State) : Nat := half s 512
def nLanes (s : State) : Nat := half s 1024
def nGroups (s : State) : Nat := half s 64
def nEngines (s : State) : Nat := half s 256
def nClusters (s : State) : Nat := half s 16
def nMus (s : State) : Nat := half s 64
def nBanks (s : State) : Nat := half s 4
def nChans (s : State) : Nat := half s 4
def nSeqs (s : State) : Nat := half s 4
def nBusy (s : State) : Nat := half s 16
def nGates (s : State) : Nat := half s 16

/-- Derived queue d: clusters 0 to 15, then MU banks 0 to 3 (10, CC register map). -/
def dqPresent (s : State) (d : Nat) : Bool :=
  if d < 16 then d < nClusters s else d < 20 && d - 16 < nBanks s

/-- Output pin p of 64: pattern outputs 0 to 47, markers 48 to 63 (R2). -/
def pinPresent (s : State) (p : Nat) : Bool :=
  if p < 48 then p / 12 < nSeqs s else p < 64 && (p - 48) / 4 < nSeqs s

/-- Sequencer whose pattern or marker output pin p is (R2). -/
def pinSeq (p : Nat) : Nat := if p < 48 then p / 12 else (p - 48) / 4

/-- A fabric source by its group code: present lane group, cluster or MU bank (R26). -/
def codePresent (s : State) (c : Nat) : Bool :=
  if c < 0x40 then c < nGroups s
  else if c < 0x50 then c - 0x40 < nClusters s
  else c < 0x54 && c - 0x50 < nBanks s

/-! ## Registers -/

/-- The indices of a register of a row at an offset. -/
def RegRow.at? (r : RegRow) (off : Nat) : Option (Nat × Nat) :=
  if off < r.base then none
  else
    let d := off - r.base
    let i := d / r.s1
    let e := d % r.s1
    if r.n2 = 1 then (if e = 0 ∧ i < r.n1 then some (i, 0) else none)
    else if e % r.s2 = 0 ∧ e / r.s2 < r.n2 ∧ i < r.n1 then some (i, e / r.s2) else none

/-- The map row of a register, with its indices (R284: none for a reserved offset). -/
def findIn (off : Nat) : List RegRow → Option (RegRow × Nat × Nat)
  | [] => none
  | r :: rs => match r.at? off with
    | some (i, j) => some (r, i, j)
    | none => findIn off rs

def findReg (off : Nat) : Option (RegRow × Nat × Nat) := findIn off (regsOfBlock (off / 0x10000))

/-- The bits of the fields of a row that satisfy a test. -/
def maskOf (p : FTy → Bool) : List RField → Nat
  | [] => 0
  | f :: fs => (if p f.ty then (2 ^ (f.msb + 1 - f.lsb) - 1) * 2 ^ f.lsb else 0) ||| maskOf p fs

/-- The reset value of a row's fields (R12). -/
def rstOf : List RField → Nat
  | [] => 0
  | f :: fs => (f.rst * 2 ^ f.lsb) ||| rstOf fs

/-- The value of a register after reset: the Reset column of its map, TSEL = ⌊g / 4⌋ for CA_GRP_CFG[g] (R71),
and the bytes 52 59 4C FF FE 00 of TP_CLOCK_ID; its last bytes take the device ID from the shadows (R392). -/
def regReset (off : Nat) : W32 :=
  match findReg off with
  | some (r, i, _) =>
    BitVec.ofNat 32 (rstOf r.fields + (if r.base = CA_GRP_CFG.off 0 then (i / 4) * 2 ^ 17 else 0))
  | none => 0

/-- A register's value in force. -/
def reg (s : State) (off : Nat) : W32 := sget regReset s.bus.regs off

/-- Write a register's value in force. -/
def setReg (s : State) (off : Nat) (v : W32) : State :=
  { s with bus := { s.bus with regs := sset regReset s.bus.regs off v } }

/-- A field's value in force. -/
def fld (s : State) (x : Fld) : Nat := bitsOf (reg s x.off).toNat x.msb x.lsb

/-- A field read as a flag. -/
def flag (s : State) (x : Fld) : Bool := fld s x != 0

/-- A field read as two's complement. -/
def sfld (s : State) (x : Fld) : Int := signedOf (x.msb + 1 - x.lsb) (fld s x)

/-- Bit i of a field. -/
def fbit (s : State) (x : Fld) (i : Nat) : Bool := (fld s x).testBit i

/-- Write a field, keeping the register's other bits. -/
def setFld (s : State) (x : Fld) (v : Nat) : State :=
  setReg s x.off (BitVec.ofNat 32 (withBits (reg s x.off).toNat x.msb x.lsb v))

/-- Set every bit of a field: the event of an sts bit (R9). -/
def sts (s : State) (x : Fld) : State := setFld s x (2 ^ (x.msb + 1 - x.lsb) - 1)

/-- Set bit i of a field with one bit per unit. -/
def stsBit (s : State) (x : Fld) (i : Nat) : State := setFld s x (fld s x ||| 2 ^ i)

/-- Clear bit i of a field with one bit per unit. -/
def clrBit (s : State) (x : Fld) (i : Nat) : State :=
  if (fld s x).testBit i then setFld s x (fld s x - 2 ^ i) else s

/-- Write a flag. -/
def setFlag (s : State) (x : Fld) (b : Bool) : State := setFld s x (if b then 1 else 0)

/-- Add to a saturating count: it holds at all ones (R9). -/
def addCnt (s : State) (x : Fld) (n : Nat) : State :=
  setFld s x (min (fld s x + n) (2 ^ (x.msb + 1 - x.lsb) - 1))

/-- Count one event (R9). -/
def inc (s : State) (x : Fld) : State := addCnt s x 1

/-- Advance a field that wraps. -/
def bump (s : State) (x : Fld) : State := setFld s x (fld s x + 1)

/-- The 64-bit quantity of a LO/HI pair in force. -/
def pair64 (s : State) (lo hi : Nat) : Nat := (reg s lo).toNat + 2 ^ 32 * (reg s hi).toNat

/-- Write both halves of a 64-bit quantity that the device keeps. -/
def setPair64 (s : State) (lo hi : Nat) (v : Nat) : State :=
  setReg (setReg s lo (BitVec.ofNat 32 v)) hi (BitVec.ofNat 32 (v / 2 ^ 32))

/-! ## Time -/

/-- T as a number of ticks (R92). -/
def tNow (s : State) : Nat := s.pl.t.toNat

/-- T[63:0]. -/
def t64 (s : State) : W64 := BitVec.ofNat 64 (tNow s)

/-- A time modulo 2^48, as records carry it (R99). -/
def low48 (t : Nat) : Nat := t % 2 ^ 48

/-- The PCLK period is 625 ps; `gclk` counts GCLK cycles of Plinth's edges, `fclk` 1 ns cycles, `eclk` 0.8 ns cycles
(R19, R20). -/
def gclk (s : State) : Nat := s.pl.edge / 2

def fclk (s : State) : Nat := s.now * 5 / 8

def eclk (s : State) : Nat := s.now * 25 / 32

/-- PCLK periods in a number of nanoseconds, rounded up. -/
def nsTicks (ns : Nat) : Nat := (ns * 8 + 4) / 5

def usTicks (us : Nat) : Nat := us * 1600

def msTicks (ms : Nat) : Nat := ms * 1600000

/-- `n` samples of ACLK, 4 ns each, have passed between two times. -/
def samplesPassed (now t n : Nat) : Bool := 5 * t + 32 * n ≤ 5 * now

/-- Periods of 625 ps that a collection of 2^p hits takes, with its settling (R83). -/
def collectTicks (p : Nat) : Nat := usTicks 2 + 2 ^ p * 1600 / 174

/-- An accepted measurement collects: its 2 µs of settling are over and its hits are not all there (R83). -/
def collecting (s : State) (m : Measure) : Bool :=
  decide (m.at_ + usTicks 2 ≤ s.now) && decide (s.now < m.at_ + collectTicks m.p)

/-- Full T from a 48-bit field about a reference (R102); times below the window start do not arise. -/
def rebuild (ref l48 : Nat) : Nat :=
  let base : Int := Int.ofNat ref - Int.ofNat (2 ^ 47)
  let d := wrapInt 48 (Int.ofNat l48 - base)
  (base + Int.ofNat d).toNat

/-! ## Free values -/

/-- Take the next free value: the counter that the opaque constants of Config are applied to advances. -/
def takeFree (s : State) : Nat × State := (s.free, { s with free := s.free + 1 })

/-! ## The Armature's shadows (R384 to R390) -/

/-- A row of the fuse shadows. -/
def shadow (s : State) (row : Nat) : Nat := (sget (fun _ => (0 : W32)) s.ar.shadow row).toNat

/-- Function PF f exists (R386). -/
def fnExists (s : State) (f : Nat) : Bool := f = 0 || (f < 8 && (shadow s 5).testBit f)

/-- The partition of unit j of a class whose codes start at row r0 (R385, R386). -/
def partOf (s : State) (r0 j : Nat) : Nat :=
  let c := bitsOf (shadow s (r0 + j / 8)) (4 * (j % 8) + 2) (4 * (j % 8))
  if fnExists s c then c else 0

def ownGroup (s : State) (g : Nat) : Nat := partOf s 8 g
def ownCluster (s : State) (c : Nat) : Nat := partOf s 16 c
def ownMu (s : State) (u : Nat) : Nat := partOf s 18 u
def ownRing (s : State) (r : Nat) : Nat := partOf s 26 r
def ownHostRing (s : State) (r : Nat) : Nat := partOf s 28 r
def ownWindow (s : State) (w : Nat) : Nat := partOf s 36 w
def ownPin (s : State) (p : Nat) : Nat := partOf s 40 p
def ownTrigger (s : State) (t : Nat) : Nat := partOf s 48 t
def ownRateGen (s : State) (n : Nat) : Nat := partOf s 52 n
def ownSeq (s : State) (q : Nat) : Nat := ownPin s (12 * q)
def ownBank (s : State) (b : Nat) : Nat := ownMu s (16 * b)

/-- Derived queue d follows its cluster or MU bank (R387). -/
def ownDq (s : State) (d : Nat) : Nat := if d < 16 then ownCluster s d else ownBank s (d - 16)

/-- The gate of GATE_ID id belongs to a unit of partition p: pins, the host gate and reserved codes to none in
particular, triggers and clusters to their owners (R389). -/
def gateOwned (s : State) (p id : Nat) : Bool :=
  if 0x10 ≤ id ∧ id < 0x30 then ownTrigger s (id - 0x10) = p
  else if 0x30 ≤ id ∧ id < 0x40 then ownCluster s (id - 0x30) = p
  else true

/-- A GATE_ID names a gate source that is present (R109, R4). -/
def gatePresent (s : State) (id : Nat) : Bool :=
  if id < 0x10 then id < nGates s
  else if id < 0x30 then true
  else if id < 0x40 then id - 0x30 < nClusters s
  else id = 0x40

/-- The device ID (R392). -/
def deviceId (s : State) : Nat := shadow s 4 % 2 ^ 16

/-- Function f holds guarded-write rights (R390). -/
def rights (s : State) (f : Nat) : Bool :=
  if (shadow s 4).testBit 19 then (shadow s 5).testBit (8 + f) else f = 0

/-! ## Notices (R277 to R281) -/

/-- Types marked as merged in the tables *Notice types* (13) and in the notice tables of 15 to 18, and 0x0201 (R300). -/
def noticeMerges (ty : Nat) : Bool :=
  [0x0201, 0x0401, 0x0402, 0x0403, 0x0506, 0x0601, 0x0602, 0x0603, 0x0604, 0x0801, 0x0802, 0x0901, 0x0903, 0x0B01, 0x0B02,
   0x0B03, 0x0B04, 0x0D02, 0x0E02, 0x0F01, 0x0F02, 0x1001, 0x1002, 0x1003, 0x1101, 0x1102, 0x1201, 0x1202, 0x1302, 0x1303,
   0x1305].contains ty

/-- The function a notice goes to: the owner of its source unit, and PF0 for the blocks that belong to no partition
(R278). -/
def noticeFn (s : State) (ty source : Nat) : Nat :=
  match ty / 256 with
  | 0x08 => ownGroup s source
  | 0x09 => if ty = 0x0902 then ownGroup s (source / 16) else if ty = 0x0901 ∨ ty = 0x0903 then ownGroup s source else 0
  | 0x0A => ownCluster s (source / 16)
  | 0x0B => ownCluster s source
  | 0x0E => ownRing s source
  | 0x0F => ownHostRing s source
  | 0x10 => ownSeq s source
  | 0x11 => ownTrigger s source
  | 0x15 => source
  | _ => 0

/-- One bit. -/
def bit1 (b : Bool) : Nat := if b then 1 else 0

def fnHost (s : State) (f : Nat) : FnHost := sget (fun _ => {}) s.host.fns f

def setFnHost (s : State) (f : Nat) (x : FnHost) : State :=
  { s with host := { s.host with fns := sset (fun _ => {}) s.host.fns f x } }

/-- Raise an alarm cause; ALARM_N is IR_ALARM_STAT & IR_ALARM_EN ≠ 0 (R281). -/
def alarm (s : State) (x : Fld) : State := sts s x

/-- Merge into the queued notice of the same type and source (R279). -/
def mergeInto (n : Notice) : List Notice → Option (List Notice)
  | [] => none
  | q :: r =>
    if q.ty = n.ty ∧ q.source = n.source then
      some ({ q with t := n.t, aux := n.aux, data := n.data, merged := min (q.merged + 1) 255 } :: r)
    else (mergeInto n r).map (q :: ·)

/-- The overflow notice of R280: the number dropped, and the SEQ that the first later notice will take. -/
def overflowNotice (s : State) (f : Nat) (x : FnHost) : Notice :=
  { ty := 0x1501, source := f, aux := 0, merged := 0, t := t64 s, at_ := s.now,
    data := BitVec.ofNat 128 (x.dropped % 2 ^ 32 +
      2 ^ 32 * ((fld s (IR_NSEQ.SEQ f) + x.nq.length + 1) % 2 ^ 16)) }

/-- Queue the overflow notice that is due, when the queue has room (R280). -/
def queueOverflow (s : State) (f : Nat) : State :=
  let x := fnHost s f
  if x.dropped ≠ 0 ∧ x.nq.length < 256 then
    setFnHost s f { x with nq := x.nq ++ [overflowNotice s f x], dropped := 0 }
  else s

/-- Put a notice in function f's queue, or drop and count it when the queue is full (R278, R280). -/
def queueNotice (s : State) (f : Nat) (n : Notice) : State :=
  let s := queueOverflow s f
  let x := fnHost s f
  if x.nq.length < 256 then setFnHost s f { x with nq := x.nq ++ [n] }
  else
    alarm (sts (inc (setFnHost s f { x with dropped := x.dropped + 1 }) (IR_NDROP_CNT.COUNT f)) (IR_NSTAT.OVF f))
      IR_ALARM_STAT.NOTICE_OVF

/-- NOTICE_POST (R279): discard by IR_NMASK, merge, queue or drop. -/
def postAt (s : State) (t : W64) (ty source aux : Nat) (data : BitVec 128) : State :=
  let f := noticeFn s ty source
  if (fld s (IR_NMASK.BLOCK f)).testBit (ty / 256) = false then s
  else
    let n : Notice := { ty := ty, source := source, aux := aux, merged := 0, t := t, at_ := s.now, data := data }
    match (if noticeMerges ty then mergeInto n (fnHost s f).nq else none) with
    | some q => setFnHost s f { fnHost s f with nq := q }
    | none => queueNotice s f n

/-- A notice that carries T now. -/
def post (s : State) (ty source aux : Nat) (data : Nat) : State :=
  postAt s (t64 s) ty source aux (BitVec.ofNat 128 data)

/-! ## Unit tables -/

def lane (s : State) (n : Nat) : Lane := sget (fun _ => {}) s.inp.lanes n
def setLane (s : State) (n : Nat) (x : Lane) : State :=
  { s with inp := { s.inp with lanes := sset (fun _ => {}) s.inp.lanes n x } }

def group (s : State) (g : Nat) : Group := sget (fun _ => {}) s.lg.groups g
def setGroup (s : State) (g : Nat) (x : Group) : State :=
  { s with lg := { s.lg with groups := sset (fun _ => {}) s.lg.groups g x } }

def calGroup (s : State) (g : Nat) : CalGroup := sget (fun _ => {}) s.cal.groups g
def setCalGroup (s : State) (g : Nat) (x : CalGroup) : State :=
  { s with cal := { s.cal with groups := sset (fun _ => {}) s.cal.groups g x } }

def source (s : State) (c : Nat) : Source := sget (fun _ => {}) s.fab.src c
def setSource (s : State) (c : Nat) (x : Source) : State :=
  { s with fab := { s.fab with src := sset (fun _ => {}) s.fab.src c x } }

def cluster (s : State) (c : Nat) : Cluster := sget (fun _ => {}) s.fab.clusters c
def setCluster (s : State) (c : Nat) (x : Cluster) : State :=
  { s with fab := { s.fab with clusters := sset (fun _ => {}) s.fab.clusters c x } }

def engine (s : State) (e : Nat) : Engine := sget (fun _ => {}) s.fab.engines e
def setEngine (s : State) (e : Nat) (x : Engine) : State :=
  { s with fab := { s.fab with engines := sset (fun _ => {}) s.fab.engines e x } }

def mu (s : State) (u : Nat) : Mu := sget (fun _ => {}) s.mus.mu u
def setMu (s : State) (u : Nat) (x : Mu) : State :=
  { s with mus := { s.mus with mu := sset (fun _ => {}) s.mus.mu u x } }

def bank (s : State) (b : Nat) : MuBank := sget (fun _ => {}) s.mus.bank b
def setBank (s : State) (b : Nat) (x : MuBank) : State :=
  { s with mus := { s.mus with bank := sset (fun _ => {}) s.mus.bank b x } }

/-! ## The pair (R368, R370) -/

/-- The device is a standby of a pair (table *Roles*). -/
def isStandby (s : State) : Bool := fld s PR_STAT.ROLE = 1 || fld s PR_STAT.ROLE = 2

/-- Outputs and export are off: the device is a standby or fenced (table *Roles*, R361). -/
def pairMuted (s : State) : Bool := isStandby s || fld s PR_STAT.ROLE = 4

/-- Engine e is held halted: it is mirrored and the device is a standby (R369). -/
def heldHalted (s : State) (e : Nat) : Bool :=
  isStandby s && (reg s (PR_CV_MIRROR.off (e / 32))).toNat.testBit (e % 32)

/-- The active of a pair sends an event to its partner over a working link (R368). -/
def pairSend (s : State) (e : PairEvent) : State :=
  if fld s PR_STAT.ROLE = 3 ∧ flag s PR_STAT.LINK_UP then
    { s with pr := { s.pr with sent := s.pr.sent + 1, lastEvent := some e, linkQ := s.pr.linkQ ++ [.event e] } }
  else s

def cutOf (s : State) (g : Nat) : Cut := sget (fun _ => {}) s.pr.cuts g

def setCut (s : State) (g : Nat) (x : Cut) : State :=
  { s with pr := { s.pr with cuts := sset (fun _ => {}) s.pr.cuts g x } }

/-- Insert a time in rising order. -/
def insertTime (t : Nat) : List Nat → List Nat
  | [] => [t]
  | x :: r => if t ≤ x then t :: x :: r else x :: insertTime t r

/-- The cut finder of an active's lane group sees a stamp (R378). -/
def noteCutTime (s : State) (g t : Nat) : State :=
  if fld s PR_STAT.ROLE = 3 then setCut s g { cutOf s g with times := insertTime t (cutOf s g).times } else s

/-- SEQ a is at or after SEQ b, modulo 2^16. -/
def seqAtLeast (a b : Nat) : Bool := decide ((a + 2 ^ 16 - b % 2 ^ 16) % 2 ^ 16 < 2 ^ 15)

/-- ALIGNED clears, with its event (R376); the causes are those of R372 and R376. -/
def alignLost (s : State) : State :=
  if flag s PR_STAT.ALIGNED then
    let s := alarm (sts (setFlag s PR_STAT.ALIGNED false) PR_STAT.ALIGN_LOST) IR_ALARM_STAT.PAIR
    if flag s PR_CFG.NOTICE_EN then post s 0x1304 0 0x80 (reg s PR_ALIGN_RES.off).toNat else s
  else s

/-- Apply an operation for each index of a list, in order. -/
def forEach (xs : List Nat) (s : State) (f : State → Nat → State) : State := xs.foldl f s

end Sys2Proof.Machine
end

