-- ==== Sys2Proof/Machine/Records.lean ====
section
/-! DEFINITION. Records, tiles and the entry check (06_records_and_tiles.md): the words of stamps, markers, results and
gap records, the CRC-32C of R124, the sealing of a tile and its verification. -/

namespace Sys2Proof.Machine

/-! ## The entry check (R124) -/

/-- One bit of the reflected CRC-32C. -/
def crcBit (c : W32) : W32 := if c.getLsbD 0 then (c >>> 1) ^^^ 0x82F63B78#32 else c >>> 1

/-- `n` bits of the CRC. -/
def crcBits : Nat → W32 → W32
  | 0, c => c
  | n + 1, c => crcBits n (crcBit c)

/-- The inner byte step of R124. -/
def crcStep (c : W32) (b : Byte) : W32 := crcBits 8 (c ^^^ b.zeroExtend 32)

/-- CRC-32C over bytes in ascending address order (R124). -/
def crc32c (bs : List Byte) : W32 := bs.foldl crcStep 0xFFFFFFFF#32 ^^^ 0xFFFFFFFF#32

/-- The eight bytes of a word as stored (R107). -/
def wordBytes (w : W64) : List Byte := leBytes w.toNat 8

/-- CHECK of seven record slots: CRC-32C over bytes 8 to 63 of the tile. -/
def checkOf (slots : List W64) : W32 := crc32c (slots.flatMap wordBytes)

/-- The 64 bytes of a tile as stored (R118). -/
def tileBytes (t : Tile) : List Byte := wordBytes t.hdr ++ t.slots.flatMap wordBytes

/-- A tile from its 64 stored bytes. -/
def tileOfBytes (bs : List Byte) : Tile :=
  { hdr := BitVec.ofNat 64 (leNat (bs.take 8)),
    slots := (List.range 7).map fun i => BitVec.ofNat 64 (leNat ((bs.drop (8 * (i + 1))).take 8)) }

/-! ## Fields of words -/

/-- Bits of a 64-bit word. -/
def wbits (w : W64) (msb lsb : Nat) : Nat := bitsOf w.toNat msb lsb

def recKind (w : W64) : Nat := wbits w 63 62
def recSub (w : W64) : Nat := wbits w 61 58
def recLane (w : W64) : Nat := wbits w 61 52
def recTime (w : W64) : Nat := wbits w 47 0
def isStamp (w : W64) : Bool := recKind w = 0
def isGap (w : W64) : Bool := recKind w = 3 && recSub w = 1
def gapLaneValid (w : W64) : Bool := wbits w 56 56 = 1
def gapReason (w : W64) : Nat := wbits w 55 52
def gapLane (w : W64) : Nat := wbits w 51 42

/-- The filler record (R113). -/
def filler : W64 := 0xC000000000000000#64

def isFiller (w : W64) : Bool := w = filler

/-! ## Words made by the device -/

/-- A stamp record (R108). -/
def stampWord (lane : Nat) (falling pile : Bool) (quality s : Nat) : W64 :=
  BitVec.ofNat 64 (lane % 1024 * 2 ^ 52 + (if falling then 2 ^ 51 else 0) + (if pile then 2 ^ 50 else 0) +
    quality % 4 * 2 ^ 48 + low48 s)

/-- An epoch marker of the epoch E = T >> 47 (R100, R109). -/
def epochWord (t : Nat) : W64 := BitVec.ofNat 64 (2 ^ 62 + (t / 2 ^ 47) % 2 ^ 58)

/-- Another time marker: subtype, [55:48] and T (R109). -/
def markWord (sub hi t : Nat) : W64 := BitVec.ofNat 64 (2 ^ 62 + sub * 2 ^ 58 + hi % 256 * 2 ^ 48 + low48 t)

/-- A sleep-gap marker, BOUND_EXP in [57:52] (R109). -/
def sleepGapWord (bexp t : Nat) : W64 := BitVec.ofNat 64 (2 ^ 62 + 5 * 2 ^ 58 + bexp % 64 * 2 ^ 52 + low48 t)

/-- A gap record (R114); COUNT saturates. -/
def gapWord (tiles laneValid : Bool) (reason lane count : Nat) : W64 :=
  BitVec.ofNat 64 (3 * 2 ^ 62 + 2 ^ 58 + (if tiles then 2 ^ 57 else 0) + (if laneValid then 2 ^ 56 else 0) +
    reason % 16 * 2 ^ 52 + (if laneValid then lane % 1024 * 2 ^ 42 else 0) + min count (2 ^ 32 - 1))

/-- A window-header record (part 0, GATE_ID) or continuation record (part number) (R116). -/
def windowWord (state part gate length window : Nat) : W64 :=
  BitVec.ofNat 64 (3 * 2 ^ 62 + (if part = 0 then 2 else 3) * 2 ^ 58 + state % 4 * 2 ^ 56 +
    (if part = 0 then gate % 256 else part % 256) * 2 ^ 48 + length % 2 ^ 16 * 2 ^ 32 + window % 2 ^ 32)

/-- A result record (R111). -/
def resultWord (source payload : Nat) : W64 :=
  BitVec.ofNat 64 (2 * 2 ^ 62 + source % 256 * 2 ^ 54 + payload % 2 ^ 54)

/-! ## Runs of records (R176, R177, R195) -/

/-- A gap record of reason 0x3, which an epoch marker and a result record follow with no other record between. -/
def isResultGap (w : W64) : Bool := isGap w && gapReason w = 3

/-- Records that have still to follow those of a tile for a run begun with a gap record of reason 0x3. -/
def openRun (recs : List W64) : Nat :=
  match recs.reverse with
  | w :: r => if isResultGap w then 2 else if recKind w = 1 && recSub w = 0 && r.head?.any isResultGap then 1 else 0
  | [] => 0

/-- A result record that continues the publication of the record before it: its index is not 0, nor that of a summary of mode 1
(table *MU result records*). -/
def continues (w : W64) : Bool := recKind w = 2 && wbits w 57 54 != 0 && !(wbits w 57 54 = 2 && wbits w 53 50 = 1)

/-- An owed reason-0x1 gap record and its epoch marker take their places behind the first n records (R115, R210). -/
def withOwed (n owed t : Nat) (recs : List W64) : List W64 :=
  if owed = 0 then recs else recs.take n ++ [gapWord true false 1 0 owed, epochWord t] ++ recs.drop n

/-! ## Tiles -/

/-- Seven slots: the records, then fillers (R120). -/
def padSlots (recs : List W64) : List W64 := (recs ++ List.replicate 7 filler).take 7

/-- A header word (R118) with its CHECK. -/
def headerWord (group : Nat) (window injected : Bool) (vb seq : Nat) (check : W32) : W64 :=
  BitVec.ofNat 64 (group % 256 * 2 ^ 56 + (if window then 2 ^ 53 else 0) + (if injected then 2 ^ 52 else 0) +
    vb % 16 * 2 ^ 48 + seq % 2 ^ 16 * 2 ^ 32 + check.toNat)

/-- A sealed tile over seven slots. -/
def mkTile (group : Nat) (window injected : Bool) (vb seq : Nat) (slots : List W64) : Tile :=
  { hdr := headerWord group window injected vb seq (checkOf slots), slots := slots }

/-- A sealed tile of records (R120). -/
def dataTile (group seq : Nat) (recs : List W64) : Tile := mkTile group false false 0 seq (padSlots recs)

def tileGroup (t : Tile) : Nat := wbits t.hdr 63 56
def tileCorrupt (t : Tile) : Bool := wbits t.hdr 55 55 = 1
def tileWindow (t : Tile) : Bool := wbits t.hdr 53 53 = 1
def tileInjected (t : Tile) : Bool := wbits t.hdr 52 52 = 1
def tileVb (t : Tile) : Nat := wbits t.hdr 51 48
def tileSeq (t : Tile) : Nat := wbits t.hdr 47 32
def tileCheck (t : Tile) : Nat := wbits t.hdr 31 0

/-- The tile with CORRUPT set; the flag is never cleared (R24). -/
def markCorrupt (t : Tile) : Tile := { t with hdr := t.hdr ||| 0x0080000000000000#64 }

/-- A verifier finds the tile failing its check (R125), or the tile arrives marked. -/
def failsCheck (s : State) (t : Tile) : Bool :=
  tileCorrupt t || (checkOf t.slots).toNat ≠ tileCheck t || !codePresent s (tileGroup t) ||
  (tileInjected t && (tileVb t = 0 || tileVb t = 15)) || (!tileInjected t && tileVb t ≠ 0) ||
  (tileWindow t && tileInjected t)

/-! ## Time markers due to an assembler (R110) -/

/-- Insert a marker in the order of R110: by edge, then epoch, sleep gap, anchor, table swap, gate close, gate open. -/
def insertMark (m : Mark) : List Mark → List Mark
  | [] => [m]
  | x :: r => if m.edge < x.edge ∨ (m.edge = x.edge ∧ m.cls < x.cls) then m :: x :: r else x :: insertMark m r

def clsEpoch : Nat := 0
def clsSleep : Nat := 1
def clsAnchor : Nat := 2
def clsSwap : Nat := 3
def clsClose : Nat := 4
def clsOpen : Nat := 5

/-- A marker becomes due to a lane group's assembler; a group that is NOT_READY starts its stream with its epoch marker
and takes none before (R100). -/
def groupMark (s : State) (g cls : Nat) (w : W64) : State :=
  let G := group s g
  if G.ready then setGroup s g { G with marks := insertMark ⟨s.pl.edge, cls, w⟩ G.marks } else s

/-- A stream has sealed a tile other than an injected one: EMITTED (R105). -/
def setEmitted (s : State) : State := setFlag s PL_STAT.EMITTED true

end Sys2Proof.Machine
end

