-- ==== Sys2Proof/Machine/Bus.lean ====
section
/-! DEFINITION. The register bus (14_register_behaviour.md): who may write a register, guarded pairs and their faults, the
effect of a whole-register write by field type, and the LO/HI holding latches. -/

namespace Sys2Proof.Machine

/-! ## Presence and ownership of a register -/

/-- Who may write a register (R388): one partition, the management function alone, or every function. -/
inductive Owner where
  | part (p : Nat)
  | device
  | any
  deriving DecidableEq, Repr

/-- The unit class and index that a register belongs to, by block and map row. -/
def regOwner (s : State) (off : Nat) : Owner :=
  let o := off % 0x10000
  match off / 0x10000 with
  | 7 => if o < 0x2000 then .part (ownGroup s (o / 16 / 8)) else .any
  | 8 => if o < 0x4000 then .part (ownGroup s (o / 256)) else .device
  | 9 => if o = 0 then .device else if o < 0x1000 then .any
         else if o < 0x2000 then .part (ownGroup s ((o - 0x1000) / 16)) else .part (ownGroup s ((o - 0x2000) / 64))
  | 10 => .part (ownCluster s (o / 256 / 16))
  | 11 => if o < 0x1000 then .part (ownCluster s (o / 256)) else if o < 0x2000 then .device
          else .part (ownDq s ((o - 0x2000) / 16))
  | 12 => if o < 0x4000 then .part (ownMu s (o / 256)) else .part (ownBank s ((o - 0x4000) / 16))
  | 14 => .part (ownRing s (o / 256))
  | 15 => .part (ownHostRing s (o / 64))
  | 3 => if o < 0x2000 then .part (ownHostRing s (o / 64)) else if o < 0x3000 then .part ((o - 0x2000) / 64) else .device
  | 16 => if o < 0x1000 then .part (ownSeq s (o / 256)) else if o < 0x2000 then .part (ownPin s ((o - 0x1000) / 4)) else .any
  | 17 => if o < 0x1000 then .part (ownTrigger s (o / 64)) else if o < 0x2000 then .part (ownRateGen s ((o - 0x1000) / 32))
          else .device
  | 21 => if o < 0x1000 then .part (o / 64) else .device
  | _ => .device

/-- The register's unit is present on the variant (R2, R3).  The windows of the eight functions are part of HI and IR whether a function
exists or not: PF0 reads them all (R388). -/
def regPresent (s : State) (off : Nat) : Bool :=
  let o := off % 0x10000
  match off / 0x10000 with
  | 7 => if o < 0x2000 then o / 16 < nInputs s else if 0x2100 ≤ o then (o - 0x2100) / 4 < nInputs s / 32 else true
  | 8 => if o < 0x4000 then o / 256 < nGroups s else if o < 0x4100 then (o - 0x4000) / 16 < nBusy s else true
  | 9 => if o < 0x1000 then true else if o < 0x2000 then (o - 0x1000) / 16 < nGroups s else (o - 0x2000) / 4 < nLanes s
  | 10 => o / 256 < nEngines s
  | 11 => if o < 0x1000 then o / 256 < nClusters s else if o < 0x2000 then true else dqPresent s ((o - 0x2000) / 16)
  | 12 => if o < 0x4000 then o / 256 < nMus s else (o - 0x4000) / 16 < nBanks s
  | 13 => if o < 0x1000 then o / 256 < nChans s else true
  | 16 => if o < 0x1000 then o / 256 < nSeqs s else if o < 0x2000 then pinPresent s ((o - 0x1000) / 4) else true
  | _ => true

/-- Function f may write the register (R388 and its table *Device-wide exceptions*). -/
def mayWrite (s : State) (f off : Nat) : Bool :=
  match regOwner s off with
  | .part p => p = f
  | .any => true
  | .device => f = 0 || off = MQ_UNVEIL.off || off = MQ_VIEW.off

/-- Function f may read the register. -/
def mayRead (s : State) (f off : Nat) : Bool :=
  match regOwner s off with
  | .part p =>
    p = f || (f = 0 && ((off / 0x10000 = 3 && 0x2000 ≤ off % 0x10000) || off / 0x10000 = 21))
  | .any => true
  | .device => true

/-! ## Mask and selector bits of absent or unowned units, and reserved bits within a field (R4, R11, R389) -/

/-- The bits i below 32 for which a test holds. -/
def bitsWhere (p : Nat → Bool) : Nat := (List.range 32).foldl (fun m i => if p i then m ||| 2 ^ i else m) 0

/-- The bits of a register that a write may set, given the partition p that the register or the writer belongs to. -/
def unitMask (s : State) (p off : Nat) : Nat :=
  let o := off % 0x10000
  let grp (b : Nat) := bitsWhere fun i => b + i < nGroups s && ownGroup s (b + i) = p
  let dqs := bitsWhere fun i => dqPresent s i && ownDq s i = p
  let all := 2 ^ 32 - 1
  match off / 0x10000 with
  | 8 =>
    if o < 0x4000 then
      if o % 256 = 0x44 then bitsWhere fun i => if i < 16 then i < nGates s else i - 16 < nClusters s && ownCluster s (i - 16) = p
      else if o % 256 = 0x48 then bitsWhere fun i => ownTrigger s i = p
      else all
    else if o < 0x4100 then
      if o % 16 = 0 then grp 0 else if o % 16 = 4 then grp 32
      else if o % 16 = 8 then 2 ^ 31 + (bitsWhere fun i => i < 16 && ownRing s i = p) else all
    else all
  | 14 => if o % 256 = 0x0C then grp 0 else if o % 256 = 0x10 then grp 32 else if o % 256 = 0x14 then dqs else all
  | 15 => if o % 64 = 4 then grp 0 else if o % 64 = 8 then grp 32 else if o % 64 = 12 then dqs else all
  | 16 =>
    if o = 0x2000 then bitsWhere fun i => pinPresent s i && ownPin s i = p
    else if o = 0x2004 then bitsWhere fun i => pinPresent s (32 + i) && ownPin s (32 + i) = p
    else if o < 0x1000 ∧ o % 256 = 8 then 0x8F8F8F8F
    else all
  | 13 => if 0x1000 ≤ o ∧ o % 16 = 0 then bitsWhere fun i => 4 ≤ i || i < nChans s else all
  | 19 => if 0x20 ≤ o ∧ o < 0x40 then
            bitsWhere fun i => 32 * ((o - 0x20) / 4) + i < nEngines s && ownCluster s ((32 * ((o - 0x20) / 4) + i) / 16) = p
          else if o = 0x1C then bitsWhere fun i => ownRing s i = p
          else all
  | 2 =>
    if 0x100 ≤ o then
      let k := (o - 0x100) / 4
      bitsWhere fun i =>
        let j := i / 4
        if k < 8 then 8 * k + j < nGroups s
        else if k < 16 then 8 * (k - 8) + j < nMus s
        else if k = 26 then (if j < 4 then j < nSeqs s else j - 4 < nChans s)
        else if k = 28 then j < 2
        else true
    else all
  | _ => all

/-! ## Guarded pairs (R291) -/

/-- Count a guard fault, set the sticky bit and keep the first in the log (R291). -/
def guardFault (s : State) (f cause blk off : Nat) : State :=
  let s := if flag s GL_ACC_STAT.GUARD then s
    else setReg s GL_GUARD_LOG.off (BitVec.ofNat 32 (f * 2 ^ 24 + cause * 2 ^ 21 + blk * 2 ^ 16 + off % 2 ^ 16))
  sts (inc s GL_GUARD_CNT.COUNT) GL_ACC_STAT.GUARD

def guardPair (s : State) (blk : Nat) : Option GuardPair := sget (fun _ => none) s.bus.pair blk

def setGuardPair (s : State) (blk : Nat) (p : Option GuardPair) : State :=
  { s with bus := { s.bus with pair := sset (fun _ => none) s.bus.pair blk p } }

/-- BCLK cycles of 4 ns. -/
def bclk (now : Nat) : Nat := now * 5 / 32

/-- The 250th BCLK cycle after the opening write has passed (R291, cause 2). -/
def pairExpired (s : State) (p : GuardPair) : Bool := decide (bclk p.opened + 250 < bclk s.now)

/-- A write that is neither half of a pair reaches the block: it breaks the open pair (cause 3 at its end). -/
def breakPair (s : State) (blk : Nat) : State :=
  match guardPair s blk with
  | some p => if p.broken || pairExpired s p then s else setGuardPair s blk (some { p with broken := true })
  | none => s

/-- The CAUSE of an ending pair: the first that applies in the order 6, 5, 3, 4, 2, 1 (R291). -/
def pairCause (p : GuardPair) (own : Nat) : Nat :=
  if p.noRights then 6 else if p.noReg then 5 else if p.broken then 3 else own

/-! ## Accepting an access -/

/-- BAR0 answers: the device is out of reset and awake, and 20 ms have passed since reset release or, where REF came later, since it
was stable (R7, R398). -/
def barUp (s : State) : Bool := !s.mt.inReset && !s.mt.asleep && !s.mt.refWait && decide (s.bus.releasedAt + msTicks 20 ≤ s.now)

/-- An access of a function reaches the register bus: BAR0 answers, and the function exists (R386) and is not in
D3hot (R260). -/
def reaches (s : State) (a : Access) : Bool := barUp s && fnExists s a.func && !(fnHost s a.func).d3hot

/-- Keep the longest access stall and its block (R288). -/
def noteStall (s : State) (a : Access) (off : Nat) : State :=
  if fld s GL_STALL_MAX.NS < a.stall then
    let blk := if off < 0x200000 then off / 0x10000 else (off - 0x200000) / 0x8000
    setFld (setFld s GL_STALL_MAX.NS (min a.stall 65535)) GL_STALL_MAX.BLOCK (blk % 32)
  else s

/-- Record a write refused for ownership (R388). -/
def ownFault (s : State) (a : Access) (off : Nat) : State :=
  setReg (inc s AR_OWN_FAULT_CNT.COUNT) AR_OWN_LOG.off (BitVec.ofNat 32 (a.func % 8 * 2 ^ 29 + off % 2 ^ 22))

/-- A whole-register write reaches its block: the stall is noted, an open pair of the block is broken, and the write goes
on only when the unit is present and owned by the writing function. -/
def accept (s : State) (a : Access) (off : Nat) (k : State → State) : State :=
  if !reaches s a then s
  else
    let s := breakPair (noteStall s a off) (off / 0x10000)
    if !regPresent s off then s
    else if !mayWrite s a.func off then ownFault s a off
    else k s

/-! ## The effect of a write by field type (R9, R289) -/

/-- The fields' bits of a mask taken from one word, the others from another. -/
def mergeBits (m old new : Nat) : Nat := (old &&& (2 ^ 32 - 1 - m)) ||| (new &&& m)

/-- The Maquette's word of a register. -/
def maqOf (s : State) (off : Nat) : W32 := sget regReset s.bus.maq off

def setMaq (s : State) (off : Nat) (v : W32) : State :=
  { s with bus := { s.bus with maq := sset regReset s.bus.maq off v } }

/-- The committed set's word of a register (R296). -/
def comOf (s : State) (off : Nat) : W32 := sget regReset s.bus.com off

def setCom (s : State) (off : Nat) (v : W32) : State :=
  { s with bus := { s.bus with com := sset regReset s.bus.com off v } }

def latchOf (s : State) (off : Nat) : Option W32 := sget (fun _ => none) s.bus.latch off

def setLatch (s : State) (off : Nat) (v : W32) : State :=
  { s with bus := { s.bus with latch := sset (fun _ => none) s.bus.latch off (some v) } }

/-- Write a register's live, cnt, sts and cfg fields, without its latch (R9): sts bits written 1 clear; cfg bits enter the
Maquette; ro, cmd and grd fields are untouched. -/
def writeFields (s : State) (p off : Nat) (fs : List RField) (v : W32) : State :=
  let um := unitMask s p off
  let old := (reg s off).toNat
  let x := v.toNat &&& um
  let lm := maskOf (fun t => t = .live || t = .cnt) fs
  let sm := maskOf (fun t => t = .sts) fs
  let cm := maskOf (fun t => t = .cfg) fs
  let lm := if off = PG_OVR_EN_LO.off ∨ off = PG_OVR_EN_HI.off then lm &&& um else lm
  let new := mergeBits lm old x
  let new := new &&& (2 ^ 32 - 1 - (sm &&& v.toNat))
  let s := if new = old then s else setReg s off (BitVec.ofNat 32 new)
  let w := BitVec.ofNat 32 (mergeBits cm (maqOf s off).toNat x)
  if cm = 0 then s else pairSend (setMaq s off w) (.maq off w)

/-- The fields of a row that belong to the pair halves: whether the row writes through the holding latch. -/
def isWritable (fs : List RField) : Bool := maskOf (fun t => t = .live || t = .cnt || t = .cfg) fs ≠ 0

/-- The LO value in force of a pair, or the Maquette's for a cfg pair (R289): what the latch holds before any LO write. -/
def loInForce (s : State) (off : Nat) (fs : List RField) : W32 :=
  if maskOf (fun t => t = .cfg) fs ≠ 0 then maqOf s off else reg s off

/-- A whole-register write by field type, through the holding latch of a LO/HI pair (R289). The commands that the
register's cmd fields start are not part of it. -/
def writeReg (s : State) (p off : Nat) (v : W32) : State :=
  match findReg off with
  | none => s
  | some (r, _, _) =>
    if !isWritable r.fields then writeFields s p off r.fields v
    else match r.half with
      | .none => writeFields s p off r.fields v
      | .lo => setLatch s off v
      | .hi =>
        let lo := off - 4
        let lv := (latchOf s lo).getD (loInForce s lo r.fields)
        let lofs := match findReg lo with | some (q, _, _) => q.fields | none => []
        writeFields (writeFields s p lo lofs lv) p off r.fields v

/-- A row's grd bits (R9). -/
def hasGrd (fs : List RField) : Bool := maskOf (fun t => t = .grd) fs ≠ 0

/-- The partition whose units a write may name: the register's owner, or the writer for the registers of every
function (R389). -/
def writerPart (s : State) (a : Access) (off : Nat) : Nat :=
  match regOwner s off with
  | .part p => p
  | .any => a.func
  | .device => 0

/-- A command register's write: its live, sts and cnt fields first, then the command (R9). -/
def cmdWrite (s : State) (a : Access) (off : Nat) (v : W32) (k : State → State) : State :=
  accept s a off fun s => k (writeReg s (writerPart s a off) off v)

end Sys2Proof.Machine
end

