-- ==== Sys2Proof/Machine/Plinth.lean ====
section
/-! DEFINITION. Plinth (05_plinth_time_base.md): the advance of T and F at a PCLK edge, the time of a stamp, rate requests
and their application, epochs, snapshots and the origin load. -/

namespace Sys2Proof.Machine

/-! ## One PCLK edge (R92, R93) -/

/-- The limit of ADJ (R93). -/
def adjLimit : Int := 225179981368

/-- ADJ as a signed value. -/
def adjInt (a : BitVec 48) : Int := signedOf 48 a.toNat

/-- (T, F) + 1,024 + ADJ × 2^-40 ticks, as one number of 144 bits, T above F (R92, R93). -/
def advanceTF (t : BitVec 104) (f : BitVec 40) (adj : BitVec 48) : BitVec 104 × BitVec 40 :=
  let x := wrapInt 144 (Int.ofNat (t.toNat * 2 ^ 40 + f.toNat) + 1024 * 2 ^ 40 + adjInt adj)
  (BitVec.ofNat 104 (x / 2 ^ 40), BitVec.ofNat 40 x)

/-- Plinth at its next PCLK edge (R92); the calibration-frame count goes on (R76). -/
def plinthEdge (p : Plinth) : Plinth :=
  let (t, f) := advanceTF p.t p.f p.adj
  { p with
    t := t, f := f, tc := p.t, fc := p.f, adjLast := p.adj, edge := p.edge + 1
    frameT := if (p.edge + 1) % 2 ^ 20 = 0 then some t else p.frameT
    hist := (t :: p.hist).take 17 }

/-- Plinth counts from the first edge after the main PLL's lock: T and F are 0 there, and calibration-frame boundary 0
falls (R92, R76). -/
def plinthStart (s : State) : State :=
  let s := { s with pl := { s.pl with running := true, t := 0, f := 0, tc := 0, fc := 0, adjLast := 0, edge := 0, snapEdge := 0,
                                      frameT := some 0, hist := [0] },
                    bus := { s.bus with seen := [] } }
  setFlag (setFlag s PL_STAT.RUNNING true) PL_STAT.PLL_LOCK true

/-! ## The time of a stamp (R97) -/

/-- Full stamp time from T and F at the coarse edge, the ADJ of the increment added at the sampling edge and the fine
value f. -/
def stampTime (tc fc : Nat) (adj : Int) (f : Nat) : Nat :=
  let num : Int := Int.ofNat (fc * 2 ^ 10) + Int.ofNat f * adj + 2 ^ 49
  tc + f + (num / 2 ^ 50).toNat

/-! ## Rate (R94) -/

/-- The value that the host's PL_ADJ_SET holds. -/
def hostAdj (s : State) : BitVec 48 := BitVec.ofNat 48 (pair64 s PL_ADJ_SET_LO.off PL_ADJ_SET_HI.off)

/-- A value is to be applied at the first even edge whose T has reached `tmin`; it replaces one that has not been applied. -/
def takeAdj (s : State) (v : BitVec 48) (tmin : Nat) : State := { s with pl := { s.pl with adjReq := some (v, tmin) } }

/-- A new value from the selected source. On the active of a pair it waits until T_req + 2^24 and goes to the partner with that
time (R372); a standby follows its active's values instead. -/
def requestAdj (s : State) (v : BitVec 48) : State :=
  if isStandby s then s
  else if fld s PR_STAT.ROLE = 3 then takeAdj (pairSend s (.adj v (tNow s + 2 ^ 24))) v (tNow s + 2 ^ 24)
  else takeAdj s v 0

/-- PL_ADJ_SET_WRITE (R94): under RATE_SRC = 0 the pair takes effect on the write of PL_ADJ_SET_HI. -/
def plAdjSetWrite (s : State) (a : Access) (v : W32) : State :=
  cmdWrite s a PL_ADJ_SET_HI.off v fun s =>
    if flag s PL_CTRL.RATE_SRC then s else requestAdj s (hostAdj s)

def execPlAdjSetWrite (a : Access) (v : W32) (s : State) : Host.Outcome State Fault Refusal := .next (plAdjSetWrite s a v)

/-- The servo issues a value (R94): it takes effect under RATE_SRC = 1. -/
def servoIssue (s : State) (v : BitVec 48) : State :=
  let s := { s with pl := { s.pl with servoAdj := v } }
  if flag s PL_CTRL.RATE_SRC then requestAdj s v else s

/-- A value beyond the limit is applied at the limit of the same sign (R93). -/
def clampAdj (v : BitVec 48) : BitVec 48 :=
  if adjLimit < adjInt v then BitVec.ofInt 48 adjLimit
  else if adjInt v < -adjLimit then BitVec.ofInt 48 (-adjLimit)
  else v

/-- CLAMPED, with its notice (R93, table *Notice types*). -/
def noteClamp (s : State) (v : BitVec 48) : State :=
  let s := sts s PL_STAT.CLAMPED
  if flag s PL_CTRL.NOTICE_EN then post s 0x0403 0 0 (wrapInt 64 (adjInt v)) else s

/-- The next PCLK edge is the first of a GCLK cycle, and a paired value's time has come (R94, R372). -/
def adjDue (s : State) (tmin : Nat) : Bool :=
  s.pl.running && (s.pl.edge + 1) % 2 = 0 && tmin ≤ (advanceTF s.pl.t s.pl.f s.pl.adj).1.toNat

/-- ADJ comes into force: the next edge's increment is the first that uses it, and that edge's T is recorded (R94). -/
def applyAdj (s : State) (v : BitVec 48) : State :=
  let w := clampAdj v
  let s := if w = v then s else noteClamp s v
  let s := { s with pl := { s.pl with adj := w, adjReq := none } }
  let t := (advanceTF s.pl.t s.pl.f w).1.toNat
  let s := setPair64 (inc s PL_ADJ_CNT.COUNT) PL_ADJ_T_LO.off PL_ADJ_T_HI.off t
  let s := setReg s PL_ADJ_LO.off (BitVec.ofNat 32 w.toNat)
  bump (setFld s PL_ADJ_HI.ADJ (w.toNat / 2 ^ 32)) PL_ADJ_HI.SEQ

/-- ADJ_APPLY (R94). -/
def adjApply (s : State) : State :=
  match s.pl.adjReq with
  | some (v, tmin) => if adjDue s tmin then applyAdj s v else s
  | none => s

def execAdjApply (s : State) : Host.Outcome State Fault Refusal := .next (adjApply s)

/-! ## Epochs (R100) -/

/-- EPOCH_BOUNDARY (R100): T has reached a new multiple of 2^47, and the marker of the new epoch becomes due in every
lane-group stream. -/
def epochBoundary (s : State) : State :=
  let e := tNow s / 2 ^ 47
  if s.pl.running ∧ s.pl.epochSeen < e then
    let s := { s with pl := { s.pl with epochSeen := e } }
    forEach (List.range (nGroups s)) s fun s g => groupMark s g clsEpoch (epochWord (tNow s))
  else s

def execEpochBoundary (s : State) : Host.Outcome State Fault Refusal := .next (epochBoundary s)

/-! ## Snapshots (R103, R104) -/

/-- PL_SNAP_GO (R103, R104): arms a snapshot with the source of the write; ignored while one is pending. -/
def plSnapGo (s : State) (a : Access) (v : W32) : State :=
  cmdWrite s a PL_SNAP_CTRL.off v fun s =>
    if v.getLsbD 31 = false ∨ flag s PL_SNAP_CTRL.GO then s
    else
      let s := { s with pl := { s.pl with snapSrc := fld s PL_SNAP_CTRL.SRC, snapEdge := s.pl.edge } }
      setFlag s PL_SNAP_CTRL.GO true

def execPlSnapGo (a : Access) (v : W32) (s : State) : Host.Outcome State Fault Refusal := .next (plSnapGo s a v)

/-- PL_SNAP_CANCEL (R104). -/
def plSnapCancel (s : State) (a : Access) (v : W32) : State :=
  cmdWrite s a PL_SNAP_CTRL.off v fun s => if v.getLsbD 30 then setFlag s PL_SNAP_CTRL.GO false else s

def execPlSnapCancel (a : Access) (v : W32) (s : State) : Host.Outcome State Fault Refusal := .next (plSnapCancel s a v)

/-- The registers that Plinth writes in one cycle at the snapshot edge (R103). -/
def takeSnapshot (s : State) : State :=
  let t := tNow s
  let s := setReg s PL_SNAP_T0.off (BitVec.ofNat 32 t)
  let s := setReg s PL_SNAP_T1.off (BitVec.ofNat 32 (t / 2 ^ 32))
  let s := setReg s PL_SNAP_T2.off (BitVec.ofNat 32 (t / 2 ^ 64))
  let s := setReg s PL_SNAP_T3.off (BitVec.ofNat 32 (t / 2 ^ 96))
  let s := setPair64 s PL_SNAP_FRAC_LO.off PL_SNAP_FRAC_HI.off s.pl.f.toNat
  let s := setPair64 s PL_SNAP_ADJ_LO.off PL_SNAP_ADJ_HI.off s.pl.adjLast.toNat
  let s := setFld s PL_SNAP_STAT.SRC_USED s.pl.snapSrc
  setFlag (bump s PL_SNAP_STAT.SEQ) PL_SNAP_CTRL.GO false

/-- SNAPSHOT_TAKE (R103): the latest PCLK edge is later than the GO write; for a pin source it is the one at which the synchronised
pin makes its transition (`pin`). -/
def snapshotTake (s : State) (pin : Bool) : State :=
  if s.pl.running && flag s PL_SNAP_CTRL.GO && decide (s.pl.snapEdge < s.pl.edge) && (s.pl.snapSrc = 0 || s.pl.snapSrc = 3 || pin) then takeSnapshot s else s

def execSnapshotTake (pin : Bool) (s : State) : Host.Outcome State Fault Refusal := .next (snapshotTake s pin)

/-! ## The origin load (R105) -/

/-- A load of T and F is accepted once per reset, before any tile, and never backwards; any other is refused.  A load into another
epoch reaches a multiple of 2^47 at its edge: a boundary is then due, and a group that streams already takes its marker (log 39). -/
def originLoad (s : State) (t f : Nat) : State :=
  if flag s PL_STAT.EMITTED = false ∧ s.pl.originDone = false ∧ tNow s ≤ t then
    let s := { s with pl := { s.pl with t := BitVec.ofNat 104 t, f := BitVec.ofNat 40 f, originDone := true } }
    sts s PL_STAT.ORIGIN_LOADED
  else sts s PL_STAT.ORIGIN_REFUSED

end Sys2Proof.Machine
end

