-- ==== Sys2Proof/Machine/Chisel.lean ====
section
/-! DEFINITION. Chisel and comparator transitions (02_input_cells.md R31 to R40, R45; 03_chisel_interpolator.md): the raw
code, the fine map, quality, the merge rule, the pipeline, the DLL events, settling windows and the entry to a chain. -/

namespace Sys2Proof.Machine

/-! ## Raw code and fine value -/

/-- Tap `i` of a line through the three-tap majority filter (R54).  Beyond tap 127 stands what the line held there, the level
before the period; tap 0 stands for its missing neighbour (log 14). -/
def majTap (l : BitVec 128) (before : Bool) (i : Nat) : Bool :=
  let a := l.getLsbD (i - 1)
  let b := l.getLsbD i
  let c := if i = 127 then before else l.getLsbD (i + 1)
  (a && b) || (a && c) || (b && c)

/-- The number of taps, up to `n`, that a front has passed: the largest i at which tap i − 1 shows the new level and tap i
the old one; at 128 the whole line has the new level and the level before the period was the old one. -/
def frontOf (l : BitVec 128) (new before : Bool) : Nat → Nat
  | 0 => 0
  | n + 1 =>
    let here := majTap l before n == new
    let beyond := if n = 127 then before != new else majTap l before (n + 1) != new
    if here && beyond then n + 1 else frontOf l new before n

/-- The raw code r = min(n0 + n1 + n2 + n3, 511) (R54) of a transition to `new` whose line was at `before`. -/
def rawCode (t : Taps) (new before : Bool) : Nat :=
  let n (l : BitVec 128) := frontOf l new before 128
  min (n t.l0 + n t.l1 + n t.l2 + n t.l3) 511

/-- The polarity of the oldest selected transition in the lines (R54, R55), as the taps show it: with one polarity selected that
one, with both the first move away from the level before the period; where no front has reached a tap, the polarity that the
command names. -/
def oldestFalling (t : Taps) (sel : Nat) (before falling : Bool) : Bool :=
  let shows (f : Bool) : Bool := rawCode t (!f) before != 0
  if sel % 4 = 1 then (if shows false then false else falling)
  else if sel % 4 = 2 then (if shows true then true else falling)
  else if shows before then before else falling

/-- The fine value and the carry of a raw code under a table (R61). -/
def fineOf (w : List Nat) (r : Nat) : Nat × Bool :=
  let W := w.sum
  let q := 2 * (w.take r).sum + w.getD r 0
  let f := (1024 * (2 * W - q) + W) / (2 * W)
  if f = 1024 then (0, true) else (f, false)

/-- The nominal set: 1,024 in every entry (R61, R81). -/
def nominalSet : List Nat := List.replicate 512 1024

def groupOfLane (n : Nat) : Nat := n / 16

/-- The staging copy that the calibration-frame boundary of the latest such edge swaps in, while CAL_FRAME_BOUNDARY has still to
report it: it was complete before that edge (R77). -/
def swapDue (s : State) (g : Nat) : Option Staging := if s.pl.frameT.isSome then (calGroup s g).staged else none

/-- The active table of a lane (R61): from a boundary edge on, the copy that swaps in there (R77). -/
def activeTable (s : State) (n : Nat) : List Nat :=
  match swapDue s (groupOfLane n) with
  | some x => x.tables.getD (n % 16) nominalSet
  | none => sget (fun _ => nominalSet) s.cal.active n

/-- Quality 11 applies to a table of this temperature (R74), or for another cause (R80, R81). -/
def extrapolated (t : Int) : Bool := decide (t < 1280) || decide (6400 < t)

/-- The group's active table is extrapolated or flagged (R39, R74, R80). -/
def tableFlagged (s : State) (g : Nat) : Bool :=
  match swapDue s g with
  | some x => extrapolated x.temp || x.nominal
  | none => flag s (CA_GRP_STAT.EXTRAP g)

/-! ## Lane conditions -/

/-- Edge selection of a lane (R35). -/
def edgeSel (s : State) (n : Nat) : Nat :=
  if n % 2 = 0 then fld s (IN_CFG.EDGE_A (n / 2)) else fld s (IN_CFG.EDGE_B (n / 2))

/-- A transition of this polarity is selected (R35). -/
def edgeSelected (s : State) (n : Nat) (falling : Bool) : Bool := (edgeSel s n).testBit (if falling then 1 else 0)

def dllLocked (s : State) (g : Nat) : Bool := flag s (LG_DLL_STAT.LOCKED g)

/-- The lane's settling window is open at the current PCLK edge (R38). -/
def settling (s : State) (n : Nat) : Bool := s.pl.edge < (lane s n).settleEnd

/-- Open or restart the settling window of a lane, from the PCLK edge that begins the GCLK cycle (R37, R38). -/
def openSettle (s : State) (n : Nat) : State :=
  setLane s n { lane s n with settleEnd := 2 * gclk s + 2400 }

/-- Quality of a stamp sampled now: DLL unlocked, then table extrapolated, then settling (R39). -/
def quality (s : State) (n : Nat) : Nat :=
  if !dllLocked s (groupOfLane n) then 2
  else if tableFlagged s (groupOfLane n) then 3
  else if settling s n then 1
  else 0

/-- Input cells are out of their fail-safe state: the device is neither in reset nor asleep (R51). -/
def cellsOn (s : State) : Bool := !s.mt.inReset && !s.mt.asleep

/-! ## Suppression (R45, R66) -/

/-- The lane's stamps are suppressed from now on; the lane keeps counting (R45). -/
def suppress (s : State) (n : Nat) (byCmd : Bool) : State :=
  let L := lane s n
  setLane s n { L with supp := some (L.supp.getD 0), suppCmd := L.suppCmd || byCmd, last := none }

/-- A suppression ends: a lane with edges selected emits one gap record with reason 0x2 (R45).  A lane that an input command and a
measurement suppress at once keeps one count and emits one record, when the later of the two ends (log 14). -/
def release (s : State) (n : Nat) : State :=
  let L := lane s n
  match L.supp with
  | none => s
  | some k =>
    let s := setLane s n { L with supp := none, suppCmd := false }
    let g := groupOfLane n
    let G := group s g
    if edgeSel s n = 0 then s
    else setGroup s g { G with supGaps := G.supGaps ++ [(n, k)] }

/-- A measurement holds the lane suppressed (R83). -/
def measuring (s : State) (n : Nat) : Bool :=
  match (calGroup s (groupOfLane n)).measure with
  | some m => m.mask.testBit (n % 16)
  | none => false

/-- An input command holds the input's lanes suppressed: until its end opens the last settling window (R45, R47). -/
def commandOn (s : State) (i : Nat) : Bool :=
  match s.inp.cmd with
  | some c => c.input = i
  | none => false

/-- The running command suppresses its input's lanes: a nulling from its phase 3 on, an open-wire command from its step 2 on
(R45, R47).  Its first observation suppresses nothing, so that a window of the command before it may close meanwhile. -/
def commandHolds (s : State) (i : Nat) : Bool :=
  match s.inp.cmd with
  | some c => c.input = i && (match c.phase with
    | .wait1 | .read1 => false
    | .search | .wait2 | .read2 => true
    | .ending => c.openWire)
  | none => false

/-- SETTLING_WINDOW_END (R38, R45): the window has closed, and a suppression that waited for it ends. -/
def settlingWindowEnd (s : State) (n : Nat) : State :=
  let L := lane s n
  if n < nLanes s ∧ L.suppCmd ∧ settling s n = false ∧ commandHolds s (n / 2) = false then
    if measuring s n then setLane s n { L with suppCmd := false } else release s n
  else s

def execSettlingWindowEnd (lane : Nat) (s : State) : Host.Outcome State Fault Refusal := .next (settlingWindowEnd s lane)

/-! ## Transitions (R54 to R66) -/

/-- Count merged transitions (R65). -/
def countPileup (s : State) (n k : Nat) : State := addCnt s (LG_PILEUP_CNT.COUNT (groupOfLane n)) k

/-- Set the pile-up bit of the newest held stamp (R65). -/
def markPile : List Held → List Held
  | [] => []
  | [h] => [{ h with pile := true }]
  | h :: r => h :: markPile r

/-- The full stamp time of a raw code of a lane, sampled at the current edge (R61, R63). -/
def stampOf (s : State) (n r : Nat) : Nat :=
  let (f, carry) := fineOf (activeTable s n) r
  if carry then stampTime (tNow s) s.pl.f.toNat 0 0 else stampTime s.pl.tc.toNat s.pl.fc.toNat (adjInt s.pl.adjLast) f

/-- A located selected transition of a lane that produces stamps: merged into the last stamp, or a new stamp (R64, R65).
`further` counts the other selected transitions of the same period, which are always merged. -/
def locate (s : State) (n : Nat) (falling : Bool) (r further : Nat) : State :=
  let (f, carry) := fineOf (activeTable s n) r
  let c := if carry then s.pl.edge else s.pl.edge - 1
  let unl := !dllLocked s (groupOfLane n)
  let L := lane s n
  let merges := match L.last with
    | some (c0, f0) =>
      if unl then decide ((Int.ofNat c - Int.ofNat c0) * 1024 < 2048)
      else decide ((Int.ofNat c - Int.ofNat c0) * 1024 + (Int.ofNat f - Int.ofNat f0) < 2048)
    | none => false
  if merges then
    countPileup (setLane s n { L with pipe := markPile L.pipe }) n (1 + further)
  else
    let h : Held := { s := stampOf s n r, falling := falling, pile := decide (0 < further), quality := quality s n, at_ := s.pl.edge }
    countPileup (setLane s n { L with pipe := L.pipe ++ [h], last := some (c, f) }) n further

/-- Changes of level along the `n` newest taps of a line, the oldest tap against the level before the period (R54). -/
def lineChanges (l : BitVec 128) (before : Bool) : Nat → Nat
  | 0 => 0
  | n + 1 =>
    let older := if n = 127 then before else majTap l before (n + 1)
    lineChanges l before n + if majTap l before n = older then 0 else 1

/-- Transitions of one period, of either polarity: those that a line shows, and at least the selected ones with, where the level
shows it, one more of the other polarity (R43, R54). -/
def periodTransitions (l : BitVec 128) (before level : Bool) (further : Nat) : Nat :=
  max (lineChanges l before 128) (if ((1 + further) % 2 = 1) = (before ≠ level) then 1 + further else 2 + further)

/-- What an input command sees of a comparator while MA0 reads for it: the level, and the transitions from the end of the 40
blanked samples to the last of the reading (R43, R47, R359). -/
def observe (c : InCmd) (now n : Nat) (level : Bool) (k : Nat) : InCmd :=
  let len := if c.openWire then 4096 else 16384
  if (c.phase ≠ .read1 ∧ c.phase ≠ .read2) ∨ c.input ≠ n / 2 ∨ samplesPassed now c.at_ (40 + len) then c
  else
    let k := if samplesPassed now c.at_ 40 then k else 0
    if n % 2 = 0 then { c with highA := level, togA := c.togA + k } else { c with highB := level, togB := c.togB + k }

/-- The running input command takes note of a comparator's transitions. -/
def noteObserved (s : State) (n : Nat) (level : Bool) (k : Nat) : State :=
  { s with inp := { s.inp with cmd := s.inp.cmd.map fun c => observe c s.now n level k } }

/-- 2^P of PR_ALIGN_CFG. -/
def alignPulses (s : State) : Nat := 2 ^ max 8 (fld s PR_ALIGN_CFG.P)

/-- The lane of the alignment input's comparator (R373, R375). -/
def alignLane (s : State) : Nat := 2 * fld s PR_ALIGN_CFG.INPUT + if flag s PR_ALIGN_CFG.COMP then 1 else 0

/-- The private path of the alignment comparator (R373): a rising transition is stamped for this device's own run, of which it takes
2^P, and on an active whose partner aligns for the link. -/
def notePulse (s : State) (n : Nat) (falling before : Bool) (taps : Taps) : State :=
  let r := rawCode taps true before
  if n ≠ alignLane s ∨ s.pl.running = false ∨ s.pl.edge = 0 ∨ (r = 0 ∧ falling) then s
  else
    match s.pr.align with
    | some x => if alignPulses s ≤ x.own.length then s else { s with pr := { s.pr with align := some { x with own := x.own ++ [stampOf s n r] } } }
    | none =>
      if fld s PR_STAT.ROLE = 3 ∧ flag s PR_STAT.LINK_UP ∧ s.pr.partnerAligns then
        { s with pr := { s.pr with linkQ := s.pr.linkQ ++ [.stamp (stampOf s n r)] } }
      else s

/-- COMPARATOR_TRANSITION (R54, R35, R45, R66): a suppressed lane counts what it would have stamped, which a lane of a NOT_READY
group would not. -/
def comparatorTransition (s : State) (n : Nat) (falling : Bool) (taps : Taps) (further : Nat) : State :=
  if !cellsOn s || n ≥ nLanes s then s
  else
    let before := (lane s n).level
    let s := notePulse s n falling before taps
    let falling := oldestFalling taps (edgeSel s n) before falling
    let r := rawCode taps (!falling) before
    let level := if r = 0 then !falling else taps.l0.getLsbD 0
    let s := noteObserved (setLane s n { lane s n with level := level }) n level (periodTransitions taps.l0 before level further)
    if s.pl.running = false ∨ s.pl.edge = 0 ∨ edgeSelected s n falling = false then s
    else if (group s (groupOfLane n)).ready = false then setLane s n { lane s n with last := none }
    else
      match (lane s n).supp with
      | some k => setLane s n { lane s n with supp := some (min (k + 1 + further) (2 ^ 32 - 1)), last := none }
      | none => locate s n falling r further

def execComparatorTransition (lane : Nat) (falling : Bool) (taps : Taps) (further : Nat) (s : State) :
    Host.Outcome State Fault Refusal := .next (comparatorTransition s lane falling taps further)

/-! ## The lane chain (R130, R131) -/

/-- A record enters its lane's chain; at a chain of 32 the head is discarded and counted (R131). -/
def chainEnter (s : State) (n : Nat) (x : ChainRec) : State :=
  let L := lane s n
  if L.chain.length < 32 then setLane s n { L with chain := L.chain ++ [x] }
  else
    let g := groupOfLane n
    let s := setLane s n { L with chain := L.chain.drop 1 ++ [x], lost := min (L.lost + 1) (2 ^ 32 - 1) }
    let s := sts (inc s (LG_CHAIN_LOST_CNT.COUNT g)) (LG_STAT.CHAIN_LOST g)
    stsBit s (LG_CHAIN_LOST_MAP.LANE g) (n % 16)

/-- The record of a held stamp; it enters its chain at a GCLK edge, the first at or after the present PCLK edge (R130). -/
def heldRec (s : State) (n : Nat) (h : Held) : ChainRec :=
  { word := stampWord n h.falling h.pile h.quality h.s, s := h.s, cyc := (s.pl.edge + 1) / 2 }

/-- STAMP_EMIT (R63, R130): the oldest held stamp is complete from S + 5 on. -/
def stampEmit (s : State) (n : Nat) : State :=
  match (lane s n).pipe with
  | h :: r => if h.at_ + 5 ≤ s.pl.edge then chainEnter (setLane s n { lane s n with pipe := r }) n (heldRec s n h) else s
  | [] => s

def execStampEmit (lane : Nat) (s : State) : Host.Outcome State Fault Refusal := .next (stampEmit s lane)

/-! ## The group DLL (R56, R58 to R60, R428) -/

/-- Notice of a lock event, when the group posts them (R60). -/
def dllNotice (s : State) (g ty : Nat) : State :=
  if flag s (LG_DLL_CTRL.NOTICE_EN g) then post s ty g 0 (reg s (LG_DLL_STAT.off g)).toNat else s

/-- Acquisition starts from code 0x2000 (table *DLL lock events*). -/
def acquire (s : State) (g : Nat) : State :=
  let s := setGroup s g { group s g with dllOn := true, dllRun := s.now, dllStep := s.now }
  setFld s (LG_DLL_STAT.CTRL g) 0x2000

/-- The loop stops while the main PLL is unlocked: the group holds its code (R428). -/
def stopLoop (s : State) (g : Nat) : State := setGroup s g { group s g with dllOn := false }

/-- A locked group declares loss (R58).  The notice carries LG_DLL_STAT with the code in force, before acquisition restarts from
0x2000 on the same edge (log 14). -/
def declareLoss (s : State) (g : Nat) : State :=
  let s := setFlag s (LG_DLL_STAT.LOCKED g) false
  let s := inc (sts s (LG_DLL_STAT.UNLOCKED g)) (LG_DLL_UNLOCK_CNT.COUNT g)
  let s := alarm s IR_ALARM_STAT.DLL
  let s := setGroup s g { group s g with dllLost := true }
  let C := calGroup s g
  let s := match C.measure with
    | some m => setCalGroup s g { C with measure := some { m with dllLost := m.dllLost || collecting s m } }
    | none => s
  dllNotice s g 0x0801

/-- The good run of edges ends here: the count of 16,384 starts again from the next edge (R428). -/
def endRun (s : State) (g : Nat) : State := setGroup s g { group s g with dllRun := s.now }

/-- DLL_LOCK_DECLARE (R58): 16,384 consecutive good edges with the loop running. -/
def dllLockDeclare (s : State) (g : Nat) : State :=
  let G := group s g
  if g < nGroups s ∧ G.dllOn ∧ dllLocked s g = false ∧ flag s PL_STAT.PLL_LOCK ∧ G.dllRun + 16384 ≤ s.now then
    let s := setFlag s (LG_DLL_STAT.LOCKED g) true
    let s := setFlag s (LG_DLL_CTRL.RELOCK g) false
    let s := if G.dllLost then sts s (LG_DLL_STAT.RELOCKED g) else s
    dllNotice s g 0x0802
  else s

def execDllLockDeclare (g : Nat) (s : State) : Host.Outcome State Fault Refusal := .next (dllLockDeclare s g)

/-- DLL_LOSS_DECLARE (R58, R428): an error above 16 ticks or low VDDA unlocks a locked group and restarts acquisition; in an
unlocked group an error above 8 ticks ends the run of good edges. -/
def dllLossDeclare (s : State) (g : Nat) (c : DllCause) : State :=
  if nGroups s ≤ g then s
  else
    let bad := match c with
      | .replicaError e => decide (16 < e.natAbs)
      | .vdda => true
    let off := match c with
      | .replicaError e => decide (8 < e.natAbs)
      | .vdda => false
    if dllLocked s g then (if bad then acquire (declareLoss s g) g else s)
    else if off then endRun s g else s

def execDllLossDeclare (g : Nat) (c : DllCause) (s : State) : Host.Outcome State Fault Refusal := .next (dllLossDeclare s g c)

/-- DLL_CODE_STEP (R56): in a locked group the code changes by at most one step per 64 PCLK cycles; `err` is the mean error
that LG_DLL_ERR reports, which a report without a change of code refreshes alone. -/
def dllCodeStep (s : State) (g code : Nat) (err : BitVec 16) : State :=
  let G := group s g
  let old := fld s (LG_DLL_STAT.CTRL g)
  if nGroups s ≤ g ∨ G.dllOn = false then s
  else
    let s := setFld s (LG_DLL_ERR.ERR g) err.toNat
    let near := code ≤ old + 1 ∧ old ≤ code + 1
    if code = old then s
    else if code < 2 ^ 14 ∧ (dllLocked s g = false ∨ (near ∧ G.dllStep + 64 ≤ s.now)) then
      setFld (setGroup s g { G with dllStep := s.now }) (LG_DLL_STAT.CTRL g) code
    else s

def execDllCodeStep (g code : Nat) (err : BitVec 16) (s : State) : Host.Outcome State Fault Refusal :=
  .next (dllCodeStep s g code err)

/-- LG_DLL_RELOCK (R58, R428): loss is declared in a locked group, and acquisition restarts while the main PLL is locked. -/
def lgDllRelock (s : State) (a : Access) (g : Nat) (v : W32) : State :=
  cmdWrite s a (LG_DLL_CTRL.off g) v fun s =>
    if v.getLsbD 31 = false then s
    else
      let s := if dllLocked s g then declareLoss s g else s
      let s := setFlag s (LG_DLL_CTRL.RELOCK g) true
      if flag s PL_STAT.PLL_LOCK then acquire s g else s

def execLgDllRelock (a : Access) (g : Nat) (v : W32) (s : State) : Host.Outcome State Fault Refusal :=
  .next (lgDllRelock s a g v)

/-- The main PLL loses lock: every locked group declares loss, and every loop stops (R58, R95, R428). -/
def dllPllLoss (s : State) : State :=
  forEach (List.range (nGroups s)) s fun s g => stopLoop (if dllLocked s g then declareLoss s g else s) g

/-- The main PLL locks or relocks: every group starts acquisition (R58, R428). -/
def dllPllLock (s : State) : State := forEach (List.range (nGroups s)) s acquire

/-- MAIN_PLL_LOSS (R95): Plinth keeps counting; the loss is counted and noticed, every locked group declares loss and every loop
stops.  On a wake, a loss before P_r puts Plinth's resumption off to the next lock (R410, R428). -/
def mainPllLoss (s : State) : State :=
  if flag s PL_STAT.PLL_LOCK = false then s
  else
    let s := setFlag { s with mt := { s.mt with resume := false } } PL_STAT.PLL_LOCK false
    let s := inc (sts s PL_STAT.PLL_UNLOCKED) PL_PLL_UNLOCK_CNT.COUNT
    let s := if flag s PL_CTRL.NOTICE_EN then post s 0x0401 0 0 0 else s
    dllPllLoss s

/-- A wake whose Plinth has not resumed (R410). -/
def waking (s : State) : Bool := !s.pl.running && !s.mt.inReset && !s.mt.asleep && s.mt.sleep.isSome

/-- MAIN_PLL_RELOCK (R95, R428).  On a wake, after a loss before P_r, Plinth's resumption waits for the next whole unit from this lock on
(R410). -/
def mainPllRelock (s : State) : State :=
  if (s.pl.running || waking s) = false ∨ flag s PL_STAT.PLL_LOCK then s
  else
    let s := if waking s then { s with mt := { s.mt with resume := true } } else s
    let s := setFlag s PL_STAT.PLL_LOCK true
    let s := if flag s PL_CTRL.NOTICE_EN then post s 0x0402 0 0 0 else s
    dllPllLock s

end Sys2Proof.Machine
end

