-- ==== Sys2Proof/Machine/Unveil.lean ====
section
/-! DEFINITION. The Maquette, Unveil strobes, committed sets and the integrity scan (14_register_behaviour.md R294 to R300). -/

namespace Sys2Proof.Machine

/-! ## Units and their registers (R294) -/

/-- The offsets of the cfg registers of a unit (table *Unveil-group assignment*). -/
def unitOffs : UBlock → List Nat
  | .inLg g =>
    ((List.range 8).flatMap fun i => [IN_CFG.off (8 * g + i), IN_THR.off (8 * g + i)]) ++
    [LG_WM.off g, LG_WIN_CFG.off g, LG_GATE_SEL0.off g, LG_GATE_SEL1.off g, LG_GATE_SEL2.off g]
  | .busy => (List.range 16).flatMap fun p => [LG_BUSY_GRP_LO.off p, LG_BUSY_GRP_HI.off p, LG_BUSY_CFG.off p, LG_BUSY_MIN.off p]
  | .caGrp g => [CA_GRP_CFG.off g]
  | .caCfg => [CA_CFG.off]
  | .mu u => [MU_CFG.off u, MU_LANES.off u, MU_ARM_CFG.off u, MU_GATE_LEN_LO.off u, MU_GATE_LEN_HI.off u, MU_NMAX_LO.off u,
              MU_NMAX_HI.off u]
  | .cr r => [CR_CFG.off r, CR_BASE.off r, CR_SIZE.off r, CR_SRC_LO.off r, CR_SRC_HI.off r, CR_SRC_DQ.off r, CR_LOOKBACK.off r]
  | .pk h => [PK_CFG.off h, PK_SRC_LO.off h, PK_SRC_HI.off h, PK_SRC_DQ.off h, PK_BLK_MAX.off h]
  | .pg q => [PG_CFG.off q, PG_GATEJ.off q] ++ ((List.range 12).map fun i => PG_PIN_CFG.off (12 * q + i)) ++
             ((List.range 4).map fun i => PG_PIN_CFG.off (48 + 4 * q + i))
  | .mc n => [MC_SHARE.off n, MC_SCRUB.off n]
  | .tt => (List.range 16).flatMap fun n => [TT_RG_CFG.off n, TT_RG_FREQ_LO.off n, TT_RG_FREQ_HI.off n, TT_RG_PHASE.off n]
  | .ma c => MA_CFG.off c :: (List.range 64).flatMap fun i => [MA_SEQ_A.off c i, MA_SEQ_B.off c i]
  | .ep p => [EP_CFG.off p, EP_RX_DELAY.off p, EP_TX_DELAY.off p, EP_MAC_LO.off p, EP_MAC_HI.off p, EP_IP4.off p, EP_IP6_0.off p,
              EP_IP6_1.off p, EP_IP6_2.off p, EP_IP6_3.off p]
  | .tp => [TP_CFG.off, TP_SERVO.off, TP_THR.off, TP_QUAR.off, TP_ASYM.off, TP_CLOCK_ID_LO.off, TP_CLOCK_ID_HI.off,
            TP_PARENT_CFG0.off, TP_PARENT_CFG1.off, TP_PARENT_CFG2.off, TP_PPS_CFG.off, TP_PPS_PERIOD_LO.off,
            TP_PPS_PERIOD_HI.off]
  | .pr => [PR_CFG.off, PR_SPLICE_RING.off] ++ (List.range 8).map fun k => PR_CV_MIRROR.off k
  | .mt => [MT_CFG.off, MT_WAKE_EN.off] ++ (List.range 8).map fun k => MT_WCMP.off k

/-- The 4-bit field of MQ_UG for unit j of the class whose words start at k0. -/
def ugField (s : State) (k0 j : Nat) : Nat := bitsOf (reg s (MQ_UG.off (k0 + j / 8))).toNat (4 * (j % 8) + 3) (4 * (j % 8))

/-- The Unveil group a unit is assigned to (R294). -/
def unveilGroup (s : State) : UBlock → Nat
  | .inLg g => ugField s 0 g
  | .caGrp g => ugField s 0 g
  | .mu u => ugField s 8 u
  | .cr r => ugField s 16 r
  | .pk h => ugField s 18 h
  | .pg q => ugField s 26 q
  | .mc n => ugField s 26 (4 + n)
  | .busy => ugField s 27 0
  | .tt => ugField s 27 1
  | .ma c => ugField s 27 (2 + c)
  | .ep p => ugField s 27 (4 + p)
  | .tp => ugField s 27 6
  | .pr => ugField s 27 7
  | .mt => ugField s 28 0
  | .caCfg => ugField s 28 1

/-- Every unit with cfg fields that is present. -/
def allUnits (s : State) : List UBlock :=
  ((List.range (nGroups s)).flatMap fun g => [UBlock.inLg g, UBlock.caGrp g]) ++ [.busy, .caCfg] ++
  (List.range (nMus s)).map .mu ++ (List.range 16).map .cr ++ (List.range 64).map .pk ++ (List.range (nSeqs s)).map .pg ++
  (List.range (nChans s)).map .mc ++ [.tt, .ma 0, .ma 1, .ep 0, .ep 1, .tp, .pr, .mt]

/-- The cfg bits of a register. -/
def cfgMask (off : Nat) : Nat :=
  match findReg off with
  | some (r, _, _) => maskOf (fun t => t = .cfg) r.fields
  | none => 0

/-- A register or trigger strobe touches only registers owned by its function's partition (R295, R343). -/
def strobeOwns (s : State) (src func off : Nat) : Bool :=
  if 2 ≤ src then true
  else match regOwner s off with
    | .part p => p = func
    | .any => true
    | .device => func = 0

/-! ## Strobes (R295) -/

/-- MQ_LAST and MQ_LAST_T take a strobe with edge P: one that coincides with a recorded one merges with it, and one whose edge lies
before the last recorded only counts in SEQ (R295). -/
def noteStrobe (s : State) (src mask P t : Nat) : State :=
  let merged := s.bus.seen.contains P
  let newest := s.bus.seen.all fun e => decide (e ≤ P)
  let s := if merged then s else bump { s with bus := { s.bus with seen := (P :: s.bus.seen).take 8 } } MQ_LAST.SEQ
  if newest = false then s
  else
    let s := setPair64 s MQ_LAST_T_LO.off MQ_LAST_T_HI.off t
    if merged then
      setFld (setFld s MQ_LAST.MASK (fld s MQ_LAST.MASK ||| mask)) MQ_LAST.SRC (min (fld s MQ_LAST.SRC) src)
    else setFld (setFld s MQ_LAST.MASK mask) MQ_LAST.SRC src

/-- The unit is in a strobe's groups, and one of its registers is the strobe's to touch (R294, R295). -/
def strobeTakes (s : State) (mask src func : Nat) (u : UBlock) : Bool :=
  mask.testBit (unveilGroup s u) && (unitOffs u).any fun o => strobeOwns s src func o

/-- A strobe with edge P and its T. -/
def strobeAt (s : State) (src func mask P t : Nat) : State :=
  let mask := mask % 2 ^ 16
  let left := (allUnits s).filter (strobeTakes s mask src func)
  let s := { s with bus := { s.bus with strobes := s.bus.strobes ++ [{ mask := mask, func := func, src := src, edge := P, left := left, done := [] }] } }
  let out := mask &&& fld s MQ_PAIR_CFG.SEND
  noteStrobe (if src ≠ 3 ∧ out ≠ 0 then pairSend s (.strobe out t) else s) src mask P t

/-- A strobe whose edge is the next PCLK edge. -/
def strobe (s : State) (src func mask : Nat) : State :=
  strobeAt s src func mask (s.pl.edge + 1) (advanceTF s.pl.t s.pl.f s.pl.adj).1.toNat

/-- MQ_UNVEIL (R295): a register strobe of the written mask. -/
def mqUnveil (s : State) (a : Access) (v : W32) : State :=
  cmdWrite s a MQ_UNVEIL.off v fun s => if v.toNat % 2 ^ 16 = 0 then s else strobe s 0 a.func v.toNat

def execMqUnveil (a : Access) (v : W32) (s : State) : Host.Outcome State Fault Refusal := .next (mqUnveil s a v)

/-- UNVEIL_PIN_STROBE (R295): a falling edge of UNVEIL_N while MQ_PIN_CFG.EN = 1. -/
def unveilPinStrobe (s : State) : State :=
  if barUp s ∧ flag s MQ_PIN_CFG.EN then strobe s 2 0 (fld s MQ_PIN_CFG.MASK) else s

def execUnveilPinStrobe (s : State) : Host.Outcome State Fault Refusal := .next (unveilPinStrobe s)

/-! ## Latching (R296) -/

/-- The unit's block has reached its arrival cycle for a strobe with edge P: IN, LG and CA at an even PCLK edge at or after
P + 1 (CA after the calibration-frame boundary of that edge, so that its sets apply strictly later), PG and TT in a word that begins at or after P + 4 (R337), the others from P on. -/
def arrived (s : State) (u : UBlock) (P : Nat) : Bool :=
  match u with
  | .inLg _ | .busy => P + 1 ≤ s.pl.edge && s.pl.edge % 2 = 0
  | .caGrp _ | .caCfg => P + 1 ≤ s.pl.edge && s.pl.edge % 2 = 0 && s.pl.frameT.isNone
  | .pg _ | .tt => P + 4 ≤ s.pl.edge / 4 * 4
  | _ => P ≤ s.pl.edge

/-- Latch the Maquette value of a register into the committed set. -/
def latchReg (s : State) (src func off : Nat) : State :=
  if strobeOwns s src func off then
    setCom s off (BitVec.ofNat 32 (mergeBits (cfgMask off) (comOf s off).toNat (maqOf s off).toNat))
  else s

/-- The units whose set awaits its boundary, without one. -/
def dropWaiting (u : UBlock) (l : List (UBlock × Nat)) : List (UBlock × Nat) := l.filter fun x => x.1 ≠ u

/-- The first strobe that a unit has still to latch. -/
def strobeFor (u : UBlock) : List Strobe → Option Strobe
  | [] => none
  | x :: r => if x.left.contains u then some x else strobeFor u r

/-- The last PCLK edge at which a strobe with edge P arrives at a block (table *Application boundaries*): at IN, LG and CA the first even
edge at or after P + 1, elsewhere the end of the time that the table allows. -/
def arrivalBy (P : Nat) : UBlock → Nat
  | .inLg _ | .busy | .caGrp _ | .caCfg => (P + 2) / 2 * 2
  | .mu _ | .cr _ | .pk _ | .mc _ => P + nsTicks 4
  | .pg _ | .tt | .ep _ | .tp | .pr => P + nsTicks 8
  | .ma _ => P + nsTicks 12
  | .mt => P + nsTicks 120

/-- The strobe may still be on its way to the unit. -/
def onItsWay (s : State) (x : Strobe) (u : UBlock) : Bool := decide (s.pl.edge ≤ arrivalBy x.edge u) && !x.done.contains u

/-- The assignment of units to groups has changed: it applies to the strobes that have still to reach a unit (R294). -/
def regroup (s : State) : State :=
  { s with bus := { s.bus with strobes := s.bus.strobes.map fun x =>
      { x with left := (x.left.filter fun u => !onItsWay s x u) ++
                       (allUnits s).filter fun u => onItsWay s x u && strobeTakes s x.mask x.src x.func u } } }

/-- The unit has latched the strobes of an edge; a strobe that every unit of its groups has latched stays while it may still reach
one. -/
def doneWith (s : State) (u : UBlock) (P : Nat) : List Strobe :=
  (s.bus.strobes.map fun x => if x.edge = P then { x with left := x.left.filter fun w => w ≠ u, done := u :: x.done } else x).filter
    fun x => !x.left.isEmpty || decide (s.pl.edge ≤ arrivalBy x.edge .mt)

/-- The rate generators whose registers the strobes latch (R339). -/
def noteGens (s : State) (l : List Strobe) : State :=
  let m := bitsWhere fun n => decide (n < 16) && l.any fun y => strobeOwns s y.src y.func (TT_RG_CFG.off n)
  { s with bus := { s.bus with ttLatched := s.bus.ttLatched ||| m } }

/-- UNVEIL_LATCH (R296): the block latches the unit's Maquette; a set still waiting is superseded, and a running integrity
scan becomes void (R300). -/
def unveilLatch (s : State) (u : UBlock) : State :=
  match strobeFor u s.bus.strobes with
  | none => s
  | some x =>
    if arrived s u x.edge = false then s
    else
      let sup := s.bus.waiting.any fun w => w.1 = u
      let latchers := s.bus.strobes.filter fun y => y.edge = x.edge && y.left.contains u
      let s := latchers.foldl (fun s y => (unitOffs u).foldl (fun s o => latchReg s y.src y.func o) s) s
      let s := if u = .tt then noteGens s latchers else s
      let s := { s with bus := { s.bus with strobes := doneWith s u x.edge,
                                            waiting := dropWaiting u s.bus.waiting ++ [(u, unveilGroup s u)],
                                            scanVoid := s.bus.scanOn || s.bus.scanVoid } }
      let s := setFlag s MQ_SCAN_STAT.REF_STALE true
      if sup then sts (inc s MQ_SUPERSEDE_CNT.COUNT) MQ_STAT.SUPERSEDED else s

def execUnveilLatch (u : UBlock) (s : State) : Host.Outcome State Fault Refusal := .next (unveilLatch s u)

/-! ## Application (R296) -/

/-- A unit's committed set awaits its boundary. -/
def isWaiting (s : State) (u : UBlock) : Bool := s.bus.waiting.any fun w => w.1 = u

/-- The cfg fields of a register take the committed set's values. -/
def applyReg (s : State) (off : Nat) : State :=
  setReg s off (BitVec.ofNat 32 (mergeBits (cfgMask off) (reg s off).toNat (comOf s off).toNat))

/-- The unit's committed set comes into force. -/
def applyRegs (s : State) (u : UBlock) : State :=
  let s := { s with bus := { s.bus with waiting := dropWaiting u s.bus.waiting } }
  (unitOffs u).foldl applyReg s

/-! ## Integrity scan (R299, R300) -/

/-- The words of the committed image in ascending BAR0 offset: registers of present units with cfg fields, masked. -/
def imageOffs (s : State) : List Nat :=
  let span (b n st : Nat) (os : List Nat) := (List.range n).flatMap fun i => os.map fun o => b + st * i + o
  span 0x50000 1 0 [0x04 - 4, 0x04, 0x08, 0x0C, 0x10, 0x14, 0x18, 0x20, 0x24, 0x28, 0x80, 0x84, 0x88] ++
  span 0x60000 2 256 [0, 4, 8, 0xC, 0x10, 0x14, 0x18, 0x1C, 0x20, 0x24] ++
  span 0x70000 (nInputs s) 16 [0, 4] ++
  span 0x80000 (nGroups s) 256 [4, 0x30, 0x44, 0x48, 0x4C] ++
  span 0x84000 (nBusy s) 16 [0, 4, 8, 0xC] ++
  [0x90000] ++ span 0x91000 (nGroups s) 16 [0] ++
  span 0xC0000 (nMus s) 256 [0, 4, 8, 0xC, 0x10, 0x14, 0x18] ++
  span 0xD0000 (nChans s) 256 [0xC, 0x10] ++
  span 0xE0000 16 256 [0, 4, 8, 0xC, 0x10, 0x14, 0x18] ++
  span 0xF0000 64 64 [0, 4, 8, 0xC, 0x10] ++
  span 0x100000 (nSeqs s) 256 [4, 8] ++
  ((List.range 64).filter (pinPresent s)).map PG_PIN_CFG.off ++
  span 0x111000 16 32 [0, 4, 8, 0xC] ++
  span 0x120000 2 256 [4] ++ span 0x121000 2 512 ((List.range 128).map fun i => 4 * i) ++
  [0x130000] ++ [0x13001C] ++ span 0x130020 8 4 [0] ++
  [0x140008, 0x14000C] ++ span 0x140020 8 4 [0]

/-- The committed value of a register, masked to its cfg fields (R298, R299). -/
def committedWord (s : State) (off : Nat) : W32 := BitVec.ofNat 32 ((comOf s off).toNat &&& cfgMask off)

/-- CRC-32C of the committed image (R299). -/
def scanCrc (s : State) : W32 := crc32c ((imageOffs s).flatMap fun o => leBytes (committedWord s o).toNat 4)

/-- A scan starts at an even calibration-frame boundary (R299). -/
def scanStart (s : State) : State := { s with bus := { s.bus with scanOn := true, scanVoid := false } }

/-- INTEGRITY_SCAN_END (R299, R300). -/
def integrityScanEnd (s : State) : State :=
  if s.bus.scanOn = false then s
  else
    let c := scanCrc s
    let void := s.bus.scanVoid
    let s := { s with bus := { s.bus with scanOn := false, scanVoid := false } }
    let s := bump (setReg s MQ_SCAN_LAST.off c) MQ_SCAN_STAT.SEQ
    let s := setFlag s MQ_SCAN_STAT.VOID void
    if void then inc s MQ_SCAN_VOID_CNT.COUNT
    else if flag s MQ_SCAN_STAT.REF_SET = false ∨ flag s MQ_SCAN_STAT.REF_STALE then s
    else if c = reg s MQ_SCAN_REF.off then s
    else
      let r := reg s MQ_SCAN_REF.off
      let s := inc (sts s MQ_SCAN_STAT.MISMATCH) MQ_SCAN_MISMATCH_CNT.COUNT
      post (alarm s IR_ALARM_STAT.INTEGRITY) 0x0201 0 0 (c.toNat + 2 ^ 32 * r.toNat)

def execIntegrityScanEnd (s : State) : Host.Outcome State Fault Refusal := .next (integrityScanEnd s)

/-- The guarded write of MQ_SCAN_REF takes effect (R300). -/
def scanRef (s : State) (v : W32) : State :=
  setFlag (setFlag (setReg s MQ_SCAN_REF.off v) MQ_SCAN_STAT.REF_SET true) MQ_SCAN_STAT.REF_STALE false

end Sys2Proof.Machine
end

