-- ==== Sys2Proof/Machine/Monitor.lean ====
section
/-! DEFINITION. The monitor converters (17_monitor_converters.md): sequence executions, accumulators, window comparators,
cross-checks, the reference, self-calibration, and what a borrow takes and gives back. -/

namespace Sys2Proof.Machine

def conv (s : State) (c : Nat) : Conv := if c = 0 then s.mon.c0 else s.mon.c1

def setConv (s : State) (c : Nat) (x : Conv) : State :=
  if c = 0 then { s with mon := { s.mon with c0 := x } } else { s with mon := { s.mon with c1 := x } }

def acc (s : State) (n : Nat) : Acc := sget (fun _ => {}) s.mon.acc n
def setAcc (s : State) (n : Nat) (x : Acc) : State :=
  { s with mon := { s.mon with acc := sset (fun _ => {}) s.mon.acc n x } }

/-- A notice of a converter, when it posts them (MA_CFG.NOTICE_EN). -/
def maNotice (s : State) (c ty source aux data : Nat) : State :=
  if flag s (MA_CFG.NOTICE_EN c) then post s ty source aux data else s

/-! ## An execution's parameters (R346, R348) -/

/-- What an entry of a sequence asks for; temperature sensors convert at ×1, AVG above 8 acts as 8. -/
structure MaExec where
  src : Nat
  sub : Nat
  gain : Nat
  avg : Nat
  delay : Nat
  rep : Nat
  xchk : Bool
  win : Nat
  tgt : Nat
  deriving DecidableEq, Repr

def isTempSrc (src : Nat) : Bool := 0x240 ≤ src && src < 0x258

/-- The sequence entry in force at an index (R348). -/
def maEntry (s : State) (c i : Nat) : MaExec :=
  let src := fld s (MA_SEQ_A.SRC c i)
  { src := src, sub := fld s (MA_SEQ_B.SUB c i)
    gain := if isTempSrc src then 0 else fld s (MA_SEQ_A.GAIN c i)
    avg := min (fld s (MA_SEQ_A.AVG c i)) 8
    delay := fld s (MA_SEQ_A.DELAY c i), rep := fld s (MA_SEQ_A.REP c i)
    xchk := flag s (MA_SEQ_A.XCHK c i)
    win := fld s (MA_SEQ_B.WIN c i), tgt := fld s (MA_SEQ_B.TGT c i) }

/-- Entries per loop: 0 acts as 1, above 64 as 64. -/
def maLen (s : State) (c : Nat) : Nat :=
  let n := fld s (MA_CFG.LEN c)
  if n = 0 then 1 else min n 64

/-- The entry converter c stands at. -/
def maCur (s : State) (c : Nat) : MaExec := maEntry s c (fld s (MA_POS.ENTRY c))

/-- A reserved source code, or the baseline or readback of an absent input or group (R347). -/
def srcBad (s : State) (x : MaExec) : Bool :=
  if x.src < 0x200 then nInputs s ≤ x.src
  else if x.src < 0x240 then nGroups s ≤ x.src - 0x200
  else 0x273 ≤ x.src

/-- Blanking samples at the start of an execution (R349). -/
def blanking (prev : Option (Nat × Nat × Nat × Nat)) (x : MaExec) : Nat :=
  match prev with
  | none => max 40 (14 + 2 ^ x.avg)
  | some (src, sub, gain, avg) =>
    max (if src ≠ x.src ∨ sub ≠ x.sub then 14 else 0)
      (max (if gain ≠ x.gain then 40 else 0) (if avg ≠ x.avg then 14 + 2 ^ x.avg else 0))

/-- The execution that converter c performs: its own entry, or the owner's when it serves as partner (R355). -/
def maDoing (s : State) (c : Nat) : MaExec := if (conv s c).role = .serving then maCur s (1 - c) else maCur s c

/-- ACLK samples that the execution of c takes (R348). -/
def maSamples (s : State) (c : Nat) : Nat :=
  let x := maDoing s c
  blanking (conv s c).prev x + x.delay + 2 ^ x.avg

/-- The execution in progress on c has taken all its samples. -/
def maDue (s : State) (c : Nat) : Bool :=
  match (conv s c).startAt with
  | some t =>
    match (conv s c).role with
    | .own => samplesPassed s.now t (maSamples s c)
    | .serving | .owner => samplesPassed s.now t (max (maSamples s 0) (maSamples s 1))
    | .waiting => false
  | none => false

/-! ## Beginning an execution (R348, R355) -/

/-- An input command waits to borrow MA0 (R359).  The two readings of an open-wire command are two borrows: between them MA0
resumes its sequence, until the 20 µs of R47 have passed (log 17). -/
def borrowWanted (s : State) : Bool :=
  match s.inp.cmd with
  | some x => x.phase = .wait1 || (x.phase = .wait2 && decide (x.at_ + usTicks 20 ≤ s.now))
  | none => false

/-- The converter can serve as a partner: running, neither borrowed nor calibrating (R355); MA0 at the end of an execution is
not, when a borrow starts there (R359). -/
def partnerReady (s : State) (c : Nat) : Bool :=
  let x := conv s c
  x.run && x.calEnd.isNone && x.borrowAt.isNone && !(c = 0 && borrowWanted s && x.startAt.isNone)

/-- Owner c and its partner start a cross-check execution together (R355). -/
def pairStart (s : State) (c : Nat) : State :=
  let s := setConv s c { conv s c with role := .owner, startAt := some s.now }
  setConv s (1 - c) { conv s (1 - c) with role := .serving, startAt := some s.now }

/-- Converter c begins its next execution (R348, R355); MA0 waits first for a borrow that is wanted (R359). -/
def maBegin (s : State) (c : Nat) : State :=
  let x := conv s c
  if !x.run || x.calEnd.isSome || x.borrowAt.isSome || (c = 0 && borrowWanted s) then s
  else if (conv s (1 - c)).role = .waiting then pairStart s (1 - c)
  else if (maCur s c).xchk then
    if !partnerReady s (1 - c) then
      setConv (sts s (MA_STAT.XCHK_SKIP c)) c { x with role := .own, startAt := some s.now }
    else if (conv s (1 - c)).startAt.isSome then setConv s c { x with role := .waiting, startAt := none }
    else pairStart s c
  else setConv s c { x with role := .own, startAt := some s.now }

/-! ## Accumulators (R351 to R353) -/

/-- Add blanked samples to an accumulator (R349). -/
def accBlank (s : State) (n k : Nat) : State :=
  let A := acc s n
  setAcc s n { A with blank := min (A.blank + k) (2 ^ 32 - 1) }

/-- A value reaches an accumulator (R351). -/
def accAdd (s : State) (n : Nat) (v : Int) (src : Nat) : State :=
  let A := acc s n
  if 2 ^ 32 ≤ A.count + 1 then sts s (MA_ACC_STAT.OVF n)
  else
    setAcc s n { A with
      sum := A.sum + v, count := A.count + 1, min := min A.min v, max := max A.max v
      src := if A.count = 0 then src else A.src
      mixed := A.mixed || (A.count ≠ 0 && src ≠ A.src) }

/-- The accumulation's results go to the registers together (R352). -/
def accPublish (s : State) (n : Nat) : State :=
  let A := acc s n
  let sum := wrapInt 48 A.sum
  let s := setReg s (MA_ACC_SUM_LO.off n) (BitVec.ofNat 32 sum)
  let s := bump (setFld s (MA_ACC_SUM_HI.SUM n) (sum / 2 ^ 32)) (MA_ACC_SUM_HI.SEQ n)
  let s := setFld s (MA_ACC_CNT.VALUE n) A.count
  let s := setFld s (MA_ACC_BLANK.VALUE n) A.blank
  let s := setFld s (MA_ACC_MINMAX.MIN n) (wrapInt 16 A.min)
  let s := setFld s (MA_ACC_MINMAX.MAX n) (wrapInt 16 A.max)
  setFlag (setFld s (MA_ACC_STAT.SRC n) A.src) (MA_ACC_STAT.MIXED n) A.mixed

/-- round(SUM / (4 × COUNT)), halves upwards (R353). -/
def tempOf (sum : Int) (count : Nat) : Int := (sum + 2 * Int.ofNat count) / (4 * Int.ofNat count)

/-- An accumulation of one temperature sensor delivers its temperature (R353). -/
def accDeliver (s : State) (n : Nat) : State :=
  let A := acc s n
  if isTempSrc A.src ∧ A.mixed = false ∧ A.count ≠ 0 then
    { s with mon := { s.mon with temps := s.mon.temps ++ [(A.src - 0x240, tempOf A.sum A.count)] } }
  else s

/-- The accumulator restarts (R352). -/
def accRestart (s : State) (n : Nat) : State := setAcc s n {}

/-- MA_ACC_COMPLETE (R352, R353): publish, deliver, restart. -/
def accComplete (s : State) (n : Nat) : State := accRestart (accDeliver (accPublish s n) n) n

/-- At the end of an ACLK cycle an accumulation that has reached LEN completes (R352). -/
def accCheck (s : State) (n : Nat) : State :=
  let len := fld s (MA_ACC_CFG.LEN n)
  if len ≠ 0 ∧ len ≤ (acc s n).count then accComplete s n else s

/-! ## Window comparators (R354) -/

def winOut (s : State) (w : Nat) : Bool := sget (fun _ => false) s.mon.out w
def setWinOut (s : State) (w : Nat) (b : Bool) : State :=
  { s with mon := { s.mon with out := sset (fun _ => false) s.mon.out w b } }

/-- The move from IN to OUT (R354). -/
def windowExit (s : State) (c w : Nat) (v : Int) : State :=
  let s := setWinOut s w true
  let s := if w < 32 then stsBit s MA_WIN_STAT_LO.EXIT w else stsBit s MA_WIN_STAT_HI.EXIT (w - 32)
  let s := inc s (MA_WIN_CNT.COUNT w)
  let s := if flag s (MA_WIN_CFG.ALARM w) then alarm s IR_ALARM_STAT.MA_WINDOW else s
  maNotice s c 0x1201 w c (wrapInt 16 v + 2 ^ 16 * fld s (MA_WIN_LO.LIMIT w) + 2 ^ 32 * fld s (MA_WIN_HI.LIMIT w))

/-- A value reaches a window comparator (R354). -/
def windowJudge (s : State) (c w : Nat) (v : Int) : State :=
  if 64 ≤ w ∨ flag s (MA_WIN_CFG.EN w) = false then s
  else
    let lo := sfld s (MA_WIN_LO.LIMIT w)
    let hi := sfld s (MA_WIN_HI.LIMIT w)
    let h := Int.ofNat (fld s (MA_WIN_CFG.HYST w))
    if winOut s w then (if lo + h ≤ v ∧ v ≤ hi - h then setWinOut s w false else s)
    else if v < lo ∨ hi < v then windowExit s c w v
    else s

/-! ## The end of an execution (R348, R350, R355) -/

/-- A corrected sample (R350). -/
def maCorrect (s : State) (c : Nat) (raw : Int) : Int :=
  let x := ((16 * raw - sfld s (MA_CAL.OFS c)) * Int.ofNat (fld s (MA_CAL.GAIN c)) + 2 ^ 14) / 2 ^ 15
  max (-32767) (min 32767 x)

/-- The value of an execution (R350). -/
def maValue (s : State) (c a : Nat) (raws : List Int) : Int :=
  let sum := (raws.map (maCorrect s c)).sum
  if a = 0 then sum else (sum + 2 ^ (a - 1)) / 2 ^ a

/-- An execution that delivers: its blanked samples, its value and the source error of R347. -/
def maDeliver (s : State) (c : Nat) (v : Int) : State :=
  let x := maCur s c
  let s := if srcBad s x then sts s (MA_STAT.SRC_ERR c) else s
  let s := accBlank s x.tgt (blanking (conv s c).prev x)
  windowJudge (accAdd s x.tgt v x.src) c x.win v

/-- The comparison of owner and partner (R355). -/
def crossCheck (s : State) (c : Nat) (vo vp : Int) : State :=
  if fld s MA_XCHK_LIM.VALUE < (vo - vp).natAbs then
    let s := alarm (inc (sts s (MA_STAT.XCHK_FAIL c)) MA_XCHK_CNT.VALUE) IR_ALARM_STAT.MA_CROSS
    maNotice s c 0x1202 (maCur s c).src c (wrapInt 16 vo + 2 ^ 16 * wrapInt 16 vp)
  else s

/-- Step to the next execution of the sequence; a pending set of the converter applies at the end of a loop (R348, R358). -/
def maAdvance (s : State) (c : Nat) : State :=
  let x := maCur s c
  let k := conv s c
  let s := setConv s c { k with prev := some (x.src, x.sub, x.gain, x.avg), startAt := none, role := .own,
                                rep := if k.rep < x.rep then k.rep + 1 else 0 }
  if k.rep < x.rep then s
  else if fld s (MA_POS.ENTRY c) + 1 < maLen s c then bump s (MA_POS.ENTRY c)
  else
    let s := bump (setFld s (MA_POS.ENTRY c) 0) (MA_POS.LOOPS c)
    if isWaiting s (.ma c) then applyRegs s (.ma c) else s

/-- A partner returns to its own sequence (R349, R355). -/
def maPartnerDone (s : State) (c : Nat) : State :=
  setConv s c { conv s c with prev := none, startAt := none, role := .own }

/-- A converter that stands between executions begins its next one. -/
def maBeginFree (s : State) (c : Nat) : State :=
  if (conv s c).startAt.isNone && (conv s c).role = .own then maBegin s c else s

/-- The converters whose executions ended begin their next ones, MA0 first (R355); but a partner that has served resumes with the
execution it was about to begin before its owner may seize it again, unless that one is a cross-check too (`first1`). -/
def maNext (s : State) (e0 e1 first1 : Bool) : State :=
  let s := if first1 then maBeginFree s 1 else s
  let s := if e0 then maBeginFree s 0 else s
  if e1 && !first1 then maBeginFree s 1 else s

/-- A converter's code (R346). -/
def codeOk (c : Int) : Bool := decide (-2048 ≤ c) && decide (c ≤ 2047)

/-- MA_EXECUTION_END (R348 to R355): the executions of MA0 and MA1 that end in this ACLK cycle, with their raw samples (an
empty list: none ends). -/
def maExecutionEnd (s : State) (x0 x1 : List Int) : State :=
  let raws (c : Nat) := if c = 0 then x0 else x1
  let ends (c : Nat) : Bool := maDue s c && (raws c).length = 2 ^ (maDoing s c).avg && (raws c).all codeOk
  let v (c : Nat) := maValue s c (maDoing s c).avg (raws c)
  let own (c : Nat) : Bool := ends c && (conv s c).role = .own
  let pair (c : Nat) : Bool := ends 0 && ends 1 && (conv s c).role = .owner
  let gives (c : Nat) : Bool := own c || pair c
  let tgts := (if gives 0 then [(maCur s 0).tgt] else []) ++ (if gives 1 then [(maCur s 1).tgt] else [])
  let wasOwn0 := own 0
  let wasOwn1 := own 1
  let pair0 := pair 0
  let pair1 := pair 1
  let v0 := v 0
  let v1 := v 1
  let g0 := gives 0
  let g1 := gives 1
  let s := if g0 then maDeliver s 0 v0 else s
  let s := if g1 then maDeliver s 1 v1 else s
  let s := if pair0 then crossCheck s 0 v0 v1 else if pair1 then crossCheck s 1 v1 v0 else s
  let s := forEach tgts s accCheck
  let s := if wasOwn0 || pair0 then maAdvance s 0 else if pair1 then maPartnerDone s 0 else s
  let s := if wasOwn1 || pair1 then maAdvance s 1 else if pair0 then maPartnerDone s 1 else s
  maNext s (g0 || pair1) (g1 || pair0) (pair0 && !(maCur s 1).xchk)

def execMaExecutionEnd (x0 x1 : List Int) (s : State) : Host.Outcome State Fault Refusal := .next (maExecutionEnd s x0 x1)

/-! ## Commands (R352, R354, R356 to R358) -/

/-- The converter stands still: nothing runs on it, and it plays no part in a cross-check. -/
def maStand (s : State) (c : Nat) : State :=
  setConv s c { conv s c with run := false, startAt := none, role := .own, rep := 0 }

/-- The converter's work ends: the execution in progress is abandoned, and an owner it served converts alone (R355, R358). -/
def maHalt (s : State) (c : Nat) : State :=
  let k := conv s c
  let s := maStand s c
  match k.role with
  | .serving => setConv (sts s (MA_STAT.XCHK_SKIP (1 - c))) (1 - c) { conv s (1 - c) with role := .own }
  | .owner => maBegin (maPartnerDone s (1 - c)) (1 - c)
  | _ =>
    if (conv s (1 - c)).role = .waiting then maBegin (setConv s (1 - c) { conv s (1 - c) with role := .own }) (1 - c) else s

/-- The reference buffer is turned off: READY clears and every running converter stops, both at once, so that neither goes on
alone for want of the other (R356). -/
def refOff (s : State) : State :=
  let s := { s with mon := { s.mon with refAt := none } }
  let s := setFlag s MA_REF.READY false
  let ran := [0, 1].filter fun c => (conv s c).run
  forEach ran (forEach ran s maStand) fun s c => maNotice (sts s (MA_STAT.REF_LOST c)) c 0x1203 c 2 0

/-- MA_REF_ENABLE (R356). -/
def maRefEnable (s : State) (a : Access) (v : W32) : State :=
  let was := flag s MA_REF.EN
  cmdWrite s a MA_REF.off v fun s =>
    if v.getLsbD 31 then (if was then s else { s with mon := { s.mon with refAt := some s.now } })
    else if was then refOff s else s

def execMaRefEnable (a : Access) (v : W32) (s : State) : Host.Outcome State Fault Refusal := .next (maRefEnable s a v)

/-- MA_REF_READY (R356): 2 ms after EN. -/
def maRefReady (s : State) : State :=
  match s.mon.refAt with
  | some t =>
    if t + msTicks 2 ≤ s.now then setFlag { s with mon := { s.mon with refAt := none } } MA_REF.READY true else s
  | none => s

def execMaRefReady (s : State) : Host.Outcome State Fault Refusal := .next (maRefReady s)

/-- MA_SELFCAL (R357). -/
def maSelfcal (s : State) (a : Access) (c : Nat) (v : W32) : State :=
  cmdWrite s a (MA_CMD.off c) v fun s =>
    if v.getLsbD 29 = false then s
    else if flag s MA_REF.READY = false ∨ (conv s c).run ∨ (conv s c).borrowAt.isSome then sts s (MA_STAT.CAL_REF c)
    else if (conv s c).calEnd.isSome then s
    else setFlag (setConv s c { conv s c with calEnd := some (s.now + usTicks 3100) }) (MA_CMD.SELFCAL c) true

def execMaSelfcal (a : Access) (c : Nat) (v : W32) (s : State) : Host.Outcome State Fault Refusal := .next (maSelfcal s a c v)

/-- MA_SELFCAL_COMPLETE (R357): after 3.1 ms, with the factors the converter found. -/
def maSelfcalComplete (s : State) (c : Nat) (ofs : BitVec 10) (gain : BitVec 16) : State :=
  match (conv s c).calEnd with
  | some t =>
    if s.now < t ∨ 2 ≤ c then s
    else
      let s := setConv s c { conv s c with calEnd := none }
      let s := setFlag s (MA_CMD.SELFCAL c) false
      let s := setFld (setFld s (MA_CAL.OFS c) ofs.toNat) (MA_CAL.GAIN c) gain.toNat
      let s := setFlag s (MA_STAT.CAL_DONE c) true
      maBegin (maNotice s c 0x1204 c 0 (wrapInt 16 (signedOf 10 ofs.toNat) + 2 ^ 16 * gain.toNat)) c
  | none => s

def execMaSelfcalComplete (c : Nat) (ofs : BitVec 10) (gain : BitVec 16) (s : State) : Host.Outcome State Fault Refusal :=
  .next (maSelfcalComplete s c ofs gain)

/-- MA_START (R358): entry 0 begins, or the start is refused. -/
def maStart (s : State) (a : Access) (c : Nat) (v : W32) : State :=
  cmdWrite s a (MA_CMD.off c) v fun s =>
    if v.getLsbD 31 = false then s
    else if flag s MA_REF.READY = false ∨ flag s (MA_STAT.CAL_DONE c) = false then
      maNotice (sts s (MA_STAT.START_REF c)) c 0x1203 c 1 0
    else
      let s := maHalt s c
      let s := setReg s (MA_POS.off c) 0
      maBegin (setConv s c { conv s c with run := true, prev := none }) c

def execMaStart (a : Access) (c : Nat) (v : W32) (s : State) : Host.Outcome State Fault Refusal := .next (maStart s a c v)

/-- MA_STOP (R358). -/
def maStop (s : State) (a : Access) (c : Nat) (v : W32) : State :=
  cmdWrite s a (MA_CMD.off c) v fun s => if v.getLsbD 30 then maHalt s c else s

def execMaStop (a : Access) (c : Nat) (v : W32) (s : State) : Host.Outcome State Fault Refusal := .next (maStop s a c v)

/-- MA_ACC_SNAP (R352). -/
def maAccSnap (s : State) (a : Access) (n : Nat) (v : W32) : State :=
  cmdWrite s a (MA_ACC_CFG.off n) v fun s => if v.getLsbD 31 then accComplete s n else s

def execMaAccSnap (a : Access) (n : Nat) (v : W32) (s : State) : Host.Outcome State Fault Refusal := .next (maAccSnap s a n v)

/-- MA_ACC_CLR (R352). -/
def maAccClr (s : State) (a : Access) (n : Nat) (v : W32) : State :=
  cmdWrite s a (MA_ACC_CFG.off n) v fun s => if v.getLsbD 30 then accRestart s n else s

def execMaAccClr (a : Access) (n : Nat) (v : W32) (s : State) : Host.Outcome State Fault Refusal := .next (maAccClr s a n v)

/-- MA_WIN_ENABLE (R354): EN written 1 sets state IN. -/
def maWinEnable (s : State) (a : Access) (n : Nat) (v : W32) : State :=
  cmdWrite s a (MA_WIN_CFG.off n) v fun s => if v.getLsbD 31 then setWinOut s n false else s

def execMaWinEnable (a : Access) (n : Nat) (v : W32) (s : State) : Host.Outcome State Fault Refusal :=
  .next (maWinEnable s a n v)

/-! ## Borrowing MA0 (R359) -/

/-- MA0 can serve an input command (R43, R48). -/
def maAvailable (s : State) : Bool := flag s MA_REF.READY && flag s (MA_STAT.CAL_DONE 0) && (conv s 0).calEnd.isNone

/-- MA0 is between executions, stopped, or an owner that waits for its partner. -/
def borrowFree (s : State) : Bool := (conv s 0).startAt.isNone && (conv s 0).borrowAt.isNone

/-- MA0 is taken for a command; a wait for a partner ends at once, and an owner that waits for MA0 converts alone (R355). -/
def borrow (s : State) : State :=
  let s := inc (setConv s 0 { conv s 0 with role := .own, borrowAt := some s.now }) (MA_BORROW_CNT.COUNT 0)
  if (conv s 1).role = .waiting then maBegin (setConv s 1 { conv s 1 with role := .own }) 1 else s

/-- MA0 resumes its sequence, a change of everything having occurred (R349, R359). -/
def unborrow (s : State) : State := maBegin (setConv s 0 { conv s 0 with borrowAt := none, prev := none }) 0

/-- STATE of MA_STAT. -/
def maState (s : State) (c : Nat) : Nat :=
  let k := conv s c
  if k.calEnd.isSome then 3 else if k.borrowAt.isSome then 2
  else if k.role = .waiting ∨ k.role = .serving then 4 else if k.run then 1 else 0

end Sys2Proof.Machine
end

