-- ==== Sys2Proof/Machine/Inputs.lean ====
section
/-! DEFINITION. Input-cell commands and configuration (02_input_cells.md R37, R41 to R50): nulling, open-wire detection, the
trims, and what an applied IN configuration does. -/

namespace Sys2Proof.Machine

/-! ## Trims and settling (R34, R37, R41) -/

/-- A comparator's active trim (R41), as its 6-bit code. -/
def activeTrim (s : State) (n : Nat) : Nat :=
  let i := n / 2
  if flag s (IN_CFG.TRIM_SRC i) then (if n % 2 = 0 then fld s (IN_CFG.MTRIM_A i) else fld s (IN_CFG.MTRIM_B i))
  else if n % 2 = 0 then fld s (IN_TRIM.STORED_A i) else fld s (IN_TRIM.STORED_B i)

/-- What acts on a comparator: threshold, effective hysteresis, active trim, termination and pulls (R34, R37). -/
def cellSetting (s : State) (n : Nat) : Nat × Nat × Nat × Nat × Nat :=
  let i := n / 2
  let th := if n % 2 = 0 then fld s (IN_THR.TH_A i) else fld s (IN_THR.TH_B i)
  let h := min (if n % 2 = 0 then fld s (IN_CFG.HYST_A i) else fld s (IN_CFG.HYST_B i)) 20
  (th, h, activeTrim s n, fld s (IN_CFG.TERM i), fld s (IN_CFG.OW_PULL i))

/-- Open a lane's window where its setting has changed from what it was in `old` (R37); a lane whose edge selection is
now 0b00 keeps no merge reference (R66). -/
def settleIfNew (old s : State) (n : Nat) : State :=
  let s := if cellSetting old n = cellSetting s n then s else openSettle s n
  if edgeSel s n = 0 then setLane s n { lane s n with last := none } else s

/-- Both lanes of an input. -/
def settleInput (old s : State) (i : Nat) : State := settleIfNew old (settleIfNew old s (2 * i)) (2 * i + 1)

/-- Write a comparator's stored trim (R41). -/
def setStoredTrim (s : State) (n : Nat) (t : BitVec 6) : State :=
  let i := n / 2
  if n % 2 = 0 then setFld s (IN_TRIM.STORED_A i) t.toNat else setFld s (IN_TRIM.STORED_B i) t.toNat

/-! ## The committed set of an input (R40, R46) -/

/-- The cfg registers of one input. -/
def inputOffs (i : Nat) : List Nat := [IN_CFG.off i, IN_THR.off i]

/-- Apply one input's committed registers, or hold them while a command runs on it (R46). -/
def applyInput (s : State) (i : Nat) : State :=
  if commandOn s i then
    let h := (inputOffs i).map fun o => (o, comOf s o)
    { s with inp := { s.inp with held := h } }
  else
    let s' := (inputOffs i).foldl applyReg s
    settleInput s s' i

/-! ## Starting a command (R43, R47, R50) -/

/-- The input is present and owned by the writing function; any other is absent to it (R389). -/
def inputFor (s : State) (f i : Nat) : Bool := i < nInputs s && ownGroup s (i / 8) = f

/-- An end without a run, or a result: IN_CMD_RESULT (R44, R48). -/
def cmdResult (s : State) (outcome value togA togB : Nat) : State :=
  let s := setFld s IN_CMD_RESULT.OUTCOME outcome
  let s := setFld s IN_CMD_RESULT.VALUE value
  setFld (setFld s IN_CMD_RESULT.TOG_A (min togA 15)) IN_CMD_RESULT.TOG_B (min togB 15)

/-- A rejected nulling is counted (table of IN_NULL_REJ_CNT). -/
def countNullRej (s : State) : State := inc s IN_NULL_REJ_CNT.COUNT

/-- The command waits for MA0, its input being marked. -/
def cmdBegin (s : State) (i : Nat) (ow : Bool) : State :=
  let s := setFlag s IN_CMD.GO true
  let s := setFlag s (IN_STAT.CMD_ACTIVE i) true
  { s with inp := { s.inp with cmd := some { input := i, openWire := ow, phase := .wait1, m1 := none, m2 := none, reject := 0, at_ := s.now } } }

/-- A GO write of one operation (R43, R47, R48, R50).  At an immediate end (outcomes 6 and 7) nothing was observed: VALUE, TOG_A
and TOG_B are written 0 (log 14). -/
def inGo (s : State) (f : Nat) (ow : Bool) : State :=
  let i := fld s IN_CMD.INPUT
  if s.inp.cmd.isSome then inc s IN_CMD_BUSY_CNT.COUNT
  else if inputFor s f i = false then
    let s := cmdResult s 7 0 0 0
    if ow then s else countNullRej s
  else if maAvailable s = false then
    let s := cmdResult s 6 0 0 0
    if ow then s
    else countNullRej (sts (setFld s (IN_TRIM.NULL_RES i) 3) (IN_STAT.NULL_FAIL i))
  else cmdBegin s i ow

/-- IN_NULLING (R43): the write of IN_CMD whose GO starts the operation OP = 0. While a command runs, INPUT and OP of the
register change without effect on it (R50). -/
def inNulling (s : State) (a : Access) (v : W32) : State :=
  cmdWrite s a IN_CMD.off v fun s =>
    if v.getLsbD 31 ∧ fld s IN_CMD.OP = 0 then inGo s a.func false else s

def execInNulling (a : Access) (v : W32) (s : State) : Host.Outcome State Fault Refusal := .next (inNulling s a v)

/-- IN_OPEN_WIRE (R47): as IN_NULLING with OP = 1. -/
def inOpenWire (s : State) (a : Access) (v : W32) : State :=
  cmdWrite s a IN_CMD.off v fun s =>
    if v.getLsbD 31 ∧ fld s IN_CMD.OP = 1 then inGo s a.func true else s

def execInOpenWire (a : Access) (v : W32) (s : State) : Host.Outcome State Fault Refusal := .next (inOpenWire s a v)

/-! ## The borrow of MA0 (R359) -/

def setCmd (s : State) (c : InCmd) : State := { s with inp := { s.inp with cmd := some { c with at_ := s.now } } }

/-- A reading begins: the observation of both comparators starts from their present levels (R43, R47). -/
def startReading (s : State) (c : InCmd) (p : InPhase) : State :=
  borrow (setCmd s { c with phase := p, togA := 0, togB := 0,
                            highA := (lane s (2 * c.input)).level, highB := (lane s (2 * c.input + 1)).level })

/-- MA0_BORROW_START (R359). The second reading of an open-wire command starts 20 µs after its pulls are on (R47).  Whether MA0 is
available is judged when the command is accepted: one that has been accepted runs on where MA0's reference is turned off or a SELFCAL
begun meanwhile (DESIGN CHOICE, logs 14 and 17: R43, R356, R357 and R359 do not say what becomes of it). -/
def ma0BorrowStart (s : State) : State :=
  match s.inp.cmd with
  | some c =>
    if borrowFree s = false then s
    else match c.phase with
      | .wait1 => startReading s c .read1
      | .wait2 => if c.at_ + usTicks 20 ≤ s.now then startReading s c .read2 else s
      | _ => s
  | none => s

def execMa0BorrowStart (s : State) : Host.Outcome State Fault Refusal := .next (ma0BorrowStart s)

/-- Samples of a borrow: 40 blanked, the reading, and the converter's latency (R43, R47, R359). -/
def borrowSamples (c : InCmd) : Nat := 40 + (if c.openWire then 4096 else 16384) + 11

/-- The judgement of phase 2 (R43): 0 accepted, 4 transitions, 5 deviation. -/
def nullJudge (c : InCmd) (m : BaselineReading) : Nat :=
  if 2 < c.togA ∨ 2 < c.togB then 4 else if 150 < m.sigma then 5 else 0

/-- What follows a reading: nulling judges and searches with its lanes suppressed, or ends; open-wire switches its pulls and
suppresses the lanes after the first reading, and ends after the second (R43, R45, R47). -/
def afterReading (s : State) (c : InCmd) (m : BaselineReading) : State :=
  let both (s : State) : State := suppress (suppress s (2 * c.input) true) (2 * c.input + 1) true
  if c.openWire then
    match c.phase with
    | .read1 => both (setCmd s { c with phase := .wait2, m1 := some m })
    | _ => setCmd s { c with phase := .ending, m2 := some m }
  else
    let j := nullJudge c m
    if j = 0 then both (setCmd s { c with phase := .search, m1 := some m })
    else setCmd s { c with phase := .ending, m1 := some m, reject := j }

/-- MA0_BORROW_END (R359): the reading goes to the command alone, and MA0 resumes. -/
def ma0BorrowEnd (s : State) (m : BaselineReading) : State :=
  match s.inp.cmd, (conv s 0).borrowAt with
  | some c, some t =>
    if (c.phase = .read1 ∨ c.phase = .read2) ∧ samplesPassed s.now t (borrowSamples c) then unborrow (afterReading s c m) else s
  | _, _ => s

def execMa0BorrowEnd (m : BaselineReading) (s : State) : Host.Outcome State Fault Refusal := .next (ma0BorrowEnd s m)

/-! ## The end of a command (R44, R46, R48) -/

/-- The threshold code nearest a mean given in units of 10 µV: Vth = −1.2 V + c × 0.5859375 mV (R33, R43). -/
def nearestCode (mean : Int) : Nat := (max 0 (min 4095 ((64 * (mean + 120000) + 1875) / 3750))).toNat

/-- What drives the threshold DAC and the hysteresis of a comparator (R33, R34, R43): in phase 3 of a nulling the code nearest the
measured mean and no hysteresis, otherwise the applied values. -/
def comparatorDrive (s : State) (n : Nat) : Nat × Nat :=
  let applied := ((cellSetting s n).1, (cellSetting s n).2.1)
  match s.inp.cmd with
  | some c => if c.input = n / 2 ∧ c.phase = .search then (nearestCode ((c.m1.map (·.mean)).getD 0), 0) else applied
  | none => applied

/-- The termination and the pulls of an input (R47, R49): the first reading of an open-wire command is made with the pulls off; from
step 2 of an open-wire command to its end the termination is disconnected and the pulls are on, otherwise as applied; in the fail-safe
state neither (R51). -/
def inputDrive (s : State) (i : Nat) : Bool × Bool :=
  if cellsOn s = false then (false, false)
  else
    match s.inp.cmd with
    | some c =>
      if c.input = i ∧ c.openWire ∧ (c.phase = .wait2 ∨ c.phase = .read2) then (false, true)
      else if c.input = i ∧ c.openWire ∧ c.phase = .read1 then (flag s (IN_CFG.TERM i), false)
      else (flag s (IN_CFG.TERM i), flag s (IN_CFG.OW_PULL i))
    | none => (flag s (IN_CFG.TERM i), flag s (IN_CFG.OW_PULL i))

/-- The six steps of the search, from bit `b` down: a bit is kept when the comparator is high in fewer than 256 of the 512
samples of its step (R43). -/
def searchTrim : Nat → List Nat → Nat
  | 0, _ => 0
  | b + 1, hs => (if hs.headD 0 < 256 then 2 ^ b else 0) + searchTrim b hs.tail

/-- The searched trim t = u − 32 as its 6-bit code (R43). -/
def trimOf (hs : List Nat) : BitVec 6 := BitVec.ofInt 6 (Int.ofNat (searchTrim 6 hs) - 32)

/-- The command is over: held configuration applies, and both comparators open a settling window (R37, R46). -/
def cmdEnd (s : State) (i : Nat) : State :=
  let s := setFlag (setFlag s IN_CMD.GO false) (IN_STAT.CMD_ACTIVE i) false
  let held := s.inp.held
  let s := { s with inp := { s.inp with cmd := none, held := [] } }
  let s := held.foldl (fun s x => setReg s x.1 (BitVec.ofNat 32 (mergeBits (cfgMask x.1) (reg s x.1).toNat x.2.toNat))) s
  let s := settleInput s s i
  openSettle (openSettle s (2 * i)) (2 * i + 1)

/-- NULLING_COMPLETE (R43, R44): the counts of high samples of each comparator over the six steps. -/
def nullingComplete (s : State) (highA highB : List Nat) : State :=
  match s.inp.cmd with
  | none => s
  | some c =>
    let m := c.m1.getD { mean := 0, sigma := 0 }
    let sig := min m.sigma 0xFFF
    if c.openWire then s
    else match c.phase with
      | .search =>
        if s.now < c.at_ + usTicks 12 then s
        else
          let s := setStoredTrim (setStoredTrim s (2 * c.input) (trimOf highA)) (2 * c.input + 1) (trimOf highB)
          let s := setFld s (IN_TRIM.NULL_RES c.input) 1
          cmdEnd (cmdResult s 1 sig c.togA c.togB) c.input
      | .ending =>
        let s := sts (setFld s (IN_TRIM.NULL_RES c.input) 2) (IN_STAT.NULL_FAIL c.input)
        cmdEnd (countNullRej (cmdResult s c.reject sig c.togA c.togB)) c.input
      | _ => s

def execNullingComplete (highA highB : List Nat) (s : State) : Host.Outcome State Fault Refusal :=
  .next (nullingComplete s highA highB)

/-- The verdict of the table *Open-wire verdicts* from the shift in units of 10 µV: 1 connected, 2 open, 3 undetermined. -/
def openWireVerdict (shift : Int) (c : InCmd) : Nat :=
  if shift < 5000 then 1
  else if 50000 < shift ∧ c.highA ∧ c.highB ∧ c.togA = 0 ∧ c.togB = 0 then 2
  else 3

/-- The shift in mV as IN_CMD_RESULT carries it: rounded to the nearest, held within 12 bits. -/
def shiftMv (shift : Int) : Nat := wrapInt 12 (max (-2048) (min 2047 ((shift + 50) / 100)))

/-- OPEN_WIRE_COMPLETE (R48). -/
def openWireComplete (s : State) : State :=
  match s.inp.cmd with
  | some c =>
    match c.openWire, c.phase, c.m1, c.m2 with
    | true, .ending, some m1, some m2 =>
      let shift := m2.mean - m1.mean
      let vd := openWireVerdict shift c
      let s := setFld s (IN_TRIM.OW_RES c.input) vd
      let s := if vd = 2 then sts s (IN_STAT.OW_OPEN c.input) else if vd = 3 then sts s (IN_STAT.OW_UNDET c.input) else s
      cmdEnd (cmdResult s vd (shiftMv shift) c.togA c.togB) c.input
    | _, _, _, _ => s
  | none => s

def execOpenWireComplete (s : State) : Host.Outcome State Fault Refusal := .next (openWireComplete s)

end Sys2Proof.Machine
end

