-- ==== Sys2Proof/Machine/Queues.lean ====
section
/-! DEFINITION. Group queues and derived queues (07_lane_chains_and_queues.md R135 to R138, R142, R143, R147, R148;
10_fabric_and_decisions.md R210): places, discards, destinations, watermarks and the BUSY pins. -/

namespace Sys2Proof.Machine

/-! ## Queues by group code -/

/-- The derived queue of a cluster or MU bank, by its group code. -/
def dqOf (code : Nat) : Nat := if code < 0x50 then code - 0x40 else 16 + (code - 0x50)

/-- The group code of a derived queue. -/
def dqCode (d : Nat) : Nat := if d < 16 then 0x40 + d else 0x50 + (d - 16)

/-- The queue of a source. -/
def queue (s : State) (code : Nat) : List QEntry :=
  if code < 0x40 then (group s code).queue else sget (fun _ => []) s.fab.dq (dqOf code)

def setQueue (s : State) (code : Nat) (q : List QEntry) : State :=
  if code < 0x40 then setGroup s code { group s code with queue := q }
  else { s with fab := { s.fab with dq := sset (fun _ => []) s.fab.dq (dqOf code) q } }

/-- An entry that takes no place of the queue: the veto-drop entry that the read side makes (R142). -/
def placeless (e : QEntry) : Bool :=
  match e.item with
  | .vetoDrop _ _ => true
  | _ => false

/-- Occupancy: places in use (R135).  The lag with which the write side sees reads and the read side sees writes, each at most 6 ns,
is taken as 0, so that both sides have one occupancy (DESIGN CHOICE, log 8). -/
def places (q : List QEntry) : Nat := (q.filter fun e => !placeless e).length

/-! ## Destinations (R136, R225, R238) -/

/-- A source's bit in the source words of a ring or stream, by group code. -/
def srcBit (s : State) (lo hi dq : Nat) (code : Nat) : Bool :=
  if code < 32 then (reg s lo).toNat.testBit code
  else if code < 0x40 then (reg s hi).toNat.testBit (code - 32)
  else (reg s dq).toNat.testBit (dqOf code)

/-- Capture ring r runs and names the source (R225); a standby's splice ring takes no derived queue (R381). -/
def ringTakes (s : State) (code r : Nat) : Bool :=
  !(isStandby s && decide (0x40 ≤ code) && (fld s PR_SPLICE_RING.RING).testBit r) && flag s (CR_STAT.RUNNING r) && srcBit s (CR_SRC_LO.off r) (CR_SRC_HI.off r) (CR_SRC_DQ.off r) code

/-- Stream h exists, is enabled and names the source (R238, R262); a standby exports nothing (R361). -/
def streamTakes (s : State) (code h : Nat) : Bool :=
  flag s (HI_RING_STAT.RUNNING h) && !flag s (HI_RING_STAT.STOPPING h) && fld s (HI_RING_CFG.KIND h) = 0 &&
  flag s (PK_CFG.EN h) && !pairMuted s && srcBit s (PK_SRC_LO.off h) (PK_SRC_HI.off h) (PK_SRC_DQ.off h) code

/-- The destinations of a source: the lowest-numbered running ring and the lowest-numbered enabled stream that name it. -/
def destsOf (s : State) (code : Nat) : List Dest :=
  (((List.range 16).find? (ringTakes s code)).map Dest.ring).toList ++
  (((List.range 64).find? (streamTakes s code)).map Dest.stream).toList

/-! ## Watermarks and BUSY pins (R147, R148) -/

/-- The LG_WM that is evaluated: in the cycle in which a new one is applied still the old one (R147). -/
def wmWord (s : State) (g : Nat) : Nat :=
  match (group s g).wmOld with
  | some (c, old) => if gclk s ≤ c then old.toNat else (reg s (LG_WM.off g)).toNat
  | none => (reg s (LG_WM.off g)).toNat

/-- The watermarks in use: HIGH at most 1,024, and HIGH − 1 for a LOW that is not below it. -/
def watermarks (s : State) (g : Nat) : Nat × Nat :=
  let h := min (bitsOf (wmWord s g) (LG_WM.HIGH g).msb (LG_WM.HIGH g).lsb) 1024
  let l := bitsOf (wmWord s g) (LG_WM.LOW g).msb (LG_WM.LOW g).lsb
  (h, if h ≠ 0 ∧ h ≤ l then h - 1 else l)

/-- BUSY pin p is wanted (R148). -/
def pinWanted (s : State) (p : Nat) : Bool :=
  let gs := (reg s (LG_BUSY_GRP_LO.off p)).toNat + 2 ^ 32 * (reg s (LG_BUSY_GRP_HI.off p)).toNat
  let rs := fld s (LG_BUSY_CFG.RING p)
  ((List.range (nGroups s)).any fun g => gs.testBit g && flag s (LG_STAT.BUSY g)) ||
  ((List.range 16).any fun r => rs.testBit r && flag s (CR_STAT.STALLED r))

def holdOf (s : State) (p : Nat) : Nat := sget (fun _ => 0) s.lg.hold p

def setHold (s : State) (p n : Nat) : State := { s with lg := { s.lg with hold := sset (fun _ => 0) s.lg.hold p n } }

/-- Evaluate one BUSY pin: it sets when a source is busy, and clears once its hold has run out and none is (R148). -/
def evalPin (s : State) (p : Nat) : State :=
  let on := (fld s LG_BUSY_STAT.STATE).testBit p
  if pinWanted s p then
    if on then s
    else setHold (stsBit (stsBit s LG_BUSY_STAT.STATE p) LG_BUSY_STAT.SEEN p) p (8 * fld s (LG_BUSY_MIN.MIN p))
  else if on ∧ holdOf s p = 0 then clrBit s LG_BUSY_STAT.STATE p
  else s

/-- Evaluate every BUSY pin. -/
def evalPins (s : State) : State := forEach (List.range (nBusy s)) s evalPin

/-- Evaluate a group's busy state on its queue's occupancy (R147). -/
def evalGroupBusy (s : State) (g : Nat) : State :=
  let (h, l) := watermarks s g
  let occ := places (group s g).queue
  let busy := flag s (LG_STAT.BUSY g)
  if busy = false ∧ h ≠ 0 ∧ h ≤ occ then
    evalPins (inc (sts (setFlag s (LG_STAT.BUSY g) true) (LG_STAT.WM_HIGH_SEEN g)) (LG_WM_CROSS_CNT.COUNT g))
  else if busy ∧ (h = 0 ∨ occ ≤ l) then evalPins (sts (setFlag s (LG_STAT.BUSY g) false) (LG_STAT.WM_LOW_SEEN g))
  else s

/-- The cycle after new watermarks were applied: they are evaluated for the first time (R147). -/
def evalNewWm (s : State) : State :=
  let gs := (s.lg.groups.filter fun x => x.2.wmOld.isSome).map (·.1)
  forEach gs s fun s g =>
    match (group s g).wmOld with
    | some (c, _) => if c < gclk s then evalGroupBusy (setGroup s g { group s g with wmOld := none }) g else s
    | none => s

/-- The pin states of this GCLK cycle join those of the cycles before it (R148). -/
def noteBusy (s : State) : State :=
  { s with lg := { s.lg with busyHist := (fld s LG_BUSY_STAT.STATE :: s.lg.busyHist).take 8 } }

/-- The state that pin p follows: that of 8 GCLK cycles ago, which joined the others at the end of its cycle (R148). -/
def busyDriven (s : State) (p : Nat) : Bool := (s.lg.busyHist.getD 7 0).testBit p

/-- A pin's hold counts down by one GCLK cycle (R148). -/
def tickHold (s : State) (p : Nat) : State := if holdOf s p = 0 then s else setHold s p (holdOf s p - 1)

/-- BUSY_HOLD_EXPIRY (R148): at a hold of 0 the pin clears unless a source is busy. -/
def busyHoldExpiry (s : State) (p : Nat) : State := if p < nBusy s then evalPin s p else s

def execBusyHoldExpiry (p : Nat) (s : State) : Host.Outcome State Fault Refusal := .next (busyHoldExpiry s p)

/-! ## Occupancy registers -/

/-- A queue's occupancy has changed: OCC, PEAK and, of a group, the busy state. -/
def noteOcc (s : State) (code : Nat) : State :=
  let n := places (queue s code)
  if code < 0x40 then
    let s := setFld s (LG_Q_OCC.OCC code) n
    evalGroupBusy (if fld s (LG_Q_OCC.PEAK code) < n then setFld s (LG_Q_OCC.PEAK code) n else s) code
  else
    let d := dqOf code
    let s := setFld s (CC_DQ_OCC.OCC d) n
    if fld s (CC_DQ_OCC.PEAK d) < n then setFld s (CC_DQ_OCC.PEAK d) n else s

/-- LG_Q_PEAK_CLR (map of LG_Q_OCC). -/
def lgQPeakClr (s : State) (a : Access) (g : Nat) (v : W32) : State :=
  cmdWrite s a (LG_Q_OCC.off g) v fun s =>
    if v.getLsbD 15 then setFld s (LG_Q_OCC.PEAK g) (fld s (LG_Q_OCC.OCC g)) else s

def execLgQPeakClr (a : Access) (g : Nat) (v : W32) (s : State) : Host.Outcome State Fault Refusal := .next (lgQPeakClr s a g v)

/-- CC_DQ_PEAK_CLR (map of CC_DQ_OCC). -/
def ccDqPeakClr (s : State) (a : Access) (d : Nat) (v : W32) : State :=
  cmdWrite s a (CC_DQ_OCC.off d) v fun s =>
    if v.getLsbD 15 then setFld s (CC_DQ_OCC.PEAK d) (fld s (CC_DQ_OCC.OCC d)) else s

def execCcDqPeakClr (a : Access) (d : Nat) (v : W32) (s : State) : Host.Outcome State Fault Refusal := .next (ccDqPeakClr s a d v)

/-! ## Discards (R138, R143) -/

/-- The entry check of a window tile is computed once, when its fill is first handed out (R23): until then its LENGTH follows the
discards of R143, and its CHECK field is 0. -/
def sealItem (it : QItem) : QItem :=
  match it with
  | .fill n p t => .fill n p { t with hdr := BitVec.ofNat 64 (withBits t.hdr.toNat 31 0 (checkOf t.slots).toNat) }
  | x => x

/-- One data tile of window `num`, part `part` will not be handed out: LENGTH of the open part, or of the fill that no destination
has taken, falls by one (R143). -/
def shorten (num part : Nat) (it : QItem) : QItem :=
  match it with
  | .fill n p t =>
    if n = num ∧ p = part then
      match t.slots with
      | w :: r => .fill n p { t with slots := BitVec.ofNat 64 (withBits w.toNat 47 32 (wbits w 47 32 - 1)) :: r }
      | [] => .fill n p t
    else .fill n p t
  | x => x

/-- The same for a queue entry; a fill that a destination has taken is sealed and stays as it is. -/
def shortenEntry (num part : Nat) (e : QEntry) : QEntry :=
  if e.taken then e else { e with item := shorten num part e.item }

/-- The tile's window and part lose one tile of LENGTH. -/
def uncount (s : State) (g : Nat) (w : Option (Nat × Nat)) : State :=
  match w with
  | none => s
  | some (num, part) =>
    let G := group s g
    match G.win with
    | some W =>
      if W.num = num ∧ W.part = part then setGroup s g { G with win := some { W with len := W.len - 1 } }
      else setGroup s g { G with queue := G.queue.map (shortenEntry num part),
                                 waitWin := G.waitWin.map (shorten num part) }
    | none =>
      setGroup s g { G with queue := G.queue.map (shortenEntry num part),
                            waitWin := G.waitWin.map (shorten num part) }

/-- Losses that the reason-0x1 gap records of a tile report: when the tile itself is discarded, a later gap record covers
them again (R123). -/
def owed (t : Tile) : Nat :=
  if tileInjected t then 0
  else t.slots.foldl (fun n w => if isGap w ∧ gapReason w = 1 then n + wbits w 31 0 else n) 0

/-- A discarded tile is counted, and reported later by the source's reason-0x1 gap record (R138, R210). -/
def countDiscard (s : State) (code : Nat) (t : Tile) : State :=
  let n := 1 + owed t
  if code < 0x40 then
    let s := sts (inc s (LG_Q_LOST_CNT.COUNT code)) (LG_STAT.Q_LOST code)
    setGroup s code { group s code with qGap := (group s code).qGap + n }
  else
    let s := sts (inc s (CC_DQ_LOST_CNT.COUNT (dqOf code))) (CC_DQ_STAT.Q_LOST (dqOf code))
    if code < 0x50 then
      setCluster s (code - 0x40) { cluster s (code - 0x40) with qGap := (cluster s (code - 0x40)).qGap + n }
    else setBank s (code - 0x50) { bank s (code - 0x50) with qGap := (bank s (code - 0x50)).qGap + n }

/-- An entry that may be discarded: a data or injected tile that no destination has taken. -/
def victim (e : QEntry) : Option (Tile × Option (Nat × Nat)) :=
  match e.item with
  | .tile t w => if e.taken then none else some (t, w)
  | _ => none

/-- Remove the oldest victim of a queue. -/
def takeVictim : List QEntry → Option ((Tile × Option (Nat × Nat)) × List QEntry)
  | [] => none
  | e :: r => match victim e with
    | some v => some (v, r)
    | none => (takeVictim r).map fun (v, q) => (v, e :: q)

/-- Make room by discarding the oldest data or injected tile that no destination has taken: none when there is no such
tile (R138). -/
def makeRoom (s : State) (code : Nat) : Option State :=
  match takeVictim (queue s code) with
  | none => none
  | some ((t, w), q) => some (countDiscard (uncount (setQueue s code q) code w) code t)

/-- Append an entry for the source's present destinations. -/
def appendEntry (s : State) (code : Nat) (it : QItem) (ds : List Dest) : State :=
  noteOcc (setQueue s code (queue s code ++ [{ item := it, left := ds, taken := false }])) code

/-- The tile of the open part is handed to the queue: LENGTH counts it (R143). -/
def countIn (s : State) (g : Nat) (w : Option (Nat × Nat)) : State :=
  match w, (group s g).win with
  | some _, some W => setGroup s g { group s g with win := some { W with len := W.len + 1 } }
  | _, _ => s

/-- A sealed data or injected tile reaches the source's queue (R136, R138). A source with no destination frees it at once. -/
def queueTile (s : State) (code : Nat) (t : Tile) (w : Option (Nat × Nat)) : State :=
  let ds := destsOf s code
  if ds.isEmpty then s
  else
    let waits := code < 0x40 && !(group s code).waitWin.isEmpty
    if waits then countDiscard s code t
    else if places (queue s code) < 1024 then appendEntry (countIn s code w) code (.tile t w) ds
    else match makeRoom s code with
      | some s => appendEntry (countIn s code w) code (.tile t w) ds
      | none => countDiscard s code t

/-- Window entries that wait on the write side; a veto-drop entry behind them is made by the read side and is none (R138, R142). -/
def waitCount (G : Group) : Nat := (G.waitWin.filter fun it => !placeless ⟨it, [], false⟩).length

/-- A reservation or fill reaches the group queue: it is never discarded, and waits when no tile can make room (R138); a tile of its
own part that makes room for a fill is not in its LENGTH (R143). -/
def queueWindow (s : State) (g : Nat) (it : QItem) : State :=
  let ds := destsOf s g
  let G := group s g
  if ds.isEmpty then s
  else if !G.waitWin.isEmpty then setGroup s g { G with waitWin := G.waitWin ++ [it] }
  else if places G.queue < 1024 then appendEntry s g it ds
  else match takeVictim G.queue with
    | some ((t, w), q) =>
      appendEntry (countDiscard (uncount (setQueue s g q) g w) g t) g (w.elim it fun k => shorten k.1 k.2 it) ds
    | none => setGroup s g { G with waitWin := G.waitWin ++ [it] }

/-- The veto-drop entry of a closed window: behind the window's entries, also those that still wait on the write side (R142). -/
def queueVetoDrop (s : State) (g count seq : Nat) : State :=
  let ds := destsOf s g
  let G := group s g
  if ds.isEmpty then s
  else if G.waitWin.isEmpty then appendEntry s g (.vetoDrop count seq) ds
  else setGroup s g { G with waitWin := G.waitWin ++ [.vetoDrop count seq] }

/-- Veto-drop entries at the head of the waiting entries need no place and follow at once. -/
def drainVeto (s : State) (g : Nat) : List QItem → State
  | .vetoDrop k q :: r => drainVeto (appendEntry (setGroup s g { group s g with waitWin := r }) g (.vetoDrop k q) (destsOf s g)) g r
  | _ => s

/-- WAITING_WINDOW_ENTRY_WRITE (R138): the oldest waiting window entry takes the first place that is free. -/
def waitingWindowEntryWrite (s : State) (g : Nat) : State :=
  let G := group s g
  match G.waitWin with
  | [] => s
  | it :: r =>
    let ds := destsOf s g
    if ds.isEmpty then setGroup s g { G with waitWin := r }
    else if places G.queue < 1024 then drainVeto (appendEntry (setGroup s g { G with waitWin := r }) g it ds) g r
    else s

def execWaitingWindowEntryWrite (g : Nat) (s : State) : Host.Outcome State Fault Refusal :=
  .next (waitingWindowEntryWrite s g)

/-! ## The read side (R136) -/

/-- The tag of an entry that a read returns (table *Read tag*): VALID, ENTRY, PART, SEQ and NUMBER. -/
def tagWord (it : QItem) : W64 :=
  let tag (entry part seq num : Nat) : W64 :=
    BitVec.ofNat 64 (2 ^ 63 + entry * 2 ^ 60 + part % 256 * 2 ^ 48 + seq % 2 ^ 16 * 2 ^ 32 + num % 2 ^ 32)
  match it with
  | .tile _ _ => tag 0 0 0 0
  | .reservation n p => tag 1 p 0 n
  | .fill n p _ => tag 2 p 0 n
  | .vetoDrop k q => tag 3 0 q k

/-- The nine words that a read returns: the tile of a tile or fill entry, and the tag; with no entry VALID = 0 and zeros (R137).
Words 0 to 7 of a reservation or veto-drop entry, which carry no tile, are zeros (DESIGN CHOICE, log 10). -/
def portWords : Option QItem → List W64
  | none => List.replicate 9 0
  | some it =>
    (match it with
     | .tile t _ => t.hdr :: t.slots
     | .fill _ _ t => t.hdr :: t.slots
     | _ => List.replicate 8 0) ++ [tagWord it]

/-- What the read port returned. -/
def setReadPort (s : State) (ws : List W64) : State := { s with lg := { s.lg with readPort := ws } }

/-- Hand the first entry that destination d has still to take; the entry's place frees when none is left. -/
def takeFirst (d : Dest) : List QEntry → Option (QItem × List QEntry)
  | [] => none
  | e :: r =>
    if e.left.contains d then
      let l := e.left.filter fun x => x ≠ d
      let it := sealItem e.item
      some (it, if l.isEmpty then r else { item := it, left := l, taken := true } :: r)
    else (takeFirst d r).map fun (it, q) => (it, e :: q)

/-- Entries give up destinations that are no longer bound; those with none left free their places (R136). An entry that
leaves untaken is no longer in LENGTH (R143). -/
def pruneEntries (ds : List Dest) : List QEntry → List QEntry × List (Option (Nat × Nat))
  | [] => ([], [])
  | e :: r =>
    let (q, gone) := pruneEntries ds r
    let l := e.left.filter ds.contains
    if l.isEmpty then
      match e.item with
      | .tile _ w => (q, if e.taken then gone else w :: gone)
      | _ => (q, gone)
    else ({ e with left := l } :: q, gone)

/-- One source's binding takes effect. -/
def rebindOne (s : State) (code : Nat) : State :=
  if (queue s code).isEmpty then s
  else
    let (q, gone) := pruneEntries (destsOf s code) (queue s code)
    if q = queue s code then s
    else noteOcc (gone.foldl (fun s w => uncount s code w) (setQueue s code q)) code

/-- Every source's binding takes effect: a ring or stream has started, stopped or changed its sources. A ring or stream
that names a source which a lower-numbered one takes sets its CFG_ERR (R225, R238). -/
def rebind (s : State) : State :=
  let codes := (List.range 0x54).filter (codePresent s)
  let s := forEach codes s rebindOne
  let s := forEach (List.range 16) s fun s r =>
    if codes.any fun c => ringTakes s c r && ((List.range r).any fun q => ringTakes s c q) then sts s (CR_STAT.CFG_ERR r) else s
  forEach (List.range 64) s fun s h =>
    if codes.any fun c => streamTakes s c h && ((List.range h).any fun q => streamTakes s c q) then sts s (PK_STAT.CFG_ERR h) else s

end Sys2Proof.Machine
end

