-- ==== Sys2Proof/Machine/HostRings.lean ====
section
/-! DEFINITION. Host rings, doorbell and completion blocks, command descriptors, interrupts and the writing of notices
(13_host_rings.md R262 to R282). -/

namespace Sys2Proof

/-! ## The fields of a command descriptor (table *Entry layouts*) -/

/-- Bytes of a descriptor, little-endian. -/
def Command.at (c : Command) (o n : Nat) : Nat := Machine.leNat ((c.bytes.drop o).take n)

/-- OPCODE, bytes 0 and 1. -/
def Command.opcode (c : Command) : Nat := c.at 0 2

/-- FLAGS, byte 2: bit 0 is IRQ. -/
def Command.flags (c : Command) : Nat := c.at 2 1

/-- Byte 3, required 0. -/
def Command.rsvd (c : Command) : Nat := c.at 3 1

/-- TAG, bytes 4 to 7. -/
def Command.tag (c : Command) : W32 := BitVec.ofNat 32 (c.at 4 4)

/-- ADDR, bytes 8 to 15. -/
def Command.addr (c : Command) : W64 := BitVec.ofNat 64 (c.at 8 8)

/-- P0, bytes 16 to 23. -/
def Command.p0 (c : Command) : W64 := BitVec.ofNat 64 (c.at 16 8)

/-- P1, bytes 24 to 27. -/
def Command.p1 (c : Command) : W32 := BitVec.ofNat 32 (c.at 24 4)

end Sys2Proof

namespace Sys2Proof.Machine

/-! ## Rings (R262 to R264) -/

def hring (s : State) (r : Nat) : HRing := sget (fun _ => {}) s.host.rings r

def setHring (s : State) (r : Nat) (x : HRing) : State :=
  { s with host := { s.host with rings := sset (fun _ => {}) s.host.rings r x } }

def stream (s : State) (h : Nat) : Stream := sget (fun _ => {}) s.host.streams h

def setStream (s : State) (h : Nat) (x : Stream) : State :=
  { s with host := { s.host with streams := sset (fun _ => {}) s.host.streams h x } }

/-- The device writes host memory. -/
def hostWrite (s : State) (addr : Nat) (bs : List Byte) : State :=
  { s with host := { s.host with mem := mwriteBytes 0 s.host.mem addr bs } }

/-- The device writes an entry or a STATUS word of ring r; until the completion slot is written its failure may still show
(R269, R273). -/
def entryWrite (s : State) (r addr : Nat) (bs : List Byte) : State :=
  let old := mreadBytes 0 s.host.mem addr bs.length
  let s := hostWrite s addr bs
  setHring s r { hring s r with unack := (addr, old) :: (hring s r).unack }

def ringKind (s : State) (r : Nat) : Nat := fld s (HI_RING_CFG.KIND r)
def ringSize (s : State) (r : Nat) : Nat := 2 ^ fld s (HI_RING_CFG.SIZE_LOG2 r)
def ringBase (s : State) (r : Nat) : Nat := pair64 s (HI_RING_BASE_LO.off r) (HI_RING_BASE_HI.off r)
def devIdx (s : State) (r : Nat) : Nat := fld s (HI_RING_IDX.DEV r)
def hostIdx (s : State) (r : Nat) : Nat := fld s (HI_RING_IDX.HOST r)
def running (s : State) (r : Nat) : Bool := flag s (HI_RING_STAT.RUNNING r)
def stopping (s : State) (r : Nat) : Bool := flag s (HI_RING_STAT.STOPPING r)

/-- Host address of the entry that an index names (R263). -/
def entryAddr (s : State) (r idx : Nat) : Nat := ringBase s r + 32 * (idx % ringSize s r)

/-- Entries in use: producer − consumer modulo 2^16 (R263). -/
def inUse (prod cons : Nat) : Nat := (prod + 2 ^ 16 - cons) % 2 ^ 16

def dbBase (s : State) (f : Nat) : Nat := pair64 s (HI_DB_BASE_LO.off f) (HI_DB_BASE_HI.off f)
def cbBase (s : State) (f : Nat) : Nat := pair64 s (HI_CB_BASE_LO.off f) (HI_CB_BASE_HI.off f)

/-- A doorbell or completion base is valid: not 0, and aligned to 4 KiB (map of HI_DB_BASE). -/
def baseOk (b : Nat) : Bool := b ≠ 0 && b % 4096 = 0

/-- The ring's device index advances (R263); an export ring's host index reads as equal to it (R264). The completion slot
is due, and with it the vector when the advance raises it (R269, R276). -/
def advanceDev (s : State) (r : Nat) (irq : Bool) : State :=
  let s := bump s (HI_RING_IDX.DEV r)
  let s := if ringKind s r = 0 then setFld s (HI_RING_IDX.HOST r) (devIdx s r) else s
  let x := hring s r
  setHring s r { x with slotDue := some (devIdx s r), irqDue := x.irqDue || irq }

/-- A ring stops without the steps of R265. -/
def stopNow (s : State) (r : Nat) : State :=
  let s := setFlag (setFlag s (HI_RING_STAT.RUNNING r) false) (HI_RING_STAT.STOPPING r) false
  let s := setFlag s (HI_RING_CMD.STOP r) false
  let s := if ringKind s r = 0 then setStream s r {} else s
  let x := hring s r
  let s := setHring s r { x with starting := false, fetched := false, slotDue := none, irqDue := false, avail := [], cmd := none,
                                    cmdEnd := none, unack := [] }
  if ringKind s r = 0 then rebind s else s

/-- A failed access of the host interface: the ring stops, DMA_ERR is set and notice 0x0303 is posted (R273). -/
def dmaError (s : State) (r addr : Nat) : State :=
  post (sts (stopNow s r) (HI_RING_STAT.DMA_ERR r)) 0x0303 r 0 addr

/-- The grounds on which a START is refused (R264). -/
def startRefused (s : State) (r : Nat) : Bool :=
  let f := ownHostRing s r
  let n := fld s (HI_RING_CFG.SIZE_LOG2 r)
  let p := fld s (HI_RING_CFG.PAIR r)
  running s r || stopping s r || (hring s r).starting || n < 3 || ringBase s r % 4096 ≠ 0 ||
  !baseOk (dbBase s f) || !baseOk (cbBase s f) ||
  (ringKind s r = 0 && (ringKind s p ≠ 2 || ownHostRing s p ≠ f))

/-- HI_RING_START (R264). An export ring's stream begins anew. -/
def hiRingStart (s : State) (a : Access) (r : Nat) (v : W32) : State :=
  cmdWrite s a (HI_RING_CMD.off r) v fun s =>
    if v.getLsbD 31 = false then s
    else if startRefused s r then sts s (HI_RING_STAT.REF r)
    else
      let s := setReg s (HI_RING_IDX.off r) 0
      let s := if ringKind s r = 0 then setReg (setStream s r {}) (PK_BLK_SEQ.off r) 0 else s
      setHring s r { hring s r with starting := true, fetched := false, slotDue := some 0, irqDue := false, avail := [], cmd := none,
                                    cmdEnd := none, unack := [] }

def execHiRingStart (a : Access) (r : Nat) (v : W32) (s : State) : Host.Outcome State Fault Refusal := .next (hiRingStart s a r v)

/-- HI_RING_STOP (R265): a ring that runs, or is being started, is stopping from now on. -/
def hiRingStop (s : State) (a : Access) (r : Nat) (v : W32) : State :=
  cmdWrite s a (HI_RING_CMD.off r) v fun s =>
    if v.getLsbD 30 ∧ (running s r ∨ (hring s r).starting) then
      let s := setFlag (setFlag s (HI_RING_STAT.STOPPING r) true) (HI_RING_CMD.STOP r) true
      if ringKind s r = 0 then rebind s else s
    else s

def execHiRingStop (a : Access) (r : Nat) (v : W32) (s : State) : Host.Outcome State Fault Refusal := .next (hiRingStop s a r v)

/-- The last part of R265: the ring is stopped and its final device index is due in the completion block; a write that it covers may
still fail (R273). -/
def ringEnd (s : State) (r : Nat) : State :=
  let d := devIdx s r
  let x := hring s r
  let s := stopNow s r
  setHring s r { hring s r with slotDue := some d, irqDue := x.irqDue, unack := x.unack }

/-! ## Command descriptors (R270 to R273) -/

/-- The opcodes of the table *Command operations*. -/
def listedOpcode (op : Nat) : Bool :=
  [0x0000, 0x0100, 0x0101, 0x0102, 0x0103, 0x0104, 0x0105, 0x0200, 0x0201, 0x0202, 0x0203, 0x0300, 0x0301, 0x0400].contains op

/-- Bits of P0, P1 and ADDR that an operation gives a meaning (table *Command operations*); the others must be 0. -/
def paramMask (op : Nat) : Nat × Nat × Nat :=
  let all := 2 ^ 64 - 1
  let w := 2 ^ 32 - 1
  match op with
  | 0x0100 => (0x73FFFF003F, 0, 0)
  | 0x0101 => (0x3000003FF, 0, all)
  | 0x0102 => (0x3000003FF, 0, all)
  | 0x0105 => (0x7FFFFF, w, all)
  | 0x0200 => (0xFFF00FF, w, all)
  | 0x0201 => (0x1FFFF000000FF, w, all)
  | 0x0202 => (0x1FFFF000000FF, w, all)
  | 0x0203 => (0xFFFFF00FF01FF, 0, all)
  | 0x0300 => (0x3FFFFFFFFF, w, all)
  | 0x0301 => (0x3FF03FF0003, 0, all)
  | 0x0400 => (all, 0x107FF, all)
  | _ => (0, 0, 0)

/-- A nonzero reserved field of a descriptor (code 0x02). -/
def reservedBad (c : Command) : Bool :=
  let (m0, m1, ma) := paramMask c.opcode
  c.flags / 2 ≠ 0 || c.rsvd ≠ 0 || c.p0.toNat &&& m0 ≠ c.p0.toNat || c.p1.toNat &&& m1 ≠ c.p1.toNat ||
  c.addr.toNat &&& ma ≠ c.addr.toNat

/-- The command ring runs and takes its next descriptor (R271): it has one, no command is in progress, the ring is not
stopping, and its function, which must read the descriptor, is not in D3hot (R260, log 15). -/
def cmdReady (s : State) (c : Command) : Bool :=
  c.ring < 64 && ringKind s c.ring = 1 && running s c.ring && !stopping s c.ring && hostIdx s c.ring ≠ devIdx s c.ring &&
  (hring s c.ring).cmd.isNone && !(fnHost s (ownHostRing s c.ring)).d3hot

/-- STATUS is written and the consumer index passes the descriptor (R271); IRQ raises the ring's vector. -/
def completeCmd (s : State) (c : Command) (outcome code : Nat) : State :=
  let r := c.ring
  let st := 2 ^ 31 + outcome % 256 * 256 + code
  let s := entryWrite s r (entryAddr s r (devIdx s r) + 28) (leBytes st 4)
  let s := setHring s r { hring s r with cmd := none, cmdEnd := none }
  advanceDev s r (c.flags % 2 = 1)

/-- A command that ran over time ends: nothing is written when its ring has stopped without R265 meanwhile, and in D3hot STATUS waits
for the function's return to D0 (R260, log 15). -/
def endCmd (s : State) (c : Option Command) (outcome code : Nat) : State :=
  match c with
  | some c =>
    if (hring s c.ring).cmd = some c then
      if (fnHost s (ownHostRing s c.ring)).d3hot then setHring s c.ring { hring s c.ring with cmdEnd := some (outcome, code) }
      else completeCmd s c outcome code
    else s
  | none => s

/-- The STATUS that a ring's command left waiting is written. -/
def flushCmd (s : State) (r : Nat) : State :=
  match (hring s r).cmd, (hring s r).cmdEnd with
  | some c, some (outcome, code) => completeCmd s c outcome code
  | _, _ => s

/-- Bytes 0 to 7 of a descriptor. -/
def descWord (c : Command) : Nat := c.at 0 8

/-- A refused command: its notice, DESC_ERR for codes 0x02 and 0x03, and its STATUS; nothing else changes (R271). -/
def refuseCmdWith (s : State) (c : Command) (outcome code : Nat) : State :=
  let s := post s 0x0301 c.ring code (devIdx s c.ring + 2 ^ 64 * descWord c)
  let s := if code = 2 ∨ code = 3 then sts s (HI_RING_STAT.DESC_ERR c.ring) else s
  completeCmd s c outcome code

def refuseCmd (s : State) (c : Command) (code : Nat) : State := refuseCmdWith s c 0 code

/-- A read of the host buffer failed: code 0x08 and notice 0x0303 (R273). -/
def dmaFailCmd (s : State) (c : Command) : State := completeCmd (post s 0x0303 c.ring 0 c.addr.toNat) c 0 8

/-- A command of one operation reaches its ring's head: reserved fields first. -/
def runCmd (s : State) (c : Command) (op : Nat) (k : State → State) : State :=
  if cmdReady s c = false ∨ c.opcode ≠ op then s
  else if reservedBad c then refuseCmd s c 2
  else k s

/-- A command that runs over time holds its ring. -/
def holdCmd (s : State) (c : Command) : State := setHring s c.ring { hring s c.ring with cmd := some c }

/-- A field of P0. -/
def p0f (c : Command) (msb lsb : Nat) : Nat := wbits c.p0 msb lsb

/-- The partition whose units a command may name: its ring's function. -/
def cmdPart (s : State) (c : Command) : Nat := ownHostRing s c.ring

/-- NOP (table *Command operations*). -/
def nop (s : State) (c : Command) : State := runCmd s c 0 fun s => completeCmd s c 0 1

def execNop (c : Command) (s : State) : Host.Outcome State Fault Refusal := .next (nop s c)

/-- UNKNOWN_OPCODE (R271): an unlisted opcode, or a nonzero reserved field, is refused with code 0x02. -/
def unknownOpcode (s : State) (c : Command) : State :=
  if cmdReady s c ∧ (listedOpcode c.opcode = false ∨ reservedBad c) then refuseCmd s c 2 else s

def execUnknownOpcode (c : Command) (s : State) : Host.Outcome State Fault Refusal := .next (unknownOpcode s c)

/-! ## Doorbells (R266 to R268) -/

/-- The active interval in units of 625 ps, within its limits (HI_DB_CFG). -/
def activeInterval (s : State) (f : Nat) : Nat := max 10 (min 6400 (fld s (HI_DB_CFG.ACTIVE f))) * 16

/-- The interval to the next fetch. -/
def fetchInterval (s : State) (f : Nat) : Nat :=
  if (fnHost s f).interval = 0 then activeInterval s f else (fnHost s f).interval

/-- The running rings of a function whose doorbell slot the device uses. -/
def doorRings (s : State) (f : Nat) : List Nat :=
  (List.range 64).filter fun r => running s r && ownHostRing s r = f && ringKind s r ≠ 0

/-- An index beyond the ring's size stops the ring at once (R266). -/
def indexError (s : State) (r host : Nat) : State :=
  let d := devIdx s r
  post (sts (stopNow s r) (HI_RING_STAT.IDX_ERR r)) 0x0302 r 0 (host + 2 ^ 16 * d)

/-- Entries in use if the host index were `host`: the host produces a command or free-buffer ring and consumes a notice
ring (R263, R267). -/
def useWith (s : State) (r host : Nat) : Nat :=
  if ringKind s r = 3 then inUse (devIdx s r) host else inUse host (devIdx s r)

/-- The list that an association gives for a key. -/
def assoc {α : Type} (d : α) : List (Nat × α) → Nat → α
  | [], _ => d
  | (k, v) :: r, x => if k = x then v else assoc d r x

/-- ADDR and TAG of a free-buffer descriptor (table *Entry layouts*); its zero fields are not looked at, and ADDR is taken as it
stands (log 37). -/
def bufEntry (bs : List Byte) : Nat × W32 := (leNat (bs.take 8), BitVec.ofNat 32 (leNat ((bs.drop 8).take 4)))

/-- One ring takes its fetched host index: the check of R266, then the descriptors that the index now covers. A free-buffer
ring holds as many descriptors as the indices cover, those read now after those it holds (R274); a read of descriptors that
fails stops the ring (R273). -/
def takeIndex (s : State) (r host : Nat) (fails : Bool) (bufs : List (List Byte)) : State :=
  if ringSize s r < useWith s r host then indexError s r host
  else
    let n := inUse host (devIdx s r)
    let s := setFld s (HI_RING_IDX.HOST r) host
    let x := hring s r
    let held := (x.avail ++ bufs.map bufEntry).take n
    let avail := if ringKind s r = 2 then held ++ List.replicate (n - held.length) (0, 0) else []
    let s := setHring s r { x with fetched := true, avail := avail }
    if fails ∧ ringKind s r ≠ 3 ∧ host ≠ devIdx s r then
      let d := devIdx s r
      let (k, s) := takeFree s
      post (sts (stopNow s r) (HI_RING_STAT.DMA_ERR r)) 0x0301 r 8 (d + 2 ^ 64 * (Config.badWord k).toNat)
    else s

/-- A fetch has been made: the interval goes on or backs off (R268). -/
def afterFetch (s : State) (f : Nat) (changed : Bool) : State :=
  let x := fnHost s f
  let n := max 1 (fld s (HI_DB_CFG.IDLE_N f))
  let x := { x with fetchAt := s.now, kick := false }
  if changed then setFnHost s f { x with interval := 0, idle := 0 }
  else
    let i := x.idle + 1
    let iv := if n < i then min (2 * fetchInterval s f) (usTicks 64) else x.interval
    setFnHost s f { x with idle := i, interval := iv }

/-- DOORBELL_FETCH (R268): `slots` are the host indices read, by ring; `bufs` the free-buffer descriptors that they cover;
`bad` the rings whose descriptors could not be read. -/
def doorbellFetch (s : State) (f : Nat) (ok : Bool) (slots : List (Nat × Nat)) (bad : List Nat)
    (bufs : List (Nat × List (List Byte))) : State :=
  let rs := doorRings s f
  let any := (List.range 64).any fun r => running s r && ownHostRing s r = f
  let x := fnHost s f
  if 8 ≤ f ∨ x.d3hot ∨ flag s (HI_DB_CFG.EN f) = false ∨ any = false ∨ (x.kick = false ∧ s.now < x.fetchAt + fetchInterval s f) then s
  else if ok then
    let idx (r : Nat) : Nat := assoc (hostIdx s r) slots r % 2 ^ 16
    let changed := rs.any fun r => idx r ≠ hostIdx s r
    let s := forEach rs s fun s r => takeIndex s r (idx r) (bad.contains r) (assoc [] bufs r)
    afterFetch s f changed
  else
    let s := sts s (HI_FN_STAT.DMA_ERR f)
    let b := dbBase s f
    afterFetch (forEach rs s fun s r => dmaError s r b) f false

def execDoorbellFetch (f : Nat) (ok : Bool) (slots : List (Nat × Nat)) (bad : List Nat)
    (bufs : List (Nat × List (List Byte))) (s : State) : Host.Outcome State Fault Refusal :=
  .next (doorbellFetch s f ok slots bad bufs)

/-- HI_KICK (R268). -/
def hiKick (s : State) (a : Access) (f : Nat) (v : W32) : State :=
  cmdWrite s a (HI_KICK.off f) v fun s =>
    if v.getLsbD 0 then setFnHost s f { fnHost s f with interval := 0, idle := 0, kick := true } else s

def execHiKick (a : Access) (f : Nat) (v : W32) (s : State) : Host.Outcome State Fault Refusal := .next (hiKick s a f v)

/-! ## Completion slots and interrupts (R269, R276) -/

/-- Vector v of function f. -/
def msixVec (s : State) (f v : Nat) : MsixVec := sget (fun _ => {}) (fnHost s f).msix v

def setMsixVec (s : State) (f v : Nat) (x : MsixVec) : State :=
  setFnHost s f { fnHost s f with msix := sset (fun _ => {}) (fnHost s f).msix v x }

/-- A message of vector v of function f is sent. -/
def vectorMsg (s : State) (f v : Nat) : State :=
  let x := fnHost s f
  setFnHost s f { x with raised := sset (fun _ => 0) x.raised v (sget (fun _ => 0) x.raised v + 1) }

/-- Vector v of function f is masked: by its own bit, the Function Mask or, as a function in D3hot sends no message, that state
(R276, PCIe). -/
def vectorMasked (s : State) (f v : Nat) : Bool := (msixVec s f v).ctrl.getLsbD 0 || (fnHost s f).msixMask || (fnHost s f).d3hot

/-- Vector v of function f is raised: its message is sent, or under a mask its PBA bit sets (R276).  With MSI-X not enabled there is
neither (log 15). -/
def raiseVector (s : State) (f v : Nat) : State :=
  if (fnHost s f).msixEn = false then s
  else if vectorMasked s f v then setMsixVec s f v { msixVec s f v with pending := true } else vectorMsg s f v

/-- The messages of function f that wait and are masked no longer are sent. -/
def releaseVectors (s : State) (f : Nat) : State :=
  forEach (List.range 32) s fun s v =>
    if (fnHost s f).msixEn ∧ (msixVec s f v).pending ∧ vectorMasked s f v = false then
      vectorMsg (setMsixVec s f v { msixVec s f v with pending := false }) f v
    else s

/-- A write of BAR2 at an offset (R260): words 0 to 3 of the MSI-X table's entries of 16 bytes; the PBA at 0x2000 takes none.
A vector whose mask clears sends the message that waits (R276). -/
def bar2Write (s : State) (f off : Nat) (v : W32) : State :=
  let n := off / 16
  if 32 ≤ n then s
  else
    let x := msixVec s f n
    match off % 16 / 4 with
    | 0 => setMsixVec s f n { x with addr := BitVec.ofNat 64 (withBits x.addr.toNat 31 0 v.toNat) }
    | 1 => setMsixVec s f n { x with addr := BitVec.ofNat 64 (withBits x.addr.toNat 63 32 v.toNat) }
    | 2 => setMsixVec s f n { x with data := v }
    | _ => releaseVectors (setMsixVec s f n { x with ctrl := v &&& 1 }) f

/-- What a read of BAR2 at an offset returns. -/
def bar2Read (s : State) (f off : Nat) : W32 :=
  let x := msixVec s f (off / 16)
  if off / 16 < 32 then
    match off % 16 / 4 with
    | 0 => BitVec.ofNat 32 x.addr.toNat
    | 1 => BitVec.ofNat 32 (x.addr.toNat / 2 ^ 32)
    | 2 => x.data
    | _ => x.ctrl
  else if off = 0x2000 then BitVec.ofNat 32 (bitsWhere fun i => (msixVec s f i).pending)
  else 0

/-! ## Configuration space (R260, R276; log 15) -/

/-- What every function reports in its configuration space (R260, table *PCIe support*). -/
structure PcieId where
  vendor : Nat
  device : Nat
  revision : Nat
  classCode : Nat
  subVendor : Nat
  subsystem : Nat
  deriving DecidableEq, Repr

/-- The identity that the functions report: the variant gives the Device ID, the Armature the Subsystem ID (R260, R392). -/
def pcieId (s : State) : PcieId :=
  { vendor := 0x1F3C, device := if s.ft0512 then 0xF051 else 0xF124, revision := 0x11, classCode := 0x118000, subVendor := 0x1F3C,
    subsystem := deviceId s }

/-- The ring's vector is raised. -/
def sendMsi (s : State) (r : Nat) : State :=
  let s := raiseVector s (ownHostRing s r) (fld s (HI_RING_CFG.VEC r))
  setHring s r { hring s r with raise := false, deferred := false, raisedAt := some s.now }

/-- The moderation time of a ring's last raise still runs (R276). -/
def moderated (s : State) (r : Nat) : Bool :=
  match (hring s r).raisedAt with
  | some t => decide (s.now < t + usTicks (fld s (HI_RING_CFG.MOD r)))
  | none => false

/-- MSIX_RAISE (R276): the vector is raised, or deferred to the end of the moderation time. -/
def msixRaise (s : State) (r : Nat) : State :=
  let x := hring s r
  if x.raise = false then s
  else if moderated s r then setHring s r { x with raise := false, deferred := true }
  else sendMsi s r

def execMsixRaise (r : Nat) (s : State) : Host.Outcome State Fault Refusal := .next (msixRaise s r)

/-- INTERRUPT_MOD_EXPIRY (R276). -/
def interruptModExpiry (s : State) (r : Nat) : State :=
  if (hring s r).deferred ∧ moderated s r = false then sendMsi s r else s

def execInterruptModExpiry (r : Nat) (s : State) : Host.Outcome State Fault Refusal := .next (interruptModExpiry s r)

/-! ## Notices (R277 to R280) -/

/-- The 32 bytes of a notice record (R277). -/
def noticeBytes (n : Notice) (seq : Nat) : List Byte :=
  leBytes (n.ty % 2 ^ 16 + n.source % 2 ^ 16 * 2 ^ 16 + seq % 2 ^ 16 * 2 ^ 32 + n.aux % 256 * 2 ^ 48 + min n.merged 255 * 2 ^ 56) 8 ++
  leBytes n.t.toNat 8 ++ leBytes n.data.toNat 16

/-- NOTICE_WRITE (R278): the oldest notice of a function, once it has been held for HOLD µs and its ring has a free entry. A
failed write leaves it queued and stops the ring (R273). -/
def noticeWrite (s : State) (f : Nat) (ok : Bool) : State :=
  let s := queueOverflow s f
  let x := fnHost s f
  let r := fld s (IR_NCFG.RING f)
  match x.nq with
  | [] => s
  | n :: rest =>
    if 8 ≤ f ∨ x.d3hot ∨ flag s (IR_NCFG.EN f) = false ∨ s.now < n.at_ + usTicks (fld s (IR_NCFG.HOLD f)) then s
    else if ownHostRing s r ≠ f ∨ ringKind s r ≠ 3 then sts s (IR_NSTAT.RING_ERR f)
    else if running s r = false ∨ stopping s r ∨ (hring s r).fetched = false ∨
        ringSize s r ≤ inUse (devIdx s r) (hostIdx s r) then s
    else
      let at_ := entryAddr s r (devIdx s r)
      if ok then
        let s := hostWrite s at_ (noticeBytes n (fld s (IR_NSEQ.SEQ f)))
        let s := bump (setFnHost s f { x with nq := rest }) (IR_NSEQ.SEQ f)
        queueOverflow (advanceDev s r true) f
      else dmaError s r at_

def execNoticeWrite (f : Nat) (ok : Bool) (s : State) : Host.Outcome State Fault Refusal := .next (noticeWrite s f ok)

/-! ## Resets of the host interface (R282, R399) -/

/-- FUNCTION_LEVEL_RESET (R282). -/
def functionLevelReset (s : State) (f : Nat) : State :=
  if fnExists s f = false then s
  else
    let s := forEach ((List.range 64).filter fun r => ownHostRing s r = f) s stopNow
    let s := setPair64 (setPair64 s (HI_DB_BASE_LO.off f) (HI_DB_BASE_HI.off f) 0) (HI_CB_BASE_LO.off f) (HI_CB_BASE_HI.off f) 0
    let s := setFlag s (HI_DB_CFG.EN f) false
    setFnHost s f { fnHost s f with nq := [], msix := [], msixEn := false, msixMask := false, d3hot := false, bar0 := 0, bar2 := 0,
                                    maxRead := 2, interval := 0, idle := 0 }

def execFunctionLevelReset (f : Nat) (s : State) : Host.Outcome State Fault Refusal := .next (functionLevelReset s f)

/-- Function f returns to D0: its messages that wait are sent, and its commands that ended meanwhile write STATUS (log 15). -/
def toD0 (s : State) (f : Nat) : State :=
  let s := releaseVectors (setFnHost s f { fnHost s f with d3hot := false }) f
  forEach ((List.range 64).filter fun r => ownHostRing s r = f) s flushCmd

/-- A BAR takes its low or high word; `n` bits of its address are 0. -/
def setBar (x : W64) (n : Nat) (high : Bool) (v : W32) : W64 :=
  let y := if high then withBits x.toNat 63 32 v.toNat else withBits x.toNat 31 0 v.toNat
  BitVec.ofNat 64 (y / 2 ^ n * 2 ^ n)

/-- Device Control of the PCIe capability: sizes that R260 does not support change nothing; bit 15 is Initiate Function Level Reset. -/
def setDevControl (s : State) (f : Nat) (v : W32) : State :=
  let x := fnHost s f
  let p := bitsOf v.toNat 7 5
  let q := bitsOf v.toNat 14 12
  let s := setFnHost s f { x with maxPayload := if p ≤ 2 then p else x.maxPayload, maxRead := if q ≤ 5 then q else x.maxRead }
  if v.getLsbD 15 then functionLevelReset s f else s

/-- A write of function f's configuration space: the BARs at 0x10 to 0x1C, the power state at 0x44, Device Control at 0x78, the MSI-X
Message Control at 0xB0, and AER at 0x104 to 0x114, whose status bits clear where 1 is written. -/
def cfgWrite (s : State) (f off : Nat) (v : W32) : State :=
  let x := fnHost s f
  match off with
  | 0x10 => setFnHost s f { x with bar0 := setBar x.bar0 22 false v }
  | 0x14 => setFnHost s f { x with bar0 := setBar x.bar0 22 true v }
  | 0x18 => setFnHost s f { x with bar2 := setBar x.bar2 14 false v }
  | 0x1C => setFnHost s f { x with bar2 := setBar x.bar2 14 true v }
  | 0x44 =>
    match v.toNat % 4 with
    | 0 => toD0 s f
    | 3 => setFnHost s f { x with d3hot := true }
    | _ => s
  | 0x78 => setDevControl s f v
  | 0xB0 => releaseVectors (setFnHost s f { x with msixEn := v.getLsbD 31, msixMask := v.getLsbD 30 }) f
  | 0x104 => setFnHost s f { x with aer := { x.aer with ueStat := x.aer.ueStat &&& ~~~v } }
  | 0x108 => setFnHost s f { x with aer := { x.aer with ueMask := v } }
  | 0x10C => setFnHost s f { x with aer := { x.aer with ueSev := v } }
  | 0x110 => setFnHost s f { x with aer := { x.aer with ceStat := x.aer.ceStat &&& ~~~v } }
  | 0x114 => setFnHost s f { x with aer := { x.aer with ceMask := v } }
  | _ => s

/-- What a read of function f's configuration space returns: a BAR shows its type, 64-bit and not prefetchable, in its low bits. -/
def cfgRead (s : State) (f off : Nat) : W32 :=
  let x := fnHost s f
  let i := pcieId s
  match off with
  | 0x00 => BitVec.ofNat 32 (i.vendor + i.device * 2 ^ 16)
  | 0x08 => BitVec.ofNat 32 (i.revision + i.classCode * 2 ^ 8)
  | 0x10 => BitVec.ofNat 32 (x.bar0.toNat + 4)
  | 0x14 => BitVec.ofNat 32 (x.bar0.toNat / 2 ^ 32)
  | 0x18 => BitVec.ofNat 32 (x.bar2.toNat + 4)
  | 0x1C => BitVec.ofNat 32 (x.bar2.toNat / 2 ^ 32)
  | 0x2C => BitVec.ofNat 32 (i.subVendor + i.subsystem * 2 ^ 16)
  | 0x34 => 0x40
  | 0x40 => 0x37001
  | 0x44 => if x.d3hot then 3 else 0
  | 0x70 => 0x2B010
  | 0x74 => 0x10008002
  | 0x78 => BitVec.ofNat 32 (x.maxPayload * 2 ^ 5 + x.maxRead * 2 ^ 12)
  | 0x7C => 0x105
  | 0x80 => BitVec.ofNat 32 (fld s HI_LINK_STAT.SPEED * 2 ^ 16 + fld s HI_LINK_STAT.WIDTH * 2 ^ 20)
  | 0xB0 => BitVec.ofNat 32 (bit1 x.msixEn * 2 ^ 31 + bit1 x.msixMask * 2 ^ 30 + 31 * 2 ^ 16 + 0x11)
  | 0xB4 => 2
  | 0xB8 => 0x2002
  | 0x100 => 0x20001
  | 0x104 => x.aer.ueStat
  | 0x108 => x.aer.ueMask
  | 0x10C => x.aer.ueSev
  | 0x110 => x.aer.ceStat
  | 0x114 => x.aer.ceMask
  | _ => 0

/-- The trained PCIe link, as HI_LINK_STAT reports it. -/
def setLink (s : State) (width speed : Nat) : State :=
  setFld (setFld s HI_LINK_STAT.WIDTH width) HI_LINK_STAT.SPEED speed

/-- A hot reset of function f: a Function Level Reset, and Max_Payload_Size, which the latter keeps, with it (log 15). -/
def hotResetFn (s : State) (f : Nat) : State :=
  let s := functionLevelReset s f
  setFnHost s f { fnHost s f with maxPayload := 0 }

/-- PCIE_HOT_RESET (R402): HI and IR of every function, as a Function Level Reset of each; the link retrains, to the width and
speed that the operands give. -/
def pcieHotReset (s : State) (width speed : Nat) : State :=
  setLink (forEach (List.range 8) s hotResetFn) width speed

def execPcieHotReset (width speed : Nat) (s : State) : Host.Outcome State Fault Refusal := .next (pcieHotReset s width speed)

end Sys2Proof.Machine
end

