-- ==== Sys2Proof/Machine/Calibration.lean ====
section
/-! DEFINITION. Bin-width tables (04_bin_tables.md R69 to R91): interpolation, staging builds and swaps, start-up, the
calibration operations and the two-slot store. -/

namespace Sys2Proof.Machine

/-! ## Working sets (R69, R81) -/

/-- Working set k of lane n. -/
def workSet (s : State) (n k : Nat) : List Nat := sget (fun _ => nominalSet) s.cal.sets (3 * n + k)

/-- Set k of lane n is still marked nominal (R81). -/
def isNominal (s : State) (n k : Nat) : Bool := sget (fun _ => true) s.cal.nominal (3 * n + k)

/-- Replace a working set and its nominal mark. -/
def putSet (s : State) (n k : Nat) (w : List Nat) (nominal : Bool) : State :=
  { s with cal := { s.cal with sets := sset (fun _ => nominalSet) s.cal.sets (3 * n + k) w,
                               nominal := sset (fun _ => true) s.cal.nominal (3 * n + k) nominal } }

/-! ## Interpolation (R73) and the checks (R85) -/

/-- One interpolated entry. -/
def interpEntry (lo hi : Nat) (dt : Int) : Nat :=
  let w := Int.ofNat lo + ((Int.ofNat hi - Int.ofNat lo) * dt + 1120) / 2240
  (max 0 (min w 4095)).toNat

/-- The lower set of the span and its temperature (R73). -/
def spanOf (t : Int) : Nat × Int := if t ≤ 3840 then (0, 1600) else (1, 3840)

/-- The table of a lane for a temperature (R73). -/
def interpTable (s : State) (n : Nat) (t : Int) : List Nat :=
  let (k, t0) := spanOf t
  List.zipWith (fun a b => interpEntry a b (t - t0)) (workSet s n k) (workSet s n (k + 1))

/-- Three consecutive zero entries (check 2). -/
def zeroRun : List Nat → Bool
  | 0 :: 0 :: 0 :: _ => true
  | _ :: r => zeroRun r
  | [] => false

/-- Failed checks 1 to 3 as bits 0 to 2 (table *Plausibility checks*). -/
def checks13 (w : List Nat) : Nat :=
  let S := w.sum
  (if 521667 ≤ S ∧ S ≤ 526909 then 0 else 1) + (if zeroRun w then 2 else 0) +
  (if w.all fun x => 128 * x ≤ S then 0 else 4)

/-- χ² of check 4 as an exact fraction. -/
def chiSquare (hA hB : List Nat) : Rat :=
  (List.zipWith (fun a b =>
    if a + b = 0 then (0 : Rat)
    else mkRat ((Int.ofNat a - Int.ofNat b) ^ 2) (a + b)) hA hB).foldl (· + ·) 0

/-- The candidate set of two half-histograms (R84). -/
def candidate (hA hB : List Nat) (H : Nat) : List Nat :=
  List.zipWith (fun a b => min 4095 (((a + b) * 2 ^ 20 + H) / (2 * H))) hA hB

/-! ## Lane results and ownership -/

/-- CA_LANE_RES of a lane. -/
def laneRes (s : State) (n chi set checks outcome : Nat) : State :=
  setReg s (CA_LANE_RES.off n) (BitVec.ofNat 32 (min chi 0xFFFF * 2 ^ 16 + set * 2 ^ 10 + checks * 2 ^ 4 + outcome))

/-- A calibration notice, when CA_CFG.NOTICE_EN = 1. -/
def calNotice (s : State) (ty source aux data : Nat) : State :=
  if flag s CA_CFG.NOTICE_EN then post s ty source aux data else s

/-! ## Temperature of a group (R71) -/

/-- The temperature that drives a group: TOVR, or the latest delivery if there was one. -/
def groupTemp (s : State) (g : Nat) : Option Int :=
  if flag s (CA_GRP_CFG.TOVR_EN g) then some (sfld s (CA_GRP_CFG.TOVR g))
  else if (calGroup s g).delivered then some (sfld s (CA_GRP_TEMP.TEMP g))
  else none

/-! ## Builds (R76, R80) -/

/-- A build for temperature t begins; the staging table that it overwrites is no longer complete, unless a boundary has already
fallen whose swap is still to be reported (R77). -/
def startBuild (s : State) (g : Nat) (t : Int) (firstTable : Bool) : State :=
  let lanes := (List.range 16).map fun i => 16 * g + i
  let k := (spanOf t).1
  let st : Staging :=
    { temp := t, tables := lanes.map fun n => interpTable s n t,
      nominal := lanes.any fun n => isNominal s n k || isNominal s n (k + 1), startEdge := s.pl.edge, firstTable := firstTable }
  let keep := swapDue s g
  let s := setCalGroup s g { calGroup s g with building := some st, staged := keep, again := false }
  setFlag (setFlag s (CA_GRP_STAT.BUILDING g) true) (CA_GRP_STAT.STAGED g) keep.isSome

/-- The group's first table is in place, or is being built: triggers of R76 act. -/
def tableUp (s : State) (g : Nat) : Bool := (calGroup s g).first || (calGroup s g).building.isSome

/-- A delivered temperature is 16 units or more from that of the newest build (R76). -/
def tempMoved (s : State) (g : Nat) : Bool :=
  match groupTemp s g, (calGroup s g).tUsed with
  | some t, some u => decide (16 ≤ (t - u).natAbs)
  | some _, none => true
  | none, _ => false

/-- A delivery may trigger a build (R76): deliveries choose nothing while TOVR_EN = 1. -/
def deliveryTrigger (s : State) (g : Nat) : State :=
  let C := calGroup s g
  if flag s (CA_GRP_CFG.TOVR_EN g) ∨ C.first = false ∨ C.building.isSome ∨ tempMoved s g = false then s
  else match groupTemp s g with
    | some t => startBuild s g t false
    | none => s

/-- A configuration change or a replaced working set triggers a build, once a temperature is known; during a build the
trigger is judged at its end (R76). -/
def forcedTrigger (s : State) (g : Nat) : State :=
  let C := calGroup s g
  if C.building.isSome then setCalGroup s g { C with again := true }
  else if C.first = false then s
  else match groupTemp s g with
    | some t => startBuild s g t false
    | none => s

/-- A lane's active table (R70). -/
def setActive (s : State) (n : Nat) (w : List Nat) : State :=
  { s with cal := { s.cal with active := sset (fun _ => nominalSet) s.cal.active n w } }

/-- Sixteen tables become active together. -/
def setActives (s : State) (g : Nat) (ws : List (List Nat)) : State :=
  forEach (List.range 16) s fun s i => setActive s (16 * g + i) (ws.getD i nominalSet)

/-- A table becomes active: T_USED and EXTRAP follow. -/
def activate (s : State) (g : Nat) (t : Int) (ws : List (List Nat)) (flagged : Bool) : State :=
  let s := setActives s g ws
  let s := setFld s (CA_GRP_STAT.T_USED g) (wrapInt 16 t)
  let s := setFlag s (CA_GRP_STAT.EXTRAP g) (extrapolated t || flagged)
  setCalGroup s g { calGroup s g with first := true, flagged := flagged }

/-! ## NOT_READY (R52, R80, R100, R105) -/

/-- A lane-group stream starts: its epoch marker, and after a wake the sleep-gap marker (R100, R412). -/
def startStream (s : State) (g : Nat) : State :=
  let s := setGroup s g { group s g with ready := true }
  let s := groupMark s g clsEpoch (epochWord (tNow s))
  match s.pl.gap with
  | some (t, e) => groupMark s g clsSleep (sleepGapWord e t)
  | none => s

/-- The group's lanes leave NOT_READY once a first table is active and ORIGIN_WAIT is 0 (R80, R105). -/
def releaseLanes (s : State) (g : Nat) : State :=
  if (calGroup s g).first ∧ (group s g).ready = false ∧ flag s PL_CTRL.ORIGIN_WAIT = false then startStream s g else s

/-- The first case of R80: a copy of S60 is active, flagged quality 11. -/
def firstS60 (s : State) (g : Nat) : State :=
  releaseLanes (activate s g 3840 ((List.range 16).map fun i => workSet s (16 * g + i) 1) true) g

/-- The first table of a group at the end of the start-up load (R80). -/
def firstTableOf (s : State) (g : Nat) : State :=
  match groupTemp s g with
  | some t => startBuild s g t true
  | none => firstS60 (setFlag s (CA_GRP_STAT.TEMP_WAIT g) true) g

/-- The staleness interval counts from now, unless TOVR_EN = 1 or the present gap in deliveries has been reported (R72). -/
def restartStale (s : State) (g : Nat) : State :=
  let C := calGroup s g
  setCalGroup s g { C with staleFrom := if flag s (CA_GRP_CFG.TOVR_EN g) || C.staleSeen then none else some s.now }

/-! ## Deliveries (R71, R72, R353) -/

/-- One delivery to a group. -/
def deliverTo (s : State) (g : Nat) (t : Int) : State :=
  let s := setFld s (CA_GRP_TEMP.TEMP g) (wrapInt 16 t)
  let C := calGroup s g
  let m := C.measure.map fun m =>
    if collecting s m then { m with temps := some ((m.temps.map fun x => (min x.1 t, max x.2 t)).getD (t, t)) } else m
  let s := setCalGroup s g { C with delivered := true, measure := m, staleSeen := false }
  let s := setFlag s (CA_GRP_STAT.TEMP_WAIT g) false
  deliveryTrigger (restartStale s g) g

/-- TEMP_DELIVERY (R71, R353): the oldest sensor value on its way reaches every group whose TSEL names its sensor. -/
def tempDelivery (s : State) : State :=
  match s.mon.temps with
  | [] => s
  | (n, t) :: r =>
    let s := { s with mon := { s.mon with temps := r } }
    forEach ((List.range (nGroups s)).filter fun g => fld s (CA_GRP_CFG.TSEL g) = n) s fun s g => deliverTo s g t

def execTempDelivery (s : State) : Host.Outcome State Fault Refusal := .next (tempDelivery s)

/-- TEMP_STALE_EXPIRY (R72). -/
def tempStaleExpiry (s : State) (g : Nat) : State :=
  match (calGroup s g).staleFrom with
  | some t =>
    if nGroups s ≤ g ∨ s.now < t + msTicks (max 1 (fld s CA_CFG.STALE_MS)) then s
    else
      let s := setCalGroup s g { calGroup s g with staleFrom := none, staleSeen := true }
      calNotice (sts s (CA_GRP_STAT.TEMP_STALE g)) 0x0901 g 0 (fld s (CA_GRP_TEMP.TEMP g))
  | none => s

def execTempStaleExpiry (g : Nat) (s : State) : Host.Outcome State Fault Refusal := .next (tempStaleExpiry s g)

/-! ## The end of a build (R76, R80, R85) -/

/-- Lanes of a build that fail checks 1 to 3, as a mask. -/
def failMask : Nat → List (List Nat) → Nat
  | _, [] => 0
  | i, w :: r => (if checks13 w = 0 then 0 else 2 ^ i) + failMask (i + 1) r

/-- Report the failing lanes of a staging copy (R85, R80). -/
def rejectBuild (s : State) (g : Nat) (st : Staging) : State :=
  let m := failMask 0 st.tables
  let s := forEach ((List.range 16).filter m.testBit) s fun s i =>
    laneRes s (16 * g + i) 0 3 (checks13 (st.tables.getD i [])) 9
  calNotice (sts s (CA_GRP_STAT.INTERP_FAIL g)) 0x0903 g 0 m

/-- TABLE_BUILD_COMPLETE (R76, R80): the copy is staged, or made active as a first table, or rejected; the temperature is
then judged again.  A boundary that has fallen is reported before a build that ends after it (R77). -/
def tableBuildComplete (s : State) (g : Nat) : State :=
  match (calGroup s g).building with
  | none => s
  | some st =>
    if s.pl.frameT.isSome ∧ st.firstTable = false then s else
    let ok := failMask 0 st.tables = 0
    let again := (calGroup s g).again
    let s := setCalGroup s g { calGroup s g with building := none, tUsed := some st.temp, again := false }
    let s := setFlag s (CA_GRP_STAT.BUILDING g) false
    let s :=
      if ok then
        if st.firstTable then releaseLanes (activate s g st.temp st.tables st.nominal) g
        else setFlag (setCalGroup s g { calGroup s g with staged := some st }) (CA_GRP_STAT.STAGED g) true
      else
        let s := rejectBuild s g st
        if st.firstTable then firstS60 s g else s
    if again then forcedTrigger s g else deliveryTrigger s g

def execTableBuildComplete (g : Nat) (s : State) : Host.Outcome State Fault Refusal := .next (tableBuildComplete s g)

/-! ## Calibration-frame boundaries (R76 to R78) -/

/-- A group swaps its complete staging copy in at a boundary whose edge has T = t (R77, R78). -/
def swapGroup (s : State) (g t : Nat) : State :=
  match (calGroup s g).staged with
  | none => s
  | some st =>
    let s := setCalGroup s g { calGroup s g with staged := none }
    let s := setFlag s (CA_GRP_STAT.STAGED g) false
    let s := inc (activate s g st.temp st.tables st.nominal) (CA_GRP_SWAP_CNT.COUNT g)
    groupMark s g clsSwap (markWord 4 0 t)

/-- A committed CA_GRP_CFG comes into force: a change triggers a build, and every application of TOVR_EN = 0 restarts
staleness (R72, R76). -/
def applyCaGroup (s : State) (g : Nat) : State :=
  let old := reg s (CA_GRP_CFG.off g)
  let s := restartStale (applyRegs s (.caGrp g)) g
  if reg s (CA_GRP_CFG.off g) = old then s else forcedTrigger s g

/-- CAL_FRAME_BOUNDARY (R76, R77, R299): the boundary is numbered, complete copies swap in, CA configuration applies, and at
even numbers an integrity scan starts. -/
def calFrameBoundary (s : State) : State :=
  match s.pl.frameT with
  | none => s
  | some t =>
    let k := s.pl.edge / 2 ^ 20
    let s := { s with pl := { s.pl with frameT := none } }
    let s := setPair64 (setFld s CA_FRAME_CNT.COUNT k) CA_FRAME_T_LO.off CA_FRAME_T_HI.off t.toNat
    let s := forEach (List.range (nGroups s)) s fun s g => swapGroup s g t.toNat
    let s := if isWaiting s .caCfg then applyRegs s .caCfg else s
    let s := forEach ((List.range (nGroups s)).filter fun g => isWaiting s (.caGrp g)) s applyCaGroup
    if k % 2 = 0 then scanStart s else s

def execCalFrameBoundary (s : State) : Host.Outcome State Fault Refusal := .next (calFrameBoundary s)

/-! ## Store packing (R87) -/

/-- Entries in store packing: two 12-bit entries in three bytes. -/
def packSet : List Nat → List Byte
  | a :: b :: r => leBytes (a % 4096 + 4096 * (b % 4096)) 3 ++ packSet r
  | [a] => leBytes (a % 4096) 3
  | [] => []

/-- 512 entries from 768 bytes. -/
def unpackSet (bs : List Byte) : List Nat :=
  (List.range 256).flatMap fun m =>
    let v := leNat ((bs.drop (3 * m)).take 3)
    [v % 4096, v / 4096]

/-! ## CAL_MEASURE (R83 to R86) -/

/-- The nominal temperature of set k. -/
def setTemp (k : Nat) : Int := 1600 + 2240 * Int.ofNat k

def storeWriting (s : State) : Bool :=
  match s.cal.op with
  | some (.write _ _) => true
  | _ => false

/-- Lanes of a mask in a group. -/
def maskLanes (g m : Nat) : List Nat := ((List.range 16).filter m.testBit).map fun i => 16 * g + i

/-- CAL_MEASURE (R83): rejected at once with a lane outcome, or accepted; its lanes are then suppressed. -/
def calMeasure (s : State) (c : Command) : State :=
  runCmd s c 0x0100 fun s =>
    let g := p0f c 5 0
    let m := p0f c 31 16
    let k := p0f c 33 32
    let p := p0f c 38 36
    let lanes := maskLanes g m
    let reject (s : State) (o : Nat) : State := forEach lanes s fun s n => laneRes s n 0 k 0 o
    if nGroups s ≤ g ∨ k = 3 ∨ 4 < p then refuseCmd s c 3
    else if ownGroup s g ≠ cmdPart s c then refuseCmd s c 4
    else if (calGroup s g).measure.isSome ∨ storeWriting s then refuseCmdWith (reject s 7) c lanes.length 5
    else
      let near := match groupTemp s g with
        | some t => decide ((t - setTemp k).natAbs ≤ 128)
        | none => false
      if near = false then completeCmd (reject s 4) c lanes.length 1
      else
        let s := setCalGroup s g { calGroup s g with
          measure := some { mask := m, set := k, p := 20 + p, ring := c.ring, cmd := c, dllLost := false, temps := none, at_ := s.now } }
        holdCmd (forEach lanes s fun s n => suppress s n false) c

def execCalMeasure (c : Command) (s : State) : Host.Outcome State Fault Refusal := .next (calMeasure s c)

/-- The histogram of a lane. -/
def histOf (n : Nat) : List Histogram → Histogram
  | [] => { lane := n, hA := [], hB := [] }
  | h :: r => if h.lane = n then h else histOf n r

/-- The temperatures delivered during a collection span more than 0.5 °C (R83). -/
def spread (m : Measure) : Bool :=
  match m.temps with
  | some (lo, hi) => decide (32 < hi - lo)
  | none => false

/-- Judge one measured lane (R83 to R86): the new state and whether the lane was accepted. -/
def judgeLane (s : State) (m : Measure) (n : Nat) (h : Histogram) : State × Bool :=
  if m.dllLost then (laneRes s n 0 m.set 0 6, false)
  else if spread m then (laneRes s n 0 m.set 0 5, false)
  else
    let w := candidate h.hA h.hB (2 ^ m.p)
    let x := chiSquare h.hA h.hB
    let ck := checks13 w + (if 700 < x then 8 else 0)
    let chi := x.floor.toNat
    if ck = 0 then (putSet (laneRes s n chi m.set 0 1) n m.set w false, true)
    else
      let s := laneRes s n chi m.set ck 3
      (calNotice s 0x0902 n 0 (reg s (CA_LANE_RES.off n)).toNat, false)

/-- Judge the lanes in order, counting those not accepted. -/
def judgeLanes (m : Measure) (hs : List Histogram) : List Nat → State × Nat → State × Nat
  | [], x => x
  | n :: r, (s, k) =>
    let (s, ok) := judgeLane s m n (histOf n hs)
    judgeLanes m hs r (s, if ok then k else k + 1)

/-- CAL_MEASURE_COMPLETE (R83 to R86). -/
def calMeasureComplete (s : State) (g : Nat) (hs : List Histogram) : State :=
  match (calGroup s g).measure with
  | none => s
  | some m =>
    if s.now < m.at_ + collectTicks m.p then s
    else
      let lanes := maskLanes g m.mask
      let s := setCalGroup s g { calGroup s g with measure := none }
      let (s, bad) := judgeLanes m hs lanes (s, 0)
      let s := if bad < lanes.length then forcedTrigger s g else s
      let s := forEach lanes s fun s n => if (lane s n).suppCmd then s else release s n
      endCmd s (some m.cmd) bad 1

def execCalMeasureComplete (g : Nat) (h : List Histogram) (s : State) : Host.Outcome State Fault Refusal :=
  .next (calMeasureComplete s g h)

/-! ## CAL_TABLE_WRITE and CAL_TABLE_READ (R82, R85, R86) -/

/-- CAL_TABLE_WRITE: the host's candidate set, under checks 1 to 3. -/
def calTableWrite (s : State) (c : Command) : State :=
  runCmd s c 0x0101 fun s =>
    let n := p0f c 9 0
    let k := p0f c 33 32
    if nLanes s ≤ n ∨ k = 3 then refuseCmd s c 3
    else if ownGroup s (n / 16) ≠ cmdPart s c then refuseCmd s c 4
    else if storeWriting s then refuseCmdWith (laneRes s n 0 k 0 7) c 7 5
    else match c.data with
      | none => dmaFailCmd s c
      | some bs =>
        let w := unpackSet bs
        let ck := checks13 w
        if ck = 0 then completeCmd (forcedTrigger (putSet (laneRes s n 0 k 0 2) n k w false) (n / 16)) c 2 1
        else
          let s := laneRes s n 0 k ck 3
          completeCmd (calNotice s 0x0902 n 0 (reg s (CA_LANE_RES.off n)).toNat) c 3 1

def execCalTableWrite (c : Command) (s : State) : Host.Outcome State Fault Refusal := .next (calTableWrite s c)

/-- CAL_TABLE_READ: a working set, or with set 3 the active table. -/
def calTableRead (s : State) (c : Command) : State :=
  runCmd s c 0x0102 fun s =>
    let n := p0f c 9 0
    let k := p0f c 33 32
    if nLanes s ≤ n then refuseCmd s c 3
    else if ownGroup s (n / 16) ≠ cmdPart s c then refuseCmd s c 4
    else completeCmd (hostWrite s c.addr.toNat (packSet (if k = 3 then activeTable s n else workSet s n k))) c 0 1

def execCalTableRead (c : Command) (s : State) : Host.Outcome State Fault Refusal := .next (calTableRead s c)

/-! ## The calibration store (R87 to R91) -/

/-- Slot A (0) or B (1). -/
def slotOf (s : State) (i : Nat) : Slot := if i = 0 then s.cal.slotA else s.cal.slotB

def setSlot (s : State) (i : Nat) (x : Slot) : State :=
  if i = 0 then { s with cal := { s.cal with slotA := x } } else { s with cal := { s.cal with slotB := x } }

/-- A slot's header, payload and COMMIT were programmed (R88). -/
def slotWhole (x : Slot) : Bool := x.header && x.payload && x.commit = 0

/-- A slot is valid as far as the device knows (R88): whole, and its payload did not fail when a load last read it. -/
def slotValid (x : Slot) : Bool := slotWhole x && !x.bad

/-- A load has read both slots: which payloads failed their CRC is known from now on (R88). -/
def noteRead (s : State) (f : FlashRead) : State :=
  { s with cal := { s.cal with slotA := { s.cal.slotA with bad := f.failA }, slotB := { s.cal.slotB with bad := f.failB } } }

/-- VALID and SEQ of both slots as the last load or write found them. -/
def reportSlots (s : State) (va vb : Bool) : State :=
  let s := setFlag (setFlag s CA_STORE_STAT.A_VALID va) CA_STORE_STAT.B_VALID vb
  let s := setFld s CA_STORE_SEQ_A.SEQ (if va then s.cal.slotA.seq else 0)
  setFld s CA_STORE_SEQ_B.SEQ (if vb then s.cal.slotB.seq else 0)

/-- The slot whose content is in the working sets. -/
def reportActive (s : State) (i : Nat) (valid : Bool) : State :=
  let s := setFld s CA_STORE_STAT.ACTIVE_SLOT i
  setFld s CA_STORE_ACTIVE_SEQ.ACTIVE_SEQ (if valid then (slotOf s i).seq else 0)

/-- Write a stored trim; a change of the active trim opens its settling window (R37, R41). -/
def loadTrim (s : State) (n : Nat) (t : BitVec 6) : State := settleIfNew s (setStoredTrim s n t) n

/-- Working sets and trims from a slot (R69, R88).  No set that a slot gives is marked nominal, also where the slot was written from a set
that was (DESIGN CHOICE, log 36: R81 names only CAL_MEASURE and CAL_TABLE_WRITE, and R82 loads again as at start-up). -/
def loadSlot (s : State) (x : Slot) : State :=
  let s := forEach (List.range (3 * nLanes s)) s fun s j => putSet s (j / 3) (j % 3) (sget (fun _ => nominalSet) x.sets j) false
  forEach (List.range (nLanes s)) s fun s n => loadTrim s n (sget (fun _ => 0) x.trims n)

/-- Nominal working sets and trims (R81). -/
def loadNominal (s : State) : State :=
  let s := { s with cal := { s.cal with sets := [], nominal := [] } }
  forEach (List.range (nLanes s)) s fun s n => loadTrim s n 0

/-- Groups take their first tables, and staleness counts from the end of the load (R72, R80). -/
def afterStartLoad (s : State) : State :=
  let s := setFlag s CA_STORE_STAT.LOADED true
  forEach (List.range (nGroups s)) s fun s g => restartStale (firstTableOf s g) g

/-- The slot that a load takes: the valid one of higher SEQ, or the other when its payload fails on reading (R88). -/
def chooseSlot (s : State) (va vb : Bool) : Option Nat :=
  if va ∧ vb then some (if s.cal.slotB.seq < s.cal.slotA.seq then 0 else 1)
  else if va then some 0 else if vb then some 1 else none

/-- CAL_STORE_LOAD_COMPLETE (R80, R81, R88).  The staleness of R72 counts anew from the end of the start-up load alone, not from that of a
reload, which delivers no temperature (DESIGN CHOICE, log 36).  CA_STORE_RES keeps its earlier outcome after a completed reload, for which the
table *Store outcomes* has no code, and after a start-up load whose flash does not respond (log 36). -/
def calStoreLoadComplete (s : State) (f : FlashRead) : State :=
  match s.cal.op with
  | some (.load start) =>
    let cmd := s.cal.opCmd
    let s := setFlag { s with cal := { s.cal with op := none, opCmd := none } } CA_STORE_STAT.WRITE_BUSY false
    if !start ∧ !f.responds then endCmd (setFld s CA_STORE_RES.OUTCOME 7) cmd 7 7
    else
      let skip := (fld s MT_STRAP.STRAP).testBit 2
      let s := if f.responds && !skip then noteRead s f else s
      let va := f.responds && slotValid s.cal.slotA && !skip
      let vb := f.responds && slotValid s.cal.slotB && !skip
      let s := reportSlots s va vb
      let s := setFlag s CA_STORE_STAT.SKIPPED skip
      let s := setFlag s CA_STORE_STAT.NONE (!skip && !va && !vb)
      let s := match chooseSlot s va vb with
        | some i => reportActive (loadSlot s (slotOf s i)) i true
        | none =>
          let s := reportActive (loadNominal s) 0 false
          if skip then calNotice s 0x0905 0 2 0 else calNotice (alarm s IR_ALARM_STAT.CAL_NONE) 0x0905 0 1 0
      let s := if start then afterStartLoad s else s
      endCmd s cmd 0 1
  | _ => s

def execCalStoreLoadComplete (f : FlashRead) (s : State) : Host.Outcome State Fault Refusal := .next (calStoreLoadComplete s f)

/-- A store operation begins. -/
def beginOp (s : State) (op : StoreOp) (c : Option Command) : State :=
  setFlag { s with cal := { s.cal with op := some op, opCmd := c, aborted := false } } CA_STORE_STAT.WRITE_BUSY true

/-- The target slot of a write (R89). -/
def writeTarget (s : State) : Nat :=
  if !slotValid s.cal.slotA then 0
  else if !slotValid s.cal.slotB then 1
  else if s.cal.slotA.seq < s.cal.slotB.seq then 0 else 1

/-- The new SEQ: one more than the highest valid SEQ, or 1 (R89). -/
def newSeq (s : State) : Nat :=
  let v (x : Slot) : Nat := if slotValid x then x.seq else 0
  max (v s.cal.slotA) (v s.cal.slotB) + 1

/-- CAL_STORE_WRITE (R89, R90): refused with a store outcome, or begun with the erasure of the target slot. -/
def calStoreWrite (s : State) (c : Command) : State :=
  runCmd s c 0x0103 fun s =>
    let refuse (o : Nat) : State := refuseCmdWith (setFld s CA_STORE_RES.OUTCOME o) c o 5
    if cmdPart s c ≠ 0 then refuseCmd s c 4
    else if (shadow s 4).testBit 17 then refuse 3
    else if s.cal.op.isSome then refuse 4
    else if newSeq s = 0xFFFFFFFF then refuse 6
    else
      let i := writeTarget s
      let n := newSeq s
      let (k, s) := takeFree s
      holdCmd (beginOp (setSlot s i { torn := true, key := k }) (.write i n) (some c)) c

def execCalStoreWrite (c : Command) (s : State) : Host.Outcome State Fault Refusal := .next (calStoreWrite s c)

/-- The slot that a complete write leaves (R87, R89), with the working sets and stored trims as they stand at its end (log 36); absent
lanes hold 0x400 and trim 0. -/
def programmed (s : State) (seq : Nat) : Slot :=
  { header := true, seq := seq, ident := BitVec.ofNat 32 (0x20000 + deviceId s), payload := true,
    sets := s.cal.sets,
    trims := (List.range (nLanes s)).foldl (fun m n =>
      let t := if n % 2 = 0 then fld s (IN_TRIM.STORED_A (n / 2)) else fld s (IN_TRIM.STORED_B (n / 2))
      sset (fun _ => 0) m n (BitVec.ofNat 6 t)) [],
    commit := 0 }

/-- The end of a store write with its outcome: registers, notice and command status (R82, R91, R271). -/
def endWrite (s : State) (i seq outcome : Nat) : State :=
  let cmd := s.cal.opCmd
  let s := setFlag { s with cal := { s.cal with op := none, opCmd := none, aborted := false } } CA_STORE_STAT.WRITE_BUSY false
  let s := setFld s CA_STORE_RES.OUTCOME outcome
  let s := reportSlots s (slotValid s.cal.slotA) (slotValid s.cal.slotB)
  let s := if outcome = 1 then reportActive s i true else s
  let s := if outcome = 2 then inc s CA_STORE_ABORT_CNT.COUNT else s
  endCmd (calNotice s 0x0904 0 outcome seq) cmd outcome (if outcome = 1 then 1 else 7)

/-- What steps 1 to 4 leave where the payload fails its read-back (R89): the header as programmed, COMMIT erased, and a payload that is not
the one intended. -/
def misprogrammed (s : State) (i seq : Nat) : Slot :=
  { programmed s seq with payload := false, torn := true, key := (slotOf s i).key, commit := 0xFFFFFFFF }

/-- CAL_STORE_WRITE_COMPLETE (R89, R91): after a supply warning COMMIT is never programmed. -/
def calStoreWriteComplete (s : State) (r : FlashWriteEnd) : State :=
  match s.cal.op with
  | some (.write i seq) =>
    match r with
    | .aborted => if s.cal.aborted then endWrite s i seq 2 else s
    | .done => if s.cal.aborted then endWrite s i seq 2 else endWrite (setSlot s i (programmed s seq)) i seq 1
    | .mismatch => endWrite (setSlot s i (misprogrammed s i seq)) i seq 5
    | .noResponse => endWrite s i seq 7
  | _ => s

def execCalStoreWriteComplete (r : FlashWriteEnd) (s : State) : Host.Outcome State Fault Refusal :=
  .next (calStoreWriteComplete s r)

/-- The supply warning, or reset, stops a write after the flash operation in progress (R91). -/
def stopStoreWrite (s : State) : State :=
  if storeWriting s then { s with cal := { s.cal with aborted := true } } else s

/-- CAL_STORE_RELOAD (R82). -/
def calStoreReload (s : State) (c : Command) : State :=
  runCmd s c 0x0104 fun s =>
    if cmdPart s c ≠ 0 then refuseCmd s c 4
    else if s.cal.op.isSome then refuseCmd (setFld s CA_STORE_RES.OUTCOME 4) c 5
    else holdCmd (beginOp s (.load false) (some c)) c

def execCalStoreReload (c : Command) (s : State) : Host.Outcome State Fault Refusal := .next (calStoreReload s c)

/-! ## The flash as bytes (R87) -/

/-- The payload of a slot: trims of 1,024 comparators, sign-extended, then the packed sets. -/
def payloadBytes (x : Slot) : List Byte :=
  ((List.range 1024).map fun n => (sget (fun _ => (0 : BitVec 6)) x.trims n).signExtend 8) ++
  (List.range 3072).flatMap fun j => packSet (sget (fun _ => nominalSet) x.sets j)

/-- The first 60 bytes of a slot header. -/
def headerHead (x : Slot) : List Byte :=
  leBytes 0x46544331 4 ++ leBytes 1 4 ++ leBytes x.seq 4 ++ leBytes x.ident.toNat 4 ++ leBytes 0x240400 4 ++
  leBytes (crc32c (payloadBytes x)).toNat 4 ++ List.replicate 36 0

/-- One byte of a programmed or erased slot. -/
def slotByte (x : Slot) (o : Nat) : Byte :=
  if o < 0x40 then
    if x.header = false then 0xFF
    else if o < 0x3C then (headerHead x).getD o 0
    else (leBytes (crc32c (headerHead x)).toNat 4).getD (o - 0x3C) 0
  else if 0x1000 ≤ o ∧ o < 0x1400 then
    if x.payload then (sget (fun _ => (0 : BitVec 6)) x.trims (o - 0x1000)).signExtend 8 else 0xFF
  else if 0x1400 ≤ o ∧ o < 0x241400 then
    if x.payload then (packSet (sget (fun _ => nominalSet) x.sets ((o - 0x1400) / 768))).getD ((o - 0x1400) % 768) 0 else 0xFF
  else if 0x3FFFFC ≤ o then (leBytes x.commit.toNat 4).getD (o - 0x3FFFFC) 0
  else 0xFF

/-- COMMIT of a slot whose write stopped: a free value with at least one bit at 1 (R89). -/
def tornCommit (k i : Nat) : List Byte :=
  let w := (List.range 4).map fun j => Config.tornByte k (0x400000 * i + 0x3FFFFC + j)
  if leNat w = 0 then List.replicate 4 0xFF else w

/-- A write of slot i runs. -/
def slotInWrite (s : State) (i : Nat) : Bool :=
  match s.cal.op with
  | some (.write j _) => j == i
  | _ => false

/-- One byte of the flash at a read whose free value is `k`.  In a slot whose write has not reached COMMIT it is a free value: of its own
at each read while the write runs, and the same at every read once it has stopped; but where the write got as far as the read-back,
only the payload is open (R89, log 16). -/
def flashByte (s : State) (k o : Nat) : Byte :=
  let i := o / 0x400000
  let p := o % 0x400000
  let x := slotOf s i
  let key := if slotInWrite s i then k else x.key
  if x.torn = false ∨ (x.header = true ∧ (p < 0x1000 ∨ 0x241400 ≤ p)) then slotByte x p
  else if p < 0x3FFFFC then Config.tornByte key o
  else (tornCommit key i).getD (p - 0x3FFFFC) 0xFF

/-- CAL_FLASH_READ (table *Command operations*); where the flash does not respond, OUTCOME is that cause (R271). -/
def calFlashRead (s : State) (c : Command) (responds : Bool) : State :=
  runCmd s c 0x0105 fun s =>
    let o := p0f c 22 0
    let n := c.p1.toNat
    if n < 4 ∨ 2 ^ 20 < n ∨ n % 4 ≠ 0 ∨ 2 ^ 23 < o + n then refuseCmd s c 3
    else if responds = false then completeCmd s c 7 7
    else
      let (k, s) := takeFree s
      completeCmd (hostWrite s c.addr.toNat ((List.range n).map fun i => flashByte s k (o + i))) c 0 1

def execCalFlashRead (c : Command) (responds : Bool) (s : State) : Host.Outcome State Fault Refusal :=
  .next (calFlashRead s c responds)

end Sys2Proof.Machine
end

