-- ==== Sys2Proof/Machine/Assembler.lean ====
section
/-! DEFINITION. The tile assembler of a lane group (07_lane_chains_and_queues.md R132 to R134, 01 R16, R17): what it places in
a cycle, when it seals, windows, vetoes and the injection port (R139 to R146). -/

namespace Sys2Proof.Machine

/-! ## Sealing (R16, R17, R203) -/

/-- A source may seal: it holds a credit, and its entry buffer does not hold 8 tiles (R17, R203). -/
def maySeal (s : State) (code : Nat) : Bool :=
  let x := source s code
  0 < x.credits && x.entry.length < 8

/-- Periods of 32 FCLK cycles since the last reset: a source has earned one credit in each, of which it holds at most 8 (R17).  R17
gives the interval and no phase: the periods of every source end at the multiples of 32 of the model's FCLK count (log 13). -/
def creditsDue (s : State) : Nat := fclk s / 32 - s.fab.creditFrom

/-- A sealed tile spends a credit and starts its crossing into FCLK (R17, R203); credits due before it that a full source could not
hold are past. -/
def issueTile (s : State) (code : Nat) (t : Tile) : State :=
  let x := source s code
  let due := creditsDue s
  let c := min 8 (x.credits + (due - x.earned))
  setSource s code { x with credits := c - 1, earned := max x.earned due, crossing := x.crossing ++ [t] }

/-- The window and part that a tile sealed now belongs to (R139). -/
def winKey (G : Group) : Option (Nat × Nat) := G.win.map fun W => (W.num, W.part)

/-- The part's SEQ is that of its first data tile (R119). -/
def noteFirstSeq (s : State) (g seq : Nat) : State :=
  let G := group s g
  match G.win with
  | some W => if W.firstSeq.isNone then setGroup s g { G with win := some { W with firstSeq := some seq } } else s
  | none => s

/-- The window tile of a part (R121); its CHECK is computed when its fill is handed out (`sealItem`). -/
def windowTile (s : State) (g : Nat) (W : Win) (state : Nat) (close : Option W64) : Tile :=
  let seq := W.firstSeq.getD (fld s (LG_SEQ.SEQ g))
  let w := windowWord state W.part W.gate W.len W.num
  let recs := if W.part = 0 then [w, W.openMark] ++ close.toList else [w]
  { hdr := headerWord g true false 0 seq 0, slots := padSlots recs }

/-- A part holds its limit of 65,535 tiles, counted as LENGTH counts them (log 10): it closes with STATE 0b11, and a continuation
part opens (R141).  Its window tile, which never goes on the fast tap (R121), spends no fabric credit and waits for none (log 10). -/
def partLimit (s : State) (g : Nat) : State :=
  let G := group s g
  match G.win with
  | some W =>
    if W.len < 65535 ∨ W.vetoed then s
    else
      let s := setEmitted (queueWindow s g (.fill W.num W.part (windowTile s g W 3 none)))
      let part := if W.part = 255 then 1 else W.part + 1
      let G := group s g
      let s := setGroup s g { G with win := some { W with part := part, len := 0, firstSeq := none } }
      queueWindow s g (.reservation W.num part)
  | none => s

/-- The read side drops a tile of the vetoed window as it arrives, and frees its place at once (R142). -/
def vetoTail (s : State) (g : Nat) (t : Tile) : State :=
  let G := group s g
  setGroup s g { G with qGap := G.qGap + owed t,
                        win := (G.win.map fun W => { W with dropped := W.dropped + 1, dropSeq := (tileSeq t + 1) % 2 ^ 16 }) }

/-- A tile of a vetoed window reaches the write side: it is discarded and counted where any tile would be, and makes room as any
tile does, before the read side drops it (R138, R142). -/
def dropTail (s : State) (g : Nat) (t : Tile) : State :=
  if (destsOf s g).isEmpty then vetoTail s g t
  else if !(group s g).waitWin.isEmpty then countDiscard s g t
  else if places (group s g).queue < 1024 then vetoTail s g t
  else match makeRoom s g with
    | some s => vetoTail (noteOcc s g) g t
    | none => countDiscard s g t

/-- A data or injected tile is sealed: it takes SEQ, goes out on the fast tap, and reaches the group queue unless the open
window is vetoed, which drops it (R15, R119, R142). -/
def sealOut (s : State) (g : Nat) (t : Tile) : State :=
  let seq := tileSeq t
  let s := bump (issueTile s g t) (LG_SEQ.SEQ g)
  let G := group s g
  let s := setGroup s g { G with waitCredit := false }
  let s := noteFirstSeq s g seq
  match G.win with
  | some W =>
    if W.vetoed then dropTail s g t
    else partLimit (queueTile s g t (winKey (group s g))) g
  | none => queueTile s g t none

/-- A tile that cannot be sealed waits, and each wait is counted once (R17). -/
def waitSeal (s : State) (g : Nat) : State :=
  let G := group s g
  if G.waitCredit then s else inc (setGroup s g { G with waitCredit := true }) (LG_CREDIT_WAIT_CNT.COUNT g)

/-- Seal the open tile, or let it wait for a credit (R16, R17). -/
def sealOpen (s : State) (g : Nat) : State :=
  let G := group s g
  if G.tile.isEmpty then s
  else if maySeal s g = false then waitSeal s g
  else
    let t := dataTile g (fld s (LG_SEQ.SEQ g)) G.tile
    sealOut (setEmitted (setGroup s g { G with tile := [], tileTimes := [], sealedCyc := some (gclk s) })) g t

/-- The open tile is due: it holds seven records, or its hold time has passed (R16). -/
def sealDue (s : State) (g : Nat) : Bool :=
  let G := group s g
  !G.tile.isEmpty && (G.tile.length = 7 || G.tileCyc + 4 ≤ gclk s)

/-- TILE_HOLD_TIMEOUT (R16). -/
def tileHoldTimeout (s : State) (g : Nat) : State := if sealDue s g then sealOpen s g else s

def execTileHoldTimeout (g : Nat) (s : State) : Host.Outcome State Fault Refusal := .next (tileHoldTimeout s g)

/-! ## One placement per GCLK cycle (R132 to R134) -/

/-- Put a record in the open tile, opening one when there is none; the seventh seals it. -/
def place (s : State) (g : Nat) (w : W64) (t : Option Nat) : State :=
  let G := group s g
  let s := setGroup s g { G with tile := G.tile ++ [w], tileTimes := G.tileTimes ++ t.toList,
                                 tileCyc := if G.tile.isEmpty then gclk s else G.tileCyc, placed := some (gclk s) }
  if (group s g).tile.length = 7 then sealOpen s g else s

/-- The lowest lane of the group with a pending loss. -/
def lossLane (s : State) (g : Nat) : Option Nat :=
  ((List.range 16).map fun i => 16 * g + i).find? fun n => (lane s n).lost ≠ 0

/-- The lane to serve: the head that entered its chain earliest, ties to the first lane at or after the round-robin
pointer; a record may be taken from the cycle after its entry (R130, R133). -/
def pickLane (s : State) (g : Nat) : Option Nat :=
  let G := group s g
  ((List.range 16).map fun i => 16 * g + (G.rr + i) % 16).foldl (fun best n =>
    match (lane s n).chain with
    | [] => best
    | h :: _ =>
      if gclk s ≤ h.cyc then best
      else match best with
        | none => some n
        | some b => match (lane s b).chain with
          | k :: _ => if h.cyc < k.cyc then some n else best
          | [] => some n) none

/-- Take the head of a lane: it spends 1 of the allowance, and the pointer moves on (R133, R134). -/
def takeLane (s : State) (g n : Nat) : State :=
  match (lane s n).chain with
  | h :: r =>
    let s := setLane s n { lane s n with chain := r }
    let G := group s g
    let s := noteCutTime s g h.s
    place (setGroup s g { G with allow := G.allow - 1, rr := (n + 1) % 16 }) g h.word (some h.s)
  | [] => s

/-- The item that the assembler places in this cycle, in the priority of R133: time markers due, the reason-0x1 gap record,
reason-0x0 gap records, the epoch marker that follows them, suppression gap records, and a lane record under the
allowance. -/
def placeDue (s : State) (g : Nat) : State :=
  let G := group s g
  match G.marks with
  | m :: r => place (setGroup s g { G with marks := r }) g m.word none
  | [] =>
    if G.qGap ≠ 0 then place (setGroup s g { G with qGap := 0, epochDue := true }) g (gapWord true false 1 0 G.qGap) none
    else match lossLane s g with
      | some n =>
        let k := (lane s n).lost
        let s := setLane s n { lane s n with lost := 0 }
        place (setGroup s g { group s g with epochDue := true }) g (gapWord false true 0 n k) none
      | none =>
        if G.epochDue then place (setGroup s g { G with epochDue := false }) g (epochWord (tNow s)) none
        else match G.supGaps with
          | (n, k) :: r => place (setGroup s g { G with supGaps := r }) g (gapWord false true 2 n k) none
          | [] =>
            if G.allow = 0 then s
            else match pickLane s g with
              | some n => takeLane s g n
              | none => s

/-- LANE_RECORD_TAKE (R133): one placement in a GCLK cycle, into a tile that is not full; an epoch boundary that T has passed comes
first (R100, R101). -/
def laneRecordTake (s : State) (g : Nat) : State :=
  let G := group s g
  if nGroups s ≤ g ∨ s.pl.running = false ∨ G.tile.length = 7 ∨ G.placed = some (gclk s) ∨ G.ready = false then s
  else placeDue (epochBoundary s) g

def execLaneRecordTake (g : Nat) (s : State) : Host.Outcome State Fault Refusal := .next (laneRecordTake s g)

/-- ALLOWANCE_RISE (R134): at every 32nd GCLK cycle. -/
def allowanceRise (s : State) (g : Nat) : State :=
  let G := group s g
  if g < nGroups s ∧ G.rises < gclk s / 32 then setGroup s g { G with rises := G.rises + 1, allow := min 14 (G.allow + 7) } else s

def execAllowanceRise (g : Nat) (s : State) : Host.Outcome State Fault Refusal := .next (allowanceRise s g)

/-! ## Gate events at the assemblers (R139, R144) -/

/-- The group's selection includes the gate (R144). -/
def gateSelected (s : State) (g id : Nat) : Bool :=
  if id < 0x10 then fbit s (LG_GATE_SEL0.PIN g) id
  else if id < 0x30 then fbit s (LG_GATE_SEL1.TT g) (id - 0x10)
  else if id < 0x40 then fbit s (LG_GATE_SEL0.CLUSTER g) (id - 0x30)
  else id = 0x40 && flag s (LG_GATE_SEL2.HOST g)

/-- The marker of a gate event. -/
def gateMark (open_ : Bool) (id t : Nat) : W64 := markWord (if open_ then 2 else 3) id t

/-- The gate frames the group's windows: present, and of the group's partition (R4, R389). -/
def framesWindow (s : State) (g id : Nat) : Bool :=
  fld s (LG_WIN_CFG.GATE_ID g) = id && gatePresent s id && gateOwned s (ownGroup s g) id

/-- An event of gate `id` concerns the group's windows: it is the gate of the open one, or that of the next (R139, R140). -/
def windowEvent (s : State) (g id : Nat) : Bool :=
  decide ((group s g).win.map Win.gate = some id) || (flag s (LG_WIN_CFG.EN g) && framesWindow s g id)

/-- A gate event reaches the assemblers: its marker in each stream that selects it, and the event itself where it concerns the group's
windows (R110, R139, R140, R144). -/
def gateToGroups (s : State) (id : Nat) (open_ : Bool) (t : Nat) : State :=
  if gatePresent s id = false then s
  else forEach (List.range (nGroups s)) s fun s g =>
    let s := if gateSelected s g id then groupMark s g (if open_ then clsOpen else clsClose) (gateMark open_ id t) else s
    let G := group s g
    if windowEvent s g id then setGroup s g { G with winEv := G.winEv ++ [{ open_ := open_, id := id, t := t }] } else s

/-! ## Windows (R139 to R142) -/

/-- T at the GCLK edge of the present cycle. -/
def gclkT (s : State) : Nat := if s.pl.edge % 2 = 0 then tNow s else s.pl.tc.toNat

/-- The window closes: its window tile is sealed as a fill, and after a veto each destination gets one veto-drop entry
(R140, R142).  The window tile spends no fabric credit and waits for none (R17, R121; log 10). -/
def closeWindow (s : State) (g t : Nat) : State :=
  let G := group s g
  match G.win with
  | none => s
  | some W =>
    let tile := windowTile s g W (if W.vetoed then 2 else 1) (some (gateMark false W.gate t))
    let s := setEmitted (queueWindow (setGroup s g { G with win := none }) g (.fill W.num W.part tile))
    let s := setFlag (setFlag s (LG_STAT.WIN_OPEN g) false) (LG_STAT.VETOED g) false
    if W.vetoed then queueVetoDrop s g W.dropped W.dropSeq else s

/-- A window part opens: WINDOW, its reservation and WIN_OPEN (R139); none opens while four or more window entries wait
(R138). -/
def openWindow (s : State) (g id t : Nat) : State :=
  let G := group s g
  if 4 ≤ waitCount G then inc s (LG_WIN_REFUSED_CNT.COUNT g)
  else
    let n := G.nextWin
    let W : Win := { num := n, part := 0, gate := id, openMark := gateMark true id t, openedCyc := gclk s,
                     dur := fld s (LG_WIN_CFG.DUR g), len := 0, firstSeq := none, vetoed := false, dropped := 0, dropSeq := 0 }
    let s := setGroup s g { G with win := some W, nextWin := (n + 1) % 2 ^ 32 }
    let s := setFlag (setFld s (LG_WIN_STAT.WINDOW g) n) (LG_STAT.WIN_OPEN g) true
    queueWindow s g (.reservation n 0)

/-- The events that wait, from the first that the group's state gives an effect: with no window open a close event has none, and with one
open only its own gate's events have any (R139, R140). -/
def nextEvents (G : Group) : List GateEv :=
  match G.win with
  | none => G.winEv.dropWhile fun e => !e.open_
  | some W => G.winEv.dropWhile fun e => decide (e.id ≠ W.gate)

/-- WINDOW_OPEN (R138 to R140): the next gate event at the assembler is an open event. -/
def windowOpen (s : State) (g : Nat) : State :=
  let G := group s g
  match nextEvents G with
  | e :: r =>
    if e.open_ = false then s
    else
      let s := setGroup s g { G with winEv := r }
      match G.win with
      | some _ => inc s (LG_WIN_REOPEN_CNT.COUNT g)
      | none => if flag s (LG_WIN_CFG.EN g) ∧ framesWindow s g e.id then openWindow s g e.id e.t else s
  | [] => s

def execWindowOpen (g : Nat) (s : State) : Host.Outcome State Fault Refusal := .next (windowOpen s g)

/-- WINDOW_CLOSE (R140): the next gate event is a close event, or EN has been cleared; the events that then still wait find no window
enabled. -/
def windowClose (s : State) (g : Nat) : State :=
  let G := group s g
  if G.win.isSome ∧ flag s (LG_WIN_CFG.EN g) = false then closeWindow (setGroup s g { G with winEv := [] }) g (gclkT s)
  else match nextEvents G with
    | e :: r => if e.open_ then s else closeWindow (setGroup s g { G with winEv := r }) g e.t
    | [] => setGroup s g { G with winEv := [] }

def execWindowClose (g : Nat) (s : State) : Host.Outcome State Fault Refusal := .next (windowClose s g)

/-- WINDOW_DUR_EXPIRY (R140). -/
def windowDurExpiry (s : State) (g : Nat) : State :=
  match (group s g).win with
  | some W => if W.dur ≠ 0 ∧ W.openedCyc + 8 * W.dur ≤ gclk s then closeWindow s g (gclkT s) else s
  | none => s

def execWindowDurExpiry (g : Nat) (s : State) : Host.Outcome State Fault Refusal := .next (windowDurExpiry s g)

/-! ## Vetoes (R142) -/

/-- LG_WIN_VETO (R142): the host's veto is on its way to the read side. -/
def lgWinVeto (s : State) (a : Access) (g : Nat) (v : W32) : State :=
  cmdWrite s a (LG_WIN_CMD.off g) v fun s =>
    if v.getLsbD 0 then
      setFlag (setGroup s g { group s g with vetoes := (group s g).vetoes + 1 }) (LG_WIN_CMD.VETO g) true
    else s

def execLgWinVeto (a : Access) (g : Nat) (v : W32) (s : State) : Host.Outcome State Fault Refusal := .next (lgWinVeto s a g v)

/-- The window's tiles from the veto point on are dropped: the veto point is the first that no destination has taken, and from it on
none is handed to any destination (R142). -/
def dropVetoed (num : Nat) (past : Bool) : List QEntry → List QEntry × List (Nat × Nat × Tile)
  | [] => ([], [])
  | e :: r =>
    match e.item with
    | .tile t (some (n, p)) =>
      let past := past || (n = num && !e.taken)
      let (q, gone) := dropVetoed num past r
      if n = num ∧ past then (q, (n, p, t) :: gone) else (e :: q, gone)
    | _ =>
      let (q, gone) := dropVetoed num past r
      (e :: q, gone)

/-- A veto is in force: the veto point is fixed, and LENGTH keeps only the tiles ahead of it (R142). -/
def applyVeto (s : State) (g : Nat) : State :=
  let G := group s g
  match G.win with
  | none => inc s (LG_WIN_VETO_LATE_CNT.COUNT g)
  | some W =>
    if W.vetoed then s
    else
      let (q, gone) := dropVetoed W.num false G.queue
      let s := setGroup s g { G with queue := q, qGap := gone.foldl (fun k x => k + owed x.2.2) G.qGap }
      let s := gone.foldl (fun s w => uncount s g (some (w.1, w.2.1))) s
      let G := group s g
      let s := setGroup s g { G with win := (G.win.map fun W =>
        { W with vetoed := true, dropped := gone.length, dropSeq := fld s (LG_SEQ.SEQ g) }) }
      noteOcc (setFlag s (LG_STAT.VETOED g) true) g

/-- Remove the oldest decision that a test picks. -/
def takeDec (p : Decision → Bool) : List SentDec → Option (Decision × List SentDec)
  | [] => none
  | x :: r => if p x.d then some (x.d, r) else (takeDec p r).map fun (d, l) => (d, x :: l)

/-- A decision takes its place among those on their way: by issue cycle, then by engine (R198, R214). -/
def insertDec (x : SentDec) : List SentDec → List SentDec
  | [] => [x]
  | y :: r => if x.cyc < y.cyc ∨ (x.cyc = y.cyc ∧ x.eng < y.eng) then x :: y :: r else y :: insertDec x r

/-- The ECLK cycle in which the engine's next instruction issues: every instruction before it has finished, and nothing else
delays it (R180). -/
def issueCycle (E : Engine) : Nat := E.at0 + E.cyc

/-- No running engine has still to issue in a cycle before that of a decision, or in the same one with a lower number: none can yet send
one that its target must apply first (R198, R214).  A decision that the partner mirrored carries the cycle of its arrival here, and
waits for no engine (log 13). -/
def inOrder (s : State) (x : SentDec) : Bool :=
  decide (256 ≤ x.eng) || (List.range (nEngines s)).all fun f =>
    (engine s f).st != 2 || decide (x.cyc < issueCycle (engine s f)) || (issueCycle (engine s f) == x.cyc && decide (x.eng ≤ f))

/-- The oldest decision that a test picks, when it is in order at its target, and those on their way without it (R214). -/
def reached (s : State) (p : Decision → Bool) : Option (Decision × List SentDec) :=
  match s.fab.decs.find? fun x => p x.d with
  | some x => if inOrder s x then takeDec p s.fab.decs else none
  | none => none

/-- VETO_ARRIVAL (R142, R213): a host veto, or the oldest Carver veto of the group, reaches the read side. -/
def vetoArrival (s : State) (g : Nat) : State :=
  let G := group s g
  if G.vetoes ≠ 0 then
    let s := setGroup s g { G with vetoes := G.vetoes - 1 }
    applyVeto (if G.vetoes = 1 then setFlag s (LG_WIN_CMD.VETO g) false else s) g
  else match reached s (fun d => d = .veto g) with
    | some (_, r) => applyVeto { s with fab := { s.fab with decs := r } } g
    | none => s

def execVetoArrival (g : Nat) (s : State) : Host.Outcome State Fault Refusal := .next (vetoArrival s g)

/-! ## The injection port (R145, R146) -/

/-- FILL reads the words in the buffer. -/
def noteFill (s : State) (g : Nat) : State := setFld s (LG_INJ_CTRL.FILL g) (group s g).inj.length

/-- The buffered words form the tile that awaits its seal, unless one already waits: then all words in the buffer when that one is
sealed, those written after the FLUSH with them, form the next (log 10). -/
def formInjected (s : State) (g : Nat) : State :=
  let G := group s g
  if G.inj.isEmpty then s
  else if G.injTile.isSome then setGroup s g { G with injFlush := true }
  else noteFill (setGroup s g { G with injTile := some G.inj, inj := [], injFlush := false }) g

/-- LG_INJ_DATA_WRITE (R145). -/
def lgInjDataWrite (s : State) (a : Access) (g : Nat) (v : W32) : State :=
  accept s a (LG_INJ_DATA.off g) fun s =>
    let G := group s g
    if flag s (LG_INJ_CTRL.EN g) = false ∨ 14 ≤ G.inj.length then sts (inc s (LG_INJ_OVF_CNT.COUNT g)) (LG_STAT.INJ_OVF g)
    else
      let s := noteFill (setGroup s g { G with inj := G.inj ++ [v] }) g
      if G.inj.length = 13 then formInjected s g else s

def execLgInjDataWrite (a : Access) (g : Nat) (v : W32) (s : State) : Host.Outcome State Fault Refusal :=
  .next (lgInjDataWrite s a g v)

/-- LG_INJ_FLUSH (R145). -/
def lgInjFlush (s : State) (a : Access) (g : Nat) (v : W32) : State :=
  cmdWrite s a (LG_INJ_CTRL.off g) v fun s => if v.getLsbD 31 then formInjected s g else s

def execLgInjFlush (a : Access) (g : Nat) (v : W32) (s : State) : Host.Outcome State Fault Refusal := .next (lgInjFlush s a g v)

/-- The seven record slots of injected words: two words a slot, zeros after them (R122, R145). -/
def injSlots (ws : List W32) : List W64 :=
  (List.range 7).map fun m => (ws.getD (2 * m + 1) 0) ++ (ws.getD (2 * m) 0)

/-- INJECTED_TILE_SEAL (R146): in a GCLK cycle in which no lane tile is sealed or due. -/
def injectedTileSeal (s : State) (g : Nat) : State :=
  let G := group s g
  match G.injTile with
  | none => s
  | some ws =>
    if sealDue s g ∨ G.sealedCyc = some (gclk s) then s
    else if maySeal s g = false then waitSeal s g
    else
      let t := mkTile g false true ws.length (fld s (LG_SEQ.SEQ g)) (injSlots ws)
      let s := sealOut (setGroup s g { G with injTile := none }) g t
      if (group s g).injFlush then formInjected s g else s

def execInjectedTileSeal (g : Nat) (s : State) : Host.Outcome State Fault Refusal := .next (injectedTileSeal s g)

/-- A tile of the group that waits for a credit or room is sealed as soon as it may be. -/
def releaseGroup (s : State) (g : Nat) : State :=
  if (group s g).waitCredit = false ∨ maySeal s g = false then s
  else if sealDue s g then sealOpen s g
  else if (group s g).injTile.isSome then injectedTileSeal s g
  else setGroup s g { group s g with waitCredit := false }

/-- The cfg registers of a group's LG window and input cells come into force at a GCLK boundary (R40, R149); new
watermarks are evaluated from the next cycle on (R147). -/
def applyInLg (s : State) (g : Nat) : State :=
  let s := { s with bus := { s.bus with waiting := dropWaiting (.inLg g) s.bus.waiting } }
  let s := forEach ((List.range 8).map fun i => 8 * g + i) s applyInput
  let old := reg s (LG_WM.off g)
  let s := [LG_WM.off g, LG_WIN_CFG.off g, LG_GATE_SEL0.off g, LG_GATE_SEL1.off g, LG_GATE_SEL2.off g].foldl applyReg s
  let s := if flag s (LG_WIN_CFG.EN g) ∨ (group s g).win.isSome then s else setGroup s g { group s g with winEv := [] }
  let h := min (fld s (LG_WM.HIGH g)) 1024
  let s := if h ≠ 0 ∧ h ≤ fld s (LG_WM.LOW g) then sts s (LG_STAT.CFG_ERR g) else s
  if reg s (LG_WM.off g) = old then s else setGroup s g { group s g with wmOld := some (gclk s, old) }

end Sys2Proof.Machine
end

