-- ==== Sys2Proof/Machine/Float.lean ====
section
/-! DEFINITION. Binary64 results of the measurement units and of network time: rounding of exact rationals and square roots
to 64-bit patterns (08_measurements.md R168 to R172). -/

namespace Sys2Proof.Machine

/-- ⌊√n⌋ by bits: `k` further bits below what `r` already has. -/
def isqrtGo (n : Nat) : Nat → Nat → Nat
  | 0, r => r
  | k + 1, r => if (r + 2 ^ k) * (r + 2 ^ k) ≤ n then isqrtGo n k (r + 2 ^ k) else isqrtGo n k r

/-- ⌊√n⌋. -/
def isqrt (n : Nat) : Nat := isqrtGo n (Nat.log2 n / 2 + 1) 0

/-- ⌊log2 (n / d)⌋ for positive n and d. -/
def ratLog2 (n d : Nat) : Int :=
  let l : Int := Int.ofNat (Nat.log2 n) - Int.ofNat (Nat.log2 d)
  let below := if 0 ≤ l then decide (n < d * 2 ^ l.toNat) else decide (n * 2 ^ (-l).toNat < d)
  if below then l - 1 else l

/-- n × 2^k / d for a signed k, as a numerator and denominator. -/
def scaled (n d : Nat) (k : Int) : Nat × Nat := if 0 ≤ k then (n * 2 ^ k.toNat, d) else (n, d * 2 ^ (-k).toNat)

/-- The pattern of a positive binary64 with 53-bit significand m and exponent e of its leading bit. -/
def f64Bits (m : Nat) (e : Int) : Nat := (e + 1022).toNat * 2 ^ 52 + m

/-- n / d rounded to nearest even, as a binary64 pattern; 0 for n = 0. -/
def f64OfRat (n d : Nat) : Nat :=
  if n = 0 ∨ d = 0 then 0
  else
    let e := ratLog2 n d
    let (a, b) := scaled n d (52 - e)
    let m := a / b
    let r := a % b
    f64Bits (if b < 2 * r ∨ (2 * r = b ∧ m % 2 = 1) then m + 1 else m) e

/-- The same with a sign. -/
def f64OfInt (x : Int) (d : Nat) : Nat := if x < 0 then 2 ^ 63 + f64OfRat x.natAbs d else f64OfRat x.natAbs d

/-- √(n / d) within 1 ulp as a binary64 pattern: `pick` chooses among the values that lie within 1 ulp. -/
def f64Sqrt (n d : Nat) (pick : Fin 3) : Nat :=
  if n = 0 ∨ d = 0 then 0
  else
    let e := (ratLog2 n d) / 2
    let (a, b) := scaled n d (2 * (52 - e))
    let m := isqrt (a / b)
    let x := f64Bits m e
    if m * m * b = a then x + pick.val - 1 else if pick.val = 0 then x else x + 1

/-- The quiet NaN of the results. -/
def f64NaN : Nat := 0x7FF8000000000000

end Sys2Proof.Machine
end

