-- ==== Sys2Proof/Machine/Measure.lean ====
section
/-! DEFINITION. The measurement units and MU banks (08_measurements.md): time order of inputs, gates and arming, the six modes,
flags, publication and the bank streams. -/

namespace Sys2Proof.Machine

/-! ## Configuration of a unit (R150, R152) -/

/-- The mode in force; values 7 to 15 act as 0. -/
def muMode (s : State) (u : Nat) : Nat := if 6 < fld s (MU_CFG.MODE u) then 0 else fld s (MU_CFG.MODE u)

/-- The gate source; 3 acts as 0 (R154). -/
def muGsrc (s : State) (u : Nat) : Nat := if fld s (MU_ARM_CFG.GSRC u) = 3 then 0 else fld s (MU_ARM_CFG.GSRC u)

/-- A lane that the MU may use: present and of its partition (R4, R389). -/
def muLaneOk (s : State) (u n : Nat) : Bool := n < nLanes s && ownGroup s (n / 16) = ownMu s u

/-- Samples are intervals: mode 1, or mode 6 with STAT_SRC 0 (R172). -/
def muPairs (s : State) (u : Nat) : Bool := muMode s u = 1 || (muMode s u = 6 && !flag s (MU_CFG.STAT_SRC u))

/-- The roles of a unit's lanes: 0 gate lane, 2 lane B, 3 lane A. -/
def muRoles (s : State) (u : Nat) : List (Nat × Nat) :=
  if muMode s u = 0 then []
  else
    ((if muGsrc s u = 2 then [(0, fld s (MU_ARM_CFG.GSEL u))] else []) ++
      (if muPairs s u ∨ muMode s u = 4 then [(2, fld s (MU_LANES.LANE_B u))] else []) ++
      [(3, fld s (MU_LANES.LANE_A u))]).filter fun x => muLaneOk s u x.2

/-- The lanes of a unit: its gate lane, lane B and lane A as configured, whether or not the mode uses lane B.  Their groups are those
that its inputs wait for (R161), and their failing tiles and gap records count for it (R151, R173). -/
def muLanes (s : State) (u : Nat) : List Nat :=
  if muMode s u = 0 then []
  else ((if muGsrc s u = 2 then [fld s (MU_ARM_CFG.GSEL u)] else []) ++
    [fld s (MU_LANES.LANE_B u), fld s (MU_LANES.LANE_A u)]).filter (muLaneOk s u)

/-- A stamp's EDGE passes the filter of its role; the gate lane has none (R150). -/
def muEdgeOk (s : State) (u role : Nat) (w : W64) : Bool :=
  let e := wbits w 51 51
  if role = 2 then (fld s (MU_CFG.EDGE_B u)).testBit e else if role = 3 then (fld s (MU_CFG.EDGE_A u)).testBit e else true

/-! ## Status -/

/-- ARMED, OPEN and FINISHING follow the state. -/
def muNote (s : State) (u : Nat) : State :=
  let U := mu s u
  let s := setFlag s (MU_STAT.ARMED u) (U.st ≠ 0)
  setFlag (setFlag s (MU_STAT.OPEN u) (U.st = 2)) (MU_STAT.FINISHING u) (U.busy ≠ 0)

/-- Set flag bits in the open measurement (R173). -/
def muFlag (s : State) (u bits : Nat) : State :=
  match (mu s u).meas with
  | some m => setMu s u { mu s u with meas := some { m with flags := m.flags ||| bits } }
  | none => s

/-- Count discarded starts or signal stamps, and stops (R163 to R165, R170). -/
def muDisc (s : State) (u starts stops : Nat) : State :=
  let s := addCnt (addCnt s (MU_START_DISC_CNT.COUNT u) starts) (MU_STOP_DISC_CNT.COUNT u) stops
  if starts + stops = 0 then s else muFlag s u 512

/-! ## Results (R165 to R172, R174) -/

/-- STATUS: MODE, FLAGS and COUNT. -/
def statusSlot (mode flags count : Nat) : Nat := mode * 2 ^ 50 + flags % 2 ^ 10 * 2 ^ 40 + count % 2 ^ 40

/-- `n` slots of 56 bits, least significant first. -/
def slotsOf (x : Nat) : Nat → List Nat
  | 0 => []
  | n + 1 => x % 2 ^ 56 :: slotsOf (x / 2 ^ 56) n

/-- A binary64 in two slots. -/
def f64Slots (x : Nat) : List Nat := [x % 2 ^ 32, x / 2 ^ 32]

/-- n(n − 1)(2n − 1)/6 · n − (Σk)², and the other two cross sums of R168. -/
def crossSums (m : Meas) : Nat × Nat × Nat :=
  let n := m.n
  (n * (n - 1) * n * (2 * n - 1) / 6 - m.sk * m.sk, n * m.skt - m.sk * m.st, n * m.stt - m.st * m.st)

/-- A rate in 64.48 fixed point, half rounded up: num / den ticks. -/
def fixed48 (num den : Nat) : Nat := (num * 2 ^ 49 + den) / (2 * den)

/-- Device ticks per second (R92). -/
def tickRate : Nat := 1638400000000

/-- The sample deviation of n values with these sums (R172): INSUFF and NaN with one value, 0 with none. -/
def sampleDev (n : Nat) (sx : Int) (sxx : Nat) (pick : Fin 3) : Nat :=
  if n = 0 then 0 else if n = 1 then f64NaN
  else f64Sqrt (n * sxx - (sx * sx).natAbs) (n * (n - 1)) pick

/-- Slots 1 onwards of a closed measurement, and whether INSUFF applies (R168 to R172).  The phase is formed with the exact mean
reference period, not with P_ref as rounded to 64.48 (DESIGN CHOICE, log 11). -/
def closeSlots (m : Meas) (pick : Fin 3) : List Nat × Bool :=
  let times := [m.first % 2 ^ 56, m.last % 2 ^ 56]
  match m.mode with
  | 1 => ([m.lastStart % 2 ^ 56, m.lastStop % 2 ^ 56, wrapInt 56 m.lastD], false)
  | 2 =>
    let (skk, skt, stt) := crossSums m
    let few := m.n < 2
    let period := if few ∨ skk = 0 then 0 else fixed48 skt skk
    let freq := if few then 0 else f64OfRat (tickRate * skk) skt
    let dev := if m.n ≤ 2 then f64NaN else f64Sqrt (stt * skk - skt * skt) (skk * (m.n * (m.n - 2))) pick
    (times ++ f64Slots freq ++ f64Slots dev ++ slotsOf period 2 ++ slotsOf m.sk 3 ++ slotsOf m.st 3 ++ slotsOf m.skt 3 ++
      slotsOf m.stt 4, decide (m.n ≤ 2))
  | 3 =>
    let few := m.n < 2
    let D := m.last - m.first
    let period := if few then 0 else fixed48 D (m.n - 1)
    let freq := if few then 0 else f64OfRat (tickRate * (m.n - 1)) D
    (times ++ f64Slots freq ++ [0, 0] ++ slotsOf period 2, decide few)
  | 4 =>
    let few := m.n = 0 ∨ m.nRef < 2
    let D := m.rLast - m.rFirst
    let pref := if m.nRef < 2 then 0 else fixed48 D (m.nRef - 1)
    let phase := if few then f64NaN else f64OfInt (m.sx * Int.ofNat (m.nRef - 1)) (m.n * D)
    (times ++ f64Slots phase ++ f64Slots (sampleDev m.n m.sx m.sxx pick) ++ slotsOf pref 2 ++ [0, 0, 0] ++
      slotsOf (wrapInt 168 m.sx) 3 ++ [0, 0, 0] ++ slotsOf m.sxx 4, decide (few ∨ m.n = 1))
  | 5 => (times, false)
  | _ =>
    let mean := if m.n = 0 then 0 else f64OfInt m.sx m.n
    (times ++ f64Slots mean ++ f64Slots (sampleDev m.n m.sx m.sxx pick) ++ [wrapInt 56 m.xmin, wrapInt 56 m.xmax] ++ [0, 0, 0] ++
      slotsOf (wrapInt 168 m.sx) 3 ++ [0, 0, 0] ++ slotsOf m.sxx 4, decide (m.n ≤ 1))

/-- SOURCE of an MU's record (R176). -/
def muSource (u idx : Nat) : Nat := u % 16 * 16 + idx

/-- The result records of a close from its 24 slots (table *MU result records*). -/
def closeRecs (u mode : Nat) (sl : List Nat) : List W64 :=
  let at_ (i : Nat) : Nat := sl.getD i 0
  let rec_ (i p : Nat) : W64 := resultWord (muSource u i) p
  if mode = 1 then [rec_ 2 (at_ 0)]
  else
    [rec_ 0 (at_ 0), rec_ 1 (low48 (at_ 1)), rec_ 2 (low48 (at_ 2))] ++
    (if mode = 5 then [] else [rec_ 3 (at_ 3 % 2 ^ 32), rec_ 4 (at_ 4 % 2 ^ 32)]) ++
    (if mode = 2 ∨ mode = 4 ∨ mode = 6 then [rec_ 5 (at_ 5 % 2 ^ 32), rec_ 6 (at_ 6 % 2 ^ 32)] else [])

/-- Queue a publication (R174). -/
def pushPub (s : State) (u : Nat) (p : Pub) : State := setMu s u { mu s u with pubs := (mu s u).pubs ++ [p] }

/-! ## Opening and closing (R153 to R160) -/

/-- The gate opens at t: refused while both accumulator sets are busy (R160). -/
def muOpen (s : State) (u t : Nat) (late : Bool) : State :=
  let U := mu s u
  if 2 ≤ U.busy then sts (inc s (MU_OPEN_REFUSED_CNT.COUNT u)) (MU_STAT.OPEN_REFUSED u)
  else
    let m : Meas := { tOpen := t, mode := muMode s u, gateLen := pair64 s (MU_GATE_LEN_LO.off u) (MU_GATE_LEN_HI.off u),
                      nmax := pair64 s (MU_NMAX_LO.off u) (MU_NMAX_HI.off u) % 2 ^ 40, withT := flag s (MU_CFG.WITH_T u),
                      emit := flag s (MU_CFG.EMIT u), flags := if late then 32 else 0 }
    muNote (setMu s u { U with st := 2, meas := some m }) u

/-- The open measurement closes at t with further flags; `rearm` is false for a DISARM (R155, R159, R165). -/
def muClose (s : State) (u t bits : Nat) (rearm : Bool) : State :=
  match (mu s u).meas with
  | none => s
  | some m =>
    let s := muFlag (muDisc s u m.starts.length m.stops.length) u bits
    let (k, s) := takeFree s
    let m := ((mu s u).meas).getD m
    let (sl, few) := closeSlots m (Config.ulpPick k)
    let flags := m.flags ||| (if few then 128 else 0)
    let all := statusSlot m.mode flags m.n :: sl
    let s := if flags.testBit 6 then sts s (MU_STAT.LIMIT u) else s
    let s := if flags.testBit 8 then sts s (MU_STAT.ABORTED u) else s
    let again := rearm && flag s (MU_ARM_CFG.REPEAT u)
    let U := mu s u
    let s := setMu s u { U with meas := none, busy := U.busy + 1, st := if again then 1 else 0, tArm := if again then t else U.tArm }
    muNote (pushPub s u { slots := all, recs := if m.emit then closeRecs u m.mode all else [], frees := true }) u

/-- An arm event is processed (R153, R154). -/
def muArmAt (s : State) (u t : Nat) (late : Bool) : State :=
  let U := mu s u
  let toArmed (s : State) : State := muNote (setMu s u { mu s u with st := 1, tArm := t }) u
  if muGsrc s u = 0 then
    let s := if U.st = 2 then muClose s u t 0 true else s
    muOpen (toArmed s) u t late
  else if U.st = 0 then toArmed s else s

/-- An open event of the gate source is processed (R154). -/
def muGateOpenAt (s : State) (u t : Nat) (late : Bool) : State :=
  let U := mu s u
  if U.st = 1 ∧ U.tArm ≤ t then muOpen s u t late else s

/-- A host CLOSE is processed (R155, R159). -/
def muHostCloseAt (s : State) (u t : Nat) : State :=
  let U := mu s u
  if U.st = 2 then muClose s u t 0 true
  else if U.st = 1 then muNote (setMu s u { U with st := 0 }) u else s

/-- DISARM (R159): an open measurement closes at the frontier, with ABORT; the unit goes to IDLE. Arm and gate events that
have not been processed stay in their order of T. -/
def muDisarm (s : State) (u : Nat) : State :=
  let U := mu s u
  let s := if U.st = 2 then muClose s u U.frontier 256 false else s
  muNote (setMu s u { mu s u with st := 0 }) u

/-! ## One stamp in the gate (R163 to R172) -/

/-- PILEUP and QUAL of a used stamp (R173). -/
def usedFlags (w : W64) : Nat := (if wbits w 50 50 = 1 then 2 else 0) + (if wbits w 49 48 = 0 then 0 else 4)

/-- The rank of a quality (R39): unlocked, then extrapolated, then settling. -/
def rankQ (q : Nat) : Nat := if q = 2 then 3 else if q = 3 then 2 else q

/-- The higher-ranked of two qualities. -/
def worseQ (a b : Nat) : Nat := if rankQ a < rankQ b then b else a

/-- The item just counted reached MU_NMAX, or N the limit of the mode: the measurement closes after the stamp at t (R155,
R167). -/
def muLimit (s : State) (u t : Nat) : State :=
  match (mu s u).meas with
  | some m =>
    if (m.nmax ≠ 0 ∧ m.nmax ≤ m.n) ∨ (m.mode ≠ 1 ∧ m.mode ≠ 4 ∧ 2 ^ 40 ≤ m.n) then muClose s u (t + 1) 64 true else s
  | none => s

/-- Replace the open measurement. -/
def setMeas (s : State) (u : Nat) (m : Meas) : State := setMu s u { mu s u with meas := some m }

/-- An interval as reported: d, COINC and OVR (R165). -/
def reported (d : Int) : Int × Bool × Bool :=
  let lim : Int := 2 ^ 45
  if d.natAbs ≤ 1 then (0, true, false)
  else if lim ≤ d then (lim - 1, false, true)
  else if d ≤ -lim then (1 - lim, false, true)
  else (d, false, false)

/-- One sample of mode 6 (R172): x, with the times of its start and stop. -/
def addSample (m : Meas) (x : Int) (a b : Nat) : Meas :=
  { m with n := m.n + 1, sx := m.sx + x, sxx := m.sxx + x.natAbs * x.natAbs,
           xmin := if m.n = 0 then x else min m.xmin x, xmax := if m.n = 0 then x else max m.xmax x,
           first := if m.n = 0 then a else m.first, last := b }

/-- The publication of one pair in mode 1 (R174, R176). -/
def pairPub (u : Nat) (m : Meas) (coinc ovr : Bool) (a b : MuRec) : Pub :=
  let q := worseQ (wbits a.word 49 48) (wbits b.word 49 48)
  let p0 := (if coinc then 2 ^ 53 else 0) + (if ovr then 2 ^ 52 else 0) +
    (if wbits a.word 50 50 = 1 ∨ wbits b.word 50 50 = 1 then 2 ^ 51 else 0) + q * 2 ^ 49 + (if m.lossPair then 2 ^ 48 else 0) +
    wrapInt 46 m.lastD
  { slots := [statusSlot 1 m.flags m.n, a.t % 2 ^ 56, b.t % 2 ^ 56, wrapInt 56 m.lastD],
    recs := if m.emit then resultWord (muSource u 0) p0 :: (if m.withT then [resultWord (muSource u 1) (low48 a.t)] else []) else [],
    frees := false }

/-- Report one pair (R165): a publication in mode 1, a sample in mode 6. -/
def reportPair (s : State) (u : Nat) (a b : MuRec) : State :=
  match (mu s u).meas with
  | none => s
  | some m =>
    let (d, coinc, ovr) := reported (Int.ofNat b.t - Int.ofNat a.t)
    let m := { m with flags := m.flags ||| usedFlags a.word ||| usedFlags b.word }
    if m.mode = 1 then
      let m := { m with n := m.n + 1, lastD := d, lastStart := a.t, lastStop := b.t }
      let s := pushPub (setMeas s u { m with lossPair := false }) u (pairPub u m coinc ovr a b)
      muLimit s u (max a.t b.t)
    else muLimit (setMeas s u (addSample m d a.t b.t)) u (max a.t b.t)

/-- Depth of the pending lists (R163). -/
def muDepth (s : State) (u : Nat) : Nat := fld s (MU_CFG.PEND u) + 1

/-- A start in a measurement of pairs (R163, R164). -/
def muStart (s : State) (u : Nat) (m : Meas) (a : MuRec) : State :=
  let D := muDepth s u
  match flag s (MU_CFG.SIGNED u), m.stops with
  | true, b :: r => reportPair (setMeas s u { m with stops := r }) u a b
  | _, _ =>
    if D ≤ m.starts.length then muDisc (setMeas s u { m with starts := m.starts.drop 1 ++ [a] }) u 1 0
    else setMeas s u { m with starts := m.starts ++ [a] }

/-- The starts of a list pair with one stop, oldest first, until the measurement closes. -/
def reportAll (s : State) (u : Nat) (b : MuRec) : List MuRec → State
  | [] => s
  | a :: r =>
    match (mu s u).meas with
    | none => s
    | some m => reportAll (reportPair (setMeas s u { m with starts := r }) u a b) u b r

/-- A stop in a measurement of pairs (R163, R164). -/
def muStop (s : State) (u : Nat) (m : Meas) (b : MuRec) : State :=
  let D := muDepth s u
  if flag s (MU_CFG.SIGNED u) then
    match m.starts with
    | a :: r => reportPair (setMeas s u { m with starts := r }) u a b
    | [] =>
      if D ≤ m.stops.length then muDisc (setMeas s u { m with stops := m.stops.drop 1 ++ [b] }) u 0 1
      else setMeas s u { m with stops := m.stops ++ [b] }
  else if m.starts.isEmpty then muDisc s u 0 1
  else reportAll s u b m.starts

/-- A stamp of modes 2, 3 and 5: sums, count, first and last (R166, R169, R171). -/
def countStamp (s : State) (u : Nat) (m : Meas) (x : MuRec) : State :=
  let s0 := if m.n = 0 then x.t else m.first
  let t := x.t - s0
  if m.mode ≠ 5 ∧ 2 ^ 64 ≤ t then muClose s u x.t 64 true
  else
    let m := { m with flags := m.flags ||| usedFlags x.word, first := s0, last := x.t, n := m.n + 1 }
    let k := m.n - 1
    let m := if m.mode = 2 then { m with sk := m.sk + k, st := m.st + t, skt := m.skt + k * t, stt := m.stt + t * t } else m
    muLimit (setMeas s u m) u x.t

/-- A reference stamp of mode 4 (R170). -/
def refStamp (s : State) (u : Nat) (m : Meas) (x : MuRec) : State :=
  setMeas s u { m with flags := m.flags ||| usedFlags x.word, per := m.r1.map fun r => x.t - r, r1 := some x.t,
                       rFirst := if m.nRef = 0 then x.t else m.rFirst, rLast := x.t, nRef := m.nRef + 1 }

/-- A signal stamp of mode 4 (R170): folded once, or discarded. -/
def phaseStamp (s : State) (u : Nat) (m : Meas) (x : MuRec) : State :=
  match m.r1, m.per with
  | some r, some p =>
    let d : Int := Int.ofNat x.t - Int.ofNat r
    let d := if Int.ofNat p ≤ 2 * d then d - Int.ofNat p else d
    if Int.ofNat p ≤ 2 * d then muDisc s u 1 0
    else
      let m := { m with flags := m.flags ||| usedFlags x.word, n := m.n + 1, sx := m.sx + d, sxx := m.sxx + d.natAbs * d.natAbs,
                        first := if m.n = 0 then x.t else m.first, last := x.t }
      muLimit (setMeas s u m) u x.t
  | _, _ => s

/-- A period sample of mode 6 (R172): the difference of successive stamps, never coincident. -/
def periodStamp (s : State) (u : Nat) (m : Meas) (x : MuRec) : State :=
  let m' := { m with prev := some x.t, flags := m.flags ||| usedFlags x.word }
  match m.prev with
  | none => setMeas s u m'
  | some p =>
    let d : Int := Int.ofNat x.t - Int.ofNat p
    muLimit (setMeas s u (addSample m' (max (1 - 2 ^ 45) (min (2 ^ 45 - 1) d)) p x.t)) u x.t

/-- A stamp in its lane role reaches the unit: the gate lane's edges open and close; a qualifying stamp in the gate is used
by the mode (R150, R154, R156). -/
def muStamp (s : State) (u : Nat) (x : MuRec) : State :=
  let U := mu s u
  if x.role = 0 then
    if wbits x.word 51 51 = 0 then muGateOpenAt s u x.t false
    else if U.st = 2 then muClose s u x.t 0 true else s
  else match U.meas with
    | none => s
    | some m =>
      if x.t < m.tOpen ∨ muEdgeOk s u x.role x.word = false then s
      else if m.mode = 1 ∨ (m.mode = 6 ∧ muPairs s u) then
        (if x.role = 2 then muStop s u m x else muStart s u m x)
      else if m.mode = 4 then (if x.role = 2 then refStamp s u m x else phaseStamp s u m x)
      else if m.mode = 6 then periodStamp s u m x
      else countStamp s u m x

/-! ## Time order (R161) -/

/-- The order key of a stamp: its time, then close, open, lane B, lane A; an arm comes ahead of an open of the same time, which it
lets open the gate (R154, R161). -/
def recKey (x : MuRec) : Nat :=
  5 * x.t + (if x.role = 0 then (if wbits x.word 51 51 = 1 then 0 else 2) else x.role + 1)

def evTime : MuEv → Nat
  | .arm t _ | .gateOpen t _ | .gateClose t | .hostClose t => t

def evKey : MuEv → Nat
  | .arm t _ => 5 * t + 1
  | .gateOpen t _ => 5 * t + 2
  | .gateClose t | .hostClose t => 5 * t

/-- The first element of least key. -/
def leastBy {α : Type} (key : α → Nat) : List α → Option α
  | [] => none
  | x :: r => match leastBy key r with
    | some y => if key y < key x then some y else some x
    | none => some x

/-- Remove the first element that equals x. -/
def removeOne {α : Type} [DecidableEq α] (x : α) : List α → List α
  | [] => []
  | y :: r => if y = x then r else y :: removeOne x r

/-- The times of the stamps of a group's tile. -/
def tileTimesOf (s : State) (g : Nat) (t : Tile) : List Nat :=
  if tileGroup t = g ∧ tileInjected t = false then ((t.slots.filter isStamp).map fun w => rebuild (tNow s) (recTime w)) else []

/-- The progress time P_g (R161): no record of the group that has still to reach the MUs carries a lower time. -/
def progress (s : State) (g : Nat) : Nat :=
  let lanes := (List.range 16).flatMap fun i =>
    ((lane s (16 * g + i)).pipe.map (·.s)) ++ ((lane s (16 * g + i)).chain.map (·.s))
  let x := source s g
  let tiles := (x.crossing ++ x.entry.map (·.1) ++ s.fab.pipe.map (·.2.1) ++ s.fab.muIn).flatMap (tileTimesOf s g)
  (lanes ++ (group s g).tileTimes ++ tiles).foldl min s.pl.tc.toNat

/-- T has reached an input's time t, and it lies below every P_g of the unit's lanes (R161). -/
def muReady (s : State) (u t : Nat) : Bool :=
  decide (t ≤ tNow s) && (muLanes s u).all fun n => decide (t < progress s (n / 16))

/-- The T at which the gate length ends the open measurement (R155). -/
def gateEnd (s : State) (u : Nat) : Option Nat :=
  match (mu s u).meas with
  | some m => if m.gateLen = 0 then none else some (m.tOpen + m.gateLen)
  | none => none

/-- The gate length ends before, or at the time of, an input of time t. -/
def gateEndsBy (s : State) (u t : Nat) : Bool :=
  match gateEnd s u with
  | some e => decide (e ≤ t)
  | none => false

/-- The frontier moves on (R158). -/
def muAdvance (s : State) (u t : Nat) : State := setMu s u { mu s u with frontier := max (mu s u).frontier t }

/-- One event acts. -/
def muEvent (s : State) (u : Nat) : MuEv → State
  | .arm t late => muArmAt s u t late
  | .gateOpen t late => if muGsrc s u = 1 then muGateOpenAt s u t late else s
  | .gateClose t => if muGsrc s u = 1 ∧ (mu s u).st = 2 then muClose s u t 0 true else s
  | .hostClose t => muHostCloseAt s u t

/-- MU_PROCESS_INPUT (R161): the next input in T order, once it lies below every P_g and no gate length ends before it.  Of close events
of one T the end of the gate length comes first (DESIGN CHOICE, log 11). -/
def muProcessInput (s : State) (u : Nat) : State :=
  let U := mu s u
  if nMus s ≤ u ∨ muMode s u = 0 then s
  else
    let ev (e : MuEv) : State :=
      if muReady s u (evTime e) ∧ gateEndsBy s u (evTime e) = false then
        muEvent (muAdvance (setMu s u { U with evs := removeOne e U.evs }) u (evTime e)) u e
      else s
    let rc (x : MuRec) : State :=
      if muReady s u x.t ∧ gateEndsBy s u x.t = false then
        muStamp (muAdvance (setMu s u { U with recs := removeOne x U.recs }) u x.t) u x
      else s
    match leastBy evKey U.evs, leastBy recKey U.recs with
    | some e, some x => if recKey x < evKey e then rc x else ev e
    | some e, none => ev e
    | none, some x => rc x
    | none, none => s

def execMuProcessInput (u : Nat) (s : State) : Host.Outcome State Fault Refusal := .next (muProcessInput s u)

/-- MU_GATE_LEN_EXPIRY (R155): at T_open + MU_GATE_LEN, when nothing of lower T waits. -/
def muGateLenExpiry (s : State) (u : Nat) : State :=
  match gateEnd s u with
  | none => s
  | some e =>
    let U := mu s u
    if muReady s u e = false ∨ (U.evs.any fun x => evKey x < 5 * e) ∨ (U.recs.any fun x => recKey x < 5 * e) then s
    else muClose (muAdvance s u e) u e 0 true

def execMuGateLenExpiry (u : Nat) (s : State) : Host.Outcome State Fault Refusal := .next (muGateLenExpiry s u)

/-! ## Arrival of tiles and events (R151, R158, R162) -/

/-- The gate length has ended at or before t: the measurement closes there (R155). -/
def muEndBy (s : State) (u t : Nat) : State :=
  match gateEnd s u with
  | some e => if e ≤ t then muClose (muAdvance s u e) u e 0 true else s
  | none => s

/-- A waiting event acts out of its turn, at its own T. -/
def muForceEv (s : State) (u : Nat) (e : MuEv) : State :=
  let s := muEndBy (setMu s u { mu s u with evs := removeOne e (mu s u).evs }) u (evTime e)
  muEvent (muAdvance s u (evTime e)) u e

/-- A waiting stamp of the gate lane acts out of its turn, at its own T. -/
def muForceGate (s : State) (u : Nat) (x : MuRec) : State :=
  let s := muEndBy (setMu s u { mu s u with recs := removeOne x (mu s u).recs }) u x.t
  muStamp (muAdvance s u x.t) u x

/-- The waiting events and gate-lane stamps of lower order than a forced stamp act before it, in order (R156, R158): at most `n`. -/
def muEvsBelow (s : State) (u key : Nat) : Nat → State
  | 0 => s
  | n + 1 =>
    match (leastBy evKey (mu s u).evs).filter fun e => decide (evKey e < key),
          (leastBy recKey ((mu s u).recs.filter fun x => x.role = 0)).filter fun x => decide (recKey x < key) with
    | some e, some x => muEvsBelow (if recKey x < evKey e then muForceGate s u x else muForceEv s u e) u key n
    | some e, none => muEvsBelow (muForceEv s u e) u key n
    | none, some x => muEvsBelow (muForceGate s u x) u key n
    | none, none => s

/-- A stamp joins the unit's buffer; at a full buffer the oldest of its lane is processed at once (R162), after the events and
gate-lane stamps of lower T and the close of a gate length that ended at or before it (R155, R156).  ORDER is set in the measurement
open then and in the one open when the stamp is processed. -/
def muTake (s : State) (u : Nat) (x : MuRec) : State :=
  let U := mu s u
  let mine := U.recs.filter fun y => y.role = x.role
  if mine.length < 256 then setMu s u { U with recs := U.recs ++ [x] }
  else match mine with
    | [] => s
    | o :: _ =>
      let s := sts (muFlag (setMu s u { U with recs := removeOne o U.recs ++ [x] }) u 16) (MU_STAT.ORDER u)
      let s := muEndBy (muEvsBelow s u (recKey o) ((mu s u).evs.length + (mu s u).recs.length)) u o.t
      muStamp (muFlag (muAdvance s u o.t) u 16) u o

/-- A gap record of reason 0x0 or 0x2 that names a lane of the unit (R173).  It carries no T: LOSS is set in the measurement open when its
tile arrives, ahead of every input that still waits for R161 (DESIGN CHOICE, log 11). -/
def muLoss (s : State) (u : Nat) (w : W64) : State :=
  if isGap w ∧ gapLaneValid w ∧ (gapReason w = 0 ∨ gapReason w = 2) ∧ (muLanes s u).contains (gapLane w) then
    match (mu s u).meas with
    | some m => setMeas s u { m with flags := m.flags ||| 1, lossPair := true }
    | none => s
  else s

/-- One record of a tile at one unit. -/
def muRecord (s : State) (u : Nat) (roles : List (Nat × Nat)) (w : W64) : State :=
  if isStamp w then
    (roles.filter fun x => x.2 = recLane w).foldl
      (fun s x => muTake s u { t := rebuild (tNow s) (recTime w), word := w, role := x.1 }) s
  else muLoss s u w

/-- A tile at one unit: verified, and none of its records used when it fails (R151). -/
def muTile (s : State) (t : Tile) (u : Nat) : State :=
  let roles := (muRoles s u).filter fun x => x.2 / 16 = tileGroup t
  if !((muLanes s u).any fun n => n / 16 = tileGroup t) then s
  else if failsCheck s t then muFlag (sts (inc s (MU_CORRUPT_CNT.COUNT u)) (MU_STAT.CORRUPT u)) u 8
  else if tileInjected t then s
  else t.slots.foldl (fun s w => muRecord s u roles w) s

/-- MU_TILE_ARRIVAL (R151): the oldest tile at the MU inputs. -/
def muTileArrival (s : State) : State :=
  match s.fab.muIn with
  | [] => s
  | t :: r => forEach (List.range (nMus s)) { s with fab := { s.fab with muIn := r } } fun s u => muTile s t u

def execMuTileArrival (s : State) : Host.Outcome State Fault Refusal := .next (muTileArrival s)

/-- An event becomes known to a unit that is on. -/
def muPost (s : State) (u : Nat) (e : MuEv) : State :=
  if muMode s u = 0 then s else setMu s u { mu s u with evs := (mu s u).evs ++ [e] }

/-- An event with a T of its own that may lie below the frontier is taken there (R158). -/
def muPostAt (s : State) (u t : Nat) (e : Nat → Bool → MuEv) : State :=
  let f := (mu s u).frontier
  if muMode s u = 0 then s
  else if t < f then muPost (sts s (MU_STAT.LATE u)) u (e f true) else muPost s u (e t false)

/-- An event of a gate reaches the units whose gate source it is (R154). -/
def gateToMus (s : State) (id : Nat) (open_ : Bool) (t : Nat) : State :=
  forEach (List.range (nMus s)) s fun s u =>
    if muGsrc s u = 1 ∧ fld s (MU_ARM_CFG.GSEL u) % 256 = id ∧ gatePresent s id ∧ gateOwned s (ownMu s u) id then
      muPostAt s u t (if open_ then MuEv.gateOpen else fun t _ => .gateClose t)
    else s

/-- T at the next PCLK edge: that of a host event (R153, R156). -/
def tNext (s : State) : Nat :=
  if s.pl.running then (advanceTF s.pl.t s.pl.f s.pl.adj).1.toNat else 0

/-- MU_ARM (R153). -/
def muArm (s : State) (a : Access) (u : Nat) (v : W32) : State :=
  cmdWrite s a (MU_CMD.off u) v fun s => if v.getLsbD 0 then muPost s u (.arm (tNext s) false) else s

def execMuArm (a : Access) (u : Nat) (v : W32) (s : State) : Host.Outcome State Fault Refusal := .next (muArm s a u v)

/-- MU_CLOSE (R155, R159). -/
def muCloseCmd (s : State) (a : Access) (u : Nat) (v : W32) : State :=
  cmdWrite s a (MU_CMD.off u) v fun s => if v.getLsbD 2 then muPost s u (.hostClose (tNext s)) else s

def execMuClose (a : Access) (u : Nat) (v : W32) (s : State) : Host.Outcome State Fault Refusal := .next (muCloseCmd s a u v)

/-- MU_DISARM (R159). -/
def muDisarmCmd (s : State) (a : Access) (u : Nat) (v : W32) : State :=
  cmdWrite s a (MU_CMD.off u) v fun s => if v.getLsbD 1 then muDisarm s u else s

def execMuDisarm (a : Access) (u : Nat) (v : W32) (s : State) : Host.Outcome State Fault Refusal := .next (muDisarmCmd s a u v)

/-- MUARM_ARRIVAL (R158, R213): the oldest Carver arm decision of the unit. -/
def muarmArrival (s : State) (u : Nat) : State :=
  let is (d : Decision) : Bool := match d with
    | .muarm v _ => v = u
    | _ => false
  match reached s is with
  | some (.muarm _ t, r) => muPostAt { s with fab := { s.fab with decs := r } } u t .arm
  | _ => s

def execMuarmArrival (u : Nat) (s : State) : Host.Outcome State Fault Refusal := .next (muarmArrival s u)

/-- A host event: it names no gate source. -/
def isHostEv : MuEv → Bool
  | .arm _ _ => true
  | .hostClose _ => true
  | _ => false

/-- A committed MU configuration comes into force: a change of the fields of R159 acts as DISARM, and stamps and gate events
that waited under the former lanes and gate source are given up; a unit that is off ignores every input (R152). -/
def applyMu (s : State) (u : Nat) : State :=
  let key (s : State) : List Nat :=
    [muMode s u, fld s (MU_CFG.SIGNED u), fld s (MU_CFG.STAT_SRC u), fld s (MU_CFG.EDGE_A u), fld s (MU_CFG.EDGE_B u),
     fld s (MU_CFG.PEND u), (reg s (MU_LANES.off u)).toNat, (reg s (MU_ARM_CFG.off u)).toNat]
  let new := applyRegs s (.mu u)
  if key new = key s then new
  else
    let s := muDisarm s u
    let s := applyRegs s (.mu u)
    setMu s u { mu s u with recs := [], evs := if muMode s u = 0 then [] else (mu s u).evs.filter isHostEv }

/-! ## MU banks (R176, R177) -/

/-- OCC and PEAK of a bank. -/
def bankNote (s : State) (b : Nat) : State :=
  let n := (bank s b).recs.length
  let s := setFld s (MU_BANK_OCC.OCC b) n
  if fld s (MU_BANK_OCC.PEAK b) < n then setFld s (MU_BANK_OCC.PEAK b) n else s

/-- Seal the bank's open tile, or let it wait for a credit or room (R177, R203).  A reason-0x1 gap record that is owed heads the tile,
with its epoch marker (R115, R210), behind what completes a run or a publication of the tile before (R176, R177); anchor markers that
waited for room follow what is held. -/
def bankSeal (s : State) (b : Nat) : State :=
  let B := bank s b
  if B.recs.isEmpty then s
  else if maySeal s (0x50 + b) = false then
    if B.waitCredit then s else inc (setBank s b { B with waitCredit := true }) (MU_BANK_CREDIT_WAIT_CNT.COUNT b)
  else
    let recs := withOwed (B.cont + ((B.recs.drop B.cont).takeWhile continues).length) B.qGap (tNow s) B.recs
    let t := dataTile (0x50 + b) (fld s (MU_BANK_SEQ.SEQ b)) (recs.take 7)
    let room := 128 - (recs.drop 7).length
    let s := setBank s b { B with recs := recs.drop 7 ++ B.marks.take room, marks := B.marks.drop room, qGap := 0, fresh := false, tileCyc := fclk s,
                                  waitCredit := false, cont := openRun (recs.take 7) }
    bankNote (bump (setEmitted (issueTile s (0x50 + b) t)) (MU_BANK_SEQ.SEQ b)) b

/-- Seal full tiles, at most as many as are held. -/
def bankFull (s : State) (b : Nat) : Nat → State
  | 0 => s
  | k + 1 => if 7 ≤ (bank s b).recs.length ∧ (bank s b).waitCredit = false then bankFull (bankSeal s b) b k else s

/-- Put records at the bank's tail. -/
def bankPut (s : State) (b : Nat) (ws : List W64) : State :=
  let B := bank s b
  let s := setBank s b { B with recs := B.recs ++ ws, tileCyc := if B.recs.isEmpty then fclk s else B.tileCyc }
  bankFull (bankNote s b) b 20

/-- What goes ahead of a bank's next result: the stream's first epoch marker with any sleep gap, or the loss gap record and the
epoch marker after it, or the marker of a new epoch (R110, R115, R177). -/
def bankPrefix (s : State) (b : Nat) : List W64 :=
  let B := bank s b
  let ep := epochWord (tNow s)
  let gap := if B.lost = 0 then [] else [gapWord false false 3 0 B.lost, ep]
  if B.started = false then ep :: ((s.pl.gap.map fun (t, e) => sleepGapWord e t).toList ++ gap)
  else if gap.isEmpty ∧ B.epoch ≠ some (tNow s / 2 ^ 47) then [ep]
  else gap

/-- A publication's records enter the bank, or are dropped whole when they do not fit (R177). -/
def bankEmit (s : State) (b : Nat) (ws : List W64) : State :=
  if ws.isEmpty then s
  else
    let B := bank s b
    let all := bankPrefix s b ++ ws
    if 128 < B.recs.length + all.length then
      addCnt (setBank s b { B with lost := B.lost + ws.length }) (MU_BANK_LOST_CNT.COUNT b) ws.length
    else
      bankPut (setBank s b { B with lost := 0, started := true, fresh := B.fresh || !B.started, epoch := some (tNow s / 2 ^ 47) }) b all

/-- A time marker of the bank's stream, once it has started (R110); a bank that holds its 128 records takes it when a tile has left
(R177). -/
def bankMark (s : State) (b : Nat) (w : W64) : State :=
  let B := bank s b
  if B.started = false then s
  else if B.recs.length < 128 then bankPut s b [w]
  else setBank s b { B with marks := B.marks ++ [w] }

/-- MU_BANK_HOLD_TIMEOUT (R177): 8 FCLK cycles after the open tile's first record. -/
def muBankHoldTimeout (s : State) (b : Nat) : State :=
  let B := bank s b
  if B.recs.isEmpty ∨ fclk s < B.tileCyc + 8 then s else bankSeal s b

def execMuBankHoldTimeout (b : Nat) (s : State) : Host.Outcome State Fault Refusal := .next (muBankHoldTimeout s b)

/-- A bank tile that waits is sealed as soon as it may be. -/
def releaseBank (s : State) (b : Nat) : State :=
  if (bank s b).waitCredit = false ∨ maySeal s (0x50 + b) = false then s
  else bankFull (bankSeal s b) b 20

/-! ## Publication (R174) -/

/-- Write the 24 result slots with one SEQ. -/
def writeSlots (s : State) (u seq : Nat) (sl : List Nat) : State :=
  forEach (List.range 24) s fun s i =>
    let v := sl.getD i 0
    setReg (setReg s (MU_RES_LO.off u i) (BitVec.ofNat 32 v)) (MU_RES_HI.off u i)
      (BitVec.ofNat 32 (seq % 256 * 2 ^ 24 + v / 2 ^ 32 % 2 ^ 24))

/-- MU_PUBLISH (R174): the oldest publication of the unit; a close's frees its accumulator set (R160). -/
def muPublish (s : State) (u : Nat) : State :=
  let U := mu s u
  match U.pubs with
  | [] => s
  | p :: r =>
    let seq := (U.seq + 1) % 256
    let s := setMu s u { U with pubs := r, seq := seq, busy := if p.frees then U.busy - 1 else U.busy }
    let s := inc (sts (writeSlots s u seq p.slots) (MU_STAT.DONE u)) (MU_RESULT_CNT.COUNT u)
    bankEmit (muNote s u) (u / 16) p.recs

def execMuPublish (u : Nat) (s : State) : Host.Outcome State Fault Refusal := .next (muPublish s u)

end Sys2Proof.Machine
end

