-- ==== Sys2Proof/Machine/Fabric.lean ====
section
/-! DEFINITION. The stamp fabric and the clusters (10_fabric_and_decisions.md R202 to R212; 09 R181 to R183, R190, R193, R195):
credits, entry, grant and delivery of tiles, cluster inputs and ports, mailboxes and the result assemblers. -/

namespace Sys2Proof.Machine

/-! ## A cluster's copy of T (R190) -/

/-- How many PCLK edges ago an edge lies that is `lo` to `hi` before the present ECLK cycle began, in units of 25 ps, 25 to a PCLK
period and 32 to an ECLK cycle: the `k`-th such edge, counted from the latest. -/
def edgesBack (s : State) (lo hi k : Nat) : Nat :=
  let since := s.now * 25 - eclk s * 32
  min ((hi + since) / 25) ((lo + since + 24) / 25 + k)

/-- Read the copy: T at one of the PCLK edges that lie between 4 ns and 8 ns before the ECLK cycle began (160 and 320 units of 25 ps),
never below an earlier reading; all readings of one ECLK cycle show one value (R190, log 12). -/
def copyT (s : State) (c : Nat) : Nat × State :=
  if (cluster s c).tCyc = some (eclk s) then ((cluster s c).tCopy, s)
  else
  let (k, s) := takeFree s
  let t := ((s.pl.hist.drop (edgesBack s 160 320 (Config.copyLag k).val)).headD 0).toNat
  let t := max t (cluster s c).tCopy
  (t, setCluster s c { cluster s c with tCopy := t, tCyc := some (eclk s) })

/-- The full time nearest to a reference that has given low 64 bits: the engines work with T modulo 2^64.  Where the nearest lies
before T = 0, it is the number itself. -/
def full64 (ref x : Nat) : Nat :=
  let base : Int := Int.ofNat ref - Int.ofNat (2 ^ 63)
  let t := base + Int.ofNat (wrapInt 64 (Int.ofNat x - base))
  if t < 0 then x % 2 ^ 64 else t.toNat

/-! ## Cluster results (R195, R110) -/

/-- Seal the open result tile, or let it wait for a credit or room (R195, R203).  A reason-0x1 gap record that is owed heads the tile,
with its epoch marker (R115, R210), behind what completes a run of the tile before (R195); it waits while the run is not complete.
What then finds no slot stays in the open tile. -/
def clusterSeal (s : State) (c : Nat) : State :=
  let C := cluster s c
  let code := 0x40 + c
  if C.tile.isEmpty then s
  else if maySeal s code = false then
    if C.waitCredit then s else inc (setCluster s c { C with waitCredit := true }) (CC_CREDIT_WAIT_CNT.COUNT c)
  else
    let owed := if C.tile.length < C.cont then 0 else C.qGap
    let recs := withOwed C.cont owed (tNow s) C.tile
    let t := dataTile code (fld s (CC_RES_SEQ.SEQ c)) (recs.take 7)
    let s := setCluster s c { C with tile := recs.drop 7, tileCyc := eclk s, qGap := C.qGap - owed, fresh := false, waitCredit := false,
                                     cont := max (C.cont - recs.length) (openRun (recs.take 7)) }
    bump (issueTile (setEmitted s) code t) (CC_RES_SEQ.SEQ c)

/-- The open result tile is due: seven records, or 10 cycles after its first. -/
def clusterDue (s : State) (c : Nat) : Bool :=
  let C := cluster s c
  !C.tile.isEmpty && (C.tile.length = 7 || C.tileCyc + 10 ≤ eclk s)

/-- CLUSTER_HOLD_TIMEOUT (R195). -/
def clusterHoldTimeout (s : State) (c : Nat) : State := if clusterDue s c then clusterSeal s c else s

def execClusterHoldTimeout (c : Nat) (s : State) : Host.Outcome State Fault Refusal := .next (clusterHoldTimeout s c)

/-- Put one record in the open result tile; the seventh seals it. -/
def clusterPlace (s : State) (c : Nat) (w : W64) : State :=
  let C := cluster s c
  let s := setCluster s c { C with tile := C.tile ++ [w], tileCyc := if C.tile.isEmpty then eclk s else C.tileCyc,
                                   placed := some (eclk s) }
  if (cluster s c).tile.length = 7 then clusterSeal s c else s

/-- The head of an engine's result queue is placed, and the engine is the one last served. -/
def placeResult (s : State) (c e : Nat) : State :=
  let E := engine s e
  match E.rq with
  | [] => setCluster s c { cluster s c with lead := none }
  | (w, _) :: r =>
    let s := setEngine s e { E with rq := r }
    clusterPlace (setCluster s c { cluster s c with lead := none, rr := (e + 1) % 16 }) c w

/-- What goes directly ahead of the next result record: the stream's first epoch marker with any sleep gap, the marker of a
new epoch, and each loss gap record with the epoch marker after it (R110, R115, R195, R210). -/
def clusterPrefix (s : State) (c lost : Nat) : List W64 :=
  let C := cluster s c
  let ep := epochWord (tNow s)
  (if C.started = false then ep :: (s.pl.gap.map fun (t, e) => sleepGapWord e t).toList
   else if C.epoch = some (tNow s / 2 ^ 47) then [] else [ep]) ++
  (if C.qGap = 0 then [] else [gapWord true false 1 0 C.qGap, ep]) ++
  (if lost = 0 then [] else [gapWord false false 3 0 lost, ep])

/-- The engine to serve: the first with a result record at or after the round-robin pointer. -/
def pickEngine (s : State) (c : Nat) : Option Nat :=
  ((List.range 16).map fun i => 16 * c + ((cluster s c).rr + i) % 16).find? fun e => !(engine s e).rq.isEmpty

/-- An epoch marker carries the epoch in force as it enters (R110). -/
def freshEpoch (s : State) (w : W64) : W64 := if recKind w = 1 ∧ recSub w = 0 then epochWord (tNow s) else w

/-- Put the next word that is due, and note the epoch of a marker. -/
def placeWord (s : State) (c : Nat) (w : W64) : State :=
  let s := if recKind w = 1 ∧ recSub w = 0 then setCluster s c { cluster s c with epoch := some (tNow s / 2 ^ 47) } else s
  clusterPlace s c (freshEpoch s w)

/-- One turn of the result assembler (R195): what is due ahead of a record, that record, a discard report into a tile that is
open, an anchor marker, or the next engine's record. -/
def resultTurn (s : State) (c : Nat) : State :=
  let C := cluster s c
  match C.due with
  | w :: r => placeWord (setCluster s c { C with due := r }) c w
  | [] =>
    match C.lead with
    | some e => if C.epoch = some (tNow s / 2 ^ 47) then placeResult s c e else placeWord s c (epochWord (tNow s))
    | none =>
      if C.qGap ≠ 0 ∧ !C.tile.isEmpty then
        clusterPlace (setCluster s c { C with qGap := 0, due := [epochWord (tNow s)] }) c (gapWord true false 1 0 C.qGap)
      else match C.marks with
        | w :: r => clusterPlace (setCluster s c { C with marks := r }) c w
        | [] =>
          match pickEngine s c with
          | none => s
          | some e =>
            let lost := match (engine s e).rq with
              | (_, n) :: _ => n
              | [] => 0
            let pre := clusterPrefix s c lost
            let s := setCluster s c { C with started := true, fresh := C.fresh || !C.started, qGap := 0 }
            match pre with
            | [] => placeResult s c e
            | w :: r => placeWord (setCluster s c { cluster s c with due := r, lead := some e }) c w

/-- CLUSTER_RESULT_TAKE (R195): one record in an ECLK cycle, into a tile that is not full. -/
def clusterResultTake (s : State) (c : Nat) : State :=
  let C := cluster s c
  if nClusters s ≤ c ∨ C.tile.length = 7 ∨ C.placed = some (eclk s) then s else resultTurn s c

def execClusterResultTake (c : Nat) (s : State) : Host.Outcome State Fault Refusal := .next (clusterResultTake s c)

/-- A cluster tile that waits is sealed as soon as it may be. -/
def releaseCluster (s : State) (c : Nat) : State :=
  if (cluster s c).waitCredit = false ∨ maySeal s (0x40 + c) = false then s
  else if clusterDue s c then clusterSeal s c
  else setCluster s c { cluster s c with waitCredit := false }

/-- An anchor marker of a cluster's stream, once it has started (R110). -/
def clusterMark (s : State) (c : Nat) (w : W64) : State :=
  let C := cluster s c
  if C.started then setCluster s c { C with marks := C.marks ++ [w] } else s

/-- An anchor marker in every lane-group, cluster and MU-bank stream (R110). -/
def anchorMark (s : State) (w : W64) : State :=
  let s := forEach (List.range (nGroups s)) s fun s g => groupMark s g clsAnchor w
  let s := forEach (List.range (nClusters s)) s fun s c => clusterMark s c w
  forEach (List.range (nBanks s)) s fun s b => bankMark s b w

/-! ## Credits, entry and grant (R17, R203, R204) -/

/-- A source's waiting tile is sealed as soon as it may be. -/
def releaseSource (s : State) (code : Nat) : State :=
  if code < 0x40 then releaseGroup s code
  else if code < 0x50 then releaseCluster s (code - 0x40)
  else releaseBank s (code - 0x50)

/-- FABRIC_CREDIT_EARN (R17): at every 32nd FCLK cycle. -/
def fabricCreditEarn (s : State) (src : Nat) : State :=
  let x := source s src
  if codePresent s src ∧ x.earned < creditsDue s then
    releaseSource (setSource s src { x with earned := x.earned + 1, credits := min 8 (x.credits + 1) }) src
  else s

def execFabricCreditEarn (src : Nat) (s : State) : Host.Outcome State Fault Refusal := .next (fabricCreditEarn s src)

/-- FABRIC_ENTRY (R203): the oldest sealed tile of the source crosses into its entry buffer. -/
def fabricEntry (s : State) (src : Nat) : State :=
  let x := source s src
  match x.crossing with
  | [] => s
  | t :: r => if x.entry.length < 8 then setSource s src { x with crossing := r, entry := x.entry ++ [(t, fclk s)] } else s

def execFabricEntry (src : Nat) (s : State) : Host.Outcome State Fault Refusal := .next (fabricEntry s src)

/-- The source whose head entered first, ties to the lowest group code (R204). -/
def oldestEntry (s : State) : Option Nat :=
  (List.range 0x54).foldl (fun best c =>
    match (source s c).entry with
    | [] => best
    | (_, k) :: _ => match best with
      | none => some c
      | some b => match (source s b).entry with
        | (_, j) :: _ => if k < j then some c else best
        | [] => some c) none

/-- A cluster's sets hold the source (R205). -/
def clusterWants (s : State) (code c : Nat) : Bool :=
  if code < 32 then fbit s (CC_GROUPS_LO.GROUP c) code
  else if code < 0x40 then fbit s (CC_GROUPS_HI.GROUP c) (code - 32)
  else fbit s (CC_RSRC.SRC c) (dqOf code)

/-- The longest grant wait, and waits beyond the allowance (R212). -/
def noteWait (s : State) (code w : Nat) : State :=
  let s := if 2 < w then inc s CC_FAB_LATE_CNT.COUNT else s
  if fld s CC_FAB_WAIT_MAX.MAX < w then
    setFld (setFld s CC_FAB_WAIT_MAX.MAX (min w 511)) CC_FAB_WAIT_MAX.SRC code
  else s

/-- Grant the oldest entry-buffer tile; its destinations are fixed now (R204, R205). -/
def grantOne (s : State) : State :=
  match oldestEntry s with
  | none => s
  | some code =>
    let x := source s code
    match x.entry with
    | [] => s
    | (t, k) :: r =>
      let dst := bitsWhere fun c => c < nClusters s && clusterWants s code c
      let s := noteWait (setSource s code { x with entry := r }) code (fclk s - k)
      let s := setPair64 s CC_FAB_GRANT_LO.off CC_FAB_GRANT_HI.off (pair64 s CC_FAB_GRANT_LO.off CC_FAB_GRANT_HI.off + 1)
      releaseSource { s with fab := { s.fab with pipe := s.fab.pipe ++ [(code, t, fclk s, dst)] } } code

/-- FABRIC_GRANT (R204): at most two grants in an FCLK cycle. -/
def fabricGrant (s : State) : State :=
  if s.fab.grantCyc = some (fclk s) ∨ (oldestEntry s).isNone then s
  else grantOne (grantOne { s with fab := { s.fab with grantCyc := some (fclk s) } })

def execFabricGrant (s : State) : Host.Outcome State Fault Refusal := .next (fabricGrant s)

/-! ## Events of a cluster and their notices (R216) -/

/-- A count of a kind has risen: its sticky bit sets, and the notice is posted when the bit was clear and enabled. -/
def clusterEvent (s : State) (c : Nat) (st en cnt : Fld) (ty : Nat) : State :=
  let was := flag s st
  let s := sts s st
  if was = false ∧ flag s en then post s ty c 0 (fld s cnt) else s

/-! ## Subscriptions (R181, R205) -/

/-- Port p of an engine. -/
def portOf (E : Engine) (p : Nat) : Port := if p = 0 then E.p0 else E.p1

def setPort (E : Engine) (p : Nat) (x : Port) : Engine := if p = 0 then { E with p0 := x } else { E with p1 := x }

/-- The engine runs, or waits in POP or WAIT. -/
def active (E : Engine) : Bool := E.st = 2 || E.st = 3

/-- The bit of the table *Kind filter* that a record needs; none for a record that is never delivered. -/
def kindBit (w : W64) : Option Nat :=
  match recKind w, recSub w with
  | 0, _ => some (wbits w 51 51)
  | 1, 0 => some 2
  | 1, 1 => some 3
  | 1, 2 => some 4
  | 1, 3 => some 4
  | 1, 4 => some 5
  | 1, 5 => some 5
  | 2, _ => some 7
  | 3, 1 => some 6
  | _, _ => none

/-- The lanes of a group in a lane mask. -/
def groupLanes (m : BitVec 1024) (g : Nat) : Nat := bitsOf m.toNat (16 * g + 15) (16 * g)

/-- A port admits a record of a tile of a group code (R181). -/
def admits (P : Port) (code : Nat) (w : W64) : Bool :=
  match kindBit w with
  | none => false
  | some k =>
    P.kind.getLsbD k &&
    (if 0x40 ≤ code then P.rsrc.getLsbD (dqOf code)
     else if isStamp w then P.mask.getLsbD (recLane w)
     else if isGap w ∧ gapLaneValid w then P.mask.getLsbD (gapLane w)
     else groupLanes P.mask code ≠ 0)

/-- The ports of a cluster's engines that run or wait. -/
def activePorts (s : State) (c : Nat) : List Port :=
  ((List.range 16).map fun j => engine s (16 * c + j)).flatMap fun E => if active E then [E.p0, E.p1] else []

/-- The group and result-source sets are recomputed (R205). -/
def recomputeSets (s : State) (c : Nat) : State :=
  let ps := activePorts s c
  let bit (b : Nat) := bitsWhere fun i => ps.any fun P => groupLanes P.mask (b + i) ≠ 0
  let s := setReg s (CC_GROUPS_LO.off c) (BitVec.ofNat 32 (bit 0))
  let s := setReg s (CC_GROUPS_HI.off c) (BitVec.ofNat 32 (bit 32))
  setFld s (CC_RSRC.SRC c) (ps.foldl (fun m P => m ||| P.rsrc.toNat) 0)

/-! ## Cluster input and ports (R206, R207) -/

/-- Records lost by port p of engine e: its own count, the cluster's, and its bit in the map. -/
def portLost (s : State) (e p n : Nat) : State :=
  if n = 0 then s
  else
    let c := e / 16
    let P := portOf (engine s e) p
    let s := setEngine s e (setPort (engine s e) p { P with lost := min (P.lost + n) (2 ^ 32 - 1) })
    stsBit (addCnt s (CC_PORT_LOST_CNT.COUNT c) n) (CC_PORT_LOST_MAP.PORT c) (2 * (e % 16) + p)

/-- The ports of a cluster, as engine and port. -/
def portsOf (c : Nat) : List (Nat × Nat) := (List.range 16).flatMap fun j => [(16 * c + j, 0), (16 * c + j, 1)]

/-- A tile due at a full input buffer is not delivered (R206). -/
def inputDrop (s : State) (c code : Nat) (t : Tile) : State :=
  let s := inc s (CC_IN_DROP_CNT.COUNT c)
  let s := (portsOf c).foldl (fun s (e, p) =>
    let E := engine s e
    if active E = false ∨ tileInjected t then s
    else portLost s e p (t.slots.filter fun w => admits (portOf E p) code w).length) s
  clusterEvent s c (CC_STAT.IN_DROP c) (CC_NOTICE_CFG.IN_DROP c) (CC_IN_DROP_CNT.COUNT c) 0x0B01

/-- Tiles in a cluster's input buffer: those that have still to cross, one in an FCLK cycle (R206; CC_IN_OCC.OCC). -/
def inputOcc (s : State) (c : Nat) : Nat := ((cluster s c).inBuf.filter fun x => decide (fclk s < x.2)).length

/-- PEAK of a cluster's input buffer. -/
def noteInput (s : State) (c : Nat) : State :=
  if fld s (CC_IN_OCC.PEAK c) < inputOcc s c then setFld s (CC_IN_OCC.PEAK c) (inputOcc s c) else s

/-- A tile arrives at a cluster's input: 1 FCLK cycle of input register, and with b tiles ahead of it in the buffer it waits b cycles
before it crosses (R206, R211, R212). -/
def clusterArrive (s : State) (c code : Nat) (t : Tile) : State :=
  let C := cluster s c
  let b := inputOcc s c
  if 32 ≤ b then inputDrop s c code t
  else
    let s := noteInput (setCluster s c { C with inBuf := C.inBuf ++ [(t, fclk s + 1 + b)] }) c
    if 3 < b then sts (inc s (CC_IN_LATE_CNT.COUNT c)) (CC_STAT.IN_LATE c) else s

/-- FABRIC_DELIVERY (R204, R209, R210): the oldest granted tile, 12 FCLK cycles after its grant. -/
def fabricDelivery (s : State) : State :=
  match s.fab.pipe with
  | [] => s
  | (code, t, k, dst) :: r =>
    if fclk s < k + 12 then s
    else
      let s := { s with fab := { s.fab with pipe := r } }
      let s := forEach ((List.range 16).filter dst.testBit) s fun s c => clusterArrive s c code t
      if code < 0x40 then { s with fab := { s.fab with muIn := s.fab.muIn ++ [t] } } else queueTile s code t none

def execFabricDelivery (s : State) : Host.Outcome State Fault Refusal := .next (fabricDelivery s)

/-- A record enters a port, or is dropped for that port alone when it is full (R182, R207). -/
def portPush (s : State) (e p : Nat) (w : W64) : State :=
  let E := engine s e
  let P := portOf E p
  if P.q.length < 64 then setEngine s e (setPort E p { P with q := P.q ++ [w] })
  else
    let c := e / 16
    clusterEvent (portLost s e p 1) c (CC_STAT.PORT_LOST c) (CC_NOTICE_CFG.PORT_LOST c) (CC_PORT_LOST_CNT.COUNT c) 0x0B02

/-- The admitted records of a tile enter one port in slot order (R181). -/
def portTake (s : State) (e p : Nat) (t : Tile) : State :=
  let E := engine s e
  if active E = false then s
  else (t.slots.filter fun w => admits (portOf E p) (tileGroup t) w).foldl (fun s w => portPush s e p w) s

/-- A tile that crosses in FCLK cycle `k` is through the unpacker: 4 ECLK cycles of crossing and 10 of the unpacker, 11.2 ns at the
least after that cycle begins (R183, table *Tile to port, cycle by cycle*). -/
def unpackDue (s : State) (k : Nat) : Bool := decide (10 * k + 112 ≤ s.now * 25 / 4)

/-- CLUSTER_UNPACK (R181, R206): the oldest tile that has crossed is verified and unpacked, one in an ECLK cycle. -/
def clusterUnpack (s : State) (c : Nat) : State :=
  let C := cluster s c
  match C.inBuf with
  | [] => s
  | (t, k) :: r =>
    if unpackDue s k = false ∨ C.unpCyc = some (eclk s) then s
    else
    let s := setCluster s c { C with inBuf := r, unpCyc := some (eclk s) }
    if failsCheck s t then
      clusterEvent (inc s (CC_CORRUPT_CNT.COUNT c)) c (CC_STAT.CORRUPT c) (CC_NOTICE_CFG.CORRUPT c) (CC_CORRUPT_CNT.COUNT c) 0x0B03
    else if tileInjected t then s
    else (portsOf c).foldl (fun s (e, p) => portTake s e p t) s

def execClusterUnpack (c : Nat) (s : State) : Host.Outcome State Fault Refusal := .next (clusterUnpack s c)

/-- CC_IN_PEAK_CLR (map of CC_IN_OCC). -/
def ccInPeakClr (s : State) (a : Access) (c : Nat) (v : W32) : State :=
  cmdWrite s a (CC_IN_OCC.off c) v fun s =>
    if v.getLsbD 15 then setFld s (CC_IN_OCC.PEAK c) (inputOcc s c) else s

def execCcInPeakClr (a : Access) (c : Nat) (v : W32) (s : State) : Host.Outcome State Fault Refusal := .next (ccInPeakClr s a c v)

/-- CC_FAB_WAIT_MAX_CLR (map of CC_FAB_WAIT_MAX). -/
def ccFabWaitMaxClr (s : State) (a : Access) (v : W32) : State :=
  cmdWrite s a CC_FAB_WAIT_MAX.off v fun s =>
    if v.getLsbD 31 then setFld (setFld s CC_FAB_WAIT_MAX.MAX 0) CC_FAB_WAIT_MAX.SRC 0 else s

def execCcFabWaitMaxClr (a : Access) (v : W32) (s : State) : Host.Outcome State Fault Refusal := .next (ccFabWaitMaxClr s a v)

/-! ## Mailboxes (R193, R208) -/

/-- Messages discarded for a halted or never-started engine (R208). -/
def mailDiscard (s : State) (c n : Nat) : State :=
  if n = 0 then s
  else clusterEvent (addCnt s (CC_MB_DISC_CNT.COUNT c) n) c (CC_STAT.MB_DISC c) (CC_NOTICE_CFG.MB_DISC c) (CC_MB_DISC_CNT.COUNT c) 0x0B04

/-- Put a message in order: by cycle, ties to the lower sender (R193). -/
def insertMsg (m : Msg) : List Msg → List Msg
  | [] => [m]
  | x :: r => if m.cyc < x.cyc ∨ (m.cyc = x.cyc ∧ m.src < x.src) then m :: x :: r else x :: insertMsg m r

/-- Post a message to an engine, sent in ECLK cycle `cyc`: false when the mailbox is full (R193). -/
def mailPost (s : State) (dst src cyc : Nat) (payload : W64) : State × Bool :=
  let c := dst / 16
  if active (engine s dst) = false then (mailDiscard s c 1, true)
  else
    let C := cluster s c
    if 16 ≤ C.box.length then (s, false)
    else (setCluster s c { C with box := insertMsg { payload := payload, src := src, dst := dst, cyc := cyc } C.box }, true)

/-- The messages to an engine that it may receive: from the second cycle after the one in which they were sent (R193).  WAIT's bit 2 and
RDS selector 7 see a message from that cycle on too, not from its posting (DESIGN CHOICE, log 38). -/
def mailFor (s : State) (e : Nat) : List Msg := (cluster s (e / 16)).box.filter fun m => m.dst = e && m.cyc + 2 ≤ eclk s

/-! ## The read side (R136, R210) -/

def cring (s : State) (r : Nat) : CRing := sget (fun _ => {}) s.ddr.rings r

def setCring (s : State) (r : Nat) (x : CRing) : State :=
  { s with ddr := { s.ddr with rings := sset (fun _ => {}) s.ddr.rings r x } }

/-- The destination can take an entry: a ring with room in its write buffer and one entry in an FCLK cycle (R226), a stream that
has taken its last one. -/
def destReady (s : State) : Dest → Bool
  | .ring r => decide ((cring s r).inbox.length < 256) && (cring s r).takeCyc != some (fclk s)
  | .stream h => (stream s h).live.isNone

/-- Where a destination's round-robin over its sources stands. -/
def destNext (s : State) : Dest → Nat
  | .ring r => (cring s r).rr
  | .stream h => (stream s h).rr

/-- A source's queue holds an entry for the destination. -/
def srcReady (s : State) (d : Dest) (code : Nat) : Bool := codePresent s code && (takeFirst d (queue s code)).isSome

/-- The source that a destination's round-robin serves: the first with an entry ready from where it stands (R226, R239). -/
def nextSource (s : State) (d : Dest) : Option Nat :=
  ((List.range 0x54).map fun i => (destNext s d + i) % 0x54).find? (srcReady s d)

def dropsOf (c : CRing) (code : Nat) : Nat := sget (fun _ => 0) c.drops code

def setDrops (s : State) (r code n : Nat) : State :=
  let c := cring s r
  setCring s r { c with drops := sset (fun _ => 0) c.drops code n }

/-- A tile or a veto-drop count that a stalled ring does not write joins the drop count of its source (R228, R231); what a tile's
reason-0x1 gap records reported is to be covered again, so that every skip is (R123).  A reservation leaves nothing. -/
def countDrop (s : State) (r code : Nat) : QItem → State
  | .tile t _ => setDrops (inc s (CR_DROP_CNT.COUNT r)) r code (dropsOf (cring s r) code + 1 + owed t)
  | .vetoDrop count _ => setDrops s r code (dropsOf (cring s r) code + count)
  | _ => s

def isFill : QItem → Bool
  | .fill _ _ _ => true
  | _ => false

/-- The destination takes an entry of a source; a stalled ring drops it at entry, unless it is a fill (R228, R231). -/
def handTo (s : State) (d : Dest) (x : Inbound) : State :=
  match d with
  | .ring r =>
    let c := cring s r
    let stalled := flag s (CR_STAT.STALLED r) && !isFill x.item
    let s := setCring s r { c with inbox := if stalled then c.inbox else c.inbox ++ [x], takeCyc := some (fclk s),
                                   rr := (x.code + 1) % 0x54 }
    if stalled then countDrop s r x.code x.item else s
  | .stream h => setStream s h { stream s h with live := some x, rr := (x.code + 1) % 0x54 }

/-- GROUP_QUEUE_READ (R136, R210): the read side of group queue q, or of derived queue q − 64, hands its first entry to a
destination that is ready for one, when the destination's round-robin has come to it. -/
def groupQueueRead (s : State) (q : Nat) (d : Dest) : State :=
  let code := if q < 64 then q else dqCode (q - 64)
  if destReady s d = false ∨ codePresent s code = false ∨ (srcReady s d code ∧ nextSource s d ≠ some code) then s
  else match takeFirst d (queue s code) with
    | none => setReadPort s (portWords none)
    | some (it, l) =>
      let s := setReadPort (noteOcc (setQueue s code l) code) (portWords (some it))
      handTo s d { code := code, item := it }

def execGroupQueueRead (q : Nat) (d : Dest) (s : State) : Host.Outcome State Fault Refusal := .next (groupQueueRead s q d)

/-! ## Cluster gates (R213) -/

/-- CLUSTER_GATE_ARRIVAL (R213): the oldest gate event of the cluster reaches the MUs and the lane-group assemblers. -/
def clusterGateArrival (s : State) (c : Nat) : State :=
  match reached s (fun d => match d with
      | .gate x _ _ => x = c
      | _ => false) with
  | some (.gate _ o t, r) =>
    let s := { s with fab := { s.fab with decs := r } }
    gateToMus (gateToGroups s (0x30 + c) o t) (0x30 + c) o t
  | _ => s

def execClusterGateArrival (c : Nat) (s : State) : Host.Outcome State Fault Refusal := .next (clusterGateArrival s c)

end Sys2Proof.Machine
end

