-- ==== Sys2Proof/Machine/Carver.lean ====
section
/-! DEFINITION. The Carver engines (09_carver_engines.md R178 to R201): decoding of instruction words, one meaning per
instruction, waiting, decisions, exceptions and halts, loading and starting. -/

namespace Sys2Proof.Machine

/-! ## Instruction words (R184) -/

/-- Bits of an instruction word. -/
def ibits (w : W32) (msb lsb : Nat) : Nat := bitsOf w.toNat msb lsb

def iOpc (w : W32) : Nat := ibits w 31 26
def iRd (w : W32) : Nat := ibits w 25 21
def iRa (w : W32) : Nat := ibits w 20 16
def iRb (w : W32) : Nat := ibits w 15 11
def iFn (w : W32) : Nat := ibits w 5 0
def iTgt (w : W32) : Nat := ibits w 11 0

/-- The 16-bit immediate, zero-extended and sign-extended. -/
def iZext (w : W32) : W64 := BitVec.ofNat 64 (ibits w 15 0)

def iSext (w : W32) : W64 := (BitVec.ofNat 16 (ibits w 15 0)).signExtend 64

/-- A word is legal: its opcode, FN and COND are assigned, its zero fields are zero, and it keeps its row's restrictions
(R184). -/
def legal (w : W32) : Bool :=
  let z (msb lsb : Nat) : Bool := ibits w msb lsb = 0
  match iOpc w with
  | 0x00 => z 10 6 && iFn w ≤ 0x14 && (iFn w < 0x13 || iRb w = 0)
  | 0x01 => true
  | 0x02 => true
  | 0x03 => true
  | 0x04 => true
  | 0x05 => z 15 8
  | 0x06 => z 20 16
  | 0x07 => z 20 18
  | 0x08 => z 15 12
  | 0x09 => z 15 6
  | 0x10 => ibits w 15 12 < 8
  | 0x11 => z 13 12
  | 0x12 => z 25 12
  | 0x13 => z 25 12
  | 0x14 => z 25 21 && z 15 0
  | 0x18 => true
  | 0x19 => true
  | 0x1A => true
  | 0x1B => true
  | 0x1C => true
  | 0x1D => z 10 0
  | 0x20 => z 20 1
  | 0x21 => z 20 1
  | 0x22 => z 20 1
  | 0x23 => z 20 16 && z 7 1 && !z 15 8
  | 0x24 => z 15 4 && !z 3 0
  | 0x25 => z 20 12
  | 0x26 => z 16 12
  | 0x27 => z 20 16 && z 15 8 && ibits w 7 0 ≤ 9
  | 0x28 => z 10 0
  | 0x2C => z 25 21 && z 15 4 && ibits w 3 0 ≠ 15
  | 0x2D => z 25 21 && z 10 4 && ibits w 3 0 ≠ 15
  | 0x30 => z 25 21 && z 7 0
  | 0x31 => z 25 4
  | 0x32 => z 25 6
  | 0x33 => z 25 4
  | 0x34 => z 25 21 && z 15 2
  | 0x35 => z 25 21 && z 15 7
  | 0x36 => z 15 8
  | 0x3E => z 25 8
  | _ => false

/-! ## Registers, issue and retirement (R178 to R180, R186, R189) -/

/-- General register i; g0 reads 0 (R179). -/
def greg (E : Engine) (i : Nat) : W64 := if i = 0 then 0 else sget (fun _ => 0) E.g i

/-- Write a general register; writes to g0 are discarded (R179). -/
def setGreg (s : State) (e i : Nat) (v : W64) : State :=
  if i = 0 then s else setEngine s e { engine s e with g := sset (fun _ => 0) (engine s e).g i v }

/-- The word at the program counter. -/
def fetch (E : Engine) : W32 := sget (fun _ => 0xFFFFFFFF#32) E.imem E.pc

/-- The engine issues an instruction of an opcode, when its cycle has come and the word at its PC is a legal one of it: `k`
receives the engine and the word (R180). -/
def issue (s : State) (e opc : Nat) (k : Engine → W32 → State) : State :=
  let E := engine s e
  let w := fetch E
  if e < nEngines s ∧ E.st = 2 ∧ E.overrun = false ∧ issueCycle E ≤ eclk s ∧ legal w ∧ iOpc w = opc then k E w else s

/-- Cycles that a POP or WAIT has waited which issued at `issueCycle`; it occupies one more (table *Instruction set*). -/
def waitedCycles (s : State) (E : Engine) : Nat := eclk s - issueCycle E

/-- The instruction has occupied n cycles, and the PC goes on: to a target, or to the next index; from 4,095 it cannot
advance (R180, R186). -/
def retire (s : State) (e n : Nat) (tgt : Option Nat) : State :=
  let E := engine s e
  let E := { E with cyc := E.cyc + n, lat := E.lat.map (· + n) }
  match tgt with
  | some t => setEngine s e { E with pc := t }
  | none => if E.pc = 4095 then setEngine s e { E with overrun := true } else setEngine s e { E with pc := E.pc + 1 }

/-- An instruction took or saw a record: the count of R189 restarts at this cycle. -/
def seen (s : State) (e : Nat) : State := setEngine s e { engine s e with lat := some 1 }

/-- An instruction that writes rd and goes on. -/
def write (s : State) (e : Nat) (w : W32) (n : Nat) (v : W64) : State := retire (setGreg s e (iRd w) v) e n none

/-! ## Halts (R199) -/

/-- An engine event record: tag 15, never dropped (R195). -/
def eventRecord (s : State) (e ev t : Nat) : State :=
  let E := engine s e
  let w := resultWord (e % 16 * 16 + 15) (ev % 64 * 2 ^ 48 + low48 t)
  setEngine s e { E with rq := E.rq ++ [(w, E.rqLost)], rqLost := 0 }

/-- An engine halts with a cause: its ports are emptied, messages to it are discarded, and the halt is recorded, emitted and
noticed (R199, R193). -/
def haltEngine (s : State) (e cause code : Nat) : State :=
  let E := engine s e
  let n := E.p0.q.length + E.p1.q.length
  let s := setEngine s e { E with st := 1, overrun := false, lat := none, p0 := { E.p0 with q := [] }, p1 := { E.p1 with q := [] } }
  let c := e / 16
  let C := cluster s c
  let gone := (C.box.filter fun m => m.dst = e).length
  let s := mailDiscard (setCluster s c { C with box := C.box.filter fun m => m.dst ≠ e }) c gone
  let (t, s) := copyT s c
  let s := setFld s (CV_STAT.CAUSE e) cause
  let s := if 3 ≤ cause then sts s (CV_STAT.EXC e) else s
  let s := setFld (setFld s (CV_HALT_INFO.CODE e) code) (CV_HALT_INFO.EMPTIED e) n
  let s := setPair64 s (CV_HALT_T_LO.off e) (CV_HALT_T_HI.off e) t
  let s := eventRecord s e cause t
  let s := postAt s (BitVec.ofNat 64 t) 0x0A02 e cause (BitVec.ofNat 128 (E.pc + code % 256 * 2 ^ 16 + n * 2 ^ 24))
  recomputeSets (setFlag s (CV_CTRL.HALT e) false) c

/-- ILLEGAL_INSTRUCTION (R184, R199): cause 0x03. -/
def illegalInstruction (s : State) (e : Nat) : State :=
  let E := engine s e
  if e < nEngines s ∧ E.st = 2 ∧ E.overrun = false ∧ issueCycle E ≤ eclk s ∧ legal (fetch E) = false then haltEngine s e 3 0 else s

def execIllegalInstruction (e : Nat) (s : State) : Host.Outcome State Fault Refusal := .next (illegalInstruction s e)

/-- PC_OVERRUN (R186, R199): cause 0x06, in the cycle in which the next instruction would issue. -/
def pcOverrun (s : State) (e : Nat) : State :=
  let E := engine s e
  if e < nEngines s ∧ E.st = 2 ∧ E.overrun ∧ issueCycle E ≤ eclk s then haltEngine s e 6 0 else s

def execPcOverrun (e : Nat) (s : State) : Host.Outcome State Fault Refusal := .next (pcOverrun s e)

/-- HALT (R199): cause 0x02 with the instruction's code. -/
def iHalt (s : State) (e : Nat) : State := issue s e 0x3E fun _ w => haltEngine s e 2 (ibits w 7 0)

def execIHalt (e : Nat) (s : State) : Host.Outcome State Fault Refusal := .next (iHalt s e)

/-! ## ALU (table *ALU functions*) -/

/-- An ALU instruction of a function code: rd = f(ra, rb). -/
def alu (s : State) (e fn n : Nat) (f : W64 → W64 → W64) : State :=
  issue s e 0x00 fun E w => if iFn w = fn then write s e w n (f (greg E (iRa w)) (greg E (iRb w))) else s

/-- An integer held at the signed range of 64 bits. -/
def saturate (x : Int) : W64 := BitVec.ofInt 64 (max (-(2 ^ 63)) (min (2 ^ 63 - 1) x))

/-- Leading zeros, 0 to 64. -/
def clz64 (x : W64) : Nat := if x = 0 then 64 else 63 - x.toNat.log2

/-- Set bits, 0 to 64. -/
def popc64 (x : W64) : Nat := ((List.range 64).filter fun i => x.getLsbD i).length

def flag64 (b : Bool) : W64 := if b then 1 else 0

def execIAdd (e : Nat) (s : State) : Host.Outcome State Fault Refusal := .next (alu s e 0x00 1 fun a b => a + b)
def execISub (e : Nat) (s : State) : Host.Outcome State Fault Refusal := .next (alu s e 0x01 1 fun a b => a - b)
def execIAnd (e : Nat) (s : State) : Host.Outcome State Fault Refusal := .next (alu s e 0x02 1 fun a b => a &&& b)
def execIOr (e : Nat) (s : State) : Host.Outcome State Fault Refusal := .next (alu s e 0x03 1 fun a b => a ||| b)
def execIXor (e : Nat) (s : State) : Host.Outcome State Fault Refusal := .next (alu s e 0x04 1 fun a b => a ^^^ b)
def execIShl (e : Nat) (s : State) : Host.Outcome State Fault Refusal := .next (alu s e 0x05 1 fun a b => a <<< (b.toNat % 64))
def execIShr (e : Nat) (s : State) : Host.Outcome State Fault Refusal := .next (alu s e 0x06 1 fun a b => a >>> (b.toNat % 64))
def execISar (e : Nat) (s : State) : Host.Outcome State Fault Refusal :=
  .next (alu s e 0x07 1 fun a b => a.sshiftRight (b.toNat % 64))
def execIMul (e : Nat) (s : State) : Host.Outcome State Fault Refusal := .next (alu s e 0x08 3 fun a b => a * b)
def execIMulhu (e : Nat) (s : State) : Host.Outcome State Fault Refusal :=
  .next (alu s e 0x09 3 fun a b => BitVec.ofNat 64 (a.toNat * b.toNat / 2 ^ 64))
def execIMin (e : Nat) (s : State) : Host.Outcome State Fault Refusal := .next (alu s e 0x0A 1 fun a b => if b.slt a then b else a)
def execIMax (e : Nat) (s : State) : Host.Outcome State Fault Refusal := .next (alu s e 0x0B 1 fun a b => if a.slt b then b else a)
def execIMinu (e : Nat) (s : State) : Host.Outcome State Fault Refusal := .next (alu s e 0x0C 1 fun a b => if b.ult a then b else a)
def execIMaxu (e : Nat) (s : State) : Host.Outcome State Fault Refusal := .next (alu s e 0x0D 1 fun a b => if a.ult b then b else a)
def execIAdds (e : Nat) (s : State) : Host.Outcome State Fault Refusal :=
  .next (alu s e 0x0E 1 fun a b => saturate (a.toInt + b.toInt))
def execISubs (e : Nat) (s : State) : Host.Outcome State Fault Refusal :=
  .next (alu s e 0x0F 1 fun a b => saturate (a.toInt - b.toInt))
def execISlt (e : Nat) (s : State) : Host.Outcome State Fault Refusal := .next (alu s e 0x10 1 fun a b => flag64 (a.slt b))
def execISltu (e : Nat) (s : State) : Host.Outcome State Fault Refusal := .next (alu s e 0x11 1 fun a b => flag64 (a.ult b))
def execISeq (e : Nat) (s : State) : Host.Outcome State Fault Refusal := .next (alu s e 0x12 1 fun a b => flag64 (a == b))
def execIClz (e : Nat) (s : State) : Host.Outcome State Fault Refusal := .next (alu s e 0x13 1 fun a _ => BitVec.ofNat 64 (clz64 a))
def execIPopc (e : Nat) (s : State) : Host.Outcome State Fault Refusal := .next (alu s e 0x14 1 fun a _ => BitVec.ofNat 64 (popc64 a))

/-! ## Immediates (table *Instruction set*) -/

/-- An instruction of an opcode with rd = f(word, ra), in one cycle. -/
def immOp (s : State) (e opc : Nat) (f : W32 → W64 → W64) : State :=
  issue s e opc fun E w => write s e w 1 (f w (greg E (iRa w)))

/-- SHI: op 0 SHL, 1 SHR, 2 SAR, 3 rotate right. -/
def shiftOp (op n : Nat) (a : W64) : W64 :=
  if op = 0 then a <<< n else if op = 1 then a >>> n else if op = 2 then a.sshiftRight n else a.rotateRight n

/-- EXT: (ra >> pos) & (2^len − 1), len 0 meaning 64. -/
def extOp (pos len : Nat) (a : W64) : W64 := BitVec.ofNat 64 ((a >>> pos).toNat % 2 ^ (if len = 0 then 64 else len))

/-- SEXT: sign extension from bit n. -/
def sextOp (n : Nat) (a : W64) : W64 := BitVec.ofInt 64 (signedOf (n + 1) a.toNat)

def execIAddi (e : Nat) (s : State) : Host.Outcome State Fault Refusal := .next (immOp s e 0x01 fun w a => a + iSext w)
def execIAndi (e : Nat) (s : State) : Host.Outcome State Fault Refusal := .next (immOp s e 0x02 fun w a => a &&& iZext w)
def execIOri (e : Nat) (s : State) : Host.Outcome State Fault Refusal := .next (immOp s e 0x03 fun w a => a ||| iZext w)
def execIXori (e : Nat) (s : State) : Host.Outcome State Fault Refusal := .next (immOp s e 0x04 fun w a => a ^^^ iZext w)
def execIShi (e : Nat) (s : State) : Host.Outcome State Fault Refusal :=
  .next (immOp s e 0x05 fun w a => shiftOp (ibits w 7 6) (ibits w 5 0) a)
def execIMovi (e : Nat) (s : State) : Host.Outcome State Fault Refusal := .next (immOp s e 0x06 fun w _ => iSext w)

/-- MOVH: rd[16h + 15:16h] = imm16, other bits kept. -/
def iMovh (s : State) (e : Nat) : State :=
  issue s e 0x07 fun E w =>
    let h := ibits w 17 16
    write s e w 1 (BitVec.ofNat 64 (withBits (greg E (iRd w)).toNat (16 * h + 15) (16 * h) (ibits w 15 0)))

def execIMovh (e : Nat) (s : State) : Host.Outcome State Fault Refusal := .next (iMovh s e)

def execIExt (e : Nat) (s : State) : Host.Outcome State Fault Refusal :=
  .next (immOp s e 0x08 fun w a => extOp (ibits w 11 6) (ibits w 5 0) a)
def execISext (e : Nat) (s : State) : Host.Outcome State Fault Refusal :=
  .next (immOp s e 0x09 fun w a => sextOp (ibits w 5 0) a)

/-! ## Branches and jumps -/

/-- The table *Branch conditions*. -/
def branchCond (c : Nat) (a b : W64) : Bool :=
  match c with
  | 0 => a == b
  | 1 => a != b
  | 2 => a.slt b
  | 3 => !a.slt b
  | 4 => a.ult b
  | 5 => !a.ult b
  | 6 => (a - b).slt 0
  | _ => !(a - b).slt 0

/-- Branch: 2 cycles taken, 1 not taken. -/
def branch (s : State) (e : Nat) (w : W32) (taken : Bool) : State :=
  if taken then retire s e 2 (some (iTgt w)) else retire s e 1 none

def iBr (s : State) (e : Nat) : State :=
  issue s e 0x10 fun E w => branch s e w (branchCond (ibits w 15 12) (greg E (iRd w)) (greg E (iRa w)))

def execIBr (e : Nat) (s : State) : Host.Outcome State Fault Refusal := .next (iBr s e)

def iBbit (s : State) (e : Nat) : State :=
  issue s e 0x11 fun E w => branch s e w ((greg E (iRd w)).getLsbD (ibits w 20 15) == (ibits w 14 14 == 1))

def execIBbit (e : Nat) (s : State) : Host.Outcome State Fault Refusal := .next (iBbit s e)

def execIJmp (e : Nat) (s : State) : Host.Outcome State Fault Refusal :=
  .next (issue s e 0x12 fun _ w => retire s e 2 (some (iTgt w)))

def iCall (s : State) (e : Nat) : State :=
  issue s e 0x13 fun E w => retire (setGreg s e 31 (BitVec.ofNat 64 (E.pc + 1))) e 2 (some (iTgt w))

def execICall (e : Nat) (s : State) : Host.Outcome State Fault Refusal := .next (iCall s e)

def execIJr (e : Nat) (s : State) : Host.Outcome State Fault Refusal :=
  .next (issue s e 0x14 fun E w => retire s e 2 (some ((greg E (iRa w)).toNat % 4096)))

/-! ## Local memory (R192) -/

/-- The address of a memory instruction: ra + sext(imm16), modulo 2^64. -/
def memAddr (E : Engine) (w : W32) : Nat := (greg E (iRa w) + iSext w).toNat

/-- An access of n bytes at an address: the range exception, then the alignment exception, then the access. -/
def memAccess (s : State) (e n a : Nat) (k : State) : State :=
  if 0x20000 ≤ a then haltEngine s e 4 0 else if a % n ≠ 0 then haltEngine s e 5 0 else k

def loadMem (E : Engine) (a n : Nat) : Nat := leNat (mreadBytes 0 E.lmem a n)

def storeMem (s : State) (e a n v : Nat) : State :=
  let E := engine s e
  setEngine s e { E with lmem := mwriteBytes 0 E.lmem a (leBytes v n) }

def iLoad (s : State) (e opc n : Nat) : State :=
  issue s e opc fun E w => memAccess s e n (memAddr E w) (write s e w 2 (BitVec.ofNat 64 (loadMem E (memAddr E w) n)))

def execILd (e : Nat) (s : State) : Host.Outcome State Fault Refusal := .next (iLoad s e 0x18 8)
def execILdw (e : Nat) (s : State) : Host.Outcome State Fault Refusal := .next (iLoad s e 0x19 4)

def iStore (s : State) (e opc n : Nat) : State :=
  issue s e opc fun E w =>
    memAccess s e n (memAddr E w) (retire (storeMem s e (memAddr E w) n (greg E (iRd w)).toNat) e 1 none)

def execISt (e : Nat) (s : State) : Host.Outcome State Fault Refusal := .next (iStore s e 0x1A 8)
def execIStw (e : Nat) (s : State) : Host.Outcome State Fault Refusal := .next (iStore s e 0x1B 4)

/-- A 32-bit word += n, held at 0xFFFF_FFFF with HIST_SAT; rd = the new value. -/
def histAdd (s : State) (e : Nat) (E : Engine) (w : W32) (a n : Nat) : State :=
  let x := loadMem E a 4 + n
  let s := if 2 ^ 32 - 1 < x then sts s (CV_STAT.HIST_SAT e) else s
  let v := min x (2 ^ 32 - 1)
  write (storeMem s e a 4 v) e w 2 (BitVec.ofNat 64 v)

def iHinc (s : State) (e : Nat) : State :=
  issue s e 0x1C fun E w => memAccess s e 4 (memAddr E w) (histAdd s e E w (memAddr E w) 1)

def execIHinc (e : Nat) (s : State) : Host.Outcome State Fault Refusal := .next (iHinc s e)

def iHadd (s : State) (e : Nat) : State :=
  issue s e 0x1D fun E w =>
    let a := (greg E (iRa w)).toNat
    memAccess s e 4 a (histAdd s e E w a ((greg E (iRb w)).toNat % 2 ^ 32))

def execIHadd (e : Nat) (s : State) : Host.Outcome State Fault Refusal := .next (iHadd s e)

/-! ## Ports (R187) -/

/-- Remove n records from a port: they count in CV_POP_CNT. -/
def popPort (s : State) (e p n : Nat) : State :=
  let E := engine s e
  let P := portOf E p
  addCnt (setEngine s e (setPort E p { P with q := P.q.drop n })) (CV_POP_CNT.COUNT e) n

/-- The value an empty port gives (R187). -/
def emptyPort : W64 := filler

/-- A POP whose port holds a record. -/
def doPop (s : State) (e n : Nat) (w : W32) (x : W64) : State :=
  let s := write (popPort s e (ibits w 0 0) 1) e w n x
  seen s e

/-- POP: pops the head, or waits on an empty port. -/
def iPop (s : State) (e : Nat) : State :=
  issue s e 0x20 fun E w =>
    match (portOf E (ibits w 0 0)).q with
    | x :: _ => doPop s e 1 w x
    | [] => setEngine s e { E with st := 3 }

def execIPop (e : Nat) (s : State) : Host.Outcome State Fault Refusal := .next (iPop s e)

/-- POP_WAIT_COMPLETE (R187): the waiting POP completes on the record at the head of its port, in the ECLK cycle that `waited` names;
at any other cycle the command has no effect. -/
def popWaitComplete (s : State) (e waited : Nat) : State :=
  let E := engine s e
  let w := fetch E
  if E.st = 3 ∧ iOpc w = 0x20 ∧ waited = waitedCycles s E then
    match (portOf E (ibits w 0 0)).q with
    | x :: _ => doPop (setEngine s e { E with st := 2 }) e (waited + 1) w x
    | [] => s
  else s

def execPopWaitComplete (e waited : Nat) (s : State) : Host.Outcome State Fault Refusal := .next (popWaitComplete s e waited)

/-- TRYPOP. -/
def iTrypop (s : State) (e : Nat) : State :=
  issue s e 0x21 fun E w =>
    match (portOf E (ibits w 0 0)).q with
    | x :: _ => doPop s e 1 w x
    | [] => write s e w 1 emptyPort

def execITrypop (e : Nat) (s : State) : Host.Outcome State Fault Refusal := .next (iTrypop s e)

/-- PEEK. -/
def iPeek (s : State) (e : Nat) : State :=
  issue s e 0x22 fun E w =>
    match (portOf E (ibits w 0 0)).q with
    | x :: _ => seen (write s e w 1 x) e
    | [] => write s e w 1 emptyPort

def execIPeek (e : Nat) (s : State) : Host.Outcome State Fault Refusal := .next (iPeek s e)

/-- SKIP. -/
def iSkip (s : State) (e : Nat) : State :=
  issue s e 0x23 fun E w =>
    let p := ibits w 0 0
    let n := min (ibits w 15 8) (portOf E p).q.length
    let s := write (popPort s e p n) e w 1 (BitVec.ofNat 64 n)
    if n = 0 then s else seen s e

def execISkip (e : Nat) (s : State) : Host.Outcome State Fault Refusal := .next (iSkip s e)

/-! ## WAIT (R188) -/

/-- The selected conditions that hold now; a selected deadline reads the cluster copy of T. -/
def waitCauses (s : State) (e m : Nat) (ra : W64) : Nat × State :=
  let E := engine s e
  let b (i : Nat) (x : Bool) : Nat := if m.testBit i ∧ x then 2 ^ i else 0
  let c := b 0 (!E.p0.q.isEmpty) + b 1 (!E.p1.q.isEmpty) + b 2 (!(mailFor s e).isEmpty)
  if m.testBit 3 then
    let (t, s) := copyT s (e / 16)
    (c + (if (BitVec.ofNat 64 t - ra).slt 0 then 0 else 8), s)
  else (c, s)

/-- A WAIT completes with its causes after n cycles. -/
def endWait (s : State) (e n : Nat) (w : W32) (c : Nat) : State :=
  let s := write s e w n (BitVec.ofNat 64 c)
  if c % 4 = 0 then s else seen s e

/-- WAIT: completes at issue when a condition holds, and waits otherwise. -/
def iWait (s : State) (e : Nat) : State :=
  issue s e 0x24 fun E w =>
    let (c, s) := waitCauses s e (ibits w 3 0) (greg E (iRa w))
    if c = 0 then setEngine s e { engine s e with st := 3 } else endWait s e 1 w c

def execIWait (e : Nat) (s : State) : Host.Outcome State Fault Refusal := .next (iWait s e)

/-- WAIT_COMPLETE (R188): the waiting WAIT completes when a selected condition holds. -/
def waitComplete (s : State) (e waited : Nat) : State :=
  let E := engine s e
  let w := fetch E
  if E.st = 3 ∧ iOpc w = 0x24 ∧ waited = waitedCycles s E then
    let (c, s) := waitCauses s e (ibits w 3 0) (greg E (iRa w))
    if c = 0 then s else endWait (setEngine s e { engine s e with st := 2 }) e (waited + 1) w c
  else s

def execWaitComplete (e waited : Nat) (s : State) : Host.Outcome State Fault Refusal := .next (waitComplete s e waited)

/-! ## Mailbox (R193) -/

/-- Remove the oldest message to an engine. -/
def dropFirst (m : Msg) : List Msg → List Msg
  | [] => []
  | x :: r => if x = m then r else x :: dropFirst m r

/-- RECV. -/
def iRecv (s : State) (e : Nat) : State :=
  issue s e 0x25 fun _ w =>
    match mailFor s e with
    | [] => retire s e 2 (some (iTgt w))
    | m :: _ =>
      let C := cluster s (e / 16)
      write (setCluster s (e / 16) { C with box := dropFirst m C.box }) e w 1 m.payload

def execIRecv (e : Nat) (s : State) : Host.Outcome State Fault Refusal := .next (iRecv s e)

/-- SEND. -/
def iSend (s : State) (e : Nat) : State :=
  issue s e 0x26 fun E w =>
    let (t, ok) := mailPost s (e / 16 * 16 + ibits w 20 17) e (issueCycle E) (greg E (iRd w))
    if ok then retire t e 1 none else retire (sts t (CV_STAT.MB_FULL e)) e 2 (some (iTgt w))

def execISend (e : Nat) (s : State) : Host.Outcome State Fault Refusal := .next (iSend s e)

/-! ## Time (R190, R191) -/

/-- The table *RDS selectors*. -/
def rdsValue (s : State) (e sel : Nat) : W64 × State :=
  let E := engine s e
  let n (x : Nat) : W64 × State := (BitVec.ofNat 64 x, s)
  match sel with
  | 0 =>
    let (t, s) := copyT s (e / 16)
    (BitVec.ofNat 64 t, s)
  | 1 => n E.p0.q.length
  | 2 => n E.p1.q.length
  | 3 => n E.p0.lost
  | 4 => n E.p1.lost
  | 5 => n e
  | 6 => n E.cyc
  | 7 => n (mailFor s e).length
  | 8 => n (deviceId s)
  | _ => n (fld s TP_ANCH_STAT.LATEST)

/-- RDS. -/
def iRds (s : State) (e : Nat) : State :=
  issue s e 0x27 fun _ w =>
    let (v, s) := rdsValue s e (ibits w 7 0)
    write s e w 1 v

def execIRds (e : Nat) (s : State) : Host.Outcome State Fault Refusal := .next (iRds s e)

/-- The rebuild of R191, modulo 2^64. -/
def trebOp (a b : W64) : W64 :=
  let base := b - 0x0000800000000000#64
  base + (((a &&& 0x0000FFFFFFFFFFFF#64) - base) &&& 0x0000FFFFFFFFFFFF#64)

/-- TREB. -/
def execITreb (e : Nat) (s : State) : Host.Outcome State Fault Refusal :=
  .next (issue s e 0x28 fun E w => write s e w 1 (trebOp (greg E (iRa w)) (greg E (iRb w))))

/-! ## Results (R194, R195) -/

/-- Place a result record, or drop and count it when the queue holds eight. -/
def emitRecord (s : State) (e tag payload : Nat) : State :=
  let E := engine s e
  if E.rq.length < 8 then
    inc (setEngine s e { E with rq := E.rq ++ [(resultWord (e % 16 * 16 + tag) payload, E.rqLost)], rqLost := 0 })
      (CV_EMIT_CNT.COUNT e)
  else sts (inc (setEngine s e { E with rqLost := E.rqLost + 1 }) (CV_EMIT_LOST_CNT.COUNT e)) (CV_STAT.EMIT_LOST e)

/-- EMIT. -/
def iEmit (s : State) (e : Nat) : State :=
  issue s e 0x2C fun E w => retire (emitRecord s e (ibits w 3 0) (wbits (greg E (iRa w)) 53 0)) e 1 none

def execIEmit (e : Nat) (s : State) : Host.Outcome State Fault Refusal := .next (iEmit s e)

/-- EMITT. -/
def iEmitt (s : State) (e : Nat) : State :=
  issue s e 0x2D fun E w =>
    let pay := wbits (greg E (iRb w)) 5 0 * 2 ^ 48 + wbits (greg E (iRa w)) 47 0
    retire (emitRecord s e (ibits w 3 0) pay) e 1 none

def execIEmitt (e : Nat) (s : State) : Host.Outcome State Fault Refusal := .next (iEmitt s e)

/-! ## Decisions (R196 to R198, R213 to R215) -/

/-- The longest decision path (R189, CV_DEC_LAT_MAX). -/
def noteLat (s : State) (e : Nat) : State :=
  match (engine s e).lat with
  | some n => if fld s (CV_DEC_LAT_MAX.MAX e) < n + 1 then setFld s (CV_DEC_LAT_MAX.MAX e) (min (n + 1) 0xFFFF) else s
  | none => s

/-- A decision instruction issues: refused it is counted (R197), accepted it has its effect; on a standby an accepted one has none
and counts as suppressed (R370). -/
def decision (s : State) (e : Nat) (ok : Bool) (f : State → State) : State :=
  let s := noteLat s e
  let s := if ok = false then sts (inc s (CV_DEC_REFUSED_CNT.COUNT e)) (CV_STAT.DEC_REFUSED e)
    else if isStandby s then inc s PR_SUPPRESS_CNT.COUNT
    else f (inc s (CV_DEC_CNT.COUNT e))
  retire s e 1 none

/-- The event by which an active mirrors a decision (table *Mirrored state*). -/
def decEvent : Decision → Option PairEvent
  | .veto g => some (.veto g)
  | .mark r => some (.mark r)
  | .gate c o t => some (.gate c o t)
  | .muarm u t => some (.muarm u t)
  | _ => none

/-- A decision of engine e is on its way to its target, and mirrored to a partner (R213, R368). -/
def sendDec (e : Nat) (d : Decision) (s : State) : State :=
  let s := match decEvent d with
    | some x => pairSend s x
    | none => s
  { s with fab := { s.fab with decs := insertDec { cyc := issueCycle (engine s e), eng := e, d := d } s.fab.decs } }

/-- The partition of an engine. -/
def enginePart (s : State) (e : Nat) : Nat := ownCluster s (e / 16)

/-- The override enables of all output pins. -/
def overrideEnables (s : State) : W64 := BitVec.ofNat 64 (pair64 s PG_OVR_EN_LO.off PG_OVR_EN_HI.off)

/-- The override of output pin p is enabled. -/
def overrideOn (s : State) (p : Nat) : Bool :=
  if p < 32 then (reg s PG_OVR_EN_LO.off).toNat.testBit p else (reg s PG_OVR_EN_HI.off).toNat.testBit (p - 32)

/-- The changes of the override enables that have not reached the clusters' copies: those of the last 20 ns (R215). -/
def ovrPending (s : State) : List (Nat × W64) := s.fab.ovrWas.filter fun x => decide (s.now < x.1 + nsTicks 20)

/-- The override enable of pin p in the clusters' copies (R215). -/
def overrideCopy (s : State) (p : Nat) : Bool :=
  match ovrPending s with
  | (_, w) :: _ => w.getLsbD p
  | [] => overrideOn s p

/-- The override enables stand as `was` no longer: the clusters' copies keep that for 20 ns (R215). -/
def noteOvr (was : W64) (s : State) : State :=
  if overrideEnables s = was then s else { s with fab := { s.fab with ovrWas := ovrPending s ++ [(s.now, was)] } }

/-- DRIVE. -/
def iDrive (s : State) (e : Nat) : State :=
  issue s e 0x30 fun E w =>
    let p := ibits w 15 10
    let n := wbits (greg E (iRa w)) 15 0
    decision s e (pinPresent s p && ownPin s p = enginePart s e && overrideCopy s p)
      (sendDec e (.drive p (ibits w 9 8) (if n = 0 then 1 else n)))

def execIDrive (e : Nat) (s : State) : Host.Outcome State Fault Refusal := .next (iDrive s e)

/-- PJUMP. -/
def iPjump (s : State) (e : Nat) : State :=
  issue s e 0x31 fun _ w =>
    let q := ibits w 3 2
    decision s e (q < nSeqs s && ownSeq s q = enginePart s e) (sendDec e (.pjump q (ibits w 1 0)))

def execIPjump (e : Nat) (s : State) : Host.Outcome State Fault Refusal := .next (iPjump s e)

/-- VETO. -/
def iVeto (s : State) (e : Nat) : State :=
  issue s e 0x32 fun _ w =>
    let g := ibits w 5 0
    decision s e (g < nGroups s && ownGroup s g = enginePart s e) (sendDec e (.veto g))

def execIVeto (e : Nat) (s : State) : Host.Outcome State Fault Refusal := .next (iVeto s e)

/-- MARK. -/
def iMark (s : State) (e : Nat) : State :=
  issue s e 0x33 fun _ w =>
    let r := ibits w 3 0
    decision s e (ownRing s r = enginePart s e) (sendDec e (.mark r))

def execIMark (e : Nat) (s : State) : Host.Outcome State Fault Refusal := .next (iMark s e)

/-- The T of a GATE or MUARM: ra, or the cluster copy of T (R196). -/
def decisionTime (s : State) (e : Nat) (fromRa : Bool) (ra : W64) : Nat × State :=
  if fromRa then (full64 (tNow s) ra.toNat, s) else copyT s (e / 16)

/-- No running engine of a list has still to issue in an earlier cycle, or in the same one with a lower number, than engine e
(R198, R214). -/
def inTurn (s : State) (l : List Nat) (e : Nat) : Bool :=
  let n := issueCycle (engine s e)
  l.all fun f => (engine s f).st != 2 || decide (n < issueCycle (engine s f)) || (issueCycle (engine s f) == n && decide (e ≤ f))

/-- The engines of a cluster. -/
def clusterEngines (c : Nat) : List Nat := (List.range 16).map fun j => 16 * c + j

/-- GATE: refused when it does not change the gate; a T below the previous event's is taken at that T (R197).  It comes behind the
engines of its cluster that issue before it, so that the gate's state is that of the last one applied (R198, R215). -/
def iGate (s : State) (e : Nat) : State :=
  if inTurn s (clusterEngines (e / 16)) e = false then s else issue s e 0x34 fun E w =>
    let c := e / 16
    let o := ibits w 0 0 = 1
    decision s e (flag s (CC_GATE_STAT.OPEN c) != o) fun s =>
      let (t, s) := decisionTime s e (ibits w 1 1 = 1) (greg E (iRa w))
      let prev := (cluster s c).gateT
      let s := if t < prev then sts s (CV_STAT.GATE_LATE e) else s
      let t := max t prev
      let s := setCluster s c { cluster s c with gateT := t }
      sendDec e (.gate c o t) (setFlag s (CC_GATE_STAT.OPEN c) o)

def execIGate (e : Nat) (s : State) : Host.Outcome State Fault Refusal := .next (iGate s e)

/-- MUARM. -/
def iMuarm (s : State) (e : Nat) : State :=
  issue s e 0x35 fun E w =>
    let u := ibits w 5 0
    decision s e (u < nMus s && ownMu s u = enginePart s e) fun s =>
      let (t, s) := decisionTime s e (ibits w 6 6 = 1) (greg E (iRa w))
      sendDec e (.muarm u t) s

def execIMuarm (e : Nat) (s : State) : Host.Outcome State Fault Refusal := .next (iMuarm s e)

/-- NOTE: a Carver notice with ra and then rb as data, in the order of issue cycles and engines across the device (R198, R214). -/
def iNote (s : State) (e : Nat) : State :=
  if inTurn s (List.range (nEngines s)) e = false then s else issue s e 0x36 fun E w =>
    decision s e true fun s => post s 0x0A03 e (ibits w 7 0) ((greg E (iRa w)).toNat + (greg E (iRd w)).toNat * 2 ^ 64)

def execINote (e : Nat) (s : State) : Host.Outcome State Fault Refusal := .next (iNote s e)

/-- CV_DEC_LAT_MAX_CLR (map of CV_DEC_LAT_MAX). -/
def cvDecLatMaxClr (s : State) (a : Access) (e : Nat) (v : W32) : State :=
  cmdWrite s a (CV_DEC_LAT_MAX.off e) v fun s => if v.getLsbD 31 then setFld s (CV_DEC_LAT_MAX.MAX e) 0 else s

def execCvDecLatMaxClr (a : Access) (e : Nat) (v : W32) (s : State) : Host.Outcome State Fault Refusal := .next (cvDecLatMaxClr s a e v)

/-! ## Starting and halting by the host (R199, R201) -/

/-- An engine that is halted or has never started begins at a PC (R201); one that is held halted does not (R369).  The running count of
R189 is dropped with a halt and a START, so that a decision issued before the first record measures nothing (DESIGN CHOICE,
log 38). -/
def startAt (s : State) (e pc : Nat) (clear : Bool) : State :=
  let E := engine s e
  if active E ∨ heldHalted s e then s
  else
    let s := setEngine s e { E with st := 2, pc := pc, g := if clear then [] else E.g, at0 := eclk s, cyc := 0, lat := none,
                                    overrun := false }
    let (t, s) := copyT s (e / 16)
    let s := eventRecord s e 0 t
    recomputeSets (postAt s (BitVec.ofNat 64 t) 0x0A01 e 0 (BitVec.ofNat 128 pc)) (e / 16)

/-- The engine starts at START_PC (R201). -/
def startEngine (s : State) (e : Nat) : State := startAt s e (fld s (CV_CTRL.START_PC e)) (flag s (CV_CTRL.CLR_REGS e))

/-- CV_START (R201). -/
def cvStart (s : State) (a : Access) (e : Nat) (v : W32) : State :=
  cmdWrite s a (CV_CTRL.off e) v fun s => if v.getLsbD 31 then startEngine s e else s

def execCvStart (a : Access) (e : Nat) (v : W32) (s : State) : Host.Outcome State Fault Refusal := .next (cvStart s a e v)

/-- CV_HALT (R199): cause 0x01 on an engine that runs or waits. -/
def cvHalt (s : State) (a : Access) (e : Nat) (v : W32) : State :=
  cmdWrite s a (CV_CTRL.off e) v fun s => if v.getLsbD 30 ∧ active (engine s e) then haltEngine s e 1 0 else s

def execCvHalt (a : Access) (e : Nat) (v : W32) (s : State) : Host.Outcome State Fault Refusal := .next (cvHalt s a e v)

/-! ## Loading and subscribing (R200) -/

/-- A command on an engine: absent, of another partition, or its parameters bad. -/
def onEngine (s : State) (c : Command) (e : Nat) (bad : Bool) (k : State) : State :=
  if nEngines s ≤ e ∨ bad then refuseCmd s c 3
  else if ownCluster s (e / 16) ≠ cmdPart s c then refuseCmd s c 4
  else k

/-- Write the words of a host buffer from an index on. -/
def loadWords (m : Store W32) (first : Nat) (bs : List Byte) : Nat → Store W32
  | 0 => m
  | n + 1 =>
    let w : W32 := BitVec.ofNat 32 (leNat (bs.take 4))
    loadWords (sset (fun _ => 0xFFFFFFFF#32) m first w) (first + 1) (bs.drop 4) n

/-- CV_LOAD_IMEM (R200). -/
def cvLoadImem (s : State) (c : Command) : State :=
  runCmd s c 0x0200 fun s =>
    let e := p0f c 7 0
    let i := p0f c 27 16
    let n := c.p1.toNat
    onEngine s c e (n = 0 || 4096 < n || 4096 < i + n)
      (if active (engine s e) then refuseCmd s c 5
       else match c.data with
         | none => dmaFailCmd s c
         | some bs => completeCmd (setEngine s e { engine s e with imem := loadWords (engine s e).imem i bs n }) c 0 1)

def execCvLoadImem (c : Command) (s : State) : Host.Outcome State Fault Refusal := .next (cvLoadImem s c)

/-- Offset and length within local memory: multiples of 8, length at least 8. -/
def lmemBad (o n : Nat) : Bool := n < 8 || n % 8 ≠ 0 || o % 8 ≠ 0 || 0x20000 < o + n

/-- CV_LOAD_LMEM (R200). -/
def cvLoadLmem (s : State) (c : Command) : State :=
  runCmd s c 0x0201 fun s =>
    let e := p0f c 7 0
    let o := p0f c 48 32
    let n := c.p1.toNat
    onEngine s c e (lmemBad o n)
      (if active (engine s e) then refuseCmd s c 5
       else match c.data with
         | none => dmaFailCmd s c
         | some bs => completeCmd (setEngine s e { engine s e with lmem := mwriteBytes 0 (engine s e).lmem o (bs.take n) }) c 0 1)

def execCvLoadLmem (c : Command) (s : State) : Host.Outcome State Fault Refusal := .next (cvLoadLmem s c)

/-- CV_READ_LMEM (R200). -/
def cvReadLmem (s : State) (c : Command) : State :=
  runCmd s c 0x0202 fun s =>
    let e := p0f c 7 0
    let o := p0f c 48 32
    let n := c.p1.toNat
    onEngine s c e (lmemBad o n)
      (if active (engine s e) then refuseCmd s c 5
       else completeCmd (hostWrite s c.addr.toNat (mreadBytes 0 (engine s e).lmem o n)) c 0 1)

def execCvReadLmem (c : Command) (s : State) : Host.Outcome State Fault Refusal := .next (cvReadLmem s c)

/-- The lanes that a subscription of partition p may name: present and its own (R4, R389). -/
def laneMaskFor (s : State) (p : Nat) : Nat :=
  (List.range (nGroups s)).foldl (fun m g => if ownGroup s g = p then m + (2 ^ 16 - 1) * 2 ^ (16 * g) else m) 0

/-- CV_SUBSCRIBE (R200, R205): the port's subscription is replaced; queued records stay. -/
def cvSubscribe (s : State) (c : Command) : State :=
  runCmd s c 0x0203 fun s =>
    let e := p0f c 7 0
    let p := p0f c 8 8
    onEngine s c e false
      (match c.data with
       | none => dmaFailCmd s c
       | some bs =>
         let own := cmdPart s c
         let E := engine s e
         let lanes := leNat (bs.take 128) &&& laneMaskFor s own
         let rs := p0f c 51 32 &&& bitsWhere fun d => dqPresent s d && ownDq s d = own
         let P := { portOf E p with mask := BitVec.ofNat 1024 lanes, kind := BitVec.ofNat 8 (p0f c 23 16), rsrc := BitVec.ofNat 20 rs }
         completeCmd (recomputeSets (setEngine s e (setPort E p P)) (e / 16)) c 0 1)

def execCvSubscribe (c : Command) (s : State) : Host.Outcome State Fault Refusal := .next (cvSubscribe s c)

end Sys2Proof.Machine
end

