-- ==== Sys2Proof/Machine/Capture.lean ====
section
/-! DEFINITION. Capture memory (11_capture_memory.md): DDR5 channels, their errors and scrub, interleave sets, capture rings,
the rewind mark, replay, migration and retirement. -/

namespace Sys2Proof.Machine

/-! ## Channels and addresses (R217 to R222) -/

/-- Channel n is present and trained. -/
def trained (s : State) (n : Nat) : Bool := n < nChans s && flag s (MC_STAT.TRAINED n)

/-- C_n in units of 4 KiB. -/
def chanUnits (s : State) (n : Nat) : Nat := fld s (MC_STAT.SIZE n) * 2 ^ 18

/-- The members of interleave set i, in ascending order. -/
def setMembers (s : State) (i : Nat) : List Nat := (List.range 4).filter fun n => fbit s (MC_IL_CFG.MEMBERS i) n

/-- Interleave set i is valid (R222). -/
def setValid (s : State) (i : Nat) : Bool :=
  let ms := setMembers s i
  (ms.length = 2 || ms.length = 4) &&
  ms.all fun n => trained s n && decide (fld s (MC_IL_BASE.VALUE i) % 2 ^ 24 + fld s (MC_IL_LEN.VALUE i) ≤ chanUnits s n)

/-- The memory address of an offset in a binding: a channel, or an interleave set (R221, R222). -/
def bindAddr (s : State) (b o : Nat) : Nat :=
  if b < 4 then b * 2 ^ 36 + o
  else
    let ms := setMembers s (b - 4)
    let m := ms.length
    let k := o / 4096
    ms.getD (k % m) 0 * 2 ^ 36 + (fld s (MC_IL_BASE.VALUE (b - 4)) % 2 ^ 24 * 4096 + k / m * 4096 + o % 4096)

/-- Every channel that a binding uses. -/
def bindChans (s : State) (b : Nat) : List Nat := if b < 4 then [b] else setMembers s (b - 4)

/-- The spans of a region in its channels: channel, first unit and end, in units of 4 KiB. -/
def regionSpans (s : State) (x : Region) : List (Nat × Nat × Nat) :=
  if x.bind < 4 then [(x.bind, x.base, x.base + x.size)]
  else
    let i := x.bind - 4
    let ms := setMembers s i
    let m := ms.length
    let B := fld s (MC_IL_BASE.VALUE i) % 2 ^ 24
    (List.range m).map fun j => (ms.getD j 0, B + (x.base + (m - 1 - j)) / m, B + (x.base + x.size + (m - 1 - j)) / m)

def spansMeet (a b : Nat × Nat × Nat) : Bool := a.1 = b.1 && decide (a.2.1 < b.2.2) && decide (b.2.1 < a.2.2)

/-- Two regions overlap. -/
def regionsMeet (s : State) (x y : Region) : Bool :=
  (regionSpans s x).any fun a => (regionSpans s y).any (spansMeet a)

/-- The binding is usable and the region lies within it (R224). -/
def regionOk (s : State) (x : Region) : Bool :=
  x.size ≠ 0 && x.base < 2 ^ 26 &&
  (if x.bind < 4 then trained s x.bind && decide (x.base + x.size ≤ chanUnits s x.bind)
   else setValid s (x.bind - 4) && decide (x.base + x.size ≤ (setMembers s (x.bind - 4)).length * fld s (MC_IL_LEN.VALUE (x.bind - 4))))

/-- Every DDR window that the region touches belongs to partition p (R224, 19); a member with no byte of it touches none. -/
def regionOwned (s : State) (p : Nat) (x : Region) : Bool :=
  (regionSpans s x).all fun (c, lo, hi) =>
    (List.range 8).all fun w => !(decide (lo < hi) && decide (lo < (w + 1) * 2 ^ 21) && decide (w * 2 ^ 21 < hi)) || ownWindow s (8 * c + w) = p

/-- The region that ring r has in force. -/
def ringRegion (s : State) (r : Nat) : Region :=
  { bind := fld s (CR_BIND_RD.BIND r), base := fld s (CR_BIND_RD.BASE r), size := (cring s r).n / 64 }

/-- The regions of a ring that is in use: running, replaying or migrating, with both sides of a migration (R222).  A stopped ring that
keeps contents, a mark or entries in its write buffer uses none (DESIGN CHOICE, log 19). -/
def ringRegions (s : State) (r : Nat) : List Region :=
  let on := flag s (CR_STAT.RUNNING r) || flag s (CR_STAT.REPLAYING r)
  match (cring s r).mig with
  | some m => [ringRegion s r, { bind := m.bind, base := m.base, size := (cring s r).n / 64 }]
  | none => if on then [ringRegion s r] else []

def claimOf (s : State) (q : Nat) : Option Region := sget (fun _ => none) s.ddr.claims q

def storeRegions (s : State) : List Region := (List.range 4).filterMap (claimOf s)

def usedRegions (s : State) : List Region := (List.range 16).flatMap (ringRegions s) ++ storeRegions s

/-- The regions that bar a new one: of rings that run or migrate, and the segment stores (R224). -/
def barRegions (s : State) : List Region :=
  ((List.range 16).filter fun r => flag s (CR_STAT.RUNNING r) || (cring s r).mig.isSome).flatMap (ringRegions s) ++ storeRegions s

/-- A ring or a segment-store region uses interleave set i (R222, MC_IL_CFG.INUSE). -/
def setInUse (s : State) (i : Nat) : Bool := (usedRegions s).any fun x => x.bind = 4 + i

/-! ## Words and their errors (R219) -/

def wordErr (s : State) (a : Nat) : Nat := sget (fun _ => 0) s.ddr.err (a / 8)

def setWordErr (s : State) (a e : Nat) : State :=
  { s with ddr := { s.ddr with err := sset (fun _ => 0) s.ddr.err (a / 8) e } }

def ddrWord (s : State) (a : Nat) : W64 := BitVec.ofNat 64 (leNat (mreadBytes 0 s.ddr.mem a 8))

/-- Write bytes; a word that is written loses its error. -/
def ddrWrite (s : State) (a : Nat) (bs : List Byte) : State :=
  let s := { s with ddr := { s.ddr with mem := mwriteBytes 0 s.ddr.mem a bs } }
  (List.range (bs.length / 8)).foldl (fun s i => setWordErr s (a + 8 * i) 0) s

/-- Errors that the memory shows at this read: word of the block, and whether it is uncorrectable. They stay until the word is
written. -/
def newErrs (s : State) (a : Nat) (errs : List (Nat × Bool)) : State :=
  errs.foldl (fun s (k, ue) => setWordErr s (a + 8 * (k % 8)) (if ue then 2 else max 1 (wordErr s (a + 8 * (k % 8))))) s

/-- One word's error is counted, logged and, when uncorrectable, noticed. SRC: 0 replay, 1 scrub, 2 copy, 3 refill. -/
def logErr (s : State) (a src : Nat) (ue : Bool) : State :=
  let n := a / 2 ^ 36
  let o := a % 2 ^ 36
  let s := if ue then sts (inc s (MC_UE_CNT.COUNT n)) (MC_STAT.UE n) else sts (inc s (MC_CE_CNT.COUNT n)) (MC_STAT.CE n)
  let hi := (if ue then 2 ^ 31 else 0) + src * 2 ^ 29 + o / 2 ^ 32
  let s := setPair64 s (MC_ERR_LO.off n) (MC_ERR_HI.off n) (o % 2 ^ 32 + hi * 2 ^ 32)
  if ue then post (alarm s IR_ALARM_STAT.MC_UE) 0x0D02 n 0 (hi * 2 ^ 32 + o % 2 ^ 32) else s

/-- Read one word: its data as delivered and whether it is uncorrectable; the data of an uncorrectable word is a free value. -/
def readWord (s : State) (a src : Nat) : W64 × Bool × State :=
  match wordErr s a with
  | 0 => (ddrWord s a, false, s)
  | 1 => (ddrWord s a, false, logErr s a src false)
  | _ =>
    let (k, s) := takeFree (logErr s a src true)
    (Config.badWord k, true, s)

/-- Read n words from an address. -/
def readWords (s : State) (a src : Nat) : Nat → List W64 × Bool × State
  | 0 => ([], false, s)
  | n + 1 =>
    let (w, b, s) := readWord s a src
    let (ws, bs, s) := readWords s (a + 8) src n
    (w :: ws, b || bs, s)

/-- Read a block of eight words under the errors that it shows. -/
def readBlock (s : State) (a src : Nat) (errs : List (Nat × Bool)) : List W64 × Bool × State :=
  readWords (newErrs s a errs) a src 8

/-! ## Training, scrub and retirement (R218, R220, R235) -/

def chan (s : State) (n : Nat) : Chan := sget (fun _ => {}) s.ddr.chans n

def setChan (s : State) (n : Nat) (x : Chan) : State :=
  { s with ddr := { s.ddr with chans := sset (fun _ => {}) s.ddr.chans n x } }

/-- A supported organisation: the channel's hub answered or MC_ORG was written, with 1 or 2 ranks of 16, 24 or 32 Gbit (R217,
map of MC_ORG). -/
def orgSupported (present : Bool) (org : W32) : Bool :=
  present && bitsOf org.toNat 17 16 ≤ 1 && bitsOf org.toNat 15 14 ≤ 2

/-- The organisation that MC_ORG shows is supported. -/
def orgOk (s : State) (n : Nat) : Bool := orgSupported (flag s (MC_STAT.PRESENT n)) (reg s (MC_ORG.off n))

/-- A channel starts to train, with the organisation that MC_ORG shows now (R218).  A trained channel that is told to train again
counts as untrained from then on, whatever it holds (DESIGN CHOICE, log 19). -/
def startTrain (s : State) (n : Nat) : State :=
  let s := setChan s n { chan s n with org := reg s (MC_ORG.off n), orgPresent := flag s (MC_STAT.PRESENT n) }
  let s := setFlag (setFlag s (MC_CMD.TRAIN n) true) (MC_STAT.TRAINING n) true
  setFlag (setFlag s (MC_STAT.TRAINED n) false) (MC_STAT.RETIRED n) false

/-- MC_TRAIN (R218). -/
def mcTrain (s : State) (a : Access) (n : Nat) (v : W32) : State :=
  cmdWrite s a (MC_CMD.off n) v fun s => if v.getLsbD 31 ∧ flag s (MC_STAT.TRAINING n) = false then startTrain s n else s

def execMcTrain (a : Access) (n : Nat) (v : W32) (s : State) : Host.Outcome State Fault Refusal := .next (mcTrain s a n v)

/-- CHANNEL_TRAIN_COMPLETE (R218): `ok` says whether the memory trained, `size` its capacity in GiB. -/
def channelTrainComplete (s : State) (n : Nat) (ok : Bool) (size : Nat) : State :=
  if nChans s ≤ n ∨ flag s (MC_STAT.TRAINING n) = false then s
  else
    let s := setFlag (setFlag s (MC_STAT.TRAINING n) false) (MC_CMD.TRAIN n) false
    let x := chan s n
    if ok ∧ orgSupported x.orgPresent x.org ∧ 8 ≤ size ∧ size ≤ 64 then
      setFld (setFlag (setChan s n { x with scrub := 0, scrubAt := s.now }) (MC_STAT.TRAINED n) true) (MC_STAT.SIZE n) size
    else post (sts s (MC_STAT.TRAIN_FAIL n)) 0x0D01 n 0 x.org.toNat

def execChannelTrainComplete (n : Nat) (ok : Bool) (size : Nat) (s : State) : Host.Outcome State Fault Refusal :=
  .next (channelTrainComplete s n ok size)

/-- The channel holds a running ring, a side of a migration, a segment-store region or a set in use (R235). -/
def chanInUse (s : State) (n : Nat) : Bool :=
  (barRegions s).any (fun x => (bindChans s x.bind).contains n) ||
  (List.range 4).any fun i => setInUse s i && (setMembers s i).contains n

/-- MC_RETIRE (R235): the contents are lost.  A training that runs ends with it (DESIGN CHOICE, log 19). -/
def mcRetire (s : State) (a : Access) (n : Nat) (v : W32) : State :=
  cmdWrite s a (MC_CMD.off n) v fun s =>
    if v.getLsbD 30 = false then s
    else if chanInUse s n then sts s (MC_STAT.RETIRE_REF n)
    else
      let s := { s with ddr := { s.ddr with mem := s.ddr.mem.filter fun x => x.1 / 2 ^ 36 ≠ n,
                                            err := s.ddr.err.filter fun x => x.1 / 2 ^ 33 ≠ n } }
      let s := setFlag (setFlag s (MC_STAT.TRAINED n) false) (MC_STAT.RETIRED n) true
      setFlag (setFlag s (MC_STAT.TRAINING n) false) (MC_CMD.TRAIN n) false

def execMcRetire (a : Access) (n : Nat) (v : W32) (s : State) : Host.Outcome State Fault Refusal := .next (mcRetire s a n v)

/-- Scrub one word: a corrected word is written back without its error. -/
def scrubWord (s : State) (a : Nat) : State :=
  match wordErr s a with
  | 0 => s
  | 1 => setWordErr (logErr s a 1 false) a 0
  | _ => logErr s a 1 true

/-- Ticks from one block of a patrol pass to the next: MC_SCRUB.PERIOD hours (0 acts as 1) over the blocks installed (R220). -/
def scrubInterval (s : State) (n : Nat) : Nat :=
  max 1 (fld s (MC_SCRUB.PERIOD n)) * usTicks 3600000000 / (chanUnits s n * 64)

/-- The patrol of a channel has come to a block, and its interval is over (R220). -/
def scrubDue (s : State) (n blk : Nat) : Bool :=
  trained s n && flag s (MC_SCRUB.EN n) && decide (blk < chanUnits s n * 64) && blk == (chan s n).scrub &&
  decide ((chan s n).scrubAt + scrubInterval s n ≤ s.now)

/-- Patrol scrub reads one 64-byte block of a channel and goes on to the next; a pass that is behind does not hurry (R220). -/
def scrubBlock (s : State) (n blk : Nat) (errs : List (Nat × Bool)) : State :=
  let x := chan s n
  let i := scrubInterval s n
  let at_ := if s.now < x.scrubAt + 2 * i then x.scrubAt + i else s.now
  let s := setChan s n { x with scrub := (blk + 1) % (chanUnits s n * 64), scrubAt := at_ }
  let a := n * 2 ^ 36 + 64 * blk
  (List.range 8).foldl (fun s i => scrubWord s (a + 8 * i)) (newErrs s a errs)

/-! ## Slots (R223, R226, R227, R234) -/

/-- How far a slot lies from the splice of a migration. -/
def migDist (m : Migration) (n k : Nat) : Nat := (k + n - m.start) % n

/-- The slot lies in the new region: written or copied there (R234). -/
def inNew (m : Migration) (n k : Nat) : Bool :=
  decide (migDist m n k < m.written) || decide (migDist m n k < m.copied) || m.fills.contains k

/-- The address of slot k in a region. -/
def slotAddr (s : State) (bind base k : Nat) : Nat := bindAddr s bind (base * 4096 + 64 * k)

/-- Where slot k is read (R234). -/
def readAddr (s : State) (r k : Nat) : Nat :=
  let x := ringRegion s r
  match (cring s r).mig with
  | some m => if inNew m (cring s r).n k then slotAddr s m.bind m.base k else slotAddr s x.bind x.base k
  | none => slotAddr s x.bind x.base k

/-- Where slot k is written: the new region from the splice on. -/
def writeAddr (s : State) (r k : Nat) : Nat :=
  let x := ringRegion s r
  match (cring s r).mig with
  | some m => slotAddr s m.bind m.base k
  | none => slotAddr s x.bind x.base k

/-- The check of a ring note or placeholder: over bytes 0 to 55. -/
def noteCheck (ws : List W64) : Nat := (crc32c ((ws.take 7).flatMap wordBytes)).toNat

/-- A slot of words 0 and 1, zeros, and CHECK. -/
def noteSlot (w0 w1 : Nat) : List W64 :=
  let ws := [BitVec.ofNat 64 w0, BitVec.ofNat 64 w1, 0, 0, 0, 0, 0]
  ws ++ [BitVec.ofNat 64 (noteCheck ws)]

/-- A ring note (table *Ring note*). -/
def ringNote (code seq count reason : Nat) : List W64 :=
  noteSlot (0xFE * 2 ^ 56 + code % 256 * 2 ^ 48 + seq % 2 ^ 16 * 2 ^ 32 + min count (2 ^ 32 - 1)) (reason % 16)

/-- A window placeholder (table *Window placeholder*). -/
def placeholder (code num part : Nat) : List W64 :=
  noteSlot (0xFD * 2 ^ 56 + code % 256 * 2 ^ 48 + part % 256 * 2 ^ 40 + num % 2 ^ 32) 0

/-- The slot is a ring note or a placeholder of its kind: every zero field is zero and CHECK verifies (R227). -/
def isNote (ws : List W64) : Bool :=
  let w (i : Nat) : W64 := ws.getD i 0
  (wbits (w 0) 63 56 = 0xFE && (w 1).toNat < 16 || wbits (w 0) 63 56 = 0xFD && wbits (w 0) 39 32 = 0 && w 1 = 0) &&
  w 2 = 0 && w 3 = 0 && w 4 = 0 && w 5 = 0 && w 6 = 0 && (w 7).toNat = noteCheck ws

def tileWords (t : Tile) : List W64 := t.hdr :: t.slots

def tileOfWords (ws : List W64) : Tile := { hdr := ws.getD 0 0, slots := ws.drop 1 }

/-- A ring's writer, reader or copier marks a tile corrupt (CR_CORRUPT_CNT, CR_STAT.CORRUPT). -/
def ringCorrupt (s : State) (r : Nat) : State := sts (inc s (CR_CORRUPT_CNT.COUNT r)) (CR_STAT.CORRUPT r)

/-- A failing tile of slot k is counted, once in the ring (R125). -/
def countSlot (s : State) (r k : Nat) : State :=
  if (cring s r).counted.contains k then s
  else ringCorrupt (setCring s r { cring s r with counted := k :: (cring s r).counted }) r

/-- Slot k takes new content: nothing of it is counted yet. -/
def freshSlot (s : State) (r k : Nat) : State :=
  setCring s r { cring s r with counted := (cring s r).counted.filter fun x => x ≠ k }

/-- The capture writer verifies a tile for slot k (R24). -/
def writerVerify (s : State) (r k : Nat) (t : Tile) : Tile × State :=
  let s := freshSlot s r k
  if failsCheck s t then (markCorrupt t, countSlot s r k) else (t, s)

/-! ## What replays hand to streams (R228, R233) -/

/-- An item for a stream's replay side. -/
def pushReplay (s : State) (h : Nat) (x : List RItem) : State := setStream s h { stream s h with rep := (stream s h).rep ++ x }

/-- The gap entries that await a tile take its group code and SEQ (R233). -/
def fixGaps (code seq : Nat) (xs : List RItem) : List RItem :=
  xs.map fun x => match x with
    | .gap 4 0xFF 0 n => .gap 4 code seq n
    | y => y

/-- The group code and SEQ of a tile of a known group code (R128, R233). -/
def knownTile (s : State) : RItem → Option (Nat × Nat)
  | .tile code t => if codePresent s code then some (code, tileSeq t) else none
  | _ => none

/-- A replay's next item: what waits for a tile of a known group code waits on, until one comes. -/
def replayItem (s : State) (r : Nat) (R : Replay) (xs : List RItem) : State :=
  match xs.findSome? (knownTile s) with
  | some (code, seq) =>
    let s := setCring s r { cring s r with replay := some { R with held := [] } }
    pushReplay s R.hring (fixGaps code seq R.held ++ xs)
  | none =>
    if R.held.isEmpty then pushReplay (setCring s r { cring s r with replay := some R }) R.hring xs
    else setCring s r { cring s r with replay := some { R with held := R.held ++ xs } }

/-- Slots passed over become a gap entry that awaits the next tile. -/
def notePassed (R : Replay) : Replay :=
  if R.passed = 0 then R else { R with held := R.held ++ [.gap 4 0xFF 0 R.passed], passed := 0 }

/-- A ring's notices are on (CR_CFG.NOTICE_EN). -/
def ringPost (s : State) (r ty aux data : Nat) : State := if flag s (CR_CFG.NOTICE_EN r) then post s ty r aux data else s

/-- The replay ends: gap entries that met no tile carry code 0xFF and SEQ 0 (R233). -/
def endReplay (s : State) (r : Nat) : State :=
  match (cring s r).replay with
  | none => s
  | some R =>
    let R := notePassed R
    let s := pushReplay (setCring s r { cring s r with replay := none }) R.hring R.held
    let s := setFlag (setFlag s (CR_STAT.REPLAYING r) false) (CR_CMD.REPLAY r) false
    ringPost s r 0x0E04 0 R.read

/-- The mark and the stall are given up; a replay ends (R232). -/
def releaseMark (s : State) (r : Nat) : State :=
  let was := flag s (CR_STAT.STALLED r)
  let s := setFlag (setFlag s (CR_STAT.MARK_SET r) false) (CR_STAT.STALLED r) false
  let s := setCring s r { cring s r with splice := none }
  endReplay (if was then evalPins s else s) r

/-- A replay has covered its range: it ends, and with AUTO_REL the mark is released (R233). -/
def replayDone (s : State) (r : Nat) : State :=
  let s := endReplay s r
  if flag s (CR_CFG.AUTO_REL r) then releaseMark s r else s

/-- An item for the stream of host ring h that follows what the ring's replay holds back for it. -/
def handItem (s : State) (r h : Nat) (x : RItem) : State :=
  match (cring s r).replay with
  | some R =>
    if R.hring = h ∧ !R.held.isEmpty then setCring s r { cring s r with replay := some { R with held := R.held ++ [x] } }
    else pushReplay s h [x]
  | none => pushReplay s h [x]

/-- The fill of a delivered placeholder reaches, or can no longer reach, the streams that took its reservation (R228). -/
def handFill (s : State) (r code num part : Nat) (t : Option Tile) : State :=
  let c := cring s r
  let mine := c.handed.filter fun x => x.code = code && x.num = num && x.part = part
  let s := setCring s r { c with handed := c.handed.filter fun x => !(x.code = code && x.num = num && x.part = part) }
  mine.foldl (fun s x => handItem s r x.hring (.fill code num part t)) s

/-! ## The ring writer (R226 to R231) -/

def resvOf (c : CRing) (g : Nat) : Option (Nat × Nat × Nat) := sget (fun _ => none) c.resv g

def setResv (c : CRing) (g : Nat) (x : Option (Nat × Nat × Nat)) : CRing :=
  { c with resv := sset (fun _ => none) c.resv g x }

/-- Reservations whose slot is about to be overwritten are cleared; their fills cannot come any more (R228). -/
def clearResvAt (s : State) (r k : Nat) : State :=
  (cring s r).resv.foldl (fun s (g, x) => match x with
    | some (slot, num, part) => if slot = k then handFill (setCring s r (setResv (cring s r) g none)) r g num part none else s
    | none => s) s

/-- The mark is overrun: M moves on, and a replay that has not read the slot passes over it (R230, R233). -/
def overrunMark (s : State) (r : Nat) : State :=
  let c := cring s r
  let m' := (c.m + 1) % c.n
  let R := c.replay.map fun R =>
    if R.next = c.m ∧ R.done < R.total then { R with next := m', done := R.done + 1, passed := R.passed + 1 } else R
  let s := setCring s r { c with m := m', skip := c.skip + 1, overran := true, replay := R }
  let s := sts (inc s (CR_SKIP_CNT.COUNT r)) (CR_STAT.MARK_OVERRUN r)
  let s := if c.overran then s else ringPost s r 0x0E03 0 m'
  match R with
  | some R => if R.total ≤ R.done then replayDone s r else s
  | none => s

/-- The write due would stall the ring: protect mode, a mark, and K = N (R231). -/
def mustStall (s : State) (r : Nat) : Bool :=
  flag s (CR_STAT.STALLED r) ||
  (flag s (CR_CFG.MODE r) && flag s (CR_STAT.MARK_SET r) && (cring s r).k = (cring s r).n)

/-- The ring is stalled (R231). -/
def enterStall (s : State) (r : Nat) : State :=
  if flag s (CR_STAT.STALLED r) then s else evalPins (setFlag s (CR_STAT.STALLED r) true)

/-- Write eight words to slot WP and advance (R226, R229, R230). -/
def writeSlot (s : State) (r : Nat) (ws : List W64) : State :=
  let k := (cring s r).wp
  let s := clearResvAt s r k
  let c := cring s r
  let s := ddrWrite s (writeAddr s r k) (ws.flatMap wordBytes)
  let s := if flag s (CR_STAT.MARK_SET r) then (if c.k = c.n then overrunMark s r else setCring s r { c with k := c.k + 1 }) else s
  let c := cring s r
  setCring s r { c with wp := (k + 1) % c.n, fill := min (c.fill + 1) c.n,
                        mig := c.mig.map fun m => { m with written := min (m.written + 1) c.n } }

/-- Write a ring note or placeholder to slot WP. -/
def writeNote (s : State) (r : Nat) (ws : List W64) : State := writeSlot (freshSlot s r (cring s r).wp) r ws

/-- The ring stalls, or is stalled: the entry due is not written (R231). -/
def stallEntry (s : State) (r code : Nat) (x : QItem) : State := countDrop (enterStall s r) r code x

/-- A tile taken from a source is written to slot WP (R226). -/
def ringTile (s : State) (r : Nat) (t : Tile) : State :=
  let (t, s) := writerVerify s r (cring s r).wp t
  writeSlot s r (tileWords t)

/-- The note of what a stall dropped, which goes directly ahead of the first tile of its source (R231). -/
def ringDropNote (s : State) (r code : Nat) (t : Tile) : State :=
  setDrops (writeNote s r (ringNote code (tileSeq t) (dropsOf (cring s r) code) 5)) r code 0

/-- A group's entry of the reservation table is given up: its fill cannot come, and no stream waits for it (R228). -/
def loseResv (s : State) (r g : Nat) : State :=
  match resvOf (cring s r) g with
  | some (_, num, part) => handFill (setCring s r (setResv (cring s r) g none)) r g num part none
  | none => s

/-- A reservation takes its group's entry; an entry that still stands was never filled (R228). -/
def ringReservation (s : State) (r g num part : Nat) : State :=
  let s := loseResv s r g
  let k := (cring s r).wp
  let s := writeNote s r (placeholder g num part)
  setCring s r (setResv (cring s r) g (some (k, num, part)))

/-- A fill written during a migration counts its slot as written in the new region (R234). -/
def noteFillAt (n k : Nat) (m : Migration) : Migration := if inNew m n k then m else { m with fills := k :: m.fills }

/-- A fill (R228). -/
def ringFill (s : State) (r g num part : Nat) (t : Tile) : State :=
  match resvOf (cring s r) g with
  | some (k, n, p) =>
    if (n == num && p == part) = true then
      let (t, s) := writerVerify s r k t
      let s := ddrWrite s (writeAddr s r k) ((tileWords t).flatMap wordBytes)
      let c := setResv (cring s r) g none
      let s := setCring s r { c with mig := c.mig.map (noteFillAt c.n k) }
      handFill s r g num part (some t)
    else handFill (inc s (CR_FILL_LOST_CNT.COUNT r)) r g num part none
  | none => handFill (inc s (CR_FILL_LOST_CNT.COUNT r)) r g num part none

/-- The entry is the fill of a part. -/
def isFillOf (num part : Nat) : QItem → Bool
  | .fill n p _ => n == num && p == part
  | _ => false

/-- The fill of a part is still to come to a destination of the group: the part is open, or its fill waits at the group queue or in it
(R136 to R142). -/
def fillQueued (s : State) (d : Dest) (g num part : Nat) : Bool :=
  let G := group s g
  (destsOf s g).contains d &&
    (G.win.any (fun W => W.num == num && W.part == part) || G.waitWin.any (isFillOf num part) ||
     G.queue.any fun e => e.left.contains d && isFillOf num part e.item)

/-- The fill of a part can still come to the ring, whose write buffer may hold it (R228). -/
def fillComing (s : State) (r g num part : Nat) : Bool :=
  ((cring s r).inbox.any fun y => y.code == g && isFillOf num part y.item) || fillQueued s (.ring r) g num part

/-- Reservations whose fill can no longer come are given up: their source no longer feeds the ring, or a flush has discarded the fill
(R228, R403). -/
def dropUnbound (s : State) (r : Nat) : State :=
  (cring s r).resv.foldl (fun s (g, x) => match x with
    | some (_, num, part) => if fillComing s r g num part then s else loseResv s r g
    | none => s) s

/-- The entry at the head of the write buffer, and what else it holds: a fill is always written, anything else unless the ring stalls;
the note of what a stall dropped takes a write of its own, ahead of the tile (R226, R228, R231).  What the write buffer holds when the
stall begins is judged entry by entry at its own write, so that after a release it is written behind what was dropped at entry
meanwhile (DESIGN CHOICE, log 19). -/
def ringEntry (s : State) (r : Nat) (x : Inbound) (rest : List Inbound) : State :=
  let s' := setCring s r { cring s r with inbox := rest }
  match x.item with
  | .fill num part t => ringFill s' r x.code num part t
  | .tile t w =>
    if mustStall s r then stallEntry s' r x.code (.tile t w)
    else if dropsOf (cring s r) x.code ≠ 0 then ringDropNote s r x.code t
    else ringTile s' r t
  | .reservation num part => if mustStall s r then stallEntry s' r x.code x.item else ringReservation s' r x.code num part
  | .vetoDrop count seq => if mustStall s r then stallEntry s' r x.code x.item else writeNote s' r (ringNote x.code seq count 6)

/-- The ring writer makes its next write (R226). -/
def ringWrite (s : State) (r : Nat) : State :=
  let c := cring s r
  match c.inbox with
  | [] => s
  | x :: rest => if c.n = 0 then setCring s r { c with inbox := rest } else dropUnbound (ringEntry s r x rest) r

/-! ## Binding of sources -/

/-- Bindings of every source take effect (R136, R225, R228). -/
def rebindAll (s : State) : State := forEach (List.range 16) (rebind s) dropUnbound

/-! ## Ring commands (R224, R225) -/

/-- A refused ring command. -/
def ringRefuse (s : State) (r code : Nat) : State := setFld (sts s (CR_STAT.CMD_REF r)) (CR_STAT.REF_CODE r) code

/-- Why a region may not be used: 2 region or binding, 3 overlap, 4 ownership, 0 nothing. -/
def regionCode (s : State) (p : Nat) (x : Region) : Nat :=
  if regionOk s x = false then 2
  else if (barRegions s).any (regionsMeet s x) then 3
  else if regionOwned s p x = false then 4
  else 0

/-- CR_START (R224). A migration that a stopped ring still runs bars a region that overlaps it, as any other does; where START is
accepted the migration is given up, and what the write buffer still holds of the stopped run, since the content that they belong
to is (log 19). -/
def crStart (s : State) (a : Access) (r : Nat) (v : W32) : State :=
  cmdWrite s a (CR_CMD.off r) v fun s =>
    if v.getLsbD 31 = false then s
    else if flag s (CR_STAT.RUNNING r) then ringRefuse s r 1
    else
      let x : Region := { bind := fld s (CR_CFG.BIND r), base := fld s (CR_BASE.VALUE r), size := fld s (CR_SIZE.VALUE r) }
      let c := regionCode s (ownRing s r) x
      if c ≠ 0 then ringRefuse s r c
      else
        let s := releaseMark s r
        let s := (cring s r).resv.foldl (fun s (g, y) => match y with
          | some (_, num, part) => handFill s r g num part none
          | none => s) s
        let s := setCring s r { cring s r with n := x.size * 64, wp := 0, fill := 0, k := 0, m := 0, skip := 0, overran := false, resv := [],
                                               counted := [], mig := none, inbox := [] }
        let s := setFlag (setFlag s (CR_STAT.MIGRATING r) false) (CR_CMD.MIGRATE r) false
        let s := setFld (setFld s (CR_BIND_RD.BIND r) x.bind) (CR_BIND_RD.BASE r) x.base
        rebindAll (setFlag s (CR_STAT.RUNNING r) true)

def execCrStart (a : Access) (r : Nat) (v : W32) (s : State) : Host.Outcome State Fault Refusal := .next (crStart s a r v)

/-- CR_STOP (R225): the entries already taken are still written, each in its turn. -/
def crStop (s : State) (a : Access) (r : Nat) (v : W32) : State :=
  cmdWrite s a (CR_CMD.off r) v fun s => if v.getLsbD 30 then rebindAll (setFlag s (CR_STAT.RUNNING r) false) else s

def execCrStop (a : Access) (r : Nat) (v : W32) (s : State) : Host.Outcome State Fault Refusal := .next (crStop s a r v)

/-! ## The rewind mark (R229, R232) -/

/-- T as the rings' copy shows it: at most 10 ns behind (R229). -/
def ringT (s : State) : W64 × State :=
  let (k, s) := takeFree s
  (BitVec.ofNat 64 ((s.pl.hist.drop (Config.markLag k).val).headD s.pl.t).toNat, s)

/-- A mark request that reached the ring at time `t` of its copy of T takes effect (R229).  A replay that runs goes on over the range that
it has latched (DESIGN CHOICE, log 19). -/
def markRequest (s : State) (r : Nat) (t : W64) : State :=
  let c := cring s r
  if flag s (CR_STAT.RUNNING r) ∧ (flag s (CR_STAT.MARK_SET r) = false ∨ flag s (CR_CFG.MODE r) = false) then
    let K := min (fld s (CR_LOOKBACK.TILES r)) (min c.fill (c.n - 1))
    let M := (c.wp + c.n - K) % c.n
    let s := setCring s r { c with m := M, k := K, skip := 0, overran := false }
    let s := setFlag s (CR_STAT.MARK_SET r) true
    if flag s (CR_CFG.NOTICE_EN r) then postAt s t 0x0E01 r 0 (BitVec.ofNat 128 (M + c.wp * 2 ^ 32)) else s
  else ringPost (inc s (CR_MARK_IGN_CNT.COUNT r)) r 0x0E02 0 0

/-- CR_MARK (R229). -/
def crMark (s : State) (a : Access) (r : Nat) (v : W32) : State :=
  cmdWrite s a (CR_CMD.off r) v fun s =>
    if v.getLsbD 29 then
      let (t, s) := ringT s
      markRequest s r t
    else s

def execCrMark (a : Access) (r : Nat) (v : W32) (s : State) : Host.Outcome State Fault Refusal := .next (crMark s a r v)

/-- MARK_ARRIVAL (R229, R213): the oldest Carver MARK reaches the ring.  Host writes to the ring in the same MCLK cycle, and the writes
of slots that complete in it, come before it (R214, R229), so it takes effect at the cycle's end. -/
def markArrival (s : State) (r : Nat) : State :=
  match reached s (fun d => d = .mark r) with
  | some (_, l) =>
    let (t, s) := ringT s
    { s with fab := { s.fab with decs := l, marksIn := s.fab.marksIn ++ [(r, t)] } }
  | none => s

/-- The end of an MCLK cycle: the MARKs that arrived in it take effect, in order (R214, R229). -/
def applyMarks (s : State) : State :=
  s.fab.marksIn.foldl (fun s (r, t) => markRequest s r t) { s with fab := { s.fab with marksIn := [] } }

def execMarkArrival (r : Nat) (s : State) : Host.Outcome State Fault Refusal := .next (markArrival s r)

/-- CR_RELEASE (R232). -/
def crRelease (s : State) (a : Access) (r : Nat) (v : W32) : State :=
  cmdWrite s a (CR_CMD.off r) v fun s => if v.getLsbD 28 then releaseMark s r else s

def execCrRelease (a : Access) (r : Nat) (v : W32) (s : State) : Host.Outcome State Fault Refusal := .next (crRelease s a r v)

/-! ## Replay (R233) -/

/-- Host ring h runs as an export ring whose stream is enabled (R233, R238); one that is stopping takes no new replay, although RUNNING
still reads 1 (DESIGN CHOICE, log 19). -/
def streamRuns (s : State) (h : Nat) : Bool := running s h && !stopping s h && ringKind s h = 0 && flag s (PK_CFG.EN h)

/-- Such a ring's stream takes: the device is no standby and not fenced (R361). -/
def streamUp (s : State) (h : Nat) : Bool := streamRuns s h && !pairMuted s

/-- A replay from the mark begins, or is refused (R233). -/
def startReplay (s : State) (r : Nat) : State :=
  let h := fld s (CR_REPLAY.HRING r)
  let c := cring s r
  if flag s (CR_STAT.MARK_SET r) = false ∨ c.replay.isSome then ringRefuse s r 1
  else if ownHostRing s h ≠ ownRing s r then ringRefuse s r 4
  else if streamRuns s h = false then ringRefuse s r 1
  else
    let held := if c.skip = 0 then [] else [RItem.gap 4 0xFF 0 c.skip]
    let s := setCring s r { c with replay := some { hring := h, total := c.k, read := 0, done := 0, next := c.m, passed := 0, held := held, cyc := none } }
    let s := setFlag (setFlag s (CR_STAT.REPLAYING r) true) (CR_CMD.REPLAY r) true
    if c.k = 0 then replayDone s r else s

/-- A write has taken an entry out of the write buffer: with the last of those that a take-over found in it, the splice's replay latches
its range (R379). -/
def spliceWritten (s : State) (r : Nat) : State :=
  match (cring s r).splice with
  | some n =>
    let s := setCring s r { cring s r with splice := if n ≤ 1 then none else some (n - 1) }
    if n ≤ 1 then startReplay s r else s
  | none => s

/-- CR_REPLAY (R233). -/
def crReplay (s : State) (a : Access) (r : Nat) (v : W32) : State :=
  cmdWrite s a (CR_CMD.off r) v fun s => if v.getLsbD 27 then startReplay s r else s

def execCrReplay (a : Access) (r : Nat) (v : W32) (s : State) : Host.Outcome State Fault Refusal := .next (crReplay s a r v)

/-- What a slot gives to the replay's stream (R227, R228, R233). -/
def slotItem (s : State) (r k : Nat) (R : Replay) (ws : List W64) (ue : Bool) : List RItem × State :=
  let w0 := ws.getD 0 0
  if !ue && isNote ws then
    let code := wbits w0 55 48
    if wbits w0 63 56 = 0xFE then
      ([.gap (wbits (ws.getD 1 0) 3 0) code (wbits w0 47 32) (wbits w0 31 0)], s)
    else
      let num := wbits w0 31 0
      let part := wbits w0 47 40
      let c := cring s r
      if resvOf c code = some (k, num, part) then
        ([.reservation code num part],
          setCring s r { c with handed := c.handed ++ [{ slot := k, code := code, num := num, part := part, hring := R.hring }] })
      else ([.reservation code num part, .fill code num part none], s)
  else
    let t := tileOfWords ws
    if ue || failsCheck s t then ([.tile (tileGroup t) (markCorrupt t)], countSlot s r k)
    else ([.tile (tileGroup t) t], s)

/-- The ring's replay has a slot to read, one in an FCLK cycle, and its stream takes (R233). -/
def replayReady (s : State) (h r : Nat) : Bool :=
  match (cring s r).replay with
  | some R => R.hring == h && R.cyc != some (fclk s) && streamUp s h && (stream s h).rep.isEmpty && trained s (readAddr s r R.next / 2 ^ 36)
  | none => false

/-- The ring whose replay a stream serves next, round-robin (R239). -/
def nextReplay (s : State) (h : Nat) : Option Nat :=
  ((List.range 16).map fun i => ((stream s h).rrRep + i) % 16).find? (replayReady s h)

/-- The replay reader reads its next slot, once the stream has taken what the replay gave it (R233). -/
def replaySlotRead (s : State) (r : Nat) (errs : List (Nat × Bool)) : State :=
  match (cring s r).replay with
  | none => s
  | some R =>
    if nextReplay s R.hring ≠ some r then s
    else
      let s := setStream s R.hring { stream s R.hring with rrRep := (r + 1) % 16 }
      let n := (cring s r).n
      let (ws, ue, s) := readBlock s (readAddr s r R.next) 0 errs
      let R := notePassed R
      let (xs, s) := slotItem s r R.next R ws ue
      let R := { R with read := R.read + 1, done := R.done + 1, next := (R.next + 1) % n, cyc := some (fclk s) }
      let s := replayItem s r R xs
      if R.total ≤ R.done then replayDone s r else s

/-! ## Migration (R234) -/

/-- CR_MIGRATE (R234).  A region that overlaps the ring's own present one is refused like any other running ring's, and a migration of a
ring that is not running with REF_CODE 1 (DESIGN CHOICE, log 19). -/
def crMigrate (s : State) (a : Access) (r : Nat) (v : W32) : State :=
  cmdWrite s a (CR_CMD.off r) v fun s =>
    let c := cring s r
    if v.getLsbD 26 = false then s
    else if flag s (CR_STAT.RUNNING r) = false ∨ c.mig.isSome then ringRefuse s r 1
    else
      let x : Region := { bind := fld s (CR_MIG.BIND r), base := fld s (CR_MIG.BASE r), size := c.n / 64 }
      let k := regionCode s (ownRing s r) x
      if k ≠ 0 then ringRefuse s r k
      else
        let s := setCring s r { c with mig := some { bind := x.bind, base := x.base, start := c.wp, written := 0, copied := 0, fills := [] } }
        setFlag (setFlag s (CR_STAT.MIGRATING r) true) (CR_CMD.MIGRATE r) true

def execCrMigrate (a : Access) (r : Nat) (v : W32) (s : State) : Host.Outcome State Fault Refusal := .next (crMigrate s a r v)

/-- The copy has ended: the new region is in force (R234). -/
def endMigration (s : State) (r : Nat) (m : Migration) : State :=
  let s := setCring s r { cring s r with mig := none }
  let s := setFld (setFld s (CR_BIND_RD.BIND r) m.bind) (CR_BIND_RD.BASE r) m.base
  let s := setFlag (setFlag s (CR_STAT.MIGRATING r) false) (CR_CMD.MIGRATE r) false
  ringPost s r 0x0E05 0 (m.bind + m.base * 2 ^ 32)

/-- The copier's next slot, unless it has been written since the splice. -/
def migrationCopy (s : State) (r : Nat) (errs : List (Nat × Bool)) : State :=
  let c := cring s r
  match c.mig with
  | none => s
  | some m =>
    let k := (m.start + m.copied) % c.n
    let s :=
      if inNew m c.n k then s
      else
        let x := ringRegion s r
        let (ws, ue, s) := readBlock s (slotAddr s x.bind x.base k) 2 errs
        let ws := if ue then tileWords (markCorrupt (tileOfWords ws)) else ws
        let s := if ue then countSlot s r k else s
        ddrWrite s (slotAddr s m.bind m.base k) (ws.flatMap wordBytes)
    let m := { m with copied := m.copied + 1 }
    if c.n ≤ m.copied then endMigration s r m else setCring s r { cring s r with mig := some m }

/-- A ring's committed set comes into force: sources, and a MODE change to overwrite that ends a stall (R231, R225). -/
def applyCr (s : State) (r : Nat) : State :=
  let s := applyRegs s (.cr r)
  let s := if flag s (CR_STAT.STALLED r) ∧ flag s (CR_CFG.MODE r) = false then evalPins (setFlag s (CR_STAT.STALLED r) false) else s
  rebindAll s

end Sys2Proof.Machine
end

