-- ==== Sys2Proof/Machine/Packer.lean ====
section
/-! DEFINITION. The packer streams (12_packer.md): buffers and blocks, the coding of modes 0 to 4, window blocks, drops and gap
entries, and the end of a ring (13_host_rings.md R265, R270, R274, R275). -/

namespace Sys2Proof.Machine

/-! ## Configuration in force -/

/-- MODE in force; 5 to 7 act as 0 (R246). -/
def pkMode (s : State) (h : Nat) : Nat := if 4 < fld s (PK_CFG.MODE h) then 0 else fld s (PK_CFG.MODE h)

/-- q in force: of mode 3, at most 12. -/
def pkQ (s : State) (h : Nat) : Nat := if pkMode s h = 3 then min (fld s (PK_CFG.Q h)) 12 else 0

/-- The block limit in bytes (PK_BLK_MAX). -/
def pkMax (s : State) (h : Nat) : Nat :=
  let m := fld s (PK_BLK_MAX.MAX h)
  64 * (if m = 0 ∨ 1024 < m then 1024 else max m 16)

/-! ## Buffers (R274, R275, R270) -/

/-- Bytes of a host buffer. -/
def bufBytes : Nat := 65536

/-- An export completion (table *Entry layouts*). -/
def completionBytes (b : Buf) (t : W64) : List Byte :=
  let flags := b.blocks.foldl (fun m x => m ||| x.2) (if b.part then 8 else 0)
  leBytes b.addr 8 ++ leBytes b.tag.toNat 4 ++ leBytes b.used 4 ++ leBytes ((b.blocks.map (·.1)).headD 0) 4 ++
  leBytes b.blocks.length 2 ++ leBytes flags 1 ++ [0] ++ leBytes t.toNat 8

/-- Cuts whose tiles have all been completed: the last of them is the frontier (R378). -/
def passCuts (done : Nat) : List (Nat × Nat) → Option Nat → List (Nat × Nat) × Option Nat
  | [], f => ([], f)
  | (c, q) :: r, f => if seqAtLeast done q then passCuts done r (some c) else ((c, q) :: r, f)

/-- A new active's splice replay of ring r into stream h has items that are not yet completed to the host (R378, R379). -/
def spliceOpen (s : State) (r h : Nat) : Bool :=
  let S := stream s h
  (cring s r).replay.isSome || (cring s r).splice.isSome || !S.rep.isEmpty || S.blk.any (·.rep) || S.asides.any (·.rep) ||
  S.bufs.any fun b => b.blocks.any fun x => x.2.testBit 0

/-- Earlier tiles of a group still wait in a splice replay, so that its frontier waits too (R378). -/
def splicing (s : State) (g : Nat) : Bool :=
  s.pr.splicing.any fun x => srcBit s (CR_SRC_LO.off x.1) (CR_SRC_HI.off x.1) (CR_SRC_DQ.off x.1) g && spliceOpen s x.1 x.2

/-- The group's cuts that are passed leave, and the last of them is its frontier (R378). -/
def settleCut (s : State) (g : Nat) : State :=
  let x := cutOf s g
  match x.done with
  | some d =>
    if splicing s g then s
    else
      let (cs, f) := passCuts d x.cuts x.front
      setCut s g { x with cuts := cs, front := f }
  | none => s

/-- Every live tile of an active's lane group below a SEQ has been completed to the host, or accounted for (R378). -/
def noteDone (s : State) (g seq : Nat) : State :=
  if fld s PR_STAT.ROLE = 3 ∧ g < 64 then
    let x := cutOf s g
    let d := match x.done with
      | some d => if seqAtLeast seq d then seq else d
      | none => seq
    setCut s g { x with done := some d }
  else s

/-- The cuts of every group of an active are looked at again (R378). -/
def settleCuts (s : State) : State :=
  if fld s PR_STAT.ROLE = 3 then forEach (List.range (nGroups s)) s settleCut else s

/-- Complete, in buffer order, the closed buffers with no pending window block ahead of them (R242, R275). -/
def completeBufs (s : State) (h : Nat) : Nat → State
  | 0 => s
  | k + 1 =>
    let S := stream s h
    match S.bufs with
    | [] => s
    | b :: r =>
      if b.closed ∧ b.pending = 0 then
        let s := entryWrite s h (entryAddr s h (devIdx s h)) (completionBytes b (t64 s))
        let s := b.seqs.foldl (fun s x => match x.2 with
          | some q => noteDone s x.1 q
          | none => s) s
        completeBufs (settleCuts (advanceDev (setStream s h { S with bufs := r }) h true)) h k
      else s

/-- The stream writes nothing to the host: the device is a standby or fenced (R361), or the ring's function is in D3hot (log 15). -/
def exportOff (s : State) (h : Nat) : Bool := pairMuted s || (fnHost s (ownHostRing s h)).d3hot

/-- Every buffer that may be completed is. -/
def completeAll (s : State) (h : Nat) : State := if exportOff s h then s else completeBufs s h (stream s h).bufs.length

/-- The last of a list changed by a function. -/
def mapLast {α : Type} (f : α → α) : List α → List α
  | [] => []
  | [x] => [f x]
  | x :: r => x :: mapLast f r

/-- The buffer being written: the last one held, while it is not closed. -/
def curBuf (s : State) (h : Nat) : Option Buf :=
  match (stream s h).bufs.getLast? with
  | some b => if b.closed then none else some b
  | none => none

/-- The stream gives up the buffer being written, which is complete or PARTIAL. -/
def closeBuf (s : State) (h : Nat) (part : Bool) : State :=
  let S := stream s h
  completeAll (setStream s h { S with bufs := mapLast (fun b => if b.closed then b else { b with closed := true, part := part }) S.bufs }) h

/-- A free host buffer of the stream: one fetched and not taken, and a free export entry for it (R274). -/
def freeBuf (s : State) (h : Nat) : Option (Nat × W32) :=
  let p := fld s (HI_RING_CFG.PAIR h)
  if running s p && !stopping s p && ringKind s p = 2 && decide ((stream s h).bufs.length < ringSize s h) then (hring s p).avail.head?
  else none

/-- The stream takes its next buffer; the free-buffer ring's index advances. -/
def takeBuf (s : State) (h addr : Nat) (tag : W32) : State :=
  let p := fld s (HI_RING_CFG.PAIR h)
  let s := setHring s p { hring s p with avail := (hring s p).avail.tail }
  let s := advanceDev s p false
  let S := stream s h
  setStream s h { S with nbuf := S.nbuf + 1, waiting := false, bufs := S.bufs ++ [
    { id := S.nbuf, addr := addr, tag := tag, used := 0, blocks := [], pending := 0, closed := false, part := false, lastAt := none, seqs := [] }] }

/-- A buffer in which a block has a limit of 1,024 bytes or more: the one being written, or the next free one (R240). -/
def ensureBuf (s : State) (h : Nat) : Option State :=
  match curBuf s h with
  | some b => if b.used + 1024 ≤ bufBytes then some s else (freeBuf s h).map fun (a, t) => takeBuf (closeBuf s h false) h a t
  | none => (freeBuf s h).map fun (a, t) => takeBuf s h a t

/-! ## Blocks (R127, R128, R240, R241) -/

/-- Bytes up to a multiple of 64. -/
def up64 (n : Nat) : Nat := (n + 63) / 64 * 64

/-- The payload bytes of an open block. -/
def payBytes (b : Blk) : Nat :=
  if b.mode = 4 then 8 + 64 * (b.sums.filter fun x => x.2.isSome).length + 8 * b.kept.length + 64 * b.raws.length
  else 8 * ((b.nbits + 63) / 64)

/-- The length of a block with more payload bits and list entries than it holds. -/
def blkSize (b : Blk) (bits n : Nat) : Nat :=
  let pay := if b.mode = 4 then payBytes b + bits / 8 else 8 * ((b.nbits + bits + 63) / 64)
  up64 (64 + pay + 8 * (b.list.length + n))

/-- The header, payload, list and padding of a block. -/
def blockBytes (s : State) (h mode q : Nat) (raw corrupt rep : Bool) (seq ref : Nat) (pay : List Byte) (list : List W64) : List Byte :=
  let reseal := mode = 3 ∨ mode = 4
  let b (x : Bool) (i : Nat) : Nat := if x then 2 ^ i else 0
  let w0 := 0xB1C7 * 2 ^ 48 + deviceId s * 2 ^ 32 + mode * 2 ^ 24 + q * 2 ^ 20 + b (decide reseal) 19 + b raw 18 + b corrupt 17 + b rep 16 + 1
  let w1 := h * 2 ^ 48 + list.length % 2 ^ 16 * 2 ^ 32 + seq % 2 ^ 32
  let w4 := if reseal then (crc32c pay).toNat else 0
  let head := leBytes w0 8 ++ leBytes w1 8 ++ leBytes pay.length 8 ++ leBytes (ref % 2 ^ 64) 8 ++ leBytes w4 8 ++ List.replicate 16 0
  let lst := list.flatMap wordBytes
  let body := head ++ leBytes (crc32c (head ++ lst)).toNat 8 ++ pay ++ lst
  body ++ List.replicate (up64 body.length - body.length) 0

/-- Block bytes reach the buffer and the counters. -/
def putBlock (s : State) (h addr : Nat) (bs : List Byte) : State :=
  let s := hostWrite s addr bs
  let s := setPair64 s (PK_OUT_LO.off h) (PK_OUT_HI.off h) (pair64 s (PK_OUT_LO.off h) (PK_OUT_HI.off h) + bs.length)
  setStream s h { stream s h with outBytes := (stream s h).outBytes + bs.length }

/-- The flag bits of a block in its buffer's completion. -/
def blkFlags (rep corrupt raw : Bool) : Nat := (if rep then 1 else 0) + (if corrupt then 2 else 0) + (if raw then 4 else 0)

/-- The words of a summary entry (table *Summary entry*). -/
def summaryWords (k : Nat) (x : Summary) : List W64 :=
  [k / 2 * 2 ^ 54 + k % 2 * 2 ^ 53 + x.qmax % 4 * 2 ^ 48 + x.first, x.last, x.npile * 2 ^ 32 + x.n, x.nqual * 2 ^ 32, x.dmin, x.dmax,
    x.sdd % 2 ^ 64, x.sdd / 2 ^ 64].map (BitVec.ofNat 64)

/-- The payload of a block. -/
def payloadOf (b : Blk) : List Byte :=
  if b.mode = 4 then
    let es := b.sums.filterMap fun (k, x) => x.map (summaryWords k)
    leBytes (es.length + b.raws.length * 2 ^ 16 + b.kept.length * 2 ^ 32) 8 ++ (es.flatMap id).flatMap wordBytes ++
    b.kept.flatMap wordBytes ++ b.raws.flatMap tileBytes
  else leBytes b.pay (8 * ((b.nbits + 63) / 64))

/-- Change the open block. -/
def modBlk (s : State) (h : Nat) (f : Blk → Blk) : State := setStream s h { stream s h with blk := (stream s h).blk.map f }

/-- The open block closes and is written (R240, R241); where the stream may not write, it stays. -/
def closeBlk (s : State) (h : Nat) : State :=
  match (stream s h).blk with
  | none => s
  | some b =>
    if exportOff s h then s else
    let bs := blockBytes s h b.mode b.q b.rawMarked b.corrupt b.rep b.seq b.refT (payloadOf b) b.list
    let addr := match curBuf s h with
      | some x => x.addr + b.off
      | none => 0
    let s := putBlock s h addr bs
    let S := stream s h
    setStream s h { S with blk := none, lastLive := !b.rep, bufs := mapLast (fun x =>
      { x with used := b.off + bs.length, lastAt := some s.now, blocks := x.blocks ++ [(b.seq, blkFlags b.rep b.corrupt b.rawMarked)],
               seqs := b.seqs.foldl (fun m y => sset (fun _ => none) m y.1 y.2) x.seqs }) S.bufs }

/-- BLOCK_SEQ for a block that opens. -/
def nextSeq (s : State) (h : Nat) : Nat × State :=
  let r := PK_BLK_SEQ.SEQ h
  (fld s r, bump s r)

/-- The open block closes at once: where the stream may not write, it takes nothing more and is written when the stream may (R240,
R259). -/
def shutBlk (s : State) (h : Nat) : State :=
  if exportOff s h then modBlk s h fun b => { b with shut := true } else closeBlk s h

/-- Open a block: none without a free buffer (R240, R241). -/
def openBlk (s : State) (h : Nat) (rep : Bool) : Option State :=
  (ensureBuf s h).map fun s =>
    let (seq, s) := nextSeq s h
    let used := match curBuf s h with
      | some b => b.used
      | none => 0
    setStream s h { stream s h with blk := some {
      rep := rep, mode := pkMode s h, q := pkQ s h, seq := seq, off := used, limit := min (pkMax s h) (bufBytes - used),
      refT := (t64 s).toNat, at_ := s.now, shut := false, hasTile := false, pay := 0, nbits := 0, list := [], corrupt := false, rawMarked := false,
      prev := [], hist := [], sums := [], kept := [], raws := [], seqs := [] } }

/-- An item of the other kind, live or replay, waits. -/
def otherWaits (s : State) (h : Nat) (rep : Bool) : Bool :=
  if rep then (stream s h).live.isSome else !(stream s h).rep.isEmpty

/-- The block is closed, or FLUSH µs have passed since its first item was taken; 0 acts as 1 (R240, R259). -/
def flushDue (s : State) (h : Nat) (b : Blk) : Bool := b.shut || decide (b.at_ + usTicks (max 1 (fld s (PK_CFG.FLUSH h))) ≤ s.now)

/-- Room for an item: 0 no buffer, 1 a block that takes it, 2 the other kind's turn comes first (R240, R245). -/
def room (s : State) (h : Nat) (rep : Bool) (bits n : Nat) : Nat × State :=
  let fresh (s : State) : Nat × State := match openBlk s h rep with
    | some t => (1, t)
    | none => (0, s)
  match (stream s h).blk with
  | none => fresh s
  | some b =>
    if b.rep = rep ∧ blkSize b bits n ≤ b.limit ∧ flushDue s h b = false then (1, s)
    else
      let s := closeBlk s h
      if b.rep = rep ∧ otherWaits s h rep then (2, s) else fresh s

/-- The stream waits for a buffer; each wait is counted once (R244). -/
def noBuf (s : State) (h : Nat) : State :=
  let S := stream s h
  let s := sts s (PK_STAT.BUF_WAIT h)
  if S.waiting then s else inc (setStream s h { S with waiting := true }) (PK_BUF_WAIT_CNT.COUNT h)

/-- A gap entry of the list (R128). -/
def gapEntry (reason code seq count : Nat) : W64 :=
  BitVec.ofNat 64 ((0xF0 + reason % 16) * 2 ^ 56 + code % 256 * 2 ^ 48 + seq % 2 ^ 16 * 2 ^ 32 + min count (2 ^ 32 - 1))

def listEntry (s : State) (h : Nat) (w : W64) : State := modBlk s h fun b => { b with list := b.list ++ [w] }

/-! ## Coding of modes 1 to 3 (R247 to R251) -/

/-- Append n bits to a payload, least significant first. -/
def putBits (p : Nat × Nat) (n v : Nat) : Nat × Nat := (p.1 + v % 2 ^ n * 2 ^ p.2, p.2 + n)

/-- W of R249. -/
def vlcWidths : List Nat := [0, 4, 8, 12, 16, 24, 32, 48]

/-- VLC of a signed value (R249). -/
def putVlc (p : Nat × Nat) (v : Int) : Nat × Nat :=
  let z := if v < 0 then (-2 * v - 1).toNat else (2 * v).toNat
  let c := (vlcWidths.findIdx? fun w => decide (z < 2 ^ w)).getD 7
  putBits (putBits p 3 c) (vlcWidths.getD c 48) z

/-- The residual of mode 3 as a multiple of 2^q, ties to the even multiple (R251). -/
def roundK (q p : Nat) (e : Int) : Int :=
  let k := e / (2 ^ q : Int)
  let rem := e - k * 2 ^ q
  if q = 0 then k
  else
    let h : Int := 2 ^ (q - 1)
    if h < rem ∨ (rem = h ∧ (Int.ofNat (p / 2 ^ q) + k) % 2 = 1) then k + 1 else k

def prevOf (b : Blk) (g : Nat) : Nat :=
  (sget (fun _ => none) b.prev g).getD (b.refT % 2 ^ 48 / 2 ^ b.q * 2 ^ b.q)

def histAt (b : Blk) (k : Nat) : Nat × Nat × Nat := sget (fun _ => (0, 0, 0)) b.hist k

/-- One record code (R248, R250): the payload and the prediction state go on. -/
def codeRecord (g : Nat) (b : Blk) (w : W64) : Blk :=
  let p := putBits (b.pay, b.nbits) 2 (recKind w)
  if recKind w ≠ 0 then
    let p := putBits p 62 (wbits w 61 0)
    { b with pay := p.1, nbits := p.2 }
  else
    let lane := recLane w
    let fl := wbits w 51 48
    let k := 2 * lane + fl / 8
    let (n, t0, t1) := histAt b k
    let pred := if 2 ≤ b.mode ∧ 2 ≤ n then (2 * t1 + 2 ^ 48 - t0) % 2 ^ 48 else prevOf b g
    let t := recTime w
    let e := signedOf 48 (t + 2 ^ 48 - pred)
    let v := if b.mode = 3 then roundK b.q pred e else e
    let that := if b.mode = 3 then wrapInt 48 (Int.ofNat pred + v * 2 ^ b.q) else t
    let p := putVlc (putBits (putBits p 4 (lane - 16 * g)) 4 fl) v
    { b with pay := p.1, nbits := p.2, hist := sset (fun _ => (0, 0, 0)) b.hist k (n + 1, t1, that),
             prev := sset (fun _ => none) b.prev g (some that) }

/-- The slots up to the last that is not a filler. -/
def usedSlots (t : Tile) : List W64 := (t.slots.reverse.dropWhile isFiller).reverse

/-- A tile that the summary and the coder cannot take apart: injected, a window tile, or with a stamp out of its place. -/
def irregular (t : Tile) : Bool :=
  tileInjected t || tileWindow t ||
  t.slots.any fun w => isStamp w && (0x3F < tileGroup t || recLane w / 16 ≠ tileGroup t)

/-- The encoder escapes the tile (R248). -/
def mustEscape (t : Tile) : Bool := irregular t || (usedSlots t).any isFiller

/-- An escape: M = 0 and seven words. -/
def codeEscape (b : Blk) (t : Tile) : Blk :=
  let p := t.slots.foldl (fun p w => putBits p 64 w.toNat) (putBits (b.pay, b.nbits) 3 0)
  { b with pay := p.1, nbits := p.2 }

/-- A tile code of M records. -/
def codeTile (b : Blk) (t : Tile) : Blk :=
  let u := usedSlots t
  let p := putBits (b.pay, b.nbits) 3 u.length
  u.foldl (codeRecord (tileGroup t)) { b with pay := p.1, nbits := p.2 }

/-! ## The self-check (R251, R255) -/

/-- n bits of a payload from a bit on. -/
def getBits (pay pos n : Nat) : Nat := pay / 2 ^ pos % 2 ^ n

/-- One record code at a bit of the payload, decoded against a prediction state: the record, the state after it and the next bit
(R251). -/
def decodeRecord (g : Nat) (b : Blk) (pos : Nat) : W64 × Blk × Nat :=
  let kind := getBits b.pay pos 2
  if kind ≠ 0 then (BitVec.ofNat 64 (kind * 2 ^ 62 + getBits b.pay (pos + 2) 62), b, pos + 64)
  else
    let lane := 16 * g + getBits b.pay (pos + 2) 4
    let fl := getBits b.pay (pos + 6) 4
    let width := vlcWidths.getD (getBits b.pay (pos + 10) 3) 48
    let z := getBits b.pay (pos + 13) width
    let v : Int := if z % 2 = 0 then Int.ofNat (z / 2) else -(Int.ofNat ((z + 1) / 2))
    let k := 2 * lane + fl / 8
    let (n, t0, t1) := histAt b k
    let pred := if 2 ≤ b.mode ∧ 2 ≤ n then (2 * t1 + 2 ^ 48 - t0) % 2 ^ 48 else prevOf b g
    let t := wrapInt 48 (Int.ofNat pred + v * 2 ^ b.q)
    (BitVec.ofNat 64 (lane * 2 ^ 52 + fl * 2 ^ 48 + t),
      { b with hist := sset (fun _ => (0, 0, 0)) b.hist k (n + 1, t1, t), prev := sset (fun _ => none) b.prev g (some t) }, pos + 13 + width)

/-- m record codes. -/
def decodeRecords (g : Nat) (b : Blk) (pos : Nat) : Nat → List W64 × Nat
  | 0 => ([], pos)
  | m + 1 =>
    let (w, b, pos) := decodeRecord g b pos
    let (ws, pos) := decodeRecords g b pos m
    (w :: ws, pos)

/-- The seven words that a tile code gives, and the bit after it (R251). -/
def decodeTile (g : Nat) (b : Blk) (pos : Nat) : List W64 × Nat :=
  let m := getBits b.pay pos 3
  if m = 0 then ((List.range 7).map fun i => BitVec.ofNat 64 (getBits b.pay (pos + 3 + 64 * i) 64), pos + 451)
  else
    let (ws, e) := decodeRecords g b (pos + 3) m
    (ws ++ List.replicate (7 - m) filler, e)

/-- A decoded word may stand for a source word: equal, or in mode 3 a stamp within 2^(q − 1) of it (R255). -/
def wordMatches (mode q : Nat) (w x : W64) : Bool :=
  w == x || (mode == 3 && isStamp w && isStamp x && w >>> 48 == x >>> 48 &&
    decide (2 * (signedOf 48 (recTime w + 2 ^ 48 - recTime x)).natAbs ≤ 2 ^ q))

/-- The code that stands in `after`'s payload from `before`'s end decodes, against the state before it, to the source tile (R255). -/
def selfCheck (before after : Blk) (t : Tile) : Bool :=
  let (ws, e) := decodeTile (tileGroup t) { before with pay := after.pay } before.nbits
  e == after.nbits && ws.length == t.slots.length && (ws.zip t.slots).all fun x => wordMatches before.mode before.q x.1 x.2

/-- A tile code in which a fault of the encoder has inverted the bits of `flip`. -/
def faultyCode (b : Blk) (t : Tile) (flip : Nat) : Blk :=
  let c := codeTile b t
  { c with pay := c.pay ^^^ (flip % 2 ^ (c.nbits - b.nbits) * 2 ^ b.nbits) }

/-! ## Summary (R256, R257) -/

/-- One stamp enters its lane and edge's summary. -/
def sumStamp (b : Blk) (w : W64) : Blk :=
  let k := 2 * recLane w + wbits w 51 51
  let t := recTime w
  let q := wbits w 49 48
  let pile := wbits w 50 50
  let nq := if q = 0 then 0 else 1
  let x : Summary := match sget (fun _ => none) b.sums k with
    | none => { first := t, last := t, qmax := q, npile := pile, n := 1, nqual := nq, dmin := 0, dmax := 0, sdd := 0 }
    | some y =>
      let d := (t + 2 ^ 48 - y.last) % 2 ^ 48
      { y with last := t, qmax := worseQ y.qmax q, npile := y.npile + pile, n := y.n + 1, nqual := y.nqual + nq,
               dmin := if y.n = 1 then d else min y.dmin d, dmax := max y.dmax d, sdd := y.sdd + d * d }
  { b with sums := sset (fun _ => none) b.sums k (some x) }

/-- A verified tile enters a summary block: its stamps their entries, its other records the kept ones. -/
def sumTile (b : Blk) (t : Tile) : Blk :=
  (t.slots.filter fun w => !isFiller w).foldl (fun b w => if isStamp w then sumStamp b w else { b with kept := b.kept ++ [w] }) b

/-! ## Taking a tile (R239, R244, R254, R255) -/

def pkPost (s : State) (h ty code seq : Nat) : State := if flag s (PK_CFG.NOTICE_EN h) then post s ty h (code % 256) seq else s

/-- A tile that fails verification is counted, noticed and marked (R254). -/
def noteFail (s : State) (h : Nat) (t : Tile) (raw : Bool) : State :=
  let s := sts (inc s (PK_CORRUPT_CNT.COUNT h)) (PK_STAT.CORRUPT_SEEN h)
  let s := if raw then sts s (PK_STAT.RAW_MARKED h) else s
  pkPost s h 0x0F01 (tileGroup t) (tileSeq t)

/-- A tile counts in PK_IN_CNT and PK_RATIO. -/
def countIn64 (s : State) (h : Nat) : State :=
  let s := inc s (PK_IN_CNT.COUNT h)
  setStream s h { stream s h with inBytes := (stream s h).inBytes + 64 }

/-- A tile is coded into the open block, in the block's mode; `flip` are the bits of its code that a fault inverts ahead of the
self-check (R255, log 34). -/
def putTile (s : State) (h : Nat) (t : Tile) (flip : Nat) : State :=
  let s := modBlk s h fun b => if b.hasTile then b else { b with hasTile := true, refT := (t64 s).toNat }
  let mode := match (stream s h).blk with
    | some b => b.mode
    | none => 0
  let bad := failsCheck s t
  let raw := bad && (mode = 3 || mode = 4)
  let s := if bad then noteFail s h t raw else s
  let u := if bad then markCorrupt t else t
  let s := modBlk s h fun b => { b with corrupt := b.corrupt || bad, rawMarked := b.rawMarked || raw }
  if mode = 0 then
    modBlk s h fun b =>
      let p := (tileWords u).foldl (fun p w => putBits p 64 w.toNat) (b.pay, b.nbits)
      { b with pay := p.1, nbits := p.2 }
  else if mode = 4 then
    modBlk s h fun b =>
      let b := if bad || irregular t then { b with raws := b.raws ++ [u] } else sumTile b t
      { b with list := b.list ++ [u.hdr] }
  else if bad || mustEscape t || (usedSlots t).isEmpty then modBlk s h fun b => { codeEscape b u with list := b.list ++ [u.hdr] }
  else if ((stream s h).blk.map fun b => selfCheck b (faultyCode b t flip) t) = some false then
    let s := sts (inc s (PK_SELF_FAIL_CNT.COUNT h)) (PK_STAT.SELF_FAIL h)
    modBlk (pkPost s h 0x0F02 (tileGroup t) (tileSeq t)) h fun b => { codeEscape b t with list := b.list ++ [t.hdr] }
  else modBlk s h fun b => { faultyCode b t flip with list := b.list ++ [t.hdr] }

def owedDrops (s : State) (h code : Nat) : Nat := sget (fun _ => 0) (stream s h).drops code

def setOwed (s : State) (h code n : Nat) : State :=
  setStream s h { stream s h with drops := sset (fun _ => 0) (stream s h).drops code n }

/-- A live tile is dropped under DROP = 1 (R244); what its reason-0x1 gap records reported is to be covered again (R123). -/
def dropLive (s : State) (h code : Nat) (t : Tile) : State :=
  let s := sts (inc (countIn64 s h) (PK_DROP_CNT.COUNT h)) (PK_STAT.DROPPED h)
  setOwed s h code (owedDrops s h code + 1 + owed t)

/-- The worst case of a tile in a mode: payload bits and list entries (R240). -/
def worstTile (mode : Nat) : Nat × Nat := if mode = 0 then (512, 0) else if mode = 4 then (3584, 1) else (451, 1)

/-- A live tile or gap entry of a lane group accounts for its tiles up to a SEQ (R378). -/
def noteLive (s : State) (h : Nat) (rep : Bool) (code seq : Nat) : State :=
  if rep then s else modBlk s h fun b => { b with seqs := sset (fun _ => none) b.seqs code (some (seq % 2 ^ 16)) }

/-- The veto-drop entries held for a group code are placed, oldest first, each where it has room: 1 when none is left, else what
`room` answered (R244). -/
def placeHeld (h code : Nat) : List (Nat × W64) → State → Nat × State
  | [], s => (1, s)
  | x :: r, s =>
    if x.1 ≠ code then placeHeld h code r s
    else match room s h false 0 1 with
      | (1, s) => placeHeld h code r (listEntry (setStream s h { stream s h with held := removeOne x (stream s h).held }) h x.2)
      | (n, s) => (n, s)

/-- What is held for the group code of a live item goes ahead of it. -/
def heldFirst (s : State) (h : Nat) (rep : Bool) (code : Nat) : Nat × State :=
  if rep then (1, s) else placeHeld h code (stream s h).held s

/-- Room for an item behind what is held for its group code. -/
def roomAfterHeld (s : State) (h : Nat) (rep : Bool) (code bits n : Nat) : Nat × State :=
  match heldFirst s h rep code with
  | (1, s) => room s h rep bits n
  | (k, s) => (k, s)

/-- A tile that is not a window tile: the held veto-drop entries and the drop entry of its group code go ahead of it (R244).
The answer says whether the item is taken. -/
def takeTile (s : State) (h : Nat) (rep : Bool) (code : Nat) (t : Tile) (flip : Nat) : Bool × State :=
  let owe := if rep then 0 else owedDrops s h code
  let (bits, n) := worstTile (pkMode s h)
  match roomAfterHeld s h rep code bits (n + if owe = 0 then 0 else 1) with
  | (1, s) =>
    let s := if owe = 0 then s else listEntry (setOwed s h code 0) h (gapEntry 6 code (tileSeq t) owe)
    (true, noteLive (putTile (countIn64 s h) h t flip) h rep code (tileSeq t + 1))
  | (0, s) => if rep || !flag s (PK_CFG.DROP h) then (false, noBuf s h) else (true, dropLive s h code t)
  | (_, s) => (false, s)

/-- A gap entry at its place in stream order (R243), behind the entries held for its group code; a live veto drop without a buffer
is held under DROP = 1 (R244). -/
def takeGap (s : State) (h : Nat) (rep : Bool) (code : Nat) (w : W64) : Bool × State :=
  match roomAfterHeld s h rep code 0 1 with
  | (1, s) => (true, noteLive (listEntry s h w) h rep code (wbits w 47 32))
  | (0, s) =>
    if rep || !flag s (PK_CFG.DROP h) then (false, noBuf s h)
    else (true, setStream s h { stream s h with held := (stream s h).held ++ [(code, w)] })
  | (_, s) => (false, s)

/-! ## Window blocks (R242, R228) -/

/-- 128 bytes are set aside at the next 64-byte boundary with the next BLOCK_SEQ: none without a buffer. -/
def placeAside (s : State) (h : Nat) (rep : Bool) (code num part : Nat) : Option (Aside × State) :=
  (ensureBuf s h).map fun s =>
    let (seq, s) := nextSeq s h
    let (id, off) := match curBuf s h with
      | some b => (b.id, b.used)
      | none => (0, 0)
    let S := stream s h
    let s := setStream s h { S with lastLive := !rep, bufs := mapLast (fun x =>
      { x with used := off + 128, pending := x.pending + 1, blocks := x.blocks ++ [(seq, blkFlags rep false false)] }) S.bufs }
    ({ rep := rep, code := code, num := num, part := part, buf := id, off := off, seq := seq, refT := (t64 s).toNat }, s)

/-- A window block is written: the window tile unchanged, or a gap entry for a fill that is lost; its buffer's completion
waits for it no longer. -/
def writeAside (s : State) (h : Nat) (a : Aside) (t : Option Tile) : State :=
  let addr := match (stream s h).bufs.find? fun b => b.id = a.buf with
    | some b => b.addr + a.off
    | none => 0
  let bad := match t with
    | some t => failsCheck s t
    | none => false
  let (pay, list, ref, s) := match t with
    | some t =>
      let s := if bad then noteFail (countIn64 s h) h t false else countIn64 s h
      (tileBytes (if bad then markCorrupt t else t), [], (t64 s).toNat, s)
    | none => ([], [gapEntry 4 a.code 0 1], a.refT, s)
  let s := putBlock s h addr (blockBytes s h 0 0 false bad a.rep a.seq ref pay list)
  let S := stream s h
  completeAll (setStream s h { S with bufs := S.bufs.map fun b =>
    if b.id = a.buf then { b with pending := b.pending - 1, lastAt := some s.now,
                                  blocks := b.blocks.map fun x => if x.1 = a.seq then (x.1, blkFlags a.rep bad false) else x }
    else b }) h

/-- A window tile that is already in place, or whose reservation was never taken, is written at once; a live one without a
buffer waits, or is dropped as a tile under DROP = 1 (R242, R244). -/
def windowNow (s : State) (h : Nat) (rep : Bool) (code num part : Nat) (t : Tile) : Bool × State :=
  let s := closeBlk s h
  match placeAside s h rep code num part with
  | some (a, s) => (true, writeAside s h a (some t))
  | none => if rep || !flag s (PK_CFG.DROP h) then (false, noBuf s h) else (true, dropLive s h code t)

/-- A reservation closes the open block and sets a window block aside (R242, R244).  What is owed or held for its group code goes ahead
of the group's next data tile or gap entry, and not of it or of a window tile (DESIGN CHOICE, log 19). -/
def takeReservation (s : State) (h : Nat) (rep : Bool) (code num part : Nat) : Bool × State :=
  let s := closeBlk s h
  match placeAside s h rep code num part with
  | some (a, s) => (true, setStream s h { stream s h with asides := (stream s h).asides ++ [a] })
  | none =>
    if rep || !flag s (PK_CFG.DROP h) then (false, noBuf s h)
    else (true, setStream s h { stream s h with rdrop := (stream s h).rdrop ++ [(code, num, part)] })

/-- The window block set aside for a fill. -/
def asideFor (s : State) (h : Nat) (rep : Bool) (code num part : Nat) : Option Aside :=
  (stream s h).asides.find? fun a => a.rep = rep && a.code = code && a.num = num && a.part = part

/-- A fill (R242, R244): it completes its window block; of a dropped reservation it is dropped; otherwise it is written at
once. A fill that is lost and has no block is nothing. -/
def takeFill (s : State) (h : Nat) (rep : Bool) (code num part : Nat) (t : Option Tile) : Bool × State :=
  match asideFor s h rep code num part with
  | some a =>
    let S := stream s h
    (true, writeAside (setStream s h { S with asides := S.asides.filter fun x => x.seq ≠ a.seq }) h a t)
  | none =>
    match t with
    | none => (true, s)
    | some t =>
      let S := stream s h
      if rep = false ∧ S.rdrop.contains (code, num, part) then
        (true, dropLive (setStream s h { S with rdrop := removeOne (code, num, part) S.rdrop }) h code t)
      else windowNow s h rep code num part t

/-! ## PACKER_TAKE_ITEM (R239, R245) -/

/-- The live item is the fill of a window block already set aside: it needs no buffer and no turn (R244). -/
def liveFill (s : State) (h : Nat) : Bool :=
  match (stream s h).live with
  | some ⟨code, .fill num part _⟩ => (asideFor s h false code num part).isSome
  | _ => false

/-- Live or replay items may be taken now: the open block's kind goes on while both wait, then the other's turn comes, live
first (R245).  While a replay whose turn it is waits for a free buffer, live items are taken under DROP = 1, to be dropped (R244). -/
def mayTake (s : State) (h : Nat) (rep : Bool) : Bool :=
  let S := stream s h
  running s h && ringKind s h = 0 && !exportOff s h && (!rep || flag s (PK_CFG.EN h)) &&
  (if S.live.isNone || S.rep.isEmpty || (!rep && liveFill s h) then true
   else match S.blk with
     | some b => b.rep == rep
     | none => S.lastLive == rep || (!rep && flag s (PK_CFG.DROP h) && (ensureBuf s h).isNone))

/-- The live entry that waits. -/
def takeLive (s : State) (h : Nat) (x : Inbound) (flip : Nat) : Bool × State :=
  let (ok, s) := match x.item with
    | .tile t _ => takeTile s h false x.code t flip
    | .reservation num part => takeReservation s h false x.code num part
    | .fill num part t => takeFill s h false x.code num part (some t)
    | .vetoDrop count seq => takeGap s h false x.code (gapEntry 6 x.code seq count)
  (ok, if ok then setStream s h { stream s h with live := none } else s)

/-- A replay item. -/
def takeReplay (s : State) (h : Nat) (x : RItem) (flip : Nat) : Bool × State :=
  match x with
  | .gap reason code seq count => takeGap s h true code (gapEntry reason code seq count)
  | .tile code t => if tileWindow t then windowNow s h true code 0 0 t else takeTile s h true code t flip
  | .reservation code num part => takeReservation s h true code num part
  | .fill code num part t => takeFill s h true code num part t

/-- The first replay item that completes a window block already set aside: it needs no buffer and waits for none. -/
def readyFill (s : State) (h : Nat) : List RItem → Option RItem
  | [] => none
  | x :: r => match x with
    | .fill code num part _ => if (asideFor s h true code num part).isSome then some x else readyFill s h r
    | _ => readyFill s h r

/-- The stream takes its next live or replay item, if it may; the answer says whether it took one. -/
def takeItem (s : State) (h : Nat) (rep : Bool) (flip : Nat) : Bool × State :=
  let S := stream s h
  if rep then
    match readyFill s h S.rep with
    | some x => if exportOff s h then (false, s) else takeReplay (setStream s h { S with rep := removeOne x S.rep }) h x flip
    | none =>
      match S.rep with
      | [] => (false, s)
      | x :: _ =>
        if mayTake s h true = false then (false, s)
        else
          let (ok, s) := takeReplay s h x flip
          (ok, if ok then setStream s h { stream s h with rep := removeOne x (stream s h).rep } else s)
  else match S.live with
    | none => (false, s)
    | some x => if mayTake s h false then takeLive s h x flip else (false, s)

/-! ## Encoders (R239) -/

def encoder (s : State) (k : Nat) : Encoder := sget (fun _ => {}) s.host.encs k

def setEncoder (s : State) (k : Nat) (x : Encoder) : State :=
  { s with host := { s.host with encs := sset (fun _ => {}) s.host.encs k x } }

/-- The stream has an item that it may take. -/
def streamReady (s : State) (h : Nat) : Bool :=
  ((stream s h).live.isSome && mayTake s h false) || (!(stream s h).rep.isEmpty && mayTake s h true) ||
  ((readyFill s h (stream s h).rep).isSome && !exportOff s h)

/-- The stream that encoder k serves next: stream h runs on encoder h mod 8, and the ready ones take turns. -/
def encoderTurn (s : State) (k : Nat) : Option Nat :=
  ((List.range 8).map fun i => k + 8 * (((encoder s k).rr / 8 + i) % 8)).find? (streamReady s)

/-- PACKER_TAKE_ITEM (R239): the stream's encoder serves it, in its turn and with one item in an FCLK cycle; a stream that waits for
a buffer gives its turn up. -/
def packerTakeItem (s : State) (h : Nat) (rep : Bool) (flip : Nat) : State :=
  let k := h % 8
  let x := encoder s k
  if x.takeCyc = some (fclk s) ∨ encoderTurn s k ≠ some h then s
  else
    let (ok, s) := takeItem s h rep flip
    setEncoder s k { takeCyc := if ok then some (fclk s) else x.takeCyc, rr := (h + 8) % 64 }

def execPackerTakeItem (h : Nat) (rep : Bool) (flip : Nat) (s : State) : Host.Outcome State Fault Refusal :=
  .next (packerTakeItem s h rep flip)

/-! ## Time limits (R240, R258, R275) -/

/-- PK_FLUSH_EXPIRY (R240): FLUSH µs after the block's first item; 0 acts as 1.  A block that closed while the stream could not write is
written with it. -/
def pkFlushExpiry (s : State) (h : Nat) : State :=
  match (stream s h).blk with
  | some b => if flushDue s h b then closeBlk s h else s
  | none => s

def execPkFlushExpiry (h : Nat) (s : State) : Host.Outcome State Fault Refusal := .next (pkFlushExpiry s h)

/-- PK_RATIO_UPDATE (R258): at the end of each 1 ms.  The quotient is truncated, and held at 0xFFFF where it does not fit (DESIGN CHOICE,
log 19). -/
def pkRatioUpdate (s : State) (h : Nat) : State :=
  let S := stream s h
  if h < 64 ∧ S.ratioAt + msTicks 1 ≤ s.now then
    let v := if S.outBytes = 0 then 0 else min 0xFFFF (S.inBytes * 256 / S.outBytes)
    setFld (setStream s h { S with inBytes := 0, outBytes := 0, ratioAt := s.now }) (PK_RATIO.RATIO h) v
  else s

def execPkRatioUpdate (h : Nat) (s : State) : Host.Outcome State Fault Refusal := .next (pkRatioUpdate s h)

/-- BUFFER_IDLE_TIMEOUT (R275): 100 µs after the latest block was written into the buffer, with none open; PARTIAL. -/
def bufferIdleTimeout (s : State) (h : Nat) : State :=
  match curBuf s h, (stream s h).blk with
  | some b, none => match b.lastAt with
    | some t => if s.now < t + usTicks 100 ∨ exportOff s h then s else closeBuf s h true
    | none => s
  | _, _ => s

def execBufferIdleTimeout (h : Nat) (s : State) : Host.Outcome State Fault Refusal := .next (bufferIdleTimeout s h)

/-! ## Fills that cannot come, and the end of a ring (R228, R259, R265) -/

/-- The fill of a window block set aside has been handed to the stream. -/
def fillInHand (S : Stream) (a : Aside) : Bool :=
  match S.live with
  | some ⟨code, .fill num part _⟩ => code = a.code && num = a.num && part = a.part
  | _ => false

/-- Live window blocks whose fills cannot come: each is written with a gap entry, where the stream may write. -/
def loseAsides (s : State) (h : Nat) (gone : Aside → Bool) : State :=
  if exportOff s h then s
  else ((stream s h).asides.filter fun a => !a.rep && gone a && !fillInHand (stream s h) a).foldl (fun s a =>
    let (_, s) := takeFill s h false a.code a.num a.part none
    s) s

/-- RING_STOPPED (R265): the ring ends as its kind states. A command ring waits for its command, an export ring for the fills
that replays still owe it. -/
def ringStopped (s : State) (r : Nat) : State :=
  if stopping s r = false ∨ (fnHost s (ownHostRing s r)).d3hot then s
  else match ringKind s r with
    | 0 =>
      let (_, s) := takeItem s r false 0
      let s := loseAsides (closeBlk s r) r fun _ => true
      if (stream s r).asides.isEmpty ∨ pairMuted s then ringEnd (closeBuf s r true) r else s
    | 1 => if (hring s r).cmd.isSome then s else ringEnd s r
    | _ => ringEnd s r

def execRingStopped (r : Nat) (s : State) : Host.Outcome State Fault Refusal := .next (ringStopped s r)

/-- The window blocks of every stream whose source no longer feeds it, or whose fill a flush has discarded (R228, R242, R403). -/
def loseStrayAsides (s : State) : State :=
  forEach (List.range 64) s fun s h => loseAsides s h fun a => !fillQueued s (.stream h) a.code a.num a.part

/-- A stream's committed set comes into force: a change closes the open block (R259). -/
def applyPk (s : State) (h : Nat) : State :=
  let key (s : State) : List W32 := (unitOffs (.pk h)).map (reg s)
  let t := applyRegs s (.pk h)
  if key t = key s then t else loseStrayAsides (rebindAll (applyRegs (shutBlk s h) (.pk h)))

/-! ## COMPLETION_SLOT_WRITE (R269, R273) -/

/-- The writes of entries from the one at address `at_` on failed: the host's bytes there stand as before, and the device index
covers them no longer.  None where no such entry was written. -/
def undoEntries (at_ : Nat) : List (Nat × List Byte) → State → Nat → Option State
  | [], _, _ => none
  | (a, old) :: l, s, r =>
    let s := setFld (hostWrite s a old) (HI_RING_IDX.DEV r) (devIdx s r + 2 ^ 16 - 1)
    if a = at_ then some s else undoEntries at_ l s r

/-- COMPLETION_SLOT_WRITE (R269): at most once per 250 ns for each ring.  `fail` is the host address of a write that failed: that of
the slot, or of an entry or STATUS word that the new index covers (R273). -/
def completionSlotWrite (s : State) (r : Nat) (fail : Option Nat) : State :=
  let x := hring s r
  let f := ownHostRing s r
  let at_ := cbBase s f + 8 * r
  match x.slotDue with
  | none => s
  | some d =>
    let soon : Bool := match x.slotAt with
      | some t => decide (s.now < t + nsTicks 250)
      | none => false
    if soon ∨ (fnHost s f).d3hot then s
    else match fail.bind fun a => if a = at_ then some (sts s (HI_FN_STAT.DMA_ERR f), a) else (undoEntries a x.unack s r).map (·, a) with
      | some (s, a) => dmaError s r a
      | none =>
        let s := hostWrite s at_ (leBytes d 8)
        let s := if x.starting then setFlag s (HI_RING_STAT.RUNNING r) true else s
        let s := setHring s r { x with slotDue := none, slotAt := some s.now, starting := false, irqDue := false,
                                       raise := x.raise || x.irqDue, unack := [] }
        if x.starting ∧ ringKind s r = 0 then loseStrayAsides (rebind s) else s

def execCompletionSlotWrite (r : Nat) (fail : Option Nat) (s : State) : Host.Outcome State Fault Refusal :=
  .next (completionSlotWrite s r fail)

end Sys2Proof.Machine
end

