-- ==== Sys2Proof/Machine/Frames.lean ====
section
/-! DEFINITION. Ethernet frames and PTP messages as the network-time service reads and forms them (15_network_time.md R301,
R305, R314). The byte layouts of IEEE 802.3, IPv4, IPv6, UDP and IEEE 1588-2019 are those standards' own; the manual names
them and does not repeat them (PRESUMED). -/

namespace Sys2Proof.Machine

/-! ## Bytes in network order -/

def byteAt (bs : List Byte) (i : Nat) : Nat := (bs.getD i 0).toNat

/-- `n` bytes from `i` on, most significant first. -/
def beAt (bs : List Byte) (i : Nat) : Nat → Nat
  | 0 => 0
  | n + 1 => byteAt bs i * 2 ^ (8 * n) + beAt bs (i + 1) n

/-- The low `n` bytes of a value, most significant first. -/
def beBytes (v : Nat) : Nat → List Byte
  | 0 => []
  | n + 1 => BitVec.ofNat 8 (v / 2 ^ (8 * n)) :: beBytes v n

/-- `bs` with the bytes from `i` on replaced by `xs`. -/
def putAt (bs : List Byte) (i : Nat) (xs : List Byte) : List Byte := bs.take i ++ xs ++ bs.drop (i + xs.length)

/-- The one's complement sum of 16-bit words, folded. -/
def onesSum : List Nat → Nat
  | [] => 0
  | w :: r =>
    let x := w + onesSum r
    if x < 65536 then x else x - 65535

/-- The 16-bit words of bytes, the last one padded with 0. -/
def words16 : List Byte → List Nat
  | a :: b :: r => (a.toNat * 256 + b.toNat) :: words16 r
  | [a] => [a.toNat * 256]
  | [] => []

/-! ## Where a PTP message lies in a frame -/

/-- A PTP message in a frame: its transport, the offsets of the message and of a UDP header, whether its destination address
is one of the supported ones, and the VLAN identifier of a tag. -/
structure PtpAt where
  transport : Nat         -- 0 layer 2, 1 UDP over IPv4, 2 UDP over IPv6
  off : Nat
  udp : Option Nat
  dstOk : Bool
  vid : Option Nat
  deriving DecidableEq, Repr

/-- A UDP header at `u`: PTP when its destination port is 319 or 320. -/
def udpPtp (bs : List Byte) (tr u : Nat) (dstOk : Bool) (vid : Option Nat) : Option PtpAt :=
  if beAt bs (u + 2) 2 = 319 ∨ beAt bs (u + 2) 2 = 320 then
    some { transport := tr, off := u + 8, udp := some u, dstOk := dstOk, vid := vid }
  else none

/-- The PTP message of a frame, if it carries one, on layer 2 or UDP, untagged or with one tag (R301). -/
def ptpIn (bs : List Byte) : Option PtpAt :=
  let tagged := beAt bs 12 2 = 0x8100
  let e := if tagged then 16 else 12
  let vid := if tagged then some (beAt bs 14 2 % 4096) else none
  let o := e + 2
  match beAt bs e 2 with
  | 0x88F7 => some { transport := 0, off := o, udp := none, dstOk := beAt bs 0 6 = 0x011B19000000, vid := vid }
  | 0x0800 =>
    if byteAt bs o / 16 = 4 ∧ byteAt bs (o + 9) = 17 then
      udpPtp bs 1 (o + 4 * (byteAt bs o % 16)) (beAt bs (o + 16) 4 = 0xE0000181) vid
    else none
  | 0x86DD =>
    if byteAt bs o / 16 = 6 ∧ byteAt bs (o + 6) = 17 then
      let d := beAt bs (o + 24) 16
      udpPtp bs 2 (o + 40) (d = 0xFF020000000000000000000000000181 || d = 0xFF0E0000000000000000000000000181) vid
    else none
  | _ => none

/-! ## Fields of the PTP header (IEEE 1588 clause 13.3) -/

def ptpType (bs : List Byte) (p : PtpAt) : Nat := byteAt bs p.off % 16
def ptpCorr (bs : List Byte) (p : PtpAt) : Int := signedOf 64 (beAt bs (p.off + 8) 8)
def ptpSource (bs : List Byte) (p : PtpAt) : List Byte := (bs.drop (p.off + 20)).take 10
def ptpSeq (bs : List Byte) (p : PtpAt) : Nat := beAt bs (p.off + 30) 2
def ptpLog (bs : List Byte) (p : PtpAt) : Int := signedOf 8 (byteAt bs (p.off + 33))
def ptpTwoStep (bs : List Byte) (p : PtpAt) : Bool := (byteAt bs (p.off + 6)).testBit 1

/-- The timestamp of a message body in units of 2^-16 ns: (S × 10^9 + N) × 2^16. -/
def ptpTime (bs : List Byte) (p : PtpAt) : Int :=
  Int.ofNat ((beAt bs (p.off + 34) 6 * 1000000000 + beAt bs (p.off + 40) 4) * 65536)

/-- The requestingPortIdentity of a Delay_Resp. -/
def ptpRequester (bs : List Byte) (p : PtpAt) : List Byte := (bs.drop (p.off + 44)).take 10

/-- Sync or Delay_Req: the messages whose residence time is corrected (R314). -/
def ptpEvent (bs : List Byte) (p : PtpAt) : Bool := ptpType bs p < 2

/-- A frame's size lies within 64 to 1,522 bytes with its FCS (R301). -/
def sizeOk (bs : List Byte) : Bool := 60 ≤ bs.length && bs.length ≤ 1518

/-- A message over UDP comes on the port of its class: event messages on 319, general ones on 320 (R301). -/
def portOk (bs : List Byte) (p : PtpAt) : Bool :=
  match p.udp with
  | some u => beAt bs (u + 2) 2 = (if ptpType bs p < 8 then 319 else 320)
  | none => true

/-- The message needs a feature that the table *Network-time support* does not list (R301). A Sync's interval lies outside
−7 to +4, the version is not 2, the type is none of Sync, Delay_Req, Follow_Up, Delay_Resp and Announce, the message is
unicast or from an alternate master, or a filter does not match. -/
def unsupported (s : State) (bs : List Byte) (p : PtpAt) : Bool :=
  let h := p.off
  let fl := byteAt bs (h + 6)
  !p.dstOk || !portOk bs p || byteAt bs (h + 1) % 16 ≠ 2 || 1 < byteAt bs (h + 1) / 16 ||
  !([0, 1, 8, 9, 11].contains (ptpType bs p)) || fl.testBit 0 || fl.testBit 2 ||
  byteAt bs (h + 4) ≠ fld s TP_CFG.DOMAIN || byteAt bs h / 16 ≠ fld s TP_CFG.MAJOR_SDO ||
  byteAt bs (h + 5) ≠ fld s TP_CFG.MINOR_SDO ||
  (ptpType bs p = 0 && (ptpLog bs p < -7 || 4 < ptpLog bs p))

/-- The port's tag rule (EP_CFG.VLAN_EN): a tag with VID, or no tag. -/
def vlanOk (s : State) (port : Nat) (p : PtpAt) : Bool :=
  if flag s (EP_CFG.VLAN_EN port) then p.vid = some (fld s (EP_CFG.VID port)) else p.vid = none

/-! ## The device's Delay_Req (R305) -/

/-- clockIdentity of the device, eight bytes. -/
def clockId (s : State) : List Byte := beBytes (pair64 s TP_CLOCK_ID_LO.off TP_CLOCK_ID_HI.off) 8

/-- portIdentity of port p. -/
def portId (s : State) (p : Nat) : List Byte := clockId s ++ beBytes (p + 1) 2

/-- The PTP message of a Delay_Req: one-step, minorVersionPTP 1, originTimestamp as given in ns of master time. -/
def dreqMessage (s : State) (p seq origin : Nat) : List Byte :=
  beBytes (fld s TP_CFG.MAJOR_SDO * 16 + 1) 1 ++ beBytes 0x12 1 ++ beBytes 44 2 ++ beBytes (fld s TP_CFG.DOMAIN) 1 ++
  beBytes (fld s TP_CFG.MINOR_SDO) 1 ++ beBytes 0 14 ++ portId s p ++ beBytes seq 2 ++ beBytes 1 1 ++ beBytes 0x7F 1 ++
  beBytes (origin / 1000000000) 6 ++ beBytes (origin % 1000000000) 4

/-- Source MAC address of the port. -/
def portMac (s : State) (p : Nat) : List Byte :=
  beBytes (fld s (EP_MAC_HI.ADDR p) % 65536) 2 ++ beBytes (fld s (EP_MAC_LO.ADDR p)) 4

/-- Source IPv6 address of the port. -/
def portIp6 (s : State) (p : Nat) : List Byte :=
  beBytes (fld s (EP_IP6_0.ADDR p)) 4 ++ beBytes (fld s (EP_IP6_1.ADDR p)) 4 ++ beBytes (fld s (EP_IP6_2.ADDR p)) 4 ++
  beBytes (fld s (EP_IP6_3.ADDR p)) 4

/-- The tag of the port's own frames. -/
def portTag (s : State) (p : Nat) : List Byte :=
  if flag s (EP_CFG.VLAN_EN p) then beBytes 0x8100 2 ++ beBytes (fld s (EP_CFG.PCP p) * 8192 + fld s (EP_CFG.VID p)) 2 else []

/-- The UDP part of an own frame, with the checksum over the pseudo header `ph`. -/
def udpOf (ph msg : List Byte) : List Byte :=
  let n := 8 + msg.length
  let c := 65535 - onesSum (words16 (ph ++ beBytes 17 2 ++ beBytes n 2 ++ beBytes 319 2 ++ beBytes 319 2 ++ beBytes n 2 ++ msg))
  beBytes 319 2 ++ beBytes 319 2 ++ beBytes n 2 ++ beBytes (if c = 0 then 65535 else c) 2 ++ msg

/-- The Delay_Req frame over the transport of the parent's last Sync, padded to 60 bytes. `head` is that Sync's frame up to
its PTP message. -/
def dreqFrame (s : State) (p : Nat) (head : List Byte) (seq origin : Nat) : List Byte :=
  let msg := dreqMessage s p seq origin
  let mac := portMac s p ++ portTag s p
  let f := match ptpIn (head ++ List.replicate 64 0) with
    | none => []
    | some q =>
      if q.transport = 0 then beBytes 0x011B19000000 6 ++ mac ++ beBytes 0x88F7 2 ++ msg
      else if q.transport = 1 then
        let ip := beBytes 0x4500 2 ++ beBytes (28 + msg.length) 2 ++ beBytes 0 4 ++ beBytes 0x0111 2
        let addr := beBytes (fld s (EP_IP4.ADDR p)) 4 ++ beBytes 0xE0000181 4
        beBytes 0x01005E000181 6 ++ mac ++ beBytes 0x0800 2 ++ ip ++ beBytes (65535 - onesSum (words16 (ip ++ addr))) 2 ++
          addr ++ udpOf addr msg
      else
        let dst := (head.drop (q.off - 24)).take 16
        beBytes 0x333300000181 6 ++ mac ++ beBytes 0x86DD 2 ++ beBytes 0x60000000 4 ++ beBytes (8 + msg.length) 2 ++
          beBytes 0x1101 2 ++ portIp6 s p ++ dst ++ udpOf (portIp6 s p ++ dst) msg
  f ++ List.replicate (60 - f.length) 0

/-! ## Residence-time correction (R314) -/

/-- correctionField with a residence time added, held at its greatest value. -/
def addCorr (c r : Int) : Int := min (c + r) (2 ^ 63 - 1)

/-- The UDP checksum after some words change, by RFC 1624: HC' = ~(~HC + ~m + m'). -/
def checksumAfter (hc : Nat) (old new : List Byte) : Nat :=
  65535 - onesSum ((65535 - hc) :: ((words16 old).map fun w => 65535 - w) ++ words16 new)

/-- A forwarded Sync or Delay_Req with `r` units of 2^-16 ns added to its correctionField; the UDP checksum follows, but
for an IPv4 checksum of 0. -/
def corrected (bs : List Byte) (r : Int) : List Byte :=
  match ptpIn bs with
  | none => bs
  | some p =>
    let old := (bs.drop (p.off + 8)).take 8
    let new := beBytes (wrapInt 64 (addCorr (ptpCorr bs p) r)) 8
    let out := putAt bs (p.off + 8) new
    match p.udp with
    | none => out
    | some u =>
      let hc := beAt bs (u + 6) 2
      if p.transport = 1 ∧ hc = 0 then out else putAt out (u + 6) (beBytes (checksumAfter hc old new) 2)

end Sys2Proof.Machine
end

