-- ==== Sys2Proof/Machine/NetTime.lean ====
section
/-! DEFINITION. The network-time service (15_network_time.md R301 to R313): receipt of PTP messages, the servo and its
states, discontinuities, path changes, anchors and the choice of parent. -/

namespace Sys2Proof.Machine

def setTp (s : State) (x : NetTime) : State := { s with tp := x }

/-- A notice of this chapter, under TP_CFG.NOTICE_EN. -/
def tpPost (s : State) (ty source aux data : Nat) : State :=
  if flag s TP_CFG.NOTICE_EN then post s ty source aux data else s

/-! ## Receipt (R301, R302) -/

/-- Port p is enabled and its link is up. -/
def portUp (s : State) (p : Nat) : Bool := p < 2 && flag s (EP_CFG.EN p) && flag s (EP_STAT.LINK p)

/-- The servo runs: TP_CFG.EN, on a device that no pair holds as a standby (R366). -/
def servoOn (s : State) : Bool := flag s TP_CFG.EN && (fld s PR_STAT.ROLE = 0 || fld s PR_STAT.ROLE = 3)

def slavePort (s : State) : Nat := fld s TP_CFG.SLAVE_PORT

/-- A received frame is counted, and its error with it (EP_RX_CNT, EP_RX_ERR_CNT, FCS_ERR). -/
def rxCount (s : State) (fr : Frame) : State :=
  let s := inc s (EP_RX_CNT.COUNT fr.port)
  let s := if fr.fcsOk && sizeOk fr.bytes then s else inc s (EP_RX_ERR_CNT.COUNT fr.port)
  if fr.fcsOk then s else sts s (EP_STAT.FCS_ERR fr.port)

/-- The PTP message of a good frame on an enabled port. -/
def goodPtp (s : State) (fr : Frame) : Option PtpAt :=
  if portUp s fr.port && fr.fcsOk && sizeOk fr.bytes then ptpIn fr.bytes else none

/-- A message that the servo accepts as far as port, transport, tag and filters go (R301). -/
def forServo (s : State) (fr : Frame) : Option PtpAt :=
  match goodPtp s fr with
  | some p =>
    if servoOn s && fr.port = slavePort s && fbit s (EP_CFG.TRANSPORT fr.port) p.transport && vlanOk s fr.port p &&
       !unsupported s fr.bytes p then some p else none
  | none => none

/-- The parent that BMCA = 0 configures (TP_PARENT_CFG0 to TP_PARENT_CFG2). -/
def configuredParent (s : State) : List Byte :=
  beBytes (fld s TP_PARENT_CFG0.ID) 4 ++ beBytes (fld s TP_PARENT_CFG1.ID) 4 ++ beBytes (fld s TP_PARENT_CFG2.ID % 65536) 2

/-- A message of type `ty` of the parent, for the servo. -/
def fromParent (s : State) (fr : Frame) (ty : Nat) : Option PtpAt :=
  match forServo s fr with
  | some p => if ptpType fr.bytes p = ty ∧ s.tp.parent = some (ptpSource fr.bytes p) then some p else none
  | none => none

/-- The frame carries a message that the transparent clock forwards (R314). -/
def forwardable (s : State) (fr : Frame) : Bool :=
  flag s TP_CFG.TC_EN && (match goodPtp s fr with | some p => p.dstOk | none => false)

/-- A message of type `ty` that needs an unsupported feature is discarded and counted (R301). -/
def discard (s : State) (fr : Frame) : State :=
  let s := if forwardable s fr then s else rxCount s fr
  inc s TP_DISC_CNT.COUNT

def discardable (s : State) (fr : Frame) (ty : Nat) : Bool :=
  match goodPtp s fr with
  | some p => ptpType fr.bytes p = ty && unsupported s fr.bytes p
  | none => false

/-! ## Units and mappings (R303, R312) -/

/-- A threshold given in ns, 0 acting as 1, in units of 2^-16 ns. -/
def nsUnits (n : Nat) : Int := Int.ofNat (max 1 n * 65536)

/-- A field of TP_SERVO, TP_THR or TP_QUAR as the servo uses it: that of its last accepted Sync (R319). -/
def usedFld (s : State) (x : Fld) : Nat := bitsOf (sget regReset s.tp.used x.off).toNat x.msb x.lsb

/-- The servo takes over the registers in force (R319). -/
def takeUsed (s : State) : State :=
  setTp s { s.tp with used := [TP_SERVO.off, TP_THR.off, TP_QUAR.off].foldl (fun m o => sset regReset m o (reg s o)) s.tp.used }

def stepThr (s : State) : Int := nsUnits (usedFld s TP_THR.STEP_THR)
def lockThr (s : State) : Int := nsUnits (usedFld s TP_SERVO.LOCK_THR)

/-- PATH_THR, in units of 2^-16 ns. -/
def pathThr (s : State) : Int := Int.ofNat (max 1 (usedFld s TP_THR.PATH_THR) * 4096)

def asym (s : State) : Int := sfld s TP_ASYM.A

def quarLen (s : State) : Nat := max 1 (usedFld s TP_QUAR.QUAR)

/-- A value in units of 1/16 ns. -/
def sixteenths (x : Int) : Int := x.fdiv 4096

/-- A value held within `w` bits, two's complement. -/
def satSigned (w : Nat) (x : Int) : Nat := wrapInt w (max (-(2 ^ (w - 1))) (min x (2 ^ (w - 1) - 1)))

def anchorAt (s : State) (k : Nat) : Option Anchor := sget (fun _ => none) s.tp.anchors k

def latestAnchor (s : State) : Option Anchor :=
  if flag s TP_STAT.ANCHORED then anchorAt s (fld s TP_ANCH_STAT.LATEST) else none

/-- MT_a in units of 2^-16 ns. -/
def Anchor.mt (a : Anchor) : Int := Int.ofNat ((a.sec * 1000000000 + a.ns) * 65536 + a.frac)

/-- The master time of T = x under an anchor (R313). -/
def Anchor.at_ (a : Anchor) (x : Int) : Int := a.mt + (x - Int.ofNat a.ta.toNat) * 40

/-- MT under the latest anchor. -/
def anchorMT (s : State) (x : Int) : Option Int := (latestAnchor s).map fun a => a.at_ x

/-- MT(x): the provisional mapping while one is in use, else the latest anchor (R303, R307). -/
def mtOf (s : State) (x : Int) : Option Int :=
  match s.tp.prov with
  | some (t, m) => some (m + (x - t) * 40)
  | none => anchorMT s x

/-- D (R303): the mean of the last 2^DFILT samples, or of those present. -/
def meanFloor (xs : List Int) : Int := (xs.foldl (· + ·) 0).fdiv (Int.ofNat xs.length)

def delayD (s : State) : Option Int :=
  match s.tp.samples.take (2 ^ min 6 (usedFld s TP_SERVO.DFILT)) with
  | [] => none
  | x :: r => some (meanFloor (x :: r))

/-- TP_DELAY follows D. -/
def showDelay (s : State) : State :=
  match delayD s with
  | some d => setFld s TP_DELAY.VALUE (min (sixteenths d).toNat (2 ^ 32 - 1))
  | none => s

/-! ## States (R306) -/

def servoState (s : State) : Nat := fld s TP_STAT.STATE

/-- Each change of state posts notice 0x0502. -/
def setServo (s : State) (st : Nat) : State :=
  let old := servoState s
  if old = st then s else tpPost (setFld s TP_STAT.STATE st) 0x0502 0 st old

/-- ACQUIRING begins anew: ADJ, i and the anchors stay (R307, R308). -/
def servoAcquire (s : State) : State :=
  setServo (setTp s { s.tp with freq := none, freqDone := false, prov := none, lockRun := 0, acq := true, td := none,
                                quar := [], pathQ := none }) 2

/-- The conditions of R306 that hold the servo in HOLDOVER, the Sync loss apart. -/
def mustHold (s : State) : Bool :=
  !flag s (EP_STAT.LINK (slavePort s)) || (!flag s PL_CTRL.RATE_SRC && flag s TP_STAT.ANCHORED)

/-- HOLDOVER; `lost` for missed Syncs or link down. -/
def holdover (s : State) (lost : Bool) : State :=
  let s := if lost then sts s TP_STAT.SYNC_LOST else s
  setServo (setTp s { s.tp with td := none, quar := [], pathQ := none, pend := none }) 6

/-- While RATE_SRC = 0, the servo never leaves ACQUIRING before anchor 0. -/
def maySlip (s : State) : Bool :=
  let st := servoState s
  (st = 2 && (flag s PL_CTRL.RATE_SRC || flag s TP_STAT.ANCHORED)) || st = 3 || st = 4 || st = 5

/-- PL_CTRL.RATE_SRC = 0 after anchor 0 puts the servo in HOLDOVER. -/
def rateSrcCheck (s : State) : State :=
  if maySlip s ∧ flag s TP_STAT.ANCHORED ∧ flag s PL_CTRL.RATE_SRC = false then holdover s false else s

/-! ## PPS_OUT's instants (R317) -/

/-- The number of the last due instant at or before T. -/
def ppsIndex (s : State) : Option Int :=
  if flag s TP_PPS_CFG.SRC then
    some (Int.ofNat (tNow s / max (2 ^ 20) (pair64 s TP_PPS_PERIOD_LO.off TP_PPS_PERIOD_HI.off)))
  else (anchorMT s (Int.ofNat (tNow s))).map fun m => m.fdiv (1000000000 * 65536)

/-- Due instants count from now on. -/
def ppsRestart (s : State) : State := setTp s { s.tp with ppsSeen := (ppsIndex s).getD 0 }

/-! ## Anchors (R312) -/

/-- Anchor `k` is entered, its marker placed and its notice posted; LATEST, SEQ and the count follow. -/
def putAnchor (s : State) (k : Nat) (a : Anchor) : State :=
  let s := setTp s { s.tp with anchors := sset (fun _ => none) s.tp.anchors k (some a) }
  let s := setFld (bump s TP_ANCH_STAT.SEQ) TP_ANCH_STAT.LATEST k
  let s := setFlag (inc s TP_ANCHOR_CNT.COUNT) TP_STAT.ANCHORED true
  let s := anchorMark s (markWord 1 k a.ta.toNat)
  let s := if flag s TP_CFG.NOTICE_EN then
      postAt s (BitVec.ofNat 64 a.ta.toNat) 0x0501 k a.reason
        (BitVec.ofNat 128 (a.sec % 2 ^ 64 + a.ns * 2 ^ 64 + a.frac * 2 ^ 96))
    else s
  if flag s TP_PPS_CFG.SRC then s else ppsRestart s

/-- The next anchor's index. -/
def nextAnchor (s : State) : Nat := if flag s TP_STAT.ANCHORED then (fld s TP_ANCH_STAT.LATEST + 1) % 256 else 0

/-- An anchor is issued at T_a with master time `mt`; the partner of an active device gets it as an event (R368). -/
def issueAnchor (s : State) (ta mt : Int) (reason : Nat) : State :=
  let m := mt.toNat
  let a : Anchor := { ta := BitVec.ofInt 104 ta, sec := m / 65536 / 1000000000, ns := m / 65536 % 1000000000,
                      frac := m % 65536, adj := s.pl.adj, reason := reason }
  let k := nextAnchor s
  putAnchor (pairSend s (.anchor k a.ta a.sec a.ns a.frac a.adj reason)) k a

/-! ## Rate (R307) -/

/-- ADJ held within 48 bits; R93 clamps it when it is applied. -/
def adjOf (x : Int) : BitVec 48 := BitVec.ofInt 48 (max (-(2 ^ 47)) (min x (2 ^ 47 - 1)))

/-- The new ADJ of a Sync with offset `ok`, `n` PCLK edges after the previous accepted one. -/
def issueRate (s : State) (ok : Int) (n : Nat) : State :=
  if n = 0 then s
  else
    let r := (-(ok * 2 ^ 40)).tdiv (40 * Int.ofNat n)
    let i := s.tp.i + r.fdiv (2 ^ usedFld s TP_SERVO.KI)
    servoIssue (setTp s { s.tp with i := i }) (adjOf (i + r.fdiv (2 ^ usedFld s TP_SERVO.KP)))

/-- The first two Syncs at least 2^40 ticks apart set i (R307). -/
def frequency (s : State) (y : SyncDone) : State :=
  if s.tp.freqDone then s
  else match s.tp.freq with
    | none => setTp s { s.tp with freq := some y }
    | some f =>
      if y.t2 - f.t2 < 2 ^ 40 ∨ y.edge ≤ f.edge then s
      else
        setTp s { s.tp with
          freqDone := true
          i := ((y.m1 - f.m1) * 2 ^ 40).tdiv (40 * Int.ofNat (y.edge - f.edge)) - 2 ^ 50 }

/-! ## Quarantine (R309, R311) -/

/-- Insert into a rising list. -/
def insertInt (x : Int) : List Int → List Int
  | [] => [x]
  | y :: r => if x ≤ y then x :: y :: r else y :: insertInt x r

/-- The median, the lower middle value of an even number. -/
def medianLow (xs : List Int) : Int := (xs.foldr insertInt []).getD ((xs.length - 1) / 2) 0

/-- QUARANTINE begins: offsets are measured against the latest anchor (R309), before anchor 0 against the provisional mapping
(log 21). -/
def enterQuarantine (s : State) (td : Option Int) (q : List QOff) (path : Option (List Int)) : State :=
  setServo (setTp s { s.tp with td := td, quar := q, pathQ := path, prov := if flag s TP_STAT.ANCHORED then none else s.tp.prov }) 4

/-- The servo leaves the quarantine for LOCKED, or for HOLDOVER when R306 still requires it. -/
def leaveQuarantine (s : State) : State :=
  setServo (setTp s { s.tp with td := none, quar := [], pathQ := none, acq := false }) (if mustHold s then 6 else 3)

/-- The anchor of a confirmed discontinuity: T_a = T_d, MT_a = MT(T_d) − ō (R309). -/
def confirm (s : State) (reason : Nat) : State :=
  let o := medianLow (s.tp.quar.map (·.ok))
  match s.tp.td with
  | some td =>
    match anchorMT s td with
    | some m => leaveQuarantine (issueAnchor s td (m - o) reason)
    | none => leaveQuarantine s
  | none => leaveQuarantine s

/-- The offsets of a path change are recomputed with the D of the samples taken during the quarantine (R311). -/
def reseed (s : State) : State :=
  match s.tp.pathQ with
  | some (x :: r) =>
    let s := showDelay (setTp s { s.tp with samples := x :: r })
    let d := (delayD s).getD 0
    setTp s { s.tp with quar := s.tp.quar.map fun q => { q with ok := q.raw - d }, pathQ := none }
  | _ => setTp s { s.tp with pathQ := none }

/-- Before anchor 0 there is neither a lock to return to nor an anchor to step: the servo goes on acquiring, with a new provisional
mapping where the offsets have left the old one (log 21). -/
def backToAcquiring (s : State) (transient : Bool) : State :=
  setServo (setTp s { s.tp with td := none, quar := [], pathQ := none, lockRun := 0, prov := if transient then s.tp.prov else none })
    (if mustHold s then 6 else 2)

/-- The end of the quarantine. -/
def quarantineEnd (s : State) : State :=
  let s := reseed s
  let transient := decide ((medianLow (s.tp.quar.map (·.ok))).natAbs ≤ (stepThr s).natAbs)
  if flag s TP_STAT.ANCHORED = false then backToAcquiring s transient
  else if transient then leaveQuarantine s
  else if flag s TP_CFG.AUTO_ANCHOR then confirm s 1
  else setServo s 5

/-- One more offset of the quarantine; it ends with the QUAR-th. -/
def quarantineAdd (s : State) (t2 : Int) (q : QOff) : State :=
  let s := setTp s { s.tp with td := some (s.tp.td.getD t2), quar := (q :: s.tp.quar).take (quarLen s) }
  if servoState s = 4 ∧ quarLen s ≤ s.tp.quar.length then quarantineEnd s else s

/-- A discontinuity at the Sync at `t2` (R309): the quarantine starts, or restarts, with its offset; one of a path change stays that. -/
def discontinuity (s : State) (t2 : Int) (q : QOff) : State :=
  let s := inc (sts s TP_STAT.STEP) TP_STEP_CNT.COUNT
  let s := tpPost s 0x0503 0 0 (wrapInt 64 q.ok)
  quarantineAdd (enterQuarantine s (some t2) [] s.tp.pathQ) t2 q

/-! ## Delay samples (R303, R311) -/

/-- A delay step is declared with its four samples (R311).  A path change re-seeds the filter at once, and starts no quarantine, where
the servo may not leave ACQUIRING (R306) or has no mapping at all (log 21). -/
def delayStep (s : State) (d : Int) : State :=
  let dd := meanFloor s.tp.dev - d
  let mean (xs : List Int) : Int := if xs.isEmpty then 0 else meanFloor xs
  let dO := if s.tp.devSince.isEmpty ∨ s.tp.devBefore.isEmpty then 0 else mean s.tp.devSince - mean s.tp.devBefore
  let four := s.tp.dev
  let s := setTp s { s.tp with dev := [], devSince := [], devBefore := [] }
  let s := setFld s TP_PATH_STEP.DELTA_D (satSigned 16 (sixteenths dd))
  let s := inc (setFld s TP_PATH_STEP.DELTA_O (satSigned 16 (sixteenths dO))) TP_PATH_CNT.COUNT
  if 2 * dO.natAbs ≤ (pathThr s).natAbs then showDelay (setTp s { s.tp with samples := four })
  else
    let s := tpPost (sts s TP_STAT.PATH_CHANGE) 0x0504 0 0 (wrapInt 64 dd + 2 ^ 64 * wrapInt 64 dO)
    if flag s TP_STAT.ANCHORED ∨ (flag s PL_CTRL.RATE_SRC ∧ s.tp.prov.isSome) then enterQuarantine s none [] (some [])
    else showDelay (setTp s { s.tp with samples := four })

/-- The run of deviating samples, each on the same side of the D that it was judged by: a fourth declares the step. `d` is D before this
sample. -/
def deviation (s : State) (dj d : Int) : State :=
  if (dj - d).natAbs ≤ (pathThr s).natAbs then setTp s { s.tp with dev := [], devSince := [], devBefore := [] }
  else
    let up := decide (d < dj)
    let s := if !s.tp.dev.isEmpty && s.tp.devUp == up then setTp s { s.tp with dev := dj :: s.tp.dev }
      else setTp s { s.tp with dev := [dj], devUp := up, devBefore := s.tp.recent, devSince := [] }
    if 4 ≤ s.tp.dev.length then delayStep s d else s

/-- A raw delay sample (R303). -/
def delaySample (s : State) (dj : Int) : State :=
  let old := delayD s
  let s := setTp s { s.tp with samples := (dj :: s.tp.samples).take 64, pathQ := s.tp.pathQ.map fun q => (dj :: q).take 64 }
  let s := showDelay s
  match old with
  | some d => deviation s dj d
  | none => s

/-! ## A Sync whose m1 is known -/

/-- Lock at a Sync: anchor 0, or the next anchor after TP_CMD.RESTART (R308). -/
def declareLock (s : State) (t2 mta : Int) : State :=
  let s := issueAnchor s t2 mta (if flag s TP_STAT.ANCHORED then 3 else 0)
  setServo (setTp s { s.tp with prov := none, acq := false, lockRun := 0 }) 3

/-- ACQUIRING at a Sync with an offset (R307, R308). -/
def acquiring (s : State) (t2 mta ok : Int) (n : Nat) : State :=
  if stepThr s < ok.natAbs then setTp s { s.tp with prov := some (t2, mta), lockRun := 0 }
  else
    let s := issueRate s ok n
    let run := if (ok.natAbs : Int) ≤ lockThr s then s.tp.lockRun + 1 else 0
    let s := setTp s { s.tp with lockRun := run }
    if max 1 (usedFld s TP_SERVO.LOCK_N) ≤ run ∧ flag s PL_CTRL.RATE_SRC then declareLock s t2 mta else s

/-- LOCKED at a Sync with an offset. -/
def lockedSync (s : State) (t2 : Int) (q : QOff) (n : Nat) : State :=
  if stepThr s < q.ok.natAbs then discontinuity s t2 q else issueRate s q.ok n

/-- HOLDOVER at a Sync with an offset: a discontinuity of the anchored time, or the end of the holdover when nothing requires it any longer. -/
def holdoverSync (s : State) (t2 : Int) (q : QOff) (n : Nat) : State :=
  if stepThr s < q.ok.natAbs then (if flag s TP_STAT.ANCHORED then discontinuity s t2 q else s)
  else if mustHold s then s
  else issueRate (setServo s 3) q.ok n

/-- QUARANTINE and AWAIT at a Sync with an offset: one that leaves the previous offset by more than STEP_THR is a further
discontinuity. -/
def quarantineSync (s : State) (t2 : Int) (q : QOff) : State :=
  match s.tp.quar with
  | p :: _ => if stepThr s < (q.ok - p.ok).natAbs then discontinuity s t2 q else quarantineAdd s t2 q
  | [] => quarantineAdd s t2 q

/-- Offsets kept for the delay step of R311. -/
def noteOffset (s : State) (ok : Int) : State :=
  setTp s { s.tp with
    recent := (ok :: s.tp.recent).take 4
    devSince := if s.tp.dev.isEmpty then [] else ok :: s.tp.devSince }

/-- dj of a Delay_Req and its Delay_Resp (R303). -/
def rawDelay (d : DreqOut) (m1 m4 : Int) : Int := ((m4 - m1) - (d.t3 - d.t2) * 40).tdiv 2

/-- m1 of a Sync becomes known: the Delay_Req messages behind it take it, and those answered already form their samples. -/
def syncKnown (s : State) (y : SyncDone) : State :=
  let mine (d : DreqOut) : Bool := decide (d.t2 = y.t2) && d.m1.isNone
  let djs := (s.tp.dreq.filter mine).filterMap fun d => d.m4.map (rawDelay d y.m1)
  let rest := (s.tp.dreq.filter fun d => !(mine d && d.m4.isSome)).map fun d => if mine d then { d with m1 := some y.m1 } else d
  djs.foldl delaySample (setTp s { s.tp with last := some y, dreq := rest })

/-- The servo judges a Sync with its m1 (R303, R307 to R309). -/
def judgeSync (s : State) (y : SyncDone) (n : Nat) : State :=
  let s := syncKnown s y
  let s := if servoState s = 2 then frequency s y else s
  match delayD s with
  | none => s
  | some d =>
    let mta := y.m1 + d + asym s
    let s := if servoState s = 2 ∧ s.tp.freqDone ∧ s.tp.prov = none then setTp s { s.tp with prov := some (y.t2, mta) } else s
    if servoState s = 2 ∧ s.tp.prov = none then s
    else match mtOf s y.t2 with
      | none => s
      | some m =>
        let ok := m - mta
        let q : QOff := { ok := ok, raw := ok + d }
        let s := noteOffset (setFld s TP_OFFSET.VALUE (satSigned 32 (sixteenths ok))) ok
        match servoState s with
        | 2 => acquiring s y.t2 mta ok n
        | 3 => lockedSync s y.t2 q n
        | 4 => quarantineSync s y.t2 q
        | 5 => quarantineSync s y.t2 q
        | 6 => holdoverSync s y.t2 q n
        | _ => s

/-! ## PTP_SYNC_RECEIVE and PTP_FOLLOW_UP_RECEIVE -/

/-- PCLK edges between the timestamp point and now, at 1,024 ticks an edge. -/
def ingressEdge (s : State) (fr : Frame) : Nat := s.pl.edge - fr.age / 1024

def eport (s : State) (p : Nat) : EPort := sget (fun _ => {}) s.tp.ports p

def setEport (s : State) (p : Nat) (x : EPort) : State :=
  setTp s { s.tp with ports := sset (fun _ => {}) s.tp.ports p x }

/-- EP_RX_DELAY in force when the frame's timestamp point passed: the value before the first change at or after it (R319). -/
def rxDelay (s : State) (fr : Frame) : Nat :=
  match (eport s fr.port).rxWas.find? fun x => decide (tNow s ≤ x.1 + fr.age) with
  | some (_, d) => d
  | none => fld s (EP_RX_DELAY.TICKS fr.port)

/-- Ingress T at the MDI (R302). -/
def ingressT (s : State) (fr : Frame) : Int :=
  Int.ofNat (tNow s) - Int.ofNat fr.age - Int.ofNat (rxDelay s fr)

/-- A Sync that passed the MDI before Delay_Reqs that have left already is the latest before those whose own Sync was earlier (R303). -/
def syncBefore (t2 : Int) (d : DreqOut) : DreqOut := if d.t2 < t2 ∧ t2 < d.t3 then { d with t2 := t2, m1 := none } else d

/-- An accepted Sync (R303). It ends a holdover that interrupted ACQUIRING when nothing else requires one (R306). -/
def acceptSync (s : State) (fr : Frame) (p : PtpAt) : State :=
  let s := takeUsed (inc (rxCount s fr) TP_SYNC_CNT.COUNT)
  let s := if servoState s = 6 ∧ s.tp.acq ∧ mustHold s = false then setServo s 2 else s
  let t2 := ingressT s fr
  let e := ingressEdge s fr
  let n := match s.tp.lastEdge with | some x => e - x | none => 0
  let s := setTp s { s.tp with
    syncHead := some (fr.bytes.take p.off), syncLog := ptpLog fr.bytes p, syncAt := some s.now, lastEdge := some e,
    lastT2 := some t2, pend := none, dreq := s.tp.dreq.map (syncBefore t2),
    td := if servoState s = 4 then some (s.tp.td.getD t2) else s.tp.td }
  let corr := ptpCorr fr.bytes p
  if ptpTwoStep fr.bytes p then
    setTp s { s.tp with pend := some { seq := ptpSeq fr.bytes p, t2 := t2, corr := corr, edge := e, edges := n } }
  else judgeSync s { m1 := ptpTime fr.bytes p + corr, t2 := t2, edge := e } n

/-- PTP_SYNC_RECEIVE (R303, R306 to R309). -/
def ptpSyncReceive (s : State) (fr : Frame) : State :=
  match fromParent s fr 0 with
  | some p => acceptSync s fr p
  | none => if discardable s fr 0 then discard s fr else s

def execPtpSyncReceive (fr : Frame) (s : State) : Host.Outcome State Fault Refusal := .next (ptpSyncReceive s fr)

/-- PTP_FOLLOW_UP_RECEIVE (R303): the Follow_Up of the waiting Sync gives its m1. -/
def ptpFollowUpReceive (s : State) (fr : Frame) : State :=
  match fromParent s fr 8 with
  | some p =>
    let s := rxCount s fr
    match s.tp.pend with
    | some y =>
      if y.seq = ptpSeq fr.bytes p then
        judgeSync (setTp s { s.tp with pend := none })
          { m1 := ptpTime fr.bytes p + y.corr + ptpCorr fr.bytes p, t2 := y.t2, edge := y.edge } y.edges
      else s
    | none => s
  | none => if discardable s fr 8 then discard s fr else s

def execPtpFollowUpReceive (fr : Frame) (s : State) : Host.Outcome State Fault Refusal := .next (ptpFollowUpReceive s fr)

/-! ## PTP_DELAY_RESP_RECEIVE (R303, R311) -/

/-- A Delay_Resp that the port's filters pass. -/
def delayResp (s : State) (fr : Frame) : Option PtpAt :=
  match forServo s fr with
  | some p => if ptpType fr.bytes p = 9 then some p else none
  | none => none

/-- The outstanding Delay_Req that a Delay_Resp answers. -/
def dreqOf (s : State) (fr : Frame) (p : PtpAt) : Option DreqOut :=
  if ptpRequester fr.bytes p = portId s (slavePort s) then
    s.tp.dreq.find? fun d => d.seq = ptpSeq fr.bytes p && d.m4.isNone
  else none

/-- The answer of a Delay_Req: its sample, or m4 alone while the Sync before it awaits its Follow_Up. -/
def takeResp (s : State) (fr : Frame) (p : PtpAt) (d : DreqOut) : State :=
  let m4 := ptpTime fr.bytes p - ptpCorr fr.bytes p
  let others := s.tp.dreq.filter fun x => x.seq ≠ d.seq
  let s := setTp (rxCount s fr) { (rxCount s fr).tp with dreqLog := ptpLog fr.bytes p }
  match d.m1 with
  | some m1 => delaySample (setTp s { s.tp with dreq := others }) (rawDelay d m1 m4)
  | none => setTp s { s.tp with dreq := others ++ [{ d with m4 := some m4 }] }

/-- PTP_DELAY_RESP_RECEIVE: the answer of an outstanding Delay_Req from the parent; one that answers none is discarded and counted,
whoever sent it (R303); the servo's port takes it, so EP_RX_CNT counts it here also where the transparent clock forwards it. -/
def ptpDelayRespReceive (s : State) (fr : Frame) : State :=
  match delayResp s fr with
  | none => if discardable s fr 9 then discard s fr else s
  | some p => match dreqOf s fr p with
    | none => inc (rxCount s fr) TP_DISC_CNT.COUNT
    | some d => if s.tp.parent = some (ptpSource fr.bytes p) then takeResp s fr p d else s

def execPtpDelayRespReceive (fr : Frame) (s : State) : Host.Outcome State Fault Refusal := .next (ptpDelayRespReceive s fr)

/-! ## The parent (R310) -/

/-- TP_PARENT0 to TP_PARENT2. -/
def showParent (s : State) (id : List Byte) : State :=
  setFld (setFld (setFld s TP_PARENT0.ID (beAt id 0 4)) TP_PARENT1.ID (beAt id 4 4)) TP_PARENT2.ID (beAt id 8 2)

/-- ACQUIRING anew before anchor 0; QUARANTINE, with T_d at the first Sync, after it (R310).  The parent selected in LISTENING begins
ACQUIRING, whatever anchor is kept (R306, R408). -/
def sourceChanged (s : State) : State :=
  let s := setTp s { s.tp with pend := none, dreq := [] }
  if flag s TP_STAT.ANCHORED ∧ servoState s ≠ 1 then enterQuarantine s none [] (s.tp.pathQ.map fun _ => []) else servoAcquire s

/-- The parent changes (R310). -/
def setParent (s : State) (id : List Byte) : State :=
  if s.tp.parent = some id then s
  else
    let s := showParent (setTp s { s.tp with parent := some id, syncHead := none, syncAt := none }) id
    sourceChanged (tpPost (sts s TP_STAT.PARENT_CHG) 0x0505 (slavePort s) 0 (leNat id))

/-- Bytes compare as one number, most significant first. -/
def bytesLt (a b : List Byte) : Bool := decide (beAt a 0 a.length < beAt b 0 b.length)

/-- Data set comparison (IEEE 1588 clause 9.3.4), on one receiving port: a better grandmaster, then fewer steps, then the
lower sender identity. -/
def better (a b : Foreign) : Bool :=
  if bytesLt a.quality b.quality then true
  else if bytesLt b.quality a.quality then false
  else if a.steps < b.steps then true
  else if b.steps < a.steps then false
  else bytesLt a.id b.id

/-- A log-2 interval in units of 625 ps. -/
def logTicks (l : Int) : Nat := 1600000000 * 2 ^ (l + 16).toNat / 2 ^ 16

/-- A foreign master is qualified by two Announces within four of its intervals. -/
def qualified (s : State) (f : Foreign) : Bool :=
  2 ≤ f.times.length && f.times.all (fun t => s.now ≤ t + 4 * logTicks f.log)

/-- The last Announce of a foreign master lies within four of its intervals. -/
def fresh (s : State) (f : Foreign) : Bool := f.times.any fun t => s.now ≤ t + 4 * logTicks f.log

/-- The best qualified foreign master. -/
def bestMaster (s : State) : Option Foreign :=
  s.tp.foreign.foldl (fun b f =>
    if qualified s f then
      match b with
      | some x => if better f x then some f else b
      | none => some f
    else b) none

/-- The foreign master of an Announce. -/
def foreignOf (s : State) (fr : Frame) (p : PtpAt) : Foreign :=
  let h := p.off
  let id := ptpSource fr.bytes p
  let old := (s.tp.foreign.find? fun f => f.id = id).map (·.times)
  { id := id, quality := (fr.bytes.drop (h + 47)).take 14, steps := beAt fr.bytes (h + 61) 2, log := ptpLog fr.bytes p,
    times := (s.now :: old.getD []).take 2 }

/-- PTP_ANNOUNCE_RECEIVE (R310). -/
def ptpAnnounceReceive (s : State) (fr : Frame) : State :=
  match forServo s fr with
  | some p =>
    if ptpType fr.bytes p ≠ 11 then s
    else
      let s := rxCount s fr
      if flag s TP_CFG.BMCA = false ∨ ptpSource fr.bytes p = portId s 0 ∨ ptpSource fr.bytes p = portId s 1 ∨
         255 ≤ beAt fr.bytes (p.off + 61) 2 then s
      else
        let f := foreignOf s fr p
        let s := setTp s { s.tp with foreign := f :: s.tp.foreign.filter fun x => x.id ≠ f.id && fresh s x }
        match bestMaster s with
        | some b => setParent s b.id
        | none => s
  | none => if discardable s fr 11 then discard s fr else s

def execPtpAnnounceReceive (fr : Frame) (s : State) : Host.Outcome State Fault Refusal := .next (ptpAnnounceReceive s fr)

/-! ## Loss of Sync and the servo commands -/

/-- SYNC_LOSS_TIMEOUT (R306): LOSS_N intervals of the parent's logMessageInterval without an accepted Sync. -/
def syncLossTimeout (s : State) : State :=
  match s.tp.syncAt with
  | some t =>
    if servoOn s && maySlip s && decide (t + max 1 (usedFld s TP_QUAR.LOSS_N) * logTicks s.tp.syncLog ≤ s.now) then holdover s true
    else s
  | none => s

def execSyncLossTimeout (s : State) : Host.Outcome State Fault Refusal := .next (syncLossTimeout s)

/-- TP_ANCHOR (R309): in AWAIT, the anchor is issued on the last QUAR offsets. -/
def tpAnchor (s : State) (a : Access) (v : W32) : State :=
  cmdWrite s a TP_CMD.off v fun s => if v.getLsbD 31 ∧ servoOn s ∧ servoState s = 5 then confirm s 2 else s

def execTpAnchor (a : Access) (v : W32) (s : State) : Host.Outcome State Fault Refusal := .next (tpAnchor s a v)

/-- TP_RESTART (R308): ACQUIRING, with ADJ and the anchors kept. -/
def tpRestart (s : State) (a : Access) (v : W32) : State :=
  cmdWrite s a TP_CMD.off v fun s => if v.getLsbD 30 ∧ servoOn s ∧ s.tp.parent.isSome then servoAcquire s else s

def execTpRestart (a : Access) (v : W32) (s : State) : Host.Outcome State Fault Refusal := .next (tpRestart s a v)

/-! ## Configuration (R310, R319) -/

/-- The servo starts: LISTENING, or with the configured parent at once (R306). -/
def servoStart (s : State) : State :=
  let s := setServo (setTp s { s.tp with parent := none, foreign := [] }) 1
  if flag s TP_CFG.BMCA then s else setParent s (configuredParent s)

/-- The servo stops. -/
def servoStop (s : State) : State :=
  setServo (showParent (setTp s { s.tp with parent := none, foreign := [], pend := none, dreq := [], ownReq := false, td := none,
                                            quar := [], pathQ := none }) (List.replicate 10 0)) 0

/-- The fields of TP_CFG and of the slave port's EP_CFG whose change R310 names. -/
def sourceKey (s : State) : List Nat :=
  [slavePort s, fld s TP_CFG.DOMAIN, fld s TP_CFG.MAJOR_SDO, fld s TP_CFG.MINOR_SDO, (reg s (EP_CFG.off (slavePort s))).toNat]

/-- A change of EP_RX_DELAY leaves the frames whose timestamp point has passed as they were (R319). -/
def noteRxDelay (old s : State) (p : Nat) : State :=
  let x := fld old (EP_RX_DELAY.TICKS p)
  if x = fld s (EP_RX_DELAY.TICKS p) then s else setEport s p { eport s p with rxWas := (eport s p).rxWas ++ [(tNow s, x)] }

/-- MT(t) truncated to the nanosecond under the latest anchor, or 0 before anchor 0 (R305). -/
def originTime (s : State) (t : Int) : Nat := ((anchorMT s t).map fun m => (m.fdiv 65536).toNat).getD 0

/-- The bytes of a frame whose timestamp point passes the MDI at `t`: a Delay_Req's originTimestamp (R305) and a forwarded event message's
correctionField (R314) hold what follows from it. -/
def sentBytes (old s : State) (p : Nat) (t : Int) (bs : List Byte) : SentAs → List Byte
  | .own head seq => dreqFrame old p head seq (originTime s t)
  | .fwd f => if f.event then corrected f.bytes ((t - f.tin) * 40) else f.bytes
  | .launched => bs

/-- A change of EP_TX_DELAY reaches the port's last frame, its bytes and the Delay_Req that it was, where its timestamp point has still to
pass (R319). -/
def noteTxDelay (old s : State) (p : Nat) : State :=
  let d0 : Int := Int.ofNat (fld old (EP_TX_DELAY.TICKS p))
  let d1 : Int := Int.ofNat (fld s (EP_TX_DELAY.TICKS p))
  match (eport s p).sent with
  | some (bs, t) =>
    if d0 = d1 ∨ t - d0 ≤ Int.ofNat (tNow s) then s
    else
      let u := t + (d1 - d0)
      let s := setEport s p { eport s p with sent := some (sentBytes old s p u bs (eport s p).sentAs, u) }
      if p = slavePort old then
        setTp s { s.tp with dreq := s.tp.dreq.map fun x => if x.t3 = t then { x with t3 := u } else x }
      else s
  | none => s

/-- What a change of TP or EP configuration does at once; `old` is the state before it (R306, R310, R317). -/
def netConfig (old s : State) : State :=
  let s := noteTxDelay old (noteTxDelay old (noteRxDelay old (noteRxDelay old s 0) 1) 0) 1
  let s := if flag old TP_PPS_CFG.OE ≠ flag s TP_PPS_CFG.OE ∨ flag old TP_PPS_CFG.SRC ≠ flag s TP_PPS_CFG.SRC ∨
      pair64 old TP_PPS_PERIOD_LO.off TP_PPS_PERIOD_HI.off ≠ pair64 s TP_PPS_PERIOD_LO.off TP_PPS_PERIOD_HI.off then ppsRestart s else s
  let s := if flag s TP_PPS_CFG.OE then s else setTp s { s.tp with ppsHigh := false }
  if servoOn old = false ∧ servoOn s then servoStart s
  else if servoOn old ∧ flag s TP_CFG.EN = false then servoStop s
  else if servoOn s = false then s
  else
    let s := if sourceKey old ≠ sourceKey s ∧ servoState s ≠ 1 then
        sourceChanged (setTp s { s.tp with foreign := [] })
      else s
    if flag s TP_CFG.BMCA then s else setParent s (configuredParent s)

/-! ## PL_CTRL (R94, R105, R306) -/

/-- A write of PL_CTRL: a change of RATE_SRC requests the newly selected source's value and bears on the servo's state, and a
cleared ORIGIN_WAIT releases the lanes. -/
def plCtrlWrite (s : State) (a : Access) (v : W32) : State :=
  let was := flag s PL_CTRL.RATE_SRC
  cmdWrite s a PL_CTRL.off v fun s =>
    let now := flag s PL_CTRL.RATE_SRC
    let s := if was = now then s else rateSrcCheck (requestAdj s (if now then s.pl.servoAdj else hostAdj s))
    forEach (List.range (nGroups s)) s releaseLanes

/-- PL_RATE_SRC_CHANGE (R94). -/
def execPlRateSrcChange (a : Access) (v : W32) (s : State) : Host.Outcome State Fault Refusal := .next (plCtrlWrite s a v)

/-- PL_ORIGIN_WAIT_CLEAR (R105). -/
def execPlOriginWaitClear (a : Access) (v : W32) (s : State) : Host.Outcome State Fault Refusal := .next (plCtrlWrite s a v)

end Sys2Proof.Machine
end

