-- ==== Sys2Proof/Machine/Ports.lean ====
section
/-! DEFINITION. The Ethernet ports (15_network_time.md R305, R314 to R319): other received frames, the transparent clock,
transmission, timed launches, the link, and PPS_OUT and PPS_IN. -/

namespace Sys2Proof.Machine

/-! ## Receipt of other frames -/

/-- The servo has a row of its own for this message: it comes from the parent, or is an Announce or an unasked Delay_Resp on the slave
port. -/
def servoTakes (s : State) (fr : Frame) : Bool :=
  match forServo s fr with
  | some p => ptpType fr.bytes p = 11 ||
      ([0, 8, 9].contains (ptpType fr.bytes p) && s.tp.parent = some (ptpSource fr.bytes p)) ||
      (ptpType fr.bytes p = 9 && (dreqOf s fr p).isNone)
  | none => false

/-- ETH_FRAME_RECEIVE (R301): a frame that neither the servo nor the transparent clock takes. -/
def ethFrameReceive (s : State) (fr : Frame) : State :=
  if portUp s fr.port = false ∨ servoTakes s fr ∨ forwardable s fr then s
  else
    let s' := rxCount s fr
    match goodPtp s fr with
    | some p => if unsupported s fr.bytes p then inc s' TP_DISC_CNT.COUNT else s'
    | none => s'

def execEthFrameReceive (fr : Frame) (s : State) : Host.Outcome State Fault Refusal := .next (ethFrameReceive s fr)

/-! ## The transparent clock (R314) -/

/-- PTP_FORWARD (R314): a message of an unsupported type is counted here, where no row of the servo takes it (R301). -/
def ptpForward (s : State) (fr : Frame) : State :=
  match goodPtp s fr with
  | none => s
  | some p =>
    if forwardable s fr = false then s
    else
      let s := if servoTakes s fr then s else rxCount s fr
      let s := if unsupported s fr.bytes p && !([0, 8, 9, 11].contains (ptpType fr.bytes p)) then inc s TP_DISC_CNT.COUNT else s
      let q := 1 - fr.port
      let P := eport s q
      if 32 ≤ P.fwd.length then
        let s := sts (inc s (EP_FWD_DROP_CNT.COUNT q)) (EP_STAT.FWD_DROP q)
        tpPost s 0x0604 q 0 (fld s (EP_FWD_DROP_CNT.COUNT q))
      else setEport s q { P with fwd := P.fwd ++ [{ bytes := fr.bytes, event := ptpEvent fr.bytes p, tin := ingressT s fr }] }

def execPtpForward (fr : Frame) (s : State) : Host.Outcome State Fault Refusal := .next (ptpForward s fr)

/-! ## Transmission (R315, R316) -/

/-- The wire of port p is free: the port is up and its last frame with its gap has ended. Times are in units of 5 ps. -/
def wireFree (s : State) (p : Nat) : Bool := portUp s p && decide ((eport s p).busy ≤ s.now * 125)

/-- The head of the launch queue has the wire from time `w` on, in units of 5 ps. -/
def headGets (s : State) (p w : Nat) : State :=
  let P := eport s p
  if P.launch.isEmpty = false ∧ P.headAt = none ∧ wireFree s p then
    setEport s p { P with headAt := some (Int.ofNat (tNow s * 125) - Int.ofNat ((s.now * 125 - w) * 1024), w) }
  else s

/-- The head has the wire from the end of the last frame's gap in this period, or from now; on a port that is down it has none. -/
def headReady (s : State) (p : Nat) : State :=
  let P := eport s p
  if portUp s p = false then (if P.headAt.isSome then setEport s p { P with headAt := none } else s)
  else headGets s p (if s.now * 125 < P.busy + 125 then P.busy else s.now * 125)

/-- Ticks from T = x to the launch instant of an entry: a signed difference modulo 2^64 (R316, R416). -/
def untilLaunch (s : State) (p : Nat) (e : Launch) (x : Int) : Int :=
  signedOf 64 (wrapInt 64 (Int.ofNat e.t.toNat - Int.ofNat (fld s (EP_TX_DELAY.TICKS p)) - x))

/-- The launch instant of an entry in units of 5 ps: the first NTX cycle, every 512 of them, at or after the instant at which T reaches
its launch T − EP_TX_DELAY, at 1,024 ticks to a period of 125 (R316, log 21). -/
def launchAt (s : State) (p : Nat) (e : Launch) : Int :=
  (Int.ofNat (s.now * 125 * 1024) + untilLaunch s p e (Int.ofNat (tNow s)) * 125 + 524287).fdiv 524288 * 512

/-- A frame of L bytes, started now, ends with its gap before the next launch instant: (L + 24) × 0.32 ns (R315). -/
def fits (s : State) (p len : Nat) : Bool :=
  match (eport s p).launch with
  | e :: _ => decide (Int.ofNat (s.now * 125 + (len + 24) * 64) < launchAt s p e)
  | [] => true

/-- A frame has the wire from `start` on, in units of 5 ps; its timestamp point passes the MDI at `t`. -/
def sendFrame (s : State) (p : Nat) (bs : List Byte) (t : Int) (start : Nat) (x : SentAs) : State :=
  let s := inc s (EP_TX_CNT.COUNT p)
  setEport s p { eport s p with busy := start + (bs.length + 24) * 64, sent := some (bs, t), sentAs := x }

/-- Egress T at the MDI (R302) of a frame whose timestamp point passes `ahead` ticks from now. -/
def egressT (s : State) (p ahead : Nat) : Int :=
  Int.ofNat (tNow s) + Int.ofNat ahead + Int.ofNat (fld s (EP_TX_DELAY.TICKS p))

/-- The device's Delay_Req leaves (R305): t3 is kept with the latest Sync before it. -/
def sendDreq (s : State) (p ahead : Nat) : State :=
  let t3 := egressT s p ahead
  let f := dreqFrame s p (s.tp.syncHead.getD []) s.tp.dseq (originTime s t3)
  let m1 := match s.tp.last with
    | some y => if some y.t2 = s.tp.lastT2 then some y.m1 else none
    | none => none
  let out : List DreqOut := match s.tp.lastT2 with
    | some t2 => [{ seq := s.tp.dseq, t3 := t3, t2 := t2, m1 := m1, m4 := none }]
    | none => []
  let s := sendFrame (inc s TP_DREQ_CNT.COUNT) p f t3 (s.now * 125) (.own (s.tp.syncHead.getD []) s.tp.dseq)
  setTp s { s.tp with ownReq := false, dseq := (s.tp.dseq + 1) % 2 ^ 16,
                      dreq := s.tp.dreq.filter (fun d => d.seq ≠ s.tp.dseq) ++ out }

/-- The Delay_Req's length on port p. -/
def dreqLen (s : State) (p : Nat) : Nat := (dreqFrame s p (s.tp.syncHead.getD []) 0 0).length

/-- The first of a port's forwarded frames that is, or is not, an event message. -/
def nextFwd (s : State) (p : Nat) (event : Bool) : Option Fwd := (eport s p).fwd.find? fun f => f.event = event

/-- Remove the first forwarded frame of a kind. -/
def dropFwd (event : Bool) : List Fwd → List Fwd
  | [] => []
  | f :: r => if f.event = event then r else f :: dropFwd event r

/-- A forwarded frame goes out, an event message with its residence time (R314). -/
def sendFwd (s : State) (p ahead : Nat) (f : Fwd) : State :=
  let t := egressT s p ahead
  let bs := if f.event then corrected f.bytes ((t - f.tin) * 40) else f.bytes
  let s := setEport s p { eport s p with fwd := dropFwd f.event (eport s p).fwd }
  sendFrame (inc s (EP_FWD_CNT.COUNT p)) p bs t (s.now * 125) (.fwd f)

/-- The frame that the port may start now, in the order of R315 below the launches.  The device's own Delay_Req takes the transport of its
parent's last Sync, and waits where a new parent has sent none (R305). -/
inductive TxKind where
  | fwd (f : Fwd) | own

def txChoice (s : State) (p : Nat) : Option TxKind :=
  let ok (f : Fwd) : Bool := fits s p f.bytes.length
  let own := s.tp.ownReq && s.tp.syncHead.isSome && p = slavePort s && fits s p (dreqLen s p)
  match (nextFwd s p true).filter ok with
  | some f => some (.fwd f)
  | none => if own then some .own else ((nextFwd s p false).filter ok).map .fwd

/-- FRAME_TRANSMIT (R315): `ahead` ticks pass until the frame's timestamp point. -/
def frameTransmit (s : State) (p ahead : Nat) : State :=
  if wireFree s p = false then s
  else match txChoice s p with
    | some (.fwd f) => headReady (sendFwd s p ahead f) p
    | some .own => headReady (sendDreq s p ahead) p
    | none => headReady s p

def execFrameTransmit (p ahead : Nat) (s : State) : Host.Outcome State Fault Refusal := .next (frameTransmit s p ahead)

/-- The random interval to the next Delay_Req: anywhere from 0 to twice the mean that logMinDelayReqInterval gives (IEEE 1588 clause
9.5.11.2); which is a free value. -/
def nextDreq (s : State) : State :=
  let (k, s) := takeFree s
  setTp s { s.tp with dreqNext := s.now + (Config.badWord k).toNat % (2 * logTicks s.tp.dreqLog + 1) }

/-- DELAY_REQ_SEND (R305): the request is due, and leaves at once when R315 lets it; otherwise it waits for FRAME_TRANSMIT. -/
def delayReqSend (s : State) (ahead : Nat) : State :=
  let p := slavePort s
  if servoOn s && decide (2 ≤ servoState s) && s.tp.syncHead.isSome && decide (s.tp.dreqNext ≤ s.now) then
    let s := nextDreq (setTp s { s.tp with ownReq := true })
    if wireFree s p then
      match txChoice s p with
      | some .own => sendDreq s p ahead
      | _ => s
    else s
  else s

def execDelayReqSend (ahead : Nat) (s : State) : Host.Outcome State Fault Refusal := .next (delayReqSend s ahead)

/-! ## Timed launches (R316) -/

/-- Frame-buffer units of 64 bytes that a frame of a length takes. -/
def bufUnits (len : Nat) : Nat := (len + 63) / 64

/-- The launch queue changes: QUEUED and FREE, and when the head had the wire. -/
def setLaunch (s : State) (p : Nat) (l : List Launch) (h : Option (Int × Nat)) : State :=
  let s := setEport s p { eport s p with launch := l, headAt := h }
  let s := setFld s (EP_LAUNCH_STAT.QUEUED p) l.length
  setFld s (EP_LAUNCH_STAT.FREE p) (1024 - (l.map fun e => bufUnits e.bytes.length).foldl (· + ·) 0)

/-- EP_FRAME_LAUNCH (R316). -/
def epFrameLaunch (s : State) (c : Command) : State :=
  runCmd s c 0x0400 fun s =>
    let p := bitsOf c.p1.toNat 16 16
    let n := bitsOf c.p1.toNat 10 0
    if n < 60 ∨ 1518 < n then refuseCmd s c 3
    else if cmdPart s c ≠ 0 then refuseCmd s c 4
    else if 256 ≤ (eport s p).launch.length ∨ fld s (EP_LAUNCH_STAT.FREE p) < bufUnits n then refuseCmd s c 6
    else match c.data with
      | none => dmaFailCmd s c
      | some d =>
        let e : Launch := { t := c.p0, tag := c.tag, bytes := (d ++ List.replicate n 0).take n }
        let l := (eport s p).launch
        let s := if l.isEmpty then headGets (setLaunch s p [e] none) p (s.now * 125) else setLaunch s p (l ++ [e]) (eport s p).headAt
        completeCmd s c 0 1

def execEpFrameLaunch (c : Command) (s : State) : Host.Outcome State Fault Refusal := .next (epFrameLaunch s c)

/-- The launch instant of an entry had passed when it had the wire, at time `w` with T at x / 125: an NTX cycle came before `w` and not
before T reached the launch T (R316). -/
def launchPassed (s : State) (p : Nat) (e : Launch) (x : Int) (w : Nat) : Bool :=
  let d := x % 125 - untilLaunch s p e (x / 125) * 125
  let phase := if w % 512 = 0 then 512 else w % 512
  decide (Int.ofNat (phase * 1024) ≤ d)

/-- The launch instant of the head that had the wire at `w`: never before the first NTX cycle from then on. -/
def headLaunch (s : State) (p : Nat) (e : Launch) (w : Nat) : Int := max (launchAt s p e) (Int.ofNat ((w + 511) / 512 * 512))

/-- T at the MDI of a timestamp point that passed at time `w`. -/
def launchedT (s : State) (p : Nat) (w : Int) : Int :=
  Int.ofNat (tNow s) - ((Int.ofNat (s.now * 125) - w) * 1024).fdiv 125 + Int.ofNat (fld s (EP_TX_DELAY.TICKS p))

/-- DATA of notices 0x0602 and 0x0603: launch T and TAG. -/
def launchData (e : Launch) : Nat := e.t.toNat + 2 ^ 64 * e.tag.toNat

/-- FRAME_LAUNCH (R316): the head of port p's queue is dropped with the link down, dropped late, or launched when due; behind a late entry
the next is at the head with the wire at the same instant, and behind a launched one when the wire frees. -/
def frameLaunch (s : State) (p : Nat) : State :=
  let s := headReady s p
  match (eport s p).launch with
  | [] => s
  | e :: r =>
    if flag s (EP_STAT.LINK p) = false then
      let s := sts (inc s (EP_LINKDROP_CNT.COUNT p)) (EP_STAT.LINK_DROP p)
      setLaunch (tpPost s 0x0603 p 0 (launchData e)) p r none
    else match (eport s p).headAt with
      | none => s
      | some (x, w) =>
        if launchPassed s p e x w then
          let s := sts (inc s (EP_LATE_CNT.COUNT p)) (EP_STAT.LATE p)
          setLaunch (tpPost s 0x0602 p 0 (launchData e)) p r (if r.isEmpty then none else some (x, w))
        else
          let L := headLaunch s p e w
          if Int.ofNat (s.now * 125) < L then s
          else
            let t := launchedT s p L
            let s := sendFrame (inc s (EP_LAUNCH_CNT.COUNT p)) p e.bytes t L.toNat .launched
            headGets (setLaunch s p r none) p (eport s p).busy

def execFrameLaunch (p : Nat) (s : State) : Host.Outcome State Fault Refusal := .next (frameLaunch s p)

/-- EP_FLUSH (R316). -/
def epFlush (s : State) (a : Access) (p : Nat) (v : W32) : State :=
  cmdWrite s a (EP_CMD.off p) v fun s =>
    if v.getLsbD 31 then setLaunch (addCnt s (EP_FLUSH_CNT.COUNT p) (eport s p).launch.length) p [] none else s

def execEpFlush (a : Access) (p : Nat) (v : W32) (s : State) : Host.Outcome State Fault Refusal := .next (epFlush s a p v)

/-! ## Links (R306, R319) -/

/-- The link of port p goes up or down: the slave port's loss puts the servo in HOLDOVER (R306). -/
def linkChange (s : State) (p : Nat) (up : Bool) : State :=
  if 2 ≤ p ∨ flag s (EP_STAT.LINK p) = up then s
  else
    let s := setFlag (setFlag s (EP_STAT.LINK p) up) (EP_STAT.BLOCK_LOCK p) up
    let s := if up then setFlag s (EP_CMD.LINK_RESET p) false else s
    let s := if up then s else sts s (EP_STAT.LINK_DOWN p)
    let s := tpPost s 0x0601 p (if up then 1 else 0) 0
    if up then headReady s p
    else if servoOn s ∧ p = slavePort s ∧ maySlip s then holdover s true
    else s

/-- ETH_LINK_CHANGE. -/
def execEthLinkChange (p : Nat) (up : Bool) (s : State) : Host.Outcome State Fault Refusal := .next (linkChange s p up)

/-- EP_LINK_RESET: the PCS restarts, so the link goes down until it has retrained. -/
def epLinkReset (s : State) (a : Access) (p : Nat) (v : W32) : State :=
  cmdWrite s a (EP_CMD.off p) v fun s =>
    if v.getLsbD 30 ∧ p < 2 then linkChange (setFlag s (EP_CMD.LINK_RESET p) true) p false else s

def execEpLinkReset (a : Access) (p : Nat) (v : W32) (s : State) : Host.Outcome State Fault Refusal := .next (epLinkReset s a p v)

/-! ## PPS (R317, R318) -/

/-- WIDTH × 10 µs in units of 625 ps. -/
def ppsWidth (s : State) : Nat := usTicks (10 * max 1 (fld s TP_PPS_CFG.WIDTH))

/-- PPS_OUT_RISE (R317): a due instant has come; it is skipped too soon after the last rise. -/
def ppsOutRise (s : State) : State :=
  match ppsIndex s with
  | none => s
  | some k =>
    if flag s TP_PPS_CFG.OE = false ∨ k ≤ s.tp.ppsSeen then s
    else
      let s := setTp s { s.tp with ppsSeen := k }
      let soon := match s.tp.ppsAt with
        | some t => decide (s.now < t + ppsWidth s + usTicks 10)
        | none => false
      if soon then inc s TP_PPS_SKIP_CNT.COUNT
      else setTp s { s.tp with ppsHigh := true, ppsAt := some s.now }

def execPpsOutRise (s : State) : Host.Outcome State Fault Refusal := .next (ppsOutRise s)

/-- PPS_OUT_FALL (R317). -/
def ppsOutFall (s : State) : State :=
  match s.tp.ppsAt with
  | some t => if s.tp.ppsHigh ∧ t + ppsWidth s ≤ s.now then setTp s { s.tp with ppsHigh := false } else s
  | none => s

def execPpsOutFall (s : State) : Host.Outcome State Fault Refusal := .next (ppsOutFall s)

/-- PPS_IN_EDGE (R318): the command stands for the PCLK edge at which the synchronised high of a qualified pulse is first
seen. -/
def ppsInEdge (s : State) : State :=
  if s.pl.running = false then s
  else
    let s := bump (setPair64 s TP_PPSIN_T_LO.off TP_PPSIN_T_HI.off (tNow s)) TP_PPSIN_STAT.SEQ
    if flag s TP_PPSIN_STAT.NOTICE_EN then tpPost s 0x0506 0 (fld s TP_PPSIN_STAT.SEQ) (t64 s).toNat else s

def execPpsInEdge (s : State) : Host.Outcome State Fault Refusal := .next (ppsInEdge s)

end Sys2Proof.Machine
end

