-- ==== Sys2Proof/Machine/Playback.lean ====
section
/-! DEFINITION. Segment playback (16_playback_and_triggers.md R320 to R337): the segment store, sequence tables, starting and
stopping, the refill cache, jump requests and the commit point, starvation, pin overrides and the level of a pin. -/

namespace Sys2Proof.Machine

def seqr (s : State) (q : Nat) : Sequencer := sget (fun _ => {}) s.play.seqs q

def setSeqr (s : State) (q : Nat) (x : Sequencer) : State :=
  { s with play := { s.play with seqs := sset (fun _ => {}) s.play.seqs q x } }

/-- The SCLK word in progress: words begin on every fourth PCLK edge (R320). -/
def curWord (s : State) : Nat := s.pl.edge / 4

/-- T at the edge at which the word in progress began. -/
def wordT (s : State) : Nat := ((s.pl.hist.drop (s.pl.edge % 4)).headD s.pl.t).toNat

/-- T − x, taken as signed, is 0 or above. -/
def passed64 (t x : Nat) : Bool := decide ((t + 2 ^ 64 - x % 2 ^ 64) % 2 ^ 64 < 2 ^ 63)

/-- The last time up to T whose low 64 bits are x: the time that a target which has passed stands for (R416). -/
def passedT (t x : Nat) : Int := Int.ofNat t - Int.ofNat ((t + 2 ^ 64 - x % 2 ^ 64) % 2 ^ 64)

/-- A notice of sequencer q, under PG_CFG.NOTICE_EN. -/
def pgPost (s : State) (q ty aux data : Nat) : State := if flag s (PG_CFG.NOTICE_EN q) then post s ty q aux data else s

/-! ## Sequence entries (table *Sequence entry*) -/

def Inst.off (i : Inst) : Nat := bitsOf i.w0.toNat 28 0
def Inst.len (i : Inst) : Nat := bitsOf i.w0.toNat 52 29
def Inst.next (i : Inst) : Nat := bitsOf i.w0.toNat 62 53
def Inst.stop (i : Inst) : Bool := i.w0.getLsbD 63
def Inst.loops (i : Inst) : Nat := bitsOf i.w1.toNat 19 0
def Inst.target (i : Inst) (j : Nat) : Nat := bitsOf i.w1.toNat (29 + 11 * j) (20 + 11 * j)
def Inst.valid (i : Inst) (j : Nat) : Bool := i.w1.getLsbD (30 + 11 * j)

/-- The instance of an entry as its table reads now (R326). -/
def readEntry (Q : Sequencer) (e it : Nat) : Inst :=
  let (w0, w1) := sget (fun _ => (0, 0)) Q.table e
  { entry := e, iter := it, w0 := w0, w1 := w1 }

/-- What follows an instance when no jump is taken (R329): none where the sequencer stops. -/
def follows (i : Inst) : Option (Nat × Nat) :=
  if i.iter < i.loops then some (i.entry, i.iter + 1) else if i.stop then none else some (i.next, 0)

/-- An entry is malformed (R326): LEN below 8, or its segment leaves a region of `size` 4 KiB units. -/
def entryBad (size : Nat) (i : Inst) : Bool := decide (i.len < 8) || decide (32 * size < i.off + i.len)

/-- Entries that an entry leads to, through NEXT or valid jump slots. -/
def successors (i : Inst) : List Nat :=
  (if i.stop then [] else [i.next]) ++ ((List.range 4).filter i.valid).map i.target

/-- The entries reachable from those of `todo`. -/
def reach (Q : Sequencer) : Nat → List Nat → List Nat → List Nat
  | 0, _, seen => seen
  | _, [], seen => seen
  | n + 1, e :: todo, seen =>
    if seen.contains e then reach Q n todo seen else reach Q n (successors (readEntry Q e 0) ++ todo) (e :: seen)

/-! ## The segment store (R323, R324) -/

/-- The sequencer runs, or a start is pending. -/
def seqBusy (s : State) (q : Nat) : Bool := flag s (PG_STAT.RUNNING q) || flag s (PG_STAT.START_PEND q)

/-- A refused claim. -/
def storeRefuse (s : State) (q code : Nat) : State := setFld (sts s (PG_STAT.STORE_REF q)) (PG_STAT.REF_CODE q) code

def setClaim (s : State) (q : Nat) (x : Option Region) : State :=
  { s with ddr := { s.ddr with claims := sset (fun _ => none) s.ddr.claims q x } }

/-- PG_STORE_CLAIM (R323): a write of EN = 1; ignored while the region is claimed. -/
def pgStoreClaim (s : State) (a : Access) (q : Nat) (v : W32) : State :=
  accept s a (PG_STORE_CFG.off q) fun s =>
    if v.getLsbD 31 = false ∨ (claimOf s q).isSome then s
    else
      let s := setFld s (PG_STORE_CFG.BIND q) (bitsOf v.toNat 10 8)
      let x : Region := { bind := bitsOf v.toNat 10 8, base := fld s (PG_STORE_BASE.VALUE q), size := fld s (PG_STORE_SIZE.VALUE q) }
      let c := if 2 ^ 24 < x.size then 2 else regionCode s (ownSeq s q) x
      if c ≠ 0 then storeRefuse s q c
      else setFlag (setFlag (setClaim s q (some x)) (PG_STORE_CFG.EN q) true) (PG_STAT.STORE_ON q) true

def execPgStoreClaim (a : Access) (q : Nat) (v : W32) (s : State) : Host.Outcome State Fault Refusal := .next (pgStoreClaim s a q v)

/-- PG_STORE_RELEASE (R323): a write of EN = 0. -/
def pgStoreRelease (s : State) (a : Access) (q : Nat) (v : W32) : State :=
  accept s a (PG_STORE_CFG.off q) fun s =>
    if v.getLsbD 31 then s
    else if (claimOf s q).isNone then setFld s (PG_STORE_CFG.BIND q) (bitsOf v.toNat 10 8)
    else if seqBusy s q then s
    else setFlag (setFlag (setClaim s q none) (PG_STORE_CFG.EN q) false) (PG_STAT.STORE_ON q) false

def execPgStoreRelease (a : Access) (q : Nat) (v : W32) (s : State) : Host.Outcome State Fault Refusal :=
  .next (pgStoreRelease s a q v)

/-- The memory address of an offset in a segment-store region. -/
def storeAddr (s : State) (x : Region) (o : Nat) : Nat := bindAddr s x.bind (x.base * 4096 + o)

/-- Write a region's bytes in blocks of 64 from an offset. -/
def storeBlocks (x : Region) : Nat → State → Nat → List Byte → State
  | 0, s, _, _ => s
  | n + 1, s, o, bs => storeBlocks x n (ddrWrite s (storeAddr s x o) (bs.take 64)) (o + 64) (bs.drop 64)

/-- n blocks of 64 bytes of free values. -/
def freeBlocks : Nat → State → List Byte × State
  | 0, s => ([], s)
  | n + 1, s =>
    let (k, s) := takeFree s
    let (bs, s) := freeBlocks n s
    ((List.range 8).flatMap (fun i => leBytes (Config.badWord (8 * k + i)).toNat 8) ++ bs, s)

/-- PG_SEG_LOAD (R324, R273). After a failed read of the host buffer the target range holds unspecified data. -/
def pgSegLoad (s : State) (c : Command) : State :=
  runCmd s c 0x0300 fun s =>
    let q := p0f c 37 36
    let o := p0f c 35 0
    let n := c.p1.toNat
    if nSeqs s ≤ q then refuseCmd s c 3
    else if ownSeq s q ≠ cmdPart s c then refuseCmd s c 4
    else match claimOf s q with
      | none => refuseCmd s c 5
      | some x =>
        if o % 64 ≠ 0 ∨ n % 64 ≠ 0 ∨ n = 0 ∨ x.size * 4096 < o + n then refuseCmd s c 3
        else match c.data with
          | some bs => completeCmd (storeBlocks x (n / 64) s o bs) c 0 1
          | none =>
            let (bs, s) := freeBlocks (n / 64) s
            dmaFailCmd (storeBlocks x (n / 64) s o bs) c

def execPgSegLoad (c : Command) (s : State) : Host.Outcome State Fault Refusal := .next (pgSegLoad s c)

/-- The sequence entries of a host buffer, from entry e on. -/
def entriesOf (e : Nat) : Nat → List Byte → List Inst
  | 0, _ => []
  | n + 1, bs =>
    { entry := e, iter := 0, w0 := BitVec.ofNat 64 (leNat (bs.take 8)), w1 := BitVec.ofNat 64 (leNat ((bs.drop 8).take 8)) } ::
      entriesOf (e + 1) n (bs.drop 16)

/-- PG_SEQ_LOAD (R326). -/
def pgSeqLoad (s : State) (c : Command) : State :=
  runCmd s c 0x0301 fun s =>
    let q := p0f c 1 0
    let e := p0f c 25 16
    let n := p0f c 41 32 + 1
    if nSeqs s ≤ q then refuseCmd s c 3
    else if ownSeq s q ≠ cmdPart s c then refuseCmd s c 4
    else match claimOf s q with
      | none => refuseCmd s c 5
      | some x =>
        if 1024 < e + n then refuseCmd s c 3
        else match c.data with
          | none => dmaFailCmd s c
          | some bs =>
            let l := entriesOf e n bs
            if l.any (entryBad x.size) then refuseCmd s c 3
            else
              let Q := seqr s q
              let tab := l.foldl (fun t i => sset (fun _ => (0, 0)) t i.entry (i.w0, i.w1)) Q.table
              completeCmd (setSeqr s q { Q with table := tab }) c 0 1

def execPgSeqLoad (c : Command) (s : State) : Host.Outcome State Fault Refusal := .next (pgSeqLoad s c)

/-! ## The refill cache (R330, R331) -/

/-- Granules of an instance that a head buffer holds. -/
def headLen (i : Inst) : Nat := min 512 i.len

/-- An instance whose content is fixed and of which nothing is fetched yet. -/
def freshFetch (i : Inst) : Fetched := { inst := i, hlim := 0, hgot := [], first := 0, got := [], jump := none }

/-- Granule p of an instance, where it is complete in the cache. -/
def Fetched.granule? (F : Fetched) (p : Nat) : Option (List Byte) :=
  if p < F.hlim then F.hgot[p]? else F.got[p - F.first]?

/-- The granule in progress of the current instance. -/
def curGranule (s : State) (Q : Sequencer) : Nat := (curWord s - Q.start) / 4

/-- Granules that the main buffer holds: those of the current instance that have played are given up. -/
def mainHeld (s : State) (Q : Sequencer) : Nat :=
  match Q.path with
  | [] => 0
  | F :: r =>
    let p := if Q.firstEdge.isSome then max (curGranule s Q) F.first else F.first
    (F.first + F.got.length - p) + (r.map fun G => G.got.length).sum

/-- The first instance of the path, from position k on, with granules to fetch. -/
def fetchAt (starving : Bool) : Nat → List Fetched → Option Nat
  | _, [] => none
  | k, F :: r =>
    if F.first + F.got.length < F.inst.len ∧ ¬ (starving ∧ k = 0) then some k else fetchAt starving (k + 1) r

/-- The path with the instance that follows its last, content fixed now (R326, R330); unchanged where nothing follows. -/
def extendPath (Q : Sequencer) : List Fetched :=
  match Q.path.getLast? with
  | none => Q.path
  | some F => match follows F.inst with
    | none => Q.path
    | some (e, it) =>
      let i := readEntry Q e it
      if i.len < 8 then Q.path else Q.path ++ [freshFetch i]

/-- Read one granule of an instance; words 0 to 7 of `errs` are its first block's. -/
def readGranule (s : State) (x : Region) (i : Inst) (p : Nat) (errs : List (Nat × Bool)) : List Byte × State :=
  let o := (i.off + p) * 128
  let (w0, _, s) := readBlock s (storeAddr s x o) 3 (errs.filter fun e => e.1 < 8)
  let (w1, _, s) := readBlock s (storeAddr s x (o + 64)) 3 ((errs.filter fun e => 8 ≤ e.1).map fun e => (e.1 - 8, e.2))
  ((w0 ++ w1).flatMap wordBytes, s)

/-- Fetch the next granule of the main buffer, if the path has one. -/
def refillMain (s : State) (q : Nat) (x : Region) (errs : List (Nat × Bool)) : State :=
  let Q := seqr s q
  let st := Q.starveFrom.isSome
  let path := if (fetchAt st 0 Q.path).isSome then Q.path else extendPath Q
  match fetchAt st 0 path with
  | none => s
  | some k => match path[k]? with
    | none => s
    | some F =>
      let (g, s) := readGranule s x F.inst (F.first + F.got.length) errs
      setSeqr s q { Q with path := path.set k { F with got := F.got ++ [g] } }

/-- The first head buffer that is not complete. -/
def headDue (Q : Sequencer) : Option Nat :=
  (List.range 4).find? fun j => match sget (fun _ => none) Q.heads j with
    | some H => decide (H.got.length < headLen H.inst)
    | none => false

/-- A current instance that a jump to its own entry began plays from a head buffer that is still being loaded: it sees what the buffer
holds now (R330, R334). -/
def seeHead (Q : Sequencer) (j : Nat) (H : Head) : List Fetched :=
  match Q.path with
  | F :: r => if F.jump = some j ∧ F.inst = H.inst ∧ F.hgot.length < H.got.length ∧ Q.starveFrom.isNone then { F with hgot := H.got } :: r else F :: r
  | [] => []

/-- Fetch the next granule of head buffer j. -/
def refillHead (s : State) (q : Nat) (x : Region) (j : Nat) (errs : List (Nat × Bool)) : State :=
  match sget (fun _ => none) (seqr s q).heads j with
  | none => s
  | some H =>
    let (g, s) := readGranule s x H.inst H.got.length errs
    let Q := seqr s q
    let H := { H with got := H.got ++ [g] }
    setSeqr s q { Q with heads := sset (fun _ => none) Q.heads j (some H), path := seeHead Q j H }

/-- The granule in progress is not complete in the cache: starvation is due (R334). -/
def starveDue (s : State) (q : Nat) : Bool :=
  let Q := seqr s q
  match Q.path with
  | F :: _ => flag s (PG_STAT.RUNNING q) && Q.starveFrom.isNone && decide (curGranule s Q < F.inst.len) &&
      (F.granule? (curGranule s Q)).isNone
  | [] => false

/-- What a sequencer's refill asks for next (R331): the main buffer (`none`) while it holds less than 16 µs of play, then a head
buffer, then the main buffer up to its size. A granule that is due already comes too late. -/
def refillTurn (s : State) (q : Nat) : Option (Option Nat) :=
  if (claimOf s q).isNone ∨ seqBusy s q = false ∨ starveDue s q then none
  else
    let Q := seqr s q
    let held := mainHeld s Q
    let more := (fetchAt Q.starveFrom.isSome 0 (extendPath Q)).isSome
    if held < 1600 ∧ more then some none
    else match headDue Q with
      | some j => some (some j)
      | none => if held < 6144 ∧ more then some none else none

/-- The granule that the main buffer takes next: the instance's place in the path, and its index in the instance. -/
def mainNext (Q : Sequencer) : Option (Inst × Nat) :=
  let st := Q.starveFrom.isSome
  let path := if (fetchAt st 0 Q.path).isSome then Q.path else extendPath Q
  match fetchAt st 0 path with
  | none => none
  | some k => path[k]?.map fun F => (F.inst, F.first + F.got.length)

/-- The address that the sequencer's refill reads next. -/
def refillAddr (s : State) (q : Nat) : Option Nat :=
  match claimOf s q, refillTurn s q with
  | some x, some none => (mainNext (seqr s q)).map fun (i, p) => storeAddr s x ((i.off + p) * 128)
  | some x, some (some j) =>
    (sget (fun _ => none) (seqr s q).heads j).map fun H => storeAddr s x ((H.inst.off + H.got.length) * 128)
  | _, _ => none

/-- One granule of refill (R331). -/
def refillRead (s : State) (q : Nat) (errs : List (Nat × Bool)) : State :=
  match claimOf s q, refillTurn s q with
  | some x, some none => refillMain s q x errs
  | some x, some (some j) => refillHead s q x j errs
  | _, _ => s

/-! ## Starting and stopping (R327, R328) -/

/-- A refused START. -/
def startRefuse (s : State) (q code : Nat) : State := setFld (sts s (PG_STAT.REF q)) (PG_STAT.REF_CODE q) code

def startTime (s : State) (q : Nat) : Nat := pair64 s (PG_START_T_LO.off q) (PG_START_T_HI.off q)

/-- START_PEND sets and refill begins at START_ENTRY; a nonzero time that has passed sets START_LATE. -/
def beginStart (s : State) (q : Nat) : State :=
  let Q := seqr s q
  let late := startTime s q ≠ 0 && passed64 (tNow s) (startTime s q)
  let s := setSeqr s q { Q with start := curWord s + 1, firstEdge := none, atOnce := startTime s q = 0 || late,
                                path := [freshFetch (readEntry Q (fld s (PG_CFG.START_ENTRY q)) 0)], fixed := false, ending := false,
                                heads := [], starveFrom := none, unplayed := 0, past := [], wasEdge := none,
                                outcomes := if Q.wasEdge.isSome then [] else Q.outcomes }
  let s := setFlag s (PG_STAT.START_PEND q) true
  if late then sts s (PG_STAT.START_LATE q) else s

/-- PG_START (R327). -/
def pgStart (s : State) (a : Access) (q : Nat) (v : W32) : State :=
  cmdWrite s a (PG_CMD.off q) v fun s =>
    if v.getLsbD 31 = false then s
    else if seqBusy s q then startRefuse s q 1
    else match claimOf s q with
      | none => startRefuse s q 1
      | some x =>
        let Q := seqr s q
        if (reach Q 5121 [fld s (PG_CFG.START_ENTRY q)] []).any fun e => entryBad x.size (readEntry Q e 0) then startRefuse s q 5
        else beginStart s q

def execPgStart (a : Access) (q : Nat) (v : W32) (s : State) : Host.Outcome State Fault Refusal := .next (pgStart s a q v)

/-- Head buffers of an entry that becomes current: none fetched, the content of each valid slot's target fixed (R330). -/
def loadHeads (Q : Sequencer) (i : Inst) : Store (Option Head) :=
  (List.range 4).foldl (fun h j =>
    if i.valid j then sset (fun _ => none) h j (some { inst := readEntry Q (i.target j) 0, got := [] }) else h) []

/-- PG_POS shows the current instance. -/
def showPos (s : State) (q : Nat) (i : Inst) : State := setFld (setFld s (PG_POS.ENTRY q) i.entry) (PG_POS.ITER q) i.iter

/-- SEQUENCER_FIRST_SAMPLE (R327): the word in progress is the first. -/
def sequencerFirstSample (s : State) (q : Nat) : State :=
  let Q := seqr s q
  match Q.path with
  | F :: _ =>
    if flag s (PG_STAT.START_PEND q) ∧ Q.start ≤ curWord s ∧ (Q.atOnce ∨ passed64 (wordT s) (startTime s q)) then
      let s := setSeqr s q { Q with start := curWord s, firstEdge := some (4 * curWord s), heads := loadHeads Q F.inst,
                                    past := [(0, F.inst)] }
      showPos (setFlag (setFlag s (PG_STAT.START_PEND q) false) (PG_STAT.RUNNING q) true) q F.inst
    else s
  | [] => s

def execSequencerFirstSample (q : Nat) (s : State) : Host.Outcome State Fault Refusal := .next (sequencerFirstSample s q)

/-- Samples from the first one to the start of a word (PG_TL). -/
def samplesTo (Q : Sequencer) (w : Nat) : Nat :=
  match Q.firstEdge with
  | some e => 16 * (w - e / 4)
  | none => 0

/-- Granules of the current instance, from `p` on, that have not played when `k` granules of it are over. -/
def countUnplayed (s : State) (q k : Nat) : State :=
  match (seqr s q).starveFrom with
  | some p =>
    let Q := seqr s q
    setSeqr (addCnt s (PG_STARVE_GR_CNT.COUNT q) (k - p)) q { Q with unplayed := Q.unplayed + (k - p) }
  | none => s

/-- Sample k of a granule. -/
def granuleSample (g : List Byte) (k : Nat) : BitVec 16 := BitVec.ofNat 16 (leNat ((g.drop (2 * k)).take 2))

/-- The sequencer's last sample played, when n samples of an instance have played. -/
def keepLast (Q : Sequencer) (F : Fetched) (n : Nat) : Sequencer :=
  if n = 0 then Q
  else match F.granule? ((n - 1) / 64) with
    | some g => { Q with last := granuleSample g ((n - 1) % 64) }
    | none => Q

/-- A running sequencer that does not starve has played its current instance up to word w. -/
def keepPlayed (s : State) (q w : Nat) : Sequencer :=
  let Q := seqr s q
  match Q.path with
  | F :: _ => if flag s (PG_STAT.RUNNING q) ∧ Q.starveFrom.isNone then keepLast Q F (16 * (w - Q.start)) else Q
  | [] => Q

/-- The sequencer stops from word w on (R328): latches and status clear, and notice 0x1004 follows; aux 0 by command, 1 by its
entry. A standby keeps the instances of a run that ended by its entry (R371). -/
def seqStop (s : State) (q w aux : Nat) : State :=
  let was := seqBusy s q
  let e := (match (seqr s q).path with
    | F :: _ => F.inst.entry
    | [] => 0)
  let s := countUnplayed s q ((w - (seqr s q).start + 3) / 4)
  let Q := keepPlayed s q w
  let n := samplesTo Q w
  let s := if flag s (PG_STAT.RUNNING q) then setPair64 s (PG_TL_LO.off q) (PG_TL_HI.off q) n else s
  let keep := isStandby s && aux = 1
  let s := setSeqr s q { Q with firstEdge := none, path := [], fixed := false, ending := false, heads := [], latch := [],
                                starveFrom := none, unplayed := 0, stopAt := none, past := if keep then Q.past else [],
                                outcomes := if keep then Q.outcomes else [], wasEdge := if keep then Q.firstEdge else none }
  let s := setFlag (setFlag (setFlag s (PG_STAT.RUNNING q) false) (PG_STAT.START_PEND q) false) (PG_STAT.STARVING q) false
  if was then pgPost s q 0x1004 aux e else s

/-- PG_STOP (R328): it acts from the next word on; a sequencer that neither runs nor starts only loses its latches. -/
def pgStop (s : State) (a : Access) (q : Nat) (v : W32) : State :=
  cmdWrite s a (PG_CMD.off q) v fun s =>
    if v.getLsbD 30 = false then s
    else if seqBusy s q then setSeqr s q { seqr s q with stopAt := some ((seqr s q).stopAt.getD (curWord s + 1)) }
    else seqStop s q (curWord s + 1) 0

/-- The stops whose word begins at the last edge act. -/
def endStops (s : State) : State :=
  forEach (List.range 4) s fun s q => match (seqr s q).stopAt with
    | some w => if w ≤ curWord s then seqStop s q w 0 else s
    | none => s

def execPgStop (a : Access) (q : Nat) (v : W32) (s : State) : Host.Outcome State Fault Refusal := .next (pgStop s a q v)

/-! ## The commit point (R333, R371) -/

/-- The commit word of the current instance. -/
def commitWord (Q : Sequencer) (i : Inst) : Nat := Q.start + 4 * i.len - 16

/-- The words in which the latch of slot j was set. -/
def latchWords (Q : Sequencer) (j : Nat) : List Nat := sget (fun _ => []) Q.latch j

/-- Slots whose latch was set before a word. -/
def takenSlots (Q : Sequencer) (c : Nat) : List Nat := (List.range 4).filter fun j => (latchWords Q j).any fun w => decide (w < c)

/-- The instance's word counted from the first sample. -/
def relWord (Q : Sequencer) : Nat := Q.start - (Q.firstEdge.getD 0) / 4

/-- The next instance is fixed: slot j's target from its head buffer, or what follows (R326, R329, R330). -/
def fixNext (Q : Sequencer) (F : Fetched) (j : Option Nat) : Sequencer :=
  match j with
  | some j =>
    let i := match sget (fun _ => none) Q.heads j with
      | some H => H.inst
      | none => readEntry Q (F.inst.target j) 0
    { Q with fixed := true, ending := false,
             path := [F, { inst := i, hlim := headLen i, hgot := [], first := headLen i, got := [], jump := some j }] }
  | none => { Q with fixed := true, ending := (follows F.inst).isNone }

/-- The latches that the commit word c takes are cleared, up to a request that arrived in it or later; the slots that are not the
jump are discarded and counted. -/
def takeLatches (s : State) (q c : Nat) (taken : List Nat) (jump : Option Nat) : State :=
  let Q := seqr s q
  let s := setSeqr s q { Q with latch := taken.foldl (fun l j =>
    sset (fun _ => []) l j ((latchWords Q j).filter fun w => decide (c ≤ w))) Q.latch }
  let n := taken.length - (if jump.isSome then 1 else 0)
  if n = 0 then s else sts (addCnt s (PG_JREQ_DISC_CNT.COUNT q) n) (PG_STAT.JREQ_DISC q)

/-- The commit word of the current instance has come and its next instance is not fixed. -/
def commitDue (s : State) (q : Nat) : Bool :=
  let Q := seqr s q
  match Q.path with
  | F :: _ => flag s (PG_STAT.RUNNING q) && !Q.fixed && decide (commitWord Q F.inst ≤ curWord s)
  | [] => false

/-- COMMIT_POINT (R333). A standby follows its active's outcome for the instance, where it has arrived (R371). -/
def commitPoint (s : State) (q : Nat) : State :=
  if commitDue s q = false then s
  else
    let Q := seqr s q
    match Q.path with
    | [] => s
    | F :: _ =>
      let taken := takenSlots Q (commitWord Q F.inst)
      let jump := if isStandby s then
          (match Q.outcomes.find? fun x => x.1 = relWord Q with
           | some (_, j) => j
           | none => none)
        else taken.find? F.inst.valid
      let s := if isStandby s then s else takeLatches s q (commitWord Q F.inst) taken jump
      let s := setSeqr s q (fixNext (seqr s q) F jump)
      let s := pairSend s (.commit q (relWord Q) jump)
      if jump.isSome then inc s (PG_JUMP_CNT.COUNT q) else s

def execCommitPoint (q : Nat) (s : State) : Host.Outcome State Fault Refusal := .next (commitPoint s q)

/-- The part of an instance with commit word c and end e in which word w lies: ahead of the commit point, from it on, or behind the end. -/
def latchPart (c e w : Nat) : Nat := if w < c then 0 else if w < e then 1 else 2

/-- A request sets a slot's latch in word w (R332), once in each part of the instance: its commit word takes what arrived ahead of it;
in the commit word or later in the instance, a request is deferred (R333).  A CLRREQ that acts in a later word clears it.  A
standby takes none (R371). -/
def setJump (s : State) (q j w : Nat) : State :=
  if isStandby s then s
  else
    let s := commitPoint s q
    let Q := seqr s q
    let (entry, c, e) := (match Q.path with
      | F :: _ => if flag s (PG_STAT.RUNNING q) then (F.inst.entry, commitWord Q F.inst, Q.start + 4 * F.inst.len) else (0, 0, 0)
      | [] => (0, 0, 0))
    let ws := latchWords Q j
    let put (l : List Nat) : State := setSeqr s q { Q with latch := sset (fun _ => []) Q.latch j l }
    if w < Q.clr then s
    else if ws.any fun x => latchPart c e x == latchPart c e w then
      put (ws.map fun x => if latchPart c e x == latchPart c e w then min x w else x)
    else
      let s := put (ws ++ [w])
      if latchPart c e w = 1 then pgPost (sts (inc s (PG_DEFER_CNT.COUNT q)) (PG_STAT.DEFERRED q)) q 0x1002 j entry else s

/-- PG_JUMP (R332): the first word after the write crosses is the next. -/
def pgJump (s : State) (a : Access) (q : Nat) (v : W32) : State :=
  cmdWrite s a (PG_CMD.off q) v fun s => forEach ((List.range 4).filter v.getLsbD) s fun s j => setJump s q j (curWord s + 1)

def execPgJump (a : Access) (q : Nat) (v : W32) (s : State) : Host.Outcome State Fault Refusal := .next (pgJump s a q v)

/-- PG_CLRREQ (R332): behind a commit point that is due already; like the other host writes it acts in the next word, ahead of what
arrives in that word (R214). -/
def pgClrreq (s : State) (a : Access) (q : Nat) (v : W32) : State :=
  cmdWrite s a (PG_CMD.off q) v fun s => if v.getLsbD 29 then (let s := commitPoint s q; setSeqr s q { seqr s q with latch := [], clr := curWord s + 1 }) else s

def execPgClrreq (a : Access) (q : Nat) (v : W32) (s : State) : Host.Outcome State Fault Refusal := .next (pgClrreq s a q v)

/-- JUMP_REQUEST_ARRIVAL (R332): a trigger's or GATE pin's request whose word has come, or the oldest PJUMP. -/
def jumpRequestArrival (s : State) (q : Nat) : State :=
  match s.play.jreqs.find? fun x => x.q = q && decide (x.edge ≤ 4 * curWord s) with
  | some x => setJump { s with play := { s.play with jreqs := s.play.jreqs.erase x } } q x.slot (curWord s)
  | none =>
    let is : Decision → Bool := fun d => match d with
      | .pjump x _ => x = q
      | _ => false
    match reached s is with
    | some (.pjump _ j, r) => setJump { s with fab := { s.fab with decs := r } } q j (curWord s)
    | _ => s

def execJumpRequestArrival (q : Nat) (s : State) : Host.Outcome State Fault Refusal := .next (jumpRequestArrival s q)

/-! ## Segment boundaries and starvation (R329, R334, R335) -/

/-- The instance that begins where the current one ends; none where its entry cannot be played. -/
def nextFetched (Q : Sequencer) (F : Fetched) : Option Fetched :=
  let N := match Q.path with
    | _ :: N :: _ => some N
    | _ => (follows F.inst).map fun (e, it) => freshFetch (readEntry Q e it)
  match N with
  | none => none
  | some N =>
    if N.inst.len < 8 then none
    else match N.jump with
      | none => some N
      | some j => some { N with hgot := (match sget (fun _ => none) Q.heads j with
          | some H => H.got
          | none => []) }

/-- An instance begins in word w: its heads load where its entry is new, and play goes on, resumes or goes on starving. -/
def beginInstance (s : State) (q w : Nat) (F N : Fetched) : State :=
  let Q := seqr s q
  let starving := Q.starveFrom.isSome
  let Q := if starving then Q else keepLast Q F (64 * F.inst.len)
  let here := (N.granule? 0).isSome
  let n := Q.unplayed
  let Q := { Q with start := w, path := N :: Q.path.drop 2, fixed := false, ending := false,
                    heads := if N.inst.entry = F.inst.entry then Q.heads else loadHeads Q N.inst,
                    starveFrom := if starving && !here then some 0 else none,
                    unplayed := if here then 0 else Q.unplayed }
  let Q := { Q with past := ((relWord Q, N.inst) :: Q.past).take 16 }
  let s := showPos (setSeqr s q Q) q N.inst
  let s := if isWaiting s (.pg q) then applyRegs s (.pg q) else s
  if starving && here then pgPost (setFlag s (PG_STAT.STARVING q) false) q 0x1003 0 (N.inst.entry + n * 2 ^ 64) else s

/-- SEGMENT_BOUNDARY (R329, R335): the instance after the current one begins, or the sequencer stops. -/
def segmentBoundary (s : State) (q : Nat) : State :=
  let Q := seqr s q
  match Q.path with
  | [] => s
  | F :: _ =>
    let w := Q.start + 4 * F.inst.len
    if flag s (PG_STAT.RUNNING q) = false ∨ Q.fixed = false ∨ curWord s < w then s
    else if Q.ending then seqStop s q w 1
    else match nextFetched Q F with
      | none => seqStop s q w 1
      | some N => beginInstance (countUnplayed s q F.inst.len) q w F N

def execSegmentBoundary (q : Nat) (s : State) : Host.Outcome State Fault Refusal := .next (segmentBoundary s q)

/-- The rest of the current instance is abandoned from granule p on (R334). -/
def starve (s : State) (q p : Nat) : State :=
  let Q := seqr s q
  match Q.path with
  | [] => s
  | F :: r =>
    let Q := keepLast Q F (64 * p)
    let s := setSeqr s q { Q with starveFrom := some p, unplayed := 0, path := { F with got := [], hgot := [] } :: r }
    let s := inc (sts (setFlag s (PG_STAT.STARVING q) true) (PG_STAT.STARVED q)) (PG_STARVE_CNT.COUNT q)
    pgPost s q 0x1001 0 (F.inst.entry + F.inst.iter * 2 ^ 16 + samplesTo Q (curWord s) * 2 ^ 64)

/-- GRANULE_STARVE (R334). -/
def granuleStarve (s : State) (q : Nat) : State := if starveDue s q then starve s q (curGranule s (seqr s q)) else s

def execGranuleStarve (q : Nat) (s : State) : Host.Outcome State Fault Refusal := .next (granuleStarve s q)

/-! ## A standby's late outcomes (R371) -/

/-- The instance in progress in word `now`, counted from the first sample, where instance i began in word w: each took the
outcome that has arrived, or none. -/
def position (Q : Sequencer) (now : Nat) : Nat → Nat → Inst → Option (Nat × Inst)
  | 0, w, i => some (w, i)
  | n + 1, w, i =>
    if i.len < 8 then none
    else if now < w + 4 * i.len then some (w, i)
    else
      let out := match Q.outcomes.find? fun x => x.1 = w with
        | some (_, j) => j
        | none => none
      match out with
      | some j => position Q now n (w + 4 * i.len) (readEntry Q (i.target j) 0)
      | none => match follows i with
        | some (e, it) => position Q now n (w + 4 * i.len) (readEntry Q e it)
        | none => none

/-- The position derived again takes the place of the one played so far; what it discards is starvation (R334, R335, R371). -/
def rePosition (s : State) (q e w w1 : Nat) (i1 : Inst) : State :=
  let Q := seqr s q
  let Q := { Q with start := w1 + e / 4, firstEdge := some e, wasEdge := none, path := [freshFetch i1], fixed := false, ending := false,
                    heads := loadHeads Q i1, past := ((w1, i1) :: Q.past.filter fun x => x.1 ≤ w).take 16, starveFrom := none }
  let s := setFlag (showPos (setSeqr s q Q) q i1) (PG_STAT.RUNNING q) true
  starve s q (curGranule s Q)

/-- A mirrored commit outcome: kept for its commit word; when that has passed and a jump was taken, the position is derived again, also
after the entry has stopped the sequencer. -/
def takeOutcome (s : State) (q w : Nat) (j : Option Nat) : State :=
  let Q := { seqr s q with outcomes := ((w, j) :: (seqr s q).outcomes).take 16 }
  let s := setSeqr s q Q
  let run := flag s (PG_STAT.RUNNING q)
  if flag s (PG_STAT.START_PEND q) ∨ (run ∧ w = relWord Q ∧ Q.fixed = false) then s
  else match j, Q.past.find? (fun x => x.1 = w), Q.firstEdge.orElse fun _ => Q.wasEdge with
    | some _, some (_, i), some e =>
      if run ∧ w = relWord Q then setSeqr s q (match Q.path with
        | F :: _ => fixNext Q F j
        | [] => Q)
      else match position Q (curWord s - e / 4) 64 w i with
        | some (w1, i1) =>
          if run ∧ w1 = relWord Q ∧ (Q.path.map (·.inst)).head? = some i1 then s else rePosition s q e w w1 i1
        | none => if run then seqStop s q (curWord s) 1 else s
    | _, _, _ => s

/-! ## Pin overrides (R336) -/

def pinOvr (s : State) (p : Nat) : Option Override := sget (fun _ => none) s.play.ovr p

/-- What stood in a pin's override state before its last changes. -/
def pinWas (s : State) (p : Nat) : List (Nat × Option Override) := sget (fun _ => []) s.play.ovrWas p

/-- A pin's override state is x from a sample on. -/
def setOvr (s : State) (p : Nat) (x : Option Override) (sample : Nat) : State :=
  { s with play := { s.play with ovr := sset (fun _ => none) s.play.ovr p x,
                                 ovrWas := sset (fun _ => []) s.play.ovrWas p (((sample, pinOvr s p) :: pinWas s p).take 8) } }

/-- A pin's override state at a sample. -/
def ovrAt (s : State) (p x : Nat) : Option Override :=
  match ((pinWas s p).takeWhile fun y => decide (x < y.1)).getLast? with
  | some y => y.2
  | none => pinOvr s p

/-- An override of a pin at its sample: DRIVE's act (R196), or nothing where the pin's enable bit is 0 by then. -/
def doOverride (s : State) (p act n sample : Nat) : State :=
  if overrideOn s p = false then inc s PG_OVR_REF_CNT.COUNT
  else setOvr s p (match act with
    | 0 => some .low
    | 1 => some .high
    | 2 => none
    | _ => some (.pulse sample (max 1 n))) sample

/-- The first of two requests: by sample, then triggers before host writes. -/
def ovrBefore (x y : OvrReq) : Bool := decide (x.sample < y.sample) || (decide (x.sample = y.sample) && decide (x.src < y.src))

/-- The request of a pin that is due first by sample `now`. -/
def ovrDue (p now : Nat) : List OvrReq → Option OvrReq
  | [] => none
  | x :: r =>
    if x.pin = p ∧ x.sample ≤ now then
      match ovrDue p now r with
      | some y => if ovrBefore y x then some y else some x
      | none => some x
    else ovrDue p now r

/-- The decision is a DRIVE of pin p. -/
def drivesPin (p : Nat) : Decision → Bool
  | .drive x _ _ => x = p
  | _ => false

/-- The oldest DRIVE of a pin takes effect at the first sample of the word that begins at the last edge, if it reached SCLK in the word
before and no engine can still issue one that goes before it (R198, R214). -/
def driveDue (s : State) (p : Nat) : Option OvrReq :=
  match s.fab.decs.find? fun x => drivesPin p x.d with
  | some ⟨c, e, .drive pin act n⟩ =>
    if s.pl.edge % 4 = 0 ∧ c < eclk s ∧ inOrder s ⟨c, e, .drive pin act n⟩ then some { pin := p, act := act, n := n, src := 2, sample := 16 * curWord s } else none
  | _ => none

/-- A request takes effect and leaves those on their way. -/
def takeOvr (s : State) (p : Nat) (x : OvrReq) : State :=
  if x.src = 2 then
    doOverride { s with fab := { s.fab with decs := ((takeDec (drivesPin p) s.fab.decs).map (·.2)).getD s.fab.decs } } p x.act x.n x.sample
  else doOverride { s with play := { s.play with ovrReqs := s.play.ovrReqs.erase x } } p x.act x.n x.sample

/-- The request of a pin that takes effect next: by sample, then triggers, host writes and decisions. -/
def ovrNext (s : State) (p : Nat) : Option OvrReq :=
  match ovrDue p (4 * s.pl.edge + 3) s.play.ovrReqs, driveDue s p with
  | some x, some y => if ovrBefore y x then some y else some x
  | some x, none => some x
  | none, y => y

/-- OVERRIDE_APPLY (R336): the next override of the pin whose sample has come, or lies in the period that starts at the last edge. -/
def overrideApply (s : State) (p : Nat) : State :=
  match ovrNext s p with
  | some x => takeOvr s p x
  | none => s

def execOverrideApply (p : Nat) (s : State) : Host.Outcome State Fault Refusal := .next (overrideApply s p)

/-- OVERRIDE_PULSE_END (R336). -/
def overridePulseEnd (s : State) (p : Nat) : State :=
  match pinOvr s p with
  | some (.pulse f n) => if f + n ≤ 4 * s.pl.edge then setOvr s p none (f + n) else s
  | _ => s

def execOverridePulseEnd (p : Nat) (s : State) : Host.Outcome State Fault Refusal := .next (overridePulseEnd s p)

/-- PG_OVR_CMD (R336): refused when the pin is absent or its enable bit is clear; else in force from the first sample of the
next word. -/
def pgOvrCmd (s : State) (a : Access) (v : W32) : State :=
  cmdWrite s a PG_OVR_CMD.off v fun s =>
    let p := fld s PG_OVR_CMD.PIN
    if v.getLsbD 31 = false then s
    else if pinPresent s p = false ∨ ownPin s p ≠ a.func ∨ overrideOn s p = false then inc s PG_OVR_REF_CNT.COUNT
    else
      let x : OvrReq := { pin := p, act := fld s PG_OVR_CMD.ACT, n := max 1 (fld s PG_OVR_CMD.N), src := 1,
                          sample := 16 * (curWord s + 1) }
      { s with play := { s.play with ovrReqs := s.play.ovrReqs ++ [x] } }

def execPgOvrCmd (a : Access) (v : W32) (s : State) : Host.Outcome State Fault Refusal := .next (pgOvrCmd s a v)

/-- Clearing an enable bit ends the pin's override at once. -/
def endDisabled (s : State) : State :=
  forEach (List.range 64) s fun s p => if (pinOvr s p).isSome ∧ overrideOn s p = false then setOvr s p none (4 * s.pl.edge) else s

/-! ## The level of a pin (R320 to R322) -/

/-- The advance of rate generator n's accumulator over the period that starts at the last edge (R338). -/
def rgAdv (s : State) (n : Nat) : Nat :=
  let freq := min (pair64 s (TT_RG_FREQ_LO.off n) (TT_RG_FREQ_HI.off n)) (2 ^ 53)
  (wrapInt 144 (Int.ofNat freq * (1024 * 2 ^ 40 + adjInt s.pl.adj))) / 2 ^ 40 % 2 ^ 64

def rgAcc (s : State) (n : Nat) : Nat := sget (fun _ => 0) s.play.acc n

/-- The output of rate generator n at sample k of that period. -/
def rgOut (s : State) (n k : Nat) : Bool :=
  let ph := (rgAcc s n + rgAdv s n * k / 4 + fld s (TT_RG_PHASE.PHASE n) * 2 ^ 32) % 2 ^ 64
  flag s (TT_RG_CFG.EN n) && decide (ph < 2 ^ 63)

/-- Bit of a sequencer's sample that a pin shows (R321). -/
def pinBit (p : Nat) : Nat := if p < 48 then p % 12 else 12 + (p - 48) % 4

/-- What a sequencer shows on a pin at sample k (0 to 3) of the period that starts at the last edge. -/
def seqLevel (s : State) (p k : Nat) : Bool :=
  let q := pinSeq p
  let Q := seqr s q
  if flag s (PG_STAT.RUNNING q) = false then flag s (PG_PIN_CFG.IDLE p)
  else if Q.starveFrom.isSome then
    match fld s (PG_PIN_CFG.STARVE p) with
    | 0 => false
    | 1 => true
    | _ => Q.last.getLsbD (pinBit p)
  else
    let n := 4 * (s.pl.edge - 4 * Q.start) + k
    match Q.path with
    | F :: _ => ((F.granule? (n / 64)).map fun g => (granuleSample g (n % 64)).getLsbD (pinBit p)).getD false
    | [] => false

/-- The outputs of the device are driven: not in reset or asleep, not a standby or fenced (table *Roles*), and on a new active from
the first word after the take-over edge (R366). -/
def drives (s : State) : Bool := !s.mt.inReset && !s.mt.asleep && !pairMuted s && decide (s.pr.outFrom ≤ curWord s)

/-- What pin p shows of the rate generator that it selects; nothing of one that another partition owns (R389). -/
def pinGen (s : State) (p k : Nat) : Bool :=
  let n := fld s (PG_PIN_CFG.RG p)
  ownRateGen s n = ownPin s p && rgOut s n k

/-- The level of output pin p at sample k of the period that starts at the last edge; none while high-impedance (R322). -/
def pinLevel (s : State) (p k : Nat) : Option Bool :=
  if drives s = false ∨ flag s (PG_PIN_CFG.OE p) = false then none
  else
    let x := 4 * s.pl.edge + k
    let rest := if flag s (PG_PIN_CFG.SRC p) then pinGen s p k else seqLevel s p k
    some (match ovrAt s p x with
      | some .low => false
      | some .high => true
      | some (.pulse f n) => if f ≤ x ∧ x < f + n then true else rest
      | none => rest)

end Sys2Proof.Machine
end

