-- ==== Sys2Proof/Machine/Channels.lean ====
section
/-! DEFINITION. The arbitration of the memory channels (11_capture_memory.md R236): which request a channel serves, and the commands
that stand for its accesses. -/

namespace Sys2Proof.Machine

/-! ## Requests -/

/-- The channel of a memory address. -/
def chanOf (a : Nat) : Nat := a / 2 ^ 36

/-- Where the oldest entry of a ring's write buffer is written; none where it takes no slot (R228, R231). -/
def writeRequest (s : State) (r : Nat) : Option Nat :=
  match (cring s r).inbox with
  | [] => none
  | x :: _ => match x.item with
    | .fill num part _ => match resvOf (cring s r) x.code with
      | some (k, n, p) => if n = num ∧ p = part then some (writeAddr s r k) else none
      | none => none
    | _ => if (cring s r).n = 0 ∨ mustStall s r then none else some (writeAddr s r (cring s r).wp)

/-- The slot that a ring's replay reads next, when its stream has come to it (R233, R239). -/
def readRequest (s : State) (r : Nat) : Option Nat :=
  match (cring s r).replay with
  | some R => if nextReplay s R.hring = some r then some (readAddr s r R.next) else none
  | none => none

/-- What a ring's copier reads and writes next (R234). -/
def copyRequest (s : State) (r : Nat) : List Nat :=
  let c := cring s r
  match c.mig with
  | none => []
  | some m =>
    let k := (m.start + m.copied) % c.n
    let x := ringRegion s r
    if inNew m c.n k then [] else [slotAddr s x.bind x.base k, slotAddr s m.bind m.base k]

/-- The requests of class 3 (table *Channel arbitration*): capture writes, replay reads, migration copies. -/
inductive Class3 where
  | wr
  | rd
  | cp
  deriving DecidableEq, Repr

/-- The addresses that a ring asks for in a part of class 3. -/
def requests (s : State) (r : Nat) : Class3 → List Nat
  | .wr => (writeRequest s r).toList
  | .rd => (readRequest s r).toList
  | .cp => copyRequest s r

/-- A request of a part of class 3 waits on a channel. -/
def waits3 (s : State) (n : Nat) (k : Class3) : Bool := (List.range 16).any fun r => (requests s r k).any fun a => chanOf a = n

/-! ## Shares (MC_SHARE) -/

/-- The weight of a part of class 3; 0 acts as 1. -/
def share (s : State) (n : Nat) : Class3 → Nat
  | .wr => max 1 (fld s (MC_SHARE.WR n))
  | .rd => max 1 (fld s (MC_SHARE.RD n))
  | .cp => max 1 (fld s (MC_SHARE.CP n))

/-- Accesses of a part that the running round has served. -/
def Chan.count (x : Chan) : Class3 → Nat
  | .wr => x.wr
  | .rd => x.rd
  | .cp => x.cp

/-- A part has some of its share of the running round left. -/
def hasShare (s : State) (n : Nat) (k : Class3) : Bool := decide ((chan s n).count k < share s n k)

/-- A request of class 2 waits on a channel, and MC_SHARE.PG_CAP lets it be served. -/
def turn2 (s : State) (n : Nat) : Bool :=
  fld s (MC_SHARE.PG_CAP n) ≠ 0 && decide ((chan s n).pgNext ≤ s.now * 2 ^ 16) &&
  (List.range 4).any fun q => (refillAddr s q).any fun a => chanOf a = n

/-- A part of class 3 is served: the channel is in service and no refill has its turn, and the part has share left or no other
part that waits has (R236). -/
def turn3 (s : State) (n : Nat) (k : Class3) : Bool :=
  trained s n && !turn2 s n && (hasShare s n k || [Class3.wr, .rd, .cp].all fun j => j == k || !(waits3 s n j && hasShare s n j))

/-- An access of a part of class 3 is served; where no share is left a new round begins. -/
def serve3 (s : State) (n : Nat) (k : Class3) : State :=
  let x := if hasShare s n k then chan s n else { chan s n with wr := 0, rd := 0, cp := 0 }
  setChan s n (match k with
    | .wr => { x with wr := x.wr + 1 }
    | .rd => { x with rd := x.rd + 1 }
    | .cp => { x with cp := x.cp + 1 })

/-- The channels that a ring's request of a part of class 3 needs, each once: a copy within one channel is one of CP there (log 19). -/
def neededChans (s : State) (r : Nat) (k : Class3) : List Nat := (List.range 4).filter ((requests s r k).map chanOf).contains

/-- A ring's request of a part of class 3 is served where every channel that it needs has come to it; one that needs none is
not held up. -/
def arbitrate (s : State) (r : Nat) (k : Class3) (f : State → State) : State :=
  let cs := neededChans s r k
  if cs.all fun n => turn3 s n k then f (forEach cs s fun s n => serve3 s n k) else s

/-! ## The accesses -/

/-- RING_WRITE (R226, R236, R379). -/
def ringWriteServed (s : State) (r : Nat) : State :=
  arbitrate s r .wr fun s =>
    let t := ringWrite s r
    if (cring t r).inbox.length < (cring s r).inbox.length then spliceWritten t r else t

def execRingWrite (r : Nat) (s : State) : Host.Outcome State Fault Refusal := .next (ringWriteServed s r)

/-- REPLAY_SLOT_READ (R233, R236). -/
def replayReadServed (s : State) (r : Nat) (errs : List (Nat × Bool)) : State :=
  arbitrate s r .rd fun s => replaySlotRead s r errs

def execReplaySlotRead (r : Nat) (errs : List (Nat × Bool)) (s : State) : Host.Outcome State Fault Refusal :=
  .next (replayReadServed s r errs)

/-- MIGRATION_COPY (R234, R236). -/
def copyServed (s : State) (r : Nat) (errs : List (Nat × Bool)) : State := arbitrate s r .cp fun s => migrationCopy s r errs

def execMigrationCopy (r : Nat) (errs : List (Nat × Bool)) (s : State) : Host.Outcome State Fault Refusal :=
  .next (copyServed s r errs)

/-- REFILL_READ (R331, R236): class 2, within MC_SHARE.PG_CAP: 128 bytes at PG_CAP × 100 MB/s. -/
def refillServed (s : State) (q : Nat) (errs : List (Nat × Bool)) : State :=
  match refillAddr s q with
  | none => s
  | some a =>
    let n := chanOf a
    if trained s n = false ∨ turn2 s n = false then s
    else
      let x := chan s n
      let from_ := max x.pgNext (s.now * 2 ^ 16)
      refillRead (setChan s n { x with pgNext := from_ + 2 ^ 27 / fld s (MC_SHARE.PG_CAP n) }) q errs

def execRefillRead (q : Nat) (errs : List (Nat × Bool)) (s : State) : Host.Outcome State Fault Refusal := .next (refillServed s q errs)

/-- SCRUB_READ (R220, R236): class 4, what the others leave. -/
def scrubRead (s : State) (n blk : Nat) (errs : List (Nat × Bool)) : State :=
  if scrubDue s n blk ∧ turn2 s n = false ∧ [Class3.wr, .rd, .cp].all (fun k => !waits3 s n k) then scrubBlock s n blk errs else s

def execScrubRead (n blk : Nat) (errs : List (Nat × Bool)) (s : State) : Host.Outcome State Fault Refusal := .next (scrubRead s n blk errs)

end Sys2Proof.Machine
end

