-- ==== Sys2Proof/Machine/Triggers.lean ====
section
/-! DEFINITION. Time triggers, the host gate, GATE pins and rate generators (16_playback_and_triggers.md R332, R338 to R344;
08_measurements.md R157). -/

namespace Sys2Proof.Machine

def trigger (s : State) (t : Nat) : Trigger := sget (fun _ => {}) s.play.trig t

def setTrigger (s : State) (t : Nat) (x : Trigger) : State :=
  { s with play := { s.play with trig := sset (fun _ => {}) s.play.trig t x } }

/-- A gate event reaches every user of the gate: markers, windows and measurement units. -/
def gateEvent (s : State) (id : Nat) (open_ : Bool) (t : Nat) : State := gateToMus (gateToGroups s id open_ t) id open_ t

/-- The low 64 bits of a grid time, which may lie before T = 0 where a late target lay that far ahead (R416). -/
def low64 (x : Int) : Nat := (x % 2 ^ 64).toNat

/-- A gate event at a trigger's grid time. -/
def gateAt (s : State) (id : Nat) (open_ : Bool) (x : Int) : State :=
  gateToMus (gateToGroups s id open_ (if x < 0 then low64 x else x.toNat)) id open_ x.toNat

/-! ## Arming (R340, R341, R343) -/

def ttTarget (s : State) (t : Nat) : Nat := fld s (TT_CFG.TARGET t)
def ttSel (s : State) (t : Nat) : Nat := fld s (TT_CFG.SEL t)
def ttArg (s : State) (t : Nat) : Nat := (reg s (TT_ARG.off t)).toNat
def ttCount (s : State) (t : Nat) : Nat := (reg s (TT_COUNT.off t)).toNat
def ttFirst (s : State) (t : Nat) : Nat := pair64 s (TT_T_LO.off t) (TT_T_HI.off t)
def ttNext (s : State) (t : Nat) : Nat := pair64 s (TT_NEXT_LO.off t) (TT_NEXT_HI.off t)
def ttPeriodic (s : State) (t : Nat) : Bool := flag s (TT_CFG.PERIODIC t)
def ttArmed (s : State) (t : Nat) : Bool := flag s (TT_STAT.ARMED t)

/-- TT_PERIOD, at least 16,384 ticks. -/
def ttPeriod (s : State) (t : Nat) : Nat := max 16384 (pair64 s (TT_PERIOD_LO.off t) (TT_PERIOD_HI.off t))

def setNext (s : State) (t x : Nat) : State := setPair64 s (TT_NEXT_LO.off t) (TT_NEXT_HI.off t) x

/-- The target is present and belongs to partition p (R343). -/
def targetOk (s : State) (p t : Nat) : Bool :=
  let sel := ttSel s t
  match ttTarget s t with
  | 1 => pinPresent s (sel % 64) && ownPin s (sel % 64) = p
  | 2 => bitsOf sel 5 4 < nSeqs s && ownSeq s (bitsOf sel 5 4) = p
  | 5 => sel % 256 < nEngines s && ownCluster s (sel % 256 / 16) = p
  | 6 => sel % 64 < nMus s && ownMu s (sel % 64) = p
  | _ => true

/-- The first fire T of a trigger armed at T `now`, and whether it is late: the latest grid point that has passed. -/
def firstFire (s : State) (t now : Nat) : Nat × Bool :=
  let x := ttFirst s t
  if passed64 now x = false then (x, false)
  else if ttPeriodic s t then
    let d := (now + 2 ^ 64 - x) % 2 ^ 64
    ((x + d / ttPeriod s t * ttPeriod s t) % 2 ^ 64, true)
  else (x, true)

/-- TT_ARM (R340, R341, R343). -/
def ttArm (s : State) (a : Access) (t : Nat) (v : W32) : State :=
  accept s a (TT_CTRL.off t) fun s =>
    if v.getLsbD 31 = false then s
    else if ttArmed s t then sts s (TT_STAT.WR_IGN t)
    else if targetOk s (ownTrigger s t) t = false then sts s (TT_STAT.REFUSED t)
    else
      let (x, late) := firstFire s t (tNow s)
      let T := trigger s t
      let s := setTrigger s t { T with fired := 0, late := late, lastGate := false, armedAt := s.pl.edge }
      setNext (setFlag s (TT_STAT.ARMED t) true) t x

def execTtArm (a : Access) (t : Nat) (v : W32) (s : State) : Host.Outcome State Fault Refusal := .next (ttArm s a t v)

/-- The trigger is disarmed. -/
def disarm (s : State) (t : Nat) : State := setNext (setFlag s (TT_STAT.ARMED t) false) t 0

/-- The trigger's gate closes at T x. -/
def closeTrigGate (s : State) (t : Nat) (x : Int) : State :=
  let T := trigger s t
  if T.gate.isSome then gateAt (setTrigger s t { T with gate := none }) (0x10 + t) false x else s

/-- TT_DISARM (R342): a gate that the trigger opened closes at the first PCLK edge after the write crosses. -/
def ttDisarm (s : State) (a : Access) (t : Nat) (v : W32) : State :=
  accept s a (TT_CTRL.off t) fun s =>
    if v.getLsbD 30 = false then s
    else
      let s := closeTrigGate (disarm s t) t (Int.ofNat (tNext s))
      setTrigger s t { trigger s t with lastGate := false }

def execTtDisarm (a : Access) (t : Nat) (v : W32) (s : State) : Host.Outcome State Fault Refusal := .next (ttDisarm s a t v)

/-! ## Firing (R340 to R343) -/

/-- A notice of trigger t, under TT_CFG.NOTICE_EN. -/
def ttPost (s : State) (t ty data : Nat) : State := if flag s (TT_CFG.NOTICE_EN t) then post s ty t (ttTarget s t) data else s

/-- The first sample whose instant is at or after T x (R320): of the period that ended at the last edge, or the one that starts
there. -/
def firstSampleAt (s : State) (x : Int) : Nat :=
  let inc : Int := 1024 * 2 ^ 40 + adjInt s.pl.adjLast
  let t0 : Int := Int.ofNat (s.pl.tc.toNat * 2 ^ 40 + s.pl.fc.toNat)
  let e := s.pl.edge
  if e = 0 ∨ x ≤ Int.ofNat s.pl.tc.toNat then 4 * e
  else match (List.range 4).find? fun k => decide (x * 2 ^ 42 ≤ 4 * t0 + Int.ofNat k * inc) with
    | some k => 4 * (e - 1) + k
    | none => 4 * e

/-- A fire whose effect cannot be applied (R343). -/
def fireRefused (s : State) (t : Nat) (x : Int) : State := ttPost (sts s (TT_STAT.REFUSED t)) t 0x1102 (low64 x)

/-- The message of a fire to an engine (table *Trigger targets*). -/
def trigMessage (t : Nat) (x : Int) : W64 := BitVec.ofNat 64 (0x7FF * 2 ^ 53 + t % 32 * 2 ^ 48 + low64 x % 2 ^ 48)

/-- The effect of a fire whose T is x (table *Trigger targets*). -/
def fireTarget (s : State) (t : Nat) (x : Int) : State :=
  let sel := ttSel s t
  let arg := ttArg s t
  match ttTarget s t with
  | 1 =>
    if overrideOn s (sel % 64) = false then fireRefused s t x
    else
      let r : OvrReq := { pin := sel % 64, act := 3, n := max 1 (arg % 2 ^ 16), src := 0, sample := firstSampleAt s x }
      { s with play := { s.play with ovrReqs := s.play.ovrReqs ++ [r] } }
  | 2 =>
    { s with play := { s.play with jreqs := s.play.jreqs ++ [{ q := bitsOf sel 5 4, slot := sel % 4, edge := s.pl.edge + 4 }] } }
  | 3 => strobeAt s 1 (ownTrigger s t) (arg % 2 ^ 16) s.pl.edge (tNow s)
  | 4 =>
    let s := closeTrigGate s t x
    let s := setTrigger s t { trigger s t with gate := some (if arg = 0 then none else some (x + Int.ofNat arg)) }
    gateAt s (0x10 + t) true x
  | 5 =>
    let (s', ok) := mailPost s (sel % 256) (256 + t) (eclk s) (trigMessage t x)
    if ok then s' else fireRefused s t x
  | 6 => muPostAt s (sel % 64) x.toNat .arm
  | _ => s

/-- What a fire at T x leaves armed (R340, R342): a periodic trigger goes on to its next grid point; a gate trigger ends its last
period at the gate's close.  A gate that an earlier arming with another TARGET left open is not this one's: it waits for DISARM. -/
def afterFire (s : State) (t : Nat) (x : Int) : State :=
  let done (s : State) : State := sts (disarm s t) (TT_STAT.DONE t)
  if ttPeriodic s t = false then done s
  else
    let nx := x + Int.ofNat (ttPeriod s t)
    let s := setNext s t (low64 nx)
    let T := trigger s t
    let n := T.fired
    if ttCount s t = 0 ∨ n < ttCount s t then s
    else match if ttTarget s t = 4 then T.gate else none with
      | some g => setTrigger s t { T with lastGate := true, gate := some (some (match g with
          | some c => min c nx
          | none => nx)) }
      | none => done s

/-- An armed trigger's fire is due at the last edge, which is later than its ARM; a late one at that edge whatever T has become
(R340, R341, R416). -/
def fireDue (s : State) (t : Nat) : Bool :=
  s.pl.running && ttArmed s t && !(trigger s t).lastGate && decide ((trigger s t).armedAt < s.pl.edge) &&
    ((trigger s t).late || passed64 (tNow s) (ttNext s t))

/-- A lower trigger fires at the same edge: it acts first (R343). -/
def lowerDue (s : State) (t : Nat) : Bool := (List.range t).any (fireDue s)

/-- A gate whose close lies at or before T x closes at its own T (R342). -/
def closeBy (s : State) (t : Nat) (x : Int) : State :=
  match (trigger s t).gate with
  | some (some c) => if c ≤ x then closeTrigGate s t c else s
  | _ => s

/-- TRIGGER_FIRE (R340 to R343). -/
def triggerFire (s : State) (t : Nat) : State :=
  if fireDue s t = false ∨ lowerDue s t then s
  else
    let x := passedT (tNow s) (ttNext s t)
    let s := closeBy s t x
    let T := trigger s t
    let s := inc (setTrigger s t { T with fired := T.fired + 1, late := false }) (TT_FIRE_CNT.COUNT t)
    let s := if T.late then ttPost (sts s (TT_STAT.LATE t)) t 0x1101 (low64 x) else s
    afterFire (fireTarget s t x) t x

def execTriggerFire (t : Nat) (s : State) : Host.Outcome State Fault Refusal := .next (triggerFire s t)

/-- TRIGGER_GATE_CLOSE (R342): the gate's close T has come; the last gate's close disarms the trigger. -/
def triggerGateClose (s : State) (t : Nat) : State :=
  match (trigger s t).gate with
  | some (some c) =>
    if Int.ofNat (tNow s) < c then s
    else
      let last := (trigger s t).lastGate
      let s := closeTrigGate s t c
      if last then sts (disarm (setTrigger s t { trigger s t with lastGate := false }) t) (TT_STAT.DONE t) else s
  | _ => s

def execTriggerGateClose (t : Nat) (s : State) : Host.Outcome State Fault Refusal := .next (triggerGateClose s t)

/-! ## The host gate (R344) -/

/-- A write of TT_HOST_GATE that asks for one change of the gate. -/
def hostGate (s : State) (open_ : Bool) (v : W32) : State :=
  if v.getLsbD 31 && v.getLsbD 30 || flag s TT_HOST_GATE.STATE == open_ then sts s TT_HOST_GATE.IGN
  else gateEvent (setFlag s TT_HOST_GATE.STATE open_) 0x40 open_ (tNext s)

/-- TT_HOST_GATE_OPEN (R344). -/
def ttHostGateOpen (s : State) (a : Access) (v : W32) : State :=
  cmdWrite s a TT_HOST_GATE.off v fun s => if v.getLsbD 31 then hostGate s true v else s

def execTtHostGateOpen (a : Access) (v : W32) (s : State) : Host.Outcome State Fault Refusal := .next (ttHostGateOpen s a v)

/-- TT_HOST_GATE_CLOSE (R344). -/
def ttHostGateClose (s : State) (a : Access) (v : W32) : State :=
  cmdWrite s a TT_HOST_GATE.off v fun s => if v.getLsbD 30 then hostGate s false v else s

def execTtHostGateClose (a : Access) (v : W32) (s : State) : Host.Outcome State Fault Refusal := .next (ttHostGateClose s a v)

/-! ## GATE pins (R157, R332) -/

/-- The slots of sequencer q that GATE pin n requests. -/
def gateSlots (s : State) (q n : Nat) : List Nat :=
  (List.range 4).filter fun j =>
    let b := bitsOf (reg s (PG_GATEJ.off q)).toNat (8 * j + 7) (8 * j)
    b.testBit 7 && b % 16 = n

/-- The jump requests of an opening edge. -/
def gateJumps (s : State) (n : Nat) : List JReq :=
  (List.range (nSeqs s)).flatMap fun q => (gateSlots s q n).map fun j => { q := q, slot := j, edge := s.pl.edge + 4 }

/-- GATE_PIN_EDGE (R157): the synchronised level of the pin changes at the last PCLK edge; while PCLK does not run the level is only
taken over. -/
def gatePinEdge (s : State) (n : Nat) (level : Bool) : State :=
  if nGates s ≤ n ∨ s.inp.gatePins.testBit n = level then s
  else
    let pins := if level then s.inp.gatePins + 2 ^ n else s.inp.gatePins - 2 ^ n
    let s := { s with inp := { s.inp with gatePins := pins } }
    if s.pl.running = false then s else
    let s := gateEvent s n level (tNow s)
    if level then { s with play := { s.play with jreqs := s.play.jreqs ++ gateJumps s n } } else s

def execGatePinEdge (pin : Nat) (level : Bool) (s : State) : Host.Outcome State Fault Refusal := .next (gatePinEdge s pin level)

/-! ## Rate generators (R338, R339) -/

/-- A committed set of the generators is applied at the start of a word: A of every generator that it covers becomes 0 at its first
sample. -/
def restartGens (s : State) : State :=
  let m := s.bus.ttLatched
  forEach ((List.range 16).filter m.testBit) { s with bus := { s.bus with ttLatched := 0 } } fun s n =>
    let s := { s with play := { s.play with acc := sset (fun _ => 0) s.play.acc n 0 } }
    let s := setPair64 s (TT_RG_APPLY_T_LO.off n) (TT_RG_APPLY_T_HI.off n) (tNow s)
    setFlag (bump s (TT_RG_STAT.SEQ n)) (TT_RG_STAT.RUNNING n) (flag s (TT_RG_CFG.EN n))

/-- Every accumulator advances over the period that ends at the next edge (R338). -/
def advanceGens (s : State) : State :=
  let acc := (List.range 16).foldl (fun m n => sset (fun _ => 0) m n ((rgAcc s n + rgAdv s n) % 2 ^ 64)) s.play.acc
  { s with play := { s.play with acc := acc } }

end Sys2Proof.Machine
end

