-- ==== Sys2Proof/Machine/Pair.lean ====
section
/-! DEFINITION. Mirrored pairs and failover (18_mirrored_pairs.md): the cast link, heartbeats, roles and take-over, alignment,
Casts and mirrored events, splicing.  PR_STAT.ROLE is stored as 0, 1, 3 or 4; a standby that meets R382 reads as 2. -/

namespace Sys2Proof.Machine

def setPr (s : State) (x : Pair) : State := { s with pr := x }

def role (s : State) : Nat := fld s PR_STAT.ROLE

/-- A notice of the pair, under PR_CFG.NOTICE_EN. -/
def prPost (s : State) (ty aux data : Nat) : State := if flag s PR_CFG.NOTICE_EN then post s ty 0 aux data else s

/-- The pair-enable fuse (R360). -/
def pairFuse (s : State) : Bool := (shadow s 4).testBit 18

/-- The capture rings that PR_SPLICE_RING names. -/
def spliceRings (s : State) : List Nat := (List.range 16).filter (fld s PR_SPLICE_RING.RING).testBit

/-- The standby is ready: ROLE 2 (R382). -/
def ready (s : State) : Bool :=
  isStandby s && flag s PR_STAT.ALIGNED && s.pr.castOk && (spliceRings s).all fun r => flag s (CR_STAT.RUNNING r)

/-- What this device tells its partner at training (R360). -/
def identity (s : State) : Identity := { ft0512 := s.ft0512, revision := 0x11, device := deviceId s }

/-- The partner's identity bars pairing (R360). -/
def mismatch (s : State) (p : Identity) : Bool :=
  p.ft0512 != (identity s).ft0512 || p.revision ≠ (identity s).revision || p.device = (identity s).device

/-- OWN_IN has been low for 2 µs. -/
def ownLow (s : State) : Bool := !flag s PR_STAT.OWN_IN && decide (s.pr.ownSince + usTicks 2 ≤ s.now)

/-! ## The outgoing link (R362) -/

/-- The class of a message: heartbeats, then events, then Casts. -/
def msgClass : LinkMsg → Nat
  | .heartbeat _ => 0
  | .event _ => 1
  | .stamp _ => 1
  | .line _ => 2
  | .castEnd _ _ => 2

/-- The message that goes next: the oldest of the first class that waits. -/
def nextMsg (q : List LinkMsg) : Option LinkMsg :=
  ([0, 1, 2].findSome? fun c => q.find? fun m => msgClass m = c)

/-- Ticks of 625 ps that a message takes the link for: a line of 256 bytes at 25 Gb/s a lane, any other one XCLK cycle (log 23). -/
def msgTime (s : State) (m : LinkMsg) : Nat :=
  match m with
  | .line _ => (131072 / max 1 (fld s PR_LINK.WIDTH) + 999) / 1000
  | .heartbeat _ => 5
  | .event _ => 5
  | .stamp _ => 5
  | .castEnd _ _ => 5

/-- The heartbeat that leaves now (R363): the sender's role, T at sending and its last complete Cast. -/
def heartbeatNow (s : State) (yields tookOver : Bool) : Heartbeat :=
  { role := if ready s then 2 else role s, t := t64 s, castSeq := fld s PR_CAST_STAT.SEQ, yields := yields, tookOver := tookOver,
    aligning := s.pr.align.isSome }

/-- A message as it is sent: a heartbeat that has waited carries the values at its sending. -/
def sentAs (s : State) : LinkMsg → LinkMsg
  | .heartbeat h => .heartbeat (heartbeatNow s h.yields h.tookOver)
  | m => m

/-- The link takes its next message once it is free of the last one (R362). -/
def linkStep (s : State) : State :=
  if flag s PR_STAT.LINK_UP = false ∨ s.now < s.pr.linkBusy then s
  else match nextMsg s.pr.linkQ with
    | some m => setPr s { s.pr with linkQ := s.pr.linkQ.erase m, linkBusy := s.now + msgTime s m, linkSent := some (s.now, sentAs s m) }
    | none => s

/-! ## Heartbeats (R363) -/

/-- A heartbeat goes to the link. -/
def sendHeartbeat (s : State) (yields tookOver : Bool) : State :=
  let h := heartbeatNow s yields tookOver
  setPr s { s.pr with hbSent := some (s.now, h), linkQ := s.pr.linkQ ++ [.heartbeat h] }

/-- Heartbeat intervals of 163.84 ns that have passed by a time. -/
def hbIndex (now : Nat) : Nat := now * 625 / 163840

/-- HEARTBEAT_SEND (R363): one in each interval while the link runs. -/
def heartbeatSend (s : State) : State :=
  let due : Bool := match s.pr.hbSent with
    | some (t, _) => decide (hbIndex t < hbIndex s.now)
    | none => true
  if due && flag s PR_STAT.LINK_UP && pairFuse s then sendHeartbeat s false false else s

def execHeartbeatSend (s : State) : Host.Outcome State Fault Refusal := .next (heartbeatSend s)

/-! ## Roles (R364 to R367) -/

/-- The cut finders of a new active start at its first edge (R378). -/
def freshCuts (s : State) : State :=
  setPr s { s.pr with cuts := (List.range (nGroups s)).foldl (fun m g => sset (fun _ => {}) m g { last := tNow s }) [] }

/-- A Cast in progress is cut off: it is never applied (R369).  What it carried, or an end word that has not left, is to be sent
again. -/
def cutCast (s : State) : State :=
  let lost : Option Bool := s.pr.linkQ.findSome? fun m => match m with
    | .castEnd _ full => some full
    | _ => none
  setPr s { s.pr with castAt := none, castNext := none, resync := s.pr.resync || (s.pr.castAt.isSome && s.pr.castFull) || lost = some true,
                      castFull := false, castPrev := if lost.isSome then none else s.pr.castPrev,
                      linkQ := s.pr.linkQ.filter fun m => msgClass m < 2 }

/-- The role, with what the stream bindings make of it; an active that leaves its role cuts its Cast off. -/
def newRole (s : State) (r : Nat) : State :=
  let s := if role s = 3 ∧ r ≠ 3 then cutCast s else s
  loseStrayAsides (rebindAll (setFld s PR_STAT.ROLE r))

/-- A change of role, which the servo follows. -/
def setRole (s : State) (r : Nat) : State := netConfig s (newRole s r)

/-- Mirrored engines of a standby are held halted (R369). -/
def holdMirrored (s : State) : State :=
  forEach (List.range (nEngines s)) s fun s e => if heldHalted s e ∧ active (engine s e) then haltEngine s e 1 0 else s

/-- The device becomes a standby of ROLE 1: for ROLE 2 a first Cast after a RESYNC is to come (R382). -/
def becomeStandby (s : State) : State := holdMirrored (setRole (setPr s { s.pr with castOk := false }) 1)

/-- The device leaves the active role (R367): outputs stop, OWN_OUT falls, a yield heartbeat goes out, and a Cast in progress is cut
off. -/
def leaveActive (s : State) (r : Nat) : State :=
  let s := holdMirrored (setRole s r)
  let s := setPr s { s.pr with forced := false, elected := none, castOk := false }
  if flag s PR_STAT.LINK_UP then sendHeartbeat s true false else s

/-- PR_YIELD (R367): active only. -/
def prYield (s : State) (a : Access) (v : W32) : State :=
  cmdWrite s a PR_CMD.off v fun s => if v.getLsbD 29 ∧ role s = 3 then leaveActive s 1 else s

def execPrYield (a : Access) (v : W32) (s : State) : Host.Outcome State Fault Refusal := .next (prYield s a v)

/-- PR_CFG.EN comes into force: the device becomes active or a standby (R364). -/
def elect (s : State) : State :=
  let bad : Bool := match s.pr.partner with
    | some p => mismatch s p
    | none => false
  if pairFuse s = false ∨ bad then s
  else
    let s := setPr s { s.pr with hbAt := some (s.pr.hbAt.getD s.now) }
    if (fld s MT_STRAP.STRAP).testBit 0 ∧ ownLow s ∧ s.pr.activeSeen = false then
      freshCuts (setRole (setPr s { s.pr with elected := some s.now, forced := false }) 3)
    else becomeStandby s

/-- An alignment or measurement in progress is given up. -/
def dropAlign (s : State) : State :=
  if s.pr.align.isNone then s
  else setFlag (setFlag (setPr s { s.pr with align := none }) PR_CMD.ALIGN false) PR_CMD.MEASURE false

/-- A committed set of the PR registers is applied (R364). A fenced device stays so until it is reset (R367, R383). -/
def applyPr (s : State) : State :=
  let was := flag s PR_CFG.EN
  let s := applyRegs s .pr
  let s := if role s = 4 then s
    else if !was && flag s PR_CFG.EN then elect s
    else if was && !flag s PR_CFG.EN then dropAlign (setRole (setPr s { s.pr with elected := none, forced := false }) 0)
    else s
  holdMirrored s

/-! ## Alignment kept and lost (R376) -/

/-- The heartbeat's T and this device's differ by more than the link's latency + 2 ns. -/
def hbSkewed (s : State) (h : Heartbeat) : Bool :=
  let d := signedOf 64 (wrapInt 64 (Int.ofNat (t64 s).toNat - Int.ofNat h.t.toNat))
  decide (Int.ofNat ((fld s PR_LINK.LAT + 2) * 16384) < 10 * Int.ofNat d.natAbs)

/-- Two devices met the conditions of R364 in the same heartbeat interval, and the partner's device ID is lower.  This device found OWN_IN
low when it was elected, so that an active partner's heartbeat within the 2 µs before R367 fences both tells of an election in the
same interval, however long the link has held it (DEDUCED, log 23). -/
def losesElection (s : State) (h : Heartbeat) : Bool :=
  h.role = 3 && role s = 3 &&
  match s.pr.elected, s.pr.partner with
  | some t, some p => decide (s.now ≤ t + usTicks 2) && decide (p.device < deviceId s)
  | _, _ => false

/-- A standby that has lost the heartbeat sees OWN_IN high: it does not take over (R365). -/
def splitCheck (s : State) : State :=
  if isStandby s && s.pr.hbLost ≠ 0 && flag s PR_STAT.OWN_IN then
    prPost (alarm (sts s PR_STAT.SPLIT) IR_ALARM_STAT.PAIR) 0x1303 2 0
  else s

/-- Heartbeat loss is declared (R363, R365): cause 1 timeout, 2 yield. A yield does not bar the declaration of a later silence. -/
def pairLoss (s : State) (cause : Nat) : State :=
  if s.pr.hbLost = 1 ∨ s.pr.hbLost = cause then s
  else
    let s := sts (setPr s { s.pr with hbLost := cause }) PR_STAT.HB_LOST
    splitCheck (if isStandby s && !ready s then prPost (alarm s IR_ALARM_STAT.PAIR) 0x1303 1 0 else s)

/-- What a heartbeat leaves of a declared loss: a yield stands until an active partner is heard again, a timeout ends. -/
def lossAfter (s : State) (h : Heartbeat) : Nat :=
  if h.yields ∨ (h.role ≠ 3 ∧ s.pr.hbLost = 2) then s.pr.hbLost else 0

/-- The coarse offset that a heartbeat gives, partner minus this device (R373, step 2): its T and the link's latency, 1 ns being
8,192/5 ticks, against T at its arrival. -/
def heartbeatOffset (s : State) (h : Heartbeat) : Int :=
  signedOf 64 (wrapInt 64 (Int.ofNat (h.t.toNat + fld s PR_LINK.LAT * 8192 / 5) - Int.ofNat (t64 s).toNat))

/-- HEARTBEAT_RECEIVE (R363, R364, R367, R376). -/
def heartbeatReceive (s : State) (h : Heartbeat) : State :=
  if flag s PR_STAT.LINK_UP = false ∨ pairFuse s = false then s
  else
    let s := if isStandby s && hbSkewed s h then alignLost s else s
    let s := setPr s { s.pr with hbAt := some s.now, activeSeen := h.role = 3 && !h.yields, hbLost := lossAfter s h,
                                 hbOff := some (heartbeatOffset s h), partnerAligns := h.aligning }
    if h.yields then pairLoss s 2
    else if h.tookOver && role s = 3 then leaveActive s 1
    else if losesElection s h then becomeStandby s
    else s

def execHeartbeatReceive (h : Heartbeat) (s : State) : Host.Outcome State Fault Refusal := .next (heartbeatReceive s h)

/-- HEARTBEAT_LOSS (R363, R365): no valid heartbeat for 2 µs. -/
def heartbeatLoss (s : State) : State :=
  match s.pr.hbAt with
  | some t => if role s ≠ 0 ∧ t + usTicks 2 ≤ s.now then pairLoss s 1 else s
  | none => s

def execHeartbeatLoss (s : State) : Host.Outcome State Fault Refusal := .next (heartbeatLoss s)

/-- OWN_IN_CHANGE (R364, R365). -/
def ownInChange (s : State) (level : Bool) : State :=
  if flag s PR_STAT.OWN_IN = level then s
  else splitCheck (setPr (setFlag s PR_STAT.OWN_IN level) { s.pr with ownSince := s.now })

def execOwnInChange (level : Bool) (s : State) : Host.Outcome State Fault Refusal := .next (ownInChange s level)

/-- An active device sees OWN_IN high for 2 µs: it is fenced, unless it became active by force (R367). -/
def fenceDue (s : State) : Bool :=
  role s = 3 && flag s PR_STAT.OWN_IN && !s.pr.forced && decide (s.pr.ownSince + usTicks 2 ≤ s.now)

def fence (s : State) : State :=
  if fenceDue s then alarm (sts (leaveActive s 4) PR_STAT.SPLIT) IR_ALARM_STAT.PAIR else s

/-! ## Frontiers and splicing (R378, R379) -/

/-- A frontier of the last complete Cast. -/
def pairFront (s : State) (g : Nat) : Option Nat := sget (fun _ => none) s.pr.fronts g

/-- The least of the frontiers that groups have. -/
def minFront (s : State) (gs : List Nat) : Option Nat :=
  gs.foldl (fun (m : Option Nat) g => match m, pairFront s g with
    | some a, some b => some (min a b)
    | none, b => b
    | a, none => a) none

/-- Lane groups that one of the device's streams names as a source. -/
def exportedGroups (s : State) : List Nat :=
  (List.range (nGroups s)).filter fun g => (List.range 64).any fun h =>
    flag s (PK_CFG.EN h) && srcBit s (PK_SRC_LO.off h) (PK_SRC_HI.off h) (PK_SRC_DQ.off h) g

/-- The lane groups of a splice ring. -/
def ringGroups (s : State) (r : Nat) : List Nat :=
  (exportedGroups s).filter fun g => srcBit s (CR_SRC_LO.off r) (CR_SRC_HI.off r) (CR_SRC_DQ.off r) g

def spliceOf (s : State) (r : Nat) : List (Nat × Nat) := sget (fun _ => []) s.pr.splice r

/-- SPLICE_WP_RECORD (R379): a multiple of 2^26 ticks has come. -/
def spliceWpRecord (s : State) : State :=
  let k := tNow s / 2 ^ 26
  if isStandby s = false ∨ k ≤ s.pr.spliceAt then s
  else
    let sp := (spliceRings s).foldl (fun m r => sset (fun _ => []) m r (((k, (cring s r).wp) :: spliceOf s r).take 256)) s.pr.splice
    setPr s { s.pr with splice := sp, spliceAt := k }

def execSpliceWpRecord (s : State) : Host.Outcome State Fault Refusal := .next (spliceWpRecord s)

/-- The recorded WP from which a splice ring replays: that of the latest multiple at or below every frontier of its groups, or
the oldest. -/
def splicePoint (s : State) (r : Nat) : Option Nat :=
  let l := spliceOf s r
  let best : Option (Nat × Nat) := match minFront s (ringGroups s r) with
    | some f => l.find? fun x => decide (x.1 * 2 ^ 26 ≤ f)
    | none => none
  ((best.orElse fun _ => l.getLast?)).map (·.2)

/-- An entry that ring r has still to take goes to more destinations. -/
def alsoTo (r : Nat) (hs : List Dest) (e : QEntry) : QEntry :=
  if e.left.contains (.ring r) then { e with left := e.left ++ hs.filter fun d => !e.left.contains d } else e

/-- What a splice ring has still to take goes to the live streams of its groups too: it will not be in the replay (R379). -/
def giveLive (s : State) (r : Nat) : State :=
  forEach (List.range (nGroups s)) s fun s g =>
    let hs := (destsOf s g).filter fun d => match d with
      | .stream _ => true
      | .ring _ => false
    let q := (group s g).queue
    if q.any (fun e => e.left.contains (.ring r)) then
      setGroup s g { group s g with queue := q.map (alsoTo r hs) }
    else s

/-- A splice ring's mark is set at its splice point, and its replay starts, which covers what the ring has taken so far: where its write
buffer holds entries, the replay latches its range when the last of them is written, each in its channel's turn (R236, R379).  The
frontiers of its groups wait for it (R378). -/
def spliceReplay (s : State) (r : Nat) : State :=
  let s := giveLive s r
  match splicePoint s r with
  | none => s
  | some w =>
    let c := cring s r
    if c.n = 0 then s
    else
      let k := min ((c.wp + c.n - w % c.n) % c.n) (min c.fill (c.n - 1))
      let s := setCring s r { c with m := (c.wp + c.n - k) % c.n, k := k, skip := 0, overran := false }
      let h := fld s (CR_REPLAY.HRING r)
      let s := setFlag (setPr s { s.pr with splicing := s.pr.splicing ++ [(r, h)] }) (CR_STAT.MARK_SET r) true
      if c.inbox.isEmpty then startReplay s r else setCring s r { cring s r with splice := some c.inbox.length }

/-- C, the first time from `lo` on with no stamp within W of it. -/
def quiet (W : Nat) : Nat → List Nat → Nat
  | c, [] => c
  | c, x :: r => if x + W < c then quiet W c r else if c + W < x then c else quiet W (x + W + 1) r

/-- CUT_PLACE (R378): the first quiet time at least 2^16 ticks after the previous cut, once P_g has passed it and its guard;
with it, the SEQ after the last tile that the group has sealed. -/
def cutPlace (s : State) (g : Nat) : State :=
  let x := cutOf s g
  let W := max 1 (fld s PR_CFG.CUT_GUARD)
  let c := quiet W (x.last + 2 ^ 16) x.times
  if role s ≠ 3 ∨ nGroups s ≤ g ∨ (exportedGroups s).contains g = false ∨ progress s g ≤ c + W then s
  else
    let q := fld s (LG_SEQ.SEQ g)
    let x := { x with last := c, times := x.times.filter fun t => c < t, cuts := x.cuts ++ [(c, q)] }
    if x.done.isNone ∧ q = 0 ∧ splicing s g = false then setCut s g { x with cuts := [], front := some c }
    else settleCut (setCut s g x) g

def execCutPlace (g : Nat) (s : State) : Host.Outcome State Fault Refusal := .next (cutPlace s g)

/-! ## Take-over (R365, R366) -/

/-- Mirrored engines start at their casted PC, their registers kept (R369). -/
def startMirrored (s : State) : State :=
  forEach (List.range (nEngines s)) s fun s e =>
    if (reg s (PR_CV_MIRROR.off (e / 32))).toNat.testBit (e % 32) then startAt s e (engine s e).pc false else s

/-- The servo starts from the mirrored state (R366), in whose STATE it goes on; without one it starts as R306 says.  A Sync is awaited
from now on.  A mapping is mirrored by its anchors alone: no provisional mapping, frequency measurement or lock run of the device's own
goes on, and a mirrored lock, quarantine or AWAIT without an anchor goes on in ACQUIRING (log 21). -/
def adoptServo (old s : State) : State :=
  match s.pr.servo with
  | none => netConfig old s
  | some x =>
    if flag s TP_CFG.EN = false then netConfig old s
    else
      let bare := !flag s TP_STAT.ANCHORED
      let st := if bare ∧ 3 ≤ x.state ∧ x.state ≤ 5 then 2 else x.state
      let s := setTp s { s.tp with i := x.i, samples := x.samples, parent := x.parent,
                                   td := if st = x.state then x.td else none, pathQ := if st = x.state then x.path else none,
                                   acq := st = 2 ∨ (st = 6 ∧ bare), prov := none, freq := none, freqDone := false, lockRun := 0,
                                   syncAt := some s.now, quar := x.quar.map fun y => { ok := y.1, raw := y.2 } }
      setServo (showParent s (x.parent.getD (List.replicate 10 0))) st

/-- The take-over edge (R366): cause 1 heartbeat, 2 yield, 3 force. -/
def takeOver (s : State) (cause : Nat) : State :=
  let s := setPair64 s PR_TAKE_T_LO.off PR_TAKE_T_HI.off (tNow s)
  let s := setPr s { s.pr with forced := cause = 3, elected := none, outFrom := curWord s + 1,
                                     hbLost := if s.pr.hbLost = 2 then 0 else s.pr.hbLost, castPrev := none, splicing := [] }
  let s := dropAlign { s with play := { s.play with ovr := [], ovrWas := [] } }
  let s := startMirrored (freshCuts (adoptServo s (newRole s 3)))
  let s := forEach (spliceRings s) s spliceReplay
  let s := sts (inc s PR_TAKEOVER_CNT.COUNT) PR_STAT.TAKEOVER
  let s := prPost s 0x1301 cause (fld s PR_CAST_STAT.SEQ + (((minFront s (List.range 64)).getD (2 ^ 64 - 1)) % 2 ^ 64) * 2 ^ 32)
  if flag s PR_STAT.LINK_UP then sendHeartbeat s false true else s

/-- TAKEOVER (R365): a ready standby that has lost the heartbeat, OWN_IN low for 2 µs. -/
def takeover (s : State) : State := if ready s ∧ s.pr.hbLost ≠ 0 ∧ ownLow s then takeOver s s.pr.hbLost else s

def execTakeover (s : State) : Host.Outcome State Fault Refusal := .next (takeover s)

/-- A guarded write of PR_FORCE (R367). -/
def forceWrite (s : State) (v : W32) : State := if v = 1 ∧ isStandby s ∧ flag s PR_STAT.ALIGNED then takeOver s 3 else s

/-! ## The cast link (R360, R362) -/

/-- CAST_LINK_TRAIN (R360, R362): identities are exchanged; lanes in use are 4, 2 or 1, and 0 when training fails. -/
def castLinkTrain (s : State) (lanes lat : Nat) (p : Identity) : State :=
  let w := if 4 ≤ lanes then 4 else if 2 ≤ lanes then 2 else lanes
  if pairFuse s = false ∨ w = 0 ∨ s.mt.inReset ∨ s.mt.asleep then s
  else
    let s := setFld (setFld (setFlag s PR_STAT.LINK_UP true) PR_LINK.WIDTH w) PR_LINK.LAT (min lat 255)
    let s := prPost (setPr s { s.pr with partner := some p }) 0x1302 1 w
    if mismatch s p then
      let s := sts s PR_STAT.MISMATCH
      if role s = 0 ∨ role s = 4 then s else setRole s 0
    else s

def execCastLinkTrain (lanes lat : Nat) (p : Identity) (s : State) : Host.Outcome State Fault Refusal :=
  .next (castLinkTrain s lanes lat p)

/-- CAST_LINK_DROP (R362): the link drops, or drops and runs again on fewer lanes. What waits for a link that is down is given up, a
Cast in progress with it (log 23). -/
def castLinkDrop (s : State) (lanes : Nat) : State :=
  if flag s PR_STAT.LINK_UP = false then s
  else
    let w := if 2 ≤ lanes then 2 else lanes
    let s := alarm (sts (setFld s PR_LINK.WIDTH w) PR_STAT.LINK_DOWN) IR_ALARM_STAT.PAIR
    if w = 0 then
      let s := cutCast s
      prPost (setPr (setFlag s PR_STAT.LINK_UP false) { s.pr with linkQ := [], partnerAligns := false }) 0x1302 0 0
    else prPost s 0x1302 1 w

def execCastLinkDrop (lanes : Nat) (s : State) : Host.Outcome State Fault Refusal := .next (castLinkDrop s lanes)

/-- LINK_RETRANSMIT (R362). -/
def linkRetransmit (s : State) : State := if flag s PR_STAT.LINK_UP then inc s PR_RETX_CNT.COUNT else s

def execLinkRetransmit (s : State) : Host.Outcome State Fault Refusal := .next (linkRetransmit s)

/-! ## Alignment (R373, R375) -/

/-- Differences kept: each within 1 ns of the running mean of those before it. Sum and count. -/
def keepPairs : List Int → Int × Nat → Int × Nat
  | [], x => x
  | d :: r, (a, n) =>
    if n ≠ 0 ∧ 16384 * Int.ofNat n < 10 * Int.ofNat (d * Int.ofNat n - a).natAbs then keepPairs r (a, n)
    else keepPairs r (a + d, n + 1)

/-- The mean difference in units of 2^-8 tick, and the pairs used; no mean where too few remain. -/
def meanDiff (s : State) (diffs : List Int) : Option Int × Nat :=
  let m := alignPulses s
  let (a, n) := keepPairs (diffs.take m) (0, 0)
  if 16 * n < 15 * m then (none, n) else (some ((512 * a + Int.ofNat n).fdiv (2 * Int.ofNat n)), n)

/-- The differences, active minus standby, of the standby's stamps that pair with one of the active's within 10 ns (16,384 ticks) of
the coarse offset (R373, step 4). -/
def pairStamps (off : Int) : List Nat → List Nat → List Int
  | [], _ => []
  | x :: r, ys =>
    match ys.find? fun y => (Int.ofNat y - Int.ofNat x - off).natAbs ≤ 16384 with
    | some y => (Int.ofNat y - Int.ofNat x) :: pairStamps off r (ys.erase y)
    | none => pairStamps off r ys

/-- The mean difference of the pulses that both devices have stamped, from the heartbeats' coarse offset. -/
def measured (s : State) (own act : List Nat) : Option Int × Nat := meanDiff s (pairStamps (s.pr.hbOff.getD 0) own act)

/-- The run has stamped its 2^P pulses (R373, step 3). -/
def pulsesDone (s : State) (x : AlignRun) : Bool := decide (alignPulses s ≤ x.own.length)

/-- The run ends with an outcome. -/
def endAlign (s : State) (outcome pairs : Nat) : State :=
  let s := setFlag (setFlag (setPr s { s.pr with align := none }) PR_CMD.ALIGN false) PR_CMD.MEASURE false
  setFld (setFld s PR_ALIGN_STAT.OUTCOME outcome) PR_ALIGN_STAT.PAIRS (min pairs 65535)

/-- PR_ALIGN_RES takes a mean, saturating. -/
def setAlignRes (s : State) (d : Int) : State :=
  setReg s PR_ALIGN_RES.off (BitVec.ofInt 32 (max (-(2 ^ 31)) (min (2 ^ 31 - 1) d)))

/-- PR_ALIGN (R373): refused with outcome 2, or begun with the active's ADJ adopted, applied as R372 applies a value. -/
def prAlign (s : State) (a : Access) (v : W32) (adj : BitVec 48) : State :=
  cmdWrite s a PR_CMD.off v fun s =>
    if v.getLsbD 31 = false ∨ s.pr.align.isSome then s
    else if isStandby s = false ∨ flag s PR_STAT.LINK_UP = false ∨ flag s PL_STAT.EMITTED ∨ flag s PL_CTRL.ORIGIN_WAIT = false ∨
        s.pr.activeSeen = false then
      setFld s PR_ALIGN_STAT.OUTCOME 2
    else
      let s := takeAdj s adj (tNow s + 2 ^ 24)
      setFlag (setPr s { s.pr with align := some { measure := false, residual := false, pairs := 0, at_ := s.now, own := [] } }) PR_CMD.ALIGN true

def execPrAlign (a : Access) (v : W32) (adj : BitVec 48) (s : State) : Host.Outcome State Fault Refusal := .next (prAlign s a v adj)

/-- ALIGN_OFFSET_DONE (R373): the mean of the first pulses, from both devices' stamps of them, is added to T and F by an origin load. -/
def alignOffsetDone (s : State) (p : Pulses) : State :=
  match s.pr.align with
  | some x =>
    if x.measure ∨ x.residual ∨ pulsesDone s x = false then s
    else match measured s x.own p.act with
      | (none, n) => endAlign s 5 n
      | (some d, n) =>
        let y := Int.ofNat (s.pl.t.toNat * 2 ^ 40 + s.pl.f.toNat) + d * 2 ^ 32
        let s' := if y < 0 then sts s PL_STAT.ORIGIN_REFUSED else originLoad s (y.toNat / 2 ^ 40) (y.toNat % 2 ^ 40)
        if s'.pl.originDone = s.pl.originDone then endAlign s' 4 n
        else setPr s' { s'.pr with align := some { x with residual := true, pairs := n, at_ := s.now, own := [] }, hbOff := some 0 }
  | none => s

def execAlignOffsetDone (p : Pulses) (s : State) : Host.Outcome State Fault Refusal := .next (alignOffsetDone s p)

/-- ALIGN_COMPLETE (R373). -/
def alignComplete (s : State) (p : Pulses) : State :=
  match s.pr.align with
  | some x =>
    if x.residual = false ∨ pulsesDone s x = false then s
    else match measured s x.own p.act with
      | (none, n) => endAlign s 5 n
      | (some d, n) =>
        let s := setFlag (endAlign (setAlignRes s d) 1 n) PR_STAT.ALIGNED true
        prPost s 0x1304 1 (reg s PR_ALIGN_RES.off).toNat
  | none => s

def execAlignComplete (p : Pulses) (s : State) : Host.Outcome State Fault Refusal := .next (alignComplete s p)

/-- PR_MEASURE (R375). -/
def prMeasure (s : State) (a : Access) (v : W32) : State :=
  cmdWrite s a PR_CMD.off v fun s =>
    if v.getLsbD 30 = false ∨ s.pr.align.isSome then s
    else if isStandby s = false ∨ flag s PR_STAT.ALIGNED = false then setFld s PR_ALIGN_STAT.OUTCOME 2
    else setFlag (setPr s { s.pr with align := some { measure := true, residual := false, pairs := 0, at_ := s.now, own := [] } }) PR_CMD.MEASURE true

def execPrMeasure (a : Access) (v : W32) (s : State) : Host.Outcome State Fault Refusal := .next (prMeasure s a v)

/-- MEASURE_COMPLETE (R375): the mean goes to PR_ALIGN_RES, and T stays. -/
def measureComplete (s : State) (p : Pulses) : State :=
  match s.pr.align with
  | some x =>
    if x.measure = false ∨ pulsesDone s x = false then s
    else match measured s x.own p.act with
      | (none, n) => endAlign s 5 n
      | (some d, n) => endAlign (setAlignRes s d) 1 n
  | none => s

def execMeasureComplete (p : Pulses) (s : State) : Host.Outcome State Fault Refusal := .next (measureComplete s p)

/-- ALIGN_PULSE_TIMEOUT (R373, PR_ALIGN_STAT): the pulses have not come within 1 s. -/
def alignPulseTimeout (s : State) : State :=
  match s.pr.align with
  | some x => if x.at_ + msTicks 1000 ≤ s.now then endAlign s 3 0 else s
  | none => s

def execAlignPulseTimeout (s : State) : Host.Outcome State Fault Refusal := .next (alignPulseTimeout s)

/-! ## Casts (R369) -/

/-- CAST_PERIOD, at least 1 µs, in units of 625 ps. -/
def castPeriod (s : State) : Nat := usTicks (max 1 (fld s PR_CFG.CAST_PERIOD))

/-- The servo state that a Cast carries. -/
def castServo (s : State) : CastServo :=
  { state := servoState s, i := s.tp.i, samples := s.tp.samples, parent := s.tp.parent, td := s.tp.td,
    quar := s.tp.quar.map fun q => (q.ok, q.raw), path := s.tp.pathQ }

/-- The engines marked in PR_CV_MIRROR. -/
def mirrored (s : State) : List Nat :=
  (List.range (nEngines s)).filter fun e => (reg s (PR_CV_MIRROR.off (e / 32))).toNat.testBit (e % 32)

/-- F_g: a group with no export stream has none (R378). -/
def frontOfGroup (s : State) (g : Nat) : Option Nat := if (exportedGroups s).contains g then (cutOf s g).front else none

/-- The lines of Cast state but local memory. -/
def castCore (s : State) : List CastLine :=
  .servo (castServo s) ::
  ((List.range 2).map fun h => .fronts h ((List.range 32).map fun i => frontOfGroup s (32 * h + i))) ++
  (mirrored s).map fun e => .regs e (engine s e).pc ((List.range 32).map (greg (engine s e)))

/-- A line of an engine's local memory. -/
def lmemLine (s : State) (e k : Nat) : CastLine := .lmem e k (mreadBytes 0 (engine s e).lmem (256 * k) 256)

/-- The local-memory lines of engine e that hold something, or did at the last Cast. -/
def lmemHeld (s : State) (prev : List CastLine) (e : Nat) : List Nat :=
  let was : List Nat := prev.filterMap fun l => match l with
    | .lmem x k _ => if x = e then some k else none
    | _ => none
  let mem : Mem := (engine s e).lmem
  (mem.map (fun (x : Host.Cell) => x.1 / 256) ++ was).eraseDups

/-- The lines that a Cast carries: every line when it is full, else those that have changed since the last one (R369). -/
def castLines (s : State) (full : Bool) : List CastLine :=
  let prev := s.pr.castPrev.getD []
  if full then castCore s ++ (mirrored s).flatMap fun e => (List.range 512).map (lmemLine s e)
  else (castCore s ++ (mirrored s).flatMap fun e => (lmemHeld s prev e).map (lmemLine s e)).filter fun l => !prev.contains l

/-- The lines from which the next Cast tells what has changed. -/
def castImage (s : State) : List CastLine := castCore s ++ (mirrored s).flatMap fun e => (lmemHeld s [] e).map (lmemLine s e)

/-- CAST_START (R369): the active starts a Cast when one is due and none runs; its lines go to the link.  Every line goes behind a RESYNC
and in the first Cast. -/
def castStart (s : State) : State :=
  let due : Bool := match s.pr.castLast with
    | some t => decide (t + castPeriod s ≤ s.now)
    | none => true
  if role s = 3 && flag s PR_STAT.LINK_UP && s.pr.castAt.isNone && due then
    setPr s { s.pr with castAt := some s.now, castLast := some s.now, castFull := s.pr.resync, resync := false,
                        castNext := some (castImage s),
                        linkQ := s.pr.linkQ ++ (castLines s (s.pr.resync || s.pr.castPrev.isNone)).map .line }
  else s

def execCastStart (s : State) : Host.Outcome State Fault Refusal := .next (castStart s)

/-- A line of the running Cast waits for the link. -/
def linesWait (s : State) : Bool := s.pr.linkQ.any fun m => msgClass m = 2

/-- CAST_END (R369): behind the last line goes the end word; the Cast is counted, its duration recorded and judged; a Cast that is
overdue starts. -/
def castEnd (s : State) : State :=
  match s.pr.castAt with
  | none => s
  | some t =>
    if linesWait s ∨ role s ≠ 3 then s else
    let us := (s.now - t) / usTicks 1
    let s := inc (setPr s { s.pr with castAt := none, castPrev := s.pr.castNext, castNext := none }) PR_CAST_CNT.COUNT
    let s := setFld (bump s PR_CAST_STAT.SEQ) PR_CAST_STAT.AGE (min us 65535)
    let s := setPr s { s.pr with linkQ := s.pr.linkQ ++ [.castEnd (fld s PR_CAST_STAT.SEQ) s.pr.castFull] }
    let s := if t + 2 * castPeriod s < s.now then prPost (sts s PR_STAT.CAST_LAG) 0x1305 0 (us % 2 ^ 32) else s
    castStart s

def execCastEnd (s : State) : Host.Outcome State Fault Refusal := .next (castEnd s)

/-- An engine's casted lines go into the halted engine (R369). -/
def applyCastEngine (s : State) (x : CastEngine) : State :=
  if heldHalted s x.e = false ∨ nEngines s ≤ x.e then s
  else
    let E := engine s x.e
    setEngine s x.e { E with pc := x.pc % 4096, g := x.regs.foldl (fun m y => sset (fun _ => 0) m (y.1 % 32) y.2) E.g,
                             lmem := x.lmem.foldl (fun m y => mset 0 m (y.1 % 131072) y.2) E.lmem }

/-- CAST_END_RECEIVE (R369): the standby applies the lines of the Cast together. -/
def castEndReceive (s : State) (x : Cast) : State :=
  if isStandby s = false ∨ flag s PR_STAT.LINK_UP = false then s
  else
    let fr := x.fronts.foldl (fun m y => sset (fun _ => none) m y.1 y.2) s.pr.fronts
    let s := setPr s { s.pr with fronts := fr, castApplied := some s.now, castOk := s.pr.castOk || x.full,
                                 servo := match x.servo with
                                   | some v => some v
                                   | none => s.pr.servo }
    x.engines.foldl applyCastEngine (inc (setFld s PR_CAST_STAT.SEQ x.seq) PR_CAST_CNT.COUNT)

def execCastEndReceive (x : Cast) (s : State) : Host.Outcome State Fault Refusal := .next (castEndReceive s x)

/-- PR_RESYNC (R369, R382): every line counts as changed; a standby waits for the complete Cast. -/
def prResync (s : State) (a : Access) (v : W32) : State :=
  cmdWrite s a PR_CMD.off v fun s => if v.getLsbD 28 then setPr s { s.pr with resync := true, castOk := false } else s

def execPrResync (a : Access) (v : W32) (s : State) : Host.Outcome State Fault Refusal := .next (prResync s a v)

/-! ## Mirrored events (table *Mirrored state*) -/

/-- A mirrored decision is on its way to its target. -/
def mirrorDec (s : State) (d : Decision) : State :=
  { s with fab := { s.fab with decs := insertDec { cyc := eclk s, eng := 256, d := d } s.fab.decs } }

/-- T at the last even edge: a value whose time it has reached is past its edge (R372). -/
def lastEvenT (s : State) : Nat := if s.pl.edge % 2 = 0 then tNow s else s.pl.tc.toNat

/-- PAIR_EVENT_RECEIVE (R368, R371, R372, R376). -/
def pairEventReceive (s : State) (ev : PairEvent) : State :=
  if isStandby s = false ∨ flag s PR_STAT.LINK_UP = false then s
  else match ev with
    | .maq off v => setMaq s off v
    | .strobe mask t => setPr s { s.pr with strobes := s.pr.strobes ++ [{ mask := mask, t := t, late := decide (t ≤ tNow s), arrived := s.pl.edge }] }
    | .adj v t =>
      let s := setPr s { s.pr with activeAdj := some v }
      takeAdj (if t ≤ lastEvenT s then alignLost s else s) v t
    | .anchor k ta sec ns frac adj reason => putAnchor s k { ta := ta, sec := sec, ns := ns, frac := frac, adj := adj, reason := reason }
    | .veto g => mirrorDec s (.veto g)
    | .mark r => mirrorDec s (.mark r)
    | .gate c o t =>
      let s := setCluster s c { cluster s c with gateT := t }
      mirrorDec (setFlag s (CC_GATE_STAT.OPEN c) o) (.gate c o t)
    | .muarm u t => mirrorDec s (.muarm u t)
    | .commit q w j => takeOutcome s q w j
    | .pllLoss => alignLost s

def execPairEventReceive (ev : PairEvent) (s : State) : Host.Outcome State Fault Refusal := .next (pairEventReceive s ev)

/-- PARTNER_STROBE (R295): the oldest partner strobe whose T has come, limited to MQ_PAIR_CFG.ACCEPT; late ones set PAIR_LATE. -/
def partnerStrobe (s : State) : State :=
  match s.pr.strobes with
  | [] => s
  | x :: r =>
    if tNow s < x.t ∨ (x.late ∧ s.pl.edge = x.arrived) then s
    else
      let s := setPr s { s.pr with strobes := r }
      let m := x.mask &&& fld s MQ_PAIR_CFG.ACCEPT
      if m = 0 then s
      else strobeAt (if x.late then sts s MQ_STAT.PAIR_LATE else s) 3 0 m s.pl.edge (tNow s)

def execPartnerStrobe (s : State) : Host.Outcome State Fault Refusal := .next (partnerStrobe s)

end Sys2Proof.Machine
end

