-- ==== Sys2Proof/Machine/Armature.lean ====
section
/-! DEFINITION. Programming of the Armature's fuses (19_armature_partitions.md R393 to R395); ownership and rights are in
Machine/Ops.lean and Machine/Bus.lean. -/

namespace Sys2Proof.Machine

/-- A row of the fuse array itself. -/
def fuseRow (s : State) (row : Nat) : W32 := sget (fun _ => 0) s.ar.array row

/-- FUSE_VPP has been in its range for 1 ms (AR_STAT.VPP_OK). -/
def vppOk (s : State) : Bool :=
  match s.ar.vppSince with
  | some t => decide (t + msTicks 1 ≤ s.now)
  | none => false

def progRes (s : State) (outcome : Nat) : State := setFld s AR_PROG_RES.OUTCOME outcome

/-- A guarded write of AR_PROG_CMD (R393, R394): a run starts, or is refused. -/
def progCmd (s : State) (v : W32) : State :=
  let row := fld s AR_PROG_ROW.ROW
  if v ≠ 1 then s
  else if vppOk s = false then progRes s 4
  else if row < 4 ∨ 53 < row then progRes s 5
  else if (fuseRow s 4).getLsbD 31 then progRes s 6
  else if s.ar.run.isSome then progRes s 7
  else setFlag { s with ar := { s.ar with run := some (row, reg s AR_PROG_DATA.off), runAt := s.now, stop := false } } AR_STAT.PROG_BUSY true

/-- A guarded write of AR_PROG_ROW or AR_PROG_DATA: without effect while a run is in progress (R394). -/
def progSet (s : State) (off : Nat) (v : W32) : State :=
  if s.ar.run.isSome then sts s AR_STAT.BUSY_IGN else setReg s off v

/-- Fuses are blown: bits only rise (R384). -/
def blow (s : State) (row : Nat) (bits : W32) : State :=
  { s with ar := { s.ar with array := sset (fun _ => 0) s.ar.array row (fuseRow s row ||| bits) } }

/-- Number of ones of a word. -/
def ones (w : W32) : Nat := ((List.range 32).filter w.getLsbD).length

/-- Bits that the run in progress blows: every marked bit that is still 0, or as far as the one in progress when it was stopped
(R393, R394). -/
def runBits (s : State) (row : Nat) (data : W32) : Nat :=
  let n := ones (data &&& ~~~fuseRow s row)
  if s.ar.stop then min n ((s.ar.stopAt - s.ar.runAt) / usTicks 20 + 1) else n

/-- FUSE_PROG_COMPLETE (R393, R394): 20 µs for each bit have passed; of the bits that the run blew `blown` names those that took, and the
row is sensed. -/
def fuseProgComplete (s : State) (blown : W32) : State :=
  match s.ar.run with
  | none => s
  | some (row, data) =>
    let k := runBits s row data
    if s.now < s.ar.runAt + usTicks 20 * k ∨ k < ones (data &&& blown &&& ~~~fuseRow s row) then s else
    let stop := s.ar.stop
    let s := blow s row (data &&& blown)
    let s := { s with ar := { s.ar with run := none, stop := false } }
    let s := setReg (setFlag s AR_STAT.PROG_BUSY false) AR_PROG_VERIFY.off (fuseRow s row)
    progRes s (if stop then 3 else if data &&& fuseRow s row = data then 1 else 2)

def execFuseProgComplete (blown : W32) (s : State) : Host.Outcome State Fault Refusal := .next (fuseProgComplete s blown)

/-- A run in progress ends after the bit in progress (R394). -/
def stopProg (s : State) : State :=
  if s.ar.run.isSome ∧ s.ar.stop = false then { s with ar := { s.ar with stop := true, stopAt := s.now } } else s

/-- FUSE_VPP_CHANGE (R393, R394). -/
def fuseVppChange (s : State) (inRange : Bool) : State :=
  if inRange then { s with ar := { s.ar with vppSince := some (s.ar.vppSince.getD s.now) } }
  else stopProg { s with ar := { s.ar with vppSince := none } }

def execFuseVppChange (inRange : Bool) (s : State) : Host.Outcome State Fault Refusal := .next (fuseVppChange s inRange)

/-! ## The debug port (R391) -/

/-- The instructions of the JTAG port: the IEEE 1149.1 and 1149.6 boundary-scan instructions, and the private ones by a number. -/
inductive JtagInstr where
  | bypass
  | idcode
  | samplePreload
  | extest
  | extestPulse
  | extestTrain
  | priv (n : Nat)
  deriving DecidableEq, Repr

/-- The instruction that the port carries out for one shifted in: under DBG_LOCK every private one acts as BYPASS (R391). -/
def jtagActs (s : State) (i : JtagInstr) : JtagInstr :=
  match i with
  | .priv _ => if (shadow s 4).testBit 16 then .bypass else i
  | .bypass | .idcode | .samplePreload | .extest | .extestPulse | .extestTrain => i

end Sys2Proof.Machine
end

