-- ==== Sys2Proof/Machine/Power.lean ====
section
/-! DEFINITION. Power, reset, start-up, the datapath flush, sleep and wake (20_power_reset_mitten.md), and the main PLL's
events. -/

namespace Sys2Proof.Machine

/-! ## What a reset leaves (R397, R402, R409) -/

/-- The entries of a table that belong to a block. -/
def blockPart (b : Nat) (m : Store W32) : Store W32 := m.filter fun x => x.1 / 0x10000 = b

/-- The fuse array as a reset finds it: which marked bits a run had blown is open (R394). -/
def arrayAtReset (s : State) : Store W32 × Nat :=
  match s.ar.run with
  | some (row, data) =>
    ((blow s row (data &&& BitVec.ofNat 32 (Config.badWord s.free).toNat)).ar.array, s.free + 1)
  | none => (s.ar.array, s.free)

/-- Every block at its reset values but MT; the pending commands, the clock of the model, host memory, the flash, the fuse array
and the levels of input pins stay (R402, R409). -/
def hardReset (s : State) : State :=
  let (arr, fr) := arrayAtReset s
  { pending := s.pending, now := s.now, free := fr, ft0512 := s.ft0512,
    bus := { regs := blockPart 20 s.bus.regs, maq := blockPart 20 s.bus.maq, com := blockPart 20 s.bus.com },
    inp := { gatePins := s.inp.gatePins },
    fab := { creditFrom := fclk s / 32 },
    cal := { slotA := s.cal.slotA, slotB := s.cal.slotB },
    ar := { array := arr, vppSince := s.ar.vppSince },
    host := { mem := s.host.mem },
    pr := { ownSince := s.pr.ownSince },
    mt := { s.mt with sleepReq := none, entry := none, flushAt := none, resume := false, resumeAt := none, woke := false, refWait := false } }

/-- OWN_IN is a pin: its level stays. -/
def resetKeepPins (s : State) : State := setFlag (hardReset s) PR_STAT.OWN_IN (flag s PR_STAT.OWN_IN)

/-- The device is held in reset (R397): T restarts at 0, and a sleep ends. -/
def enterReset (s : State) : State :=
  let t := setFld (resetKeepPins s) MT_SRST.DATAPATH 0
  { t with mt := { t.mt with inReset := true, asleep := false, sleep := none } }

/-- RESET_ASSERT (R397, R407): RST_N or PERST_N falls; one that ends a sleep is recorded as its cause. -/
def resetAssert (s : State) : State :=
  let asleep := s.mt.asleep
  let s := enterReset s
  if asleep then setReg s MT_WAKE_CAUSE.off 0x400 else s

def execResetAssert (s : State) : Host.Outcome State Fault Refusal := .next (resetAssert s)

/-- RAIL_BELOW_THRESHOLD (R397): a full reset, sleep included. -/
def railBelowThreshold (s : State) : State := enterReset s

def execRailBelowThreshold (s : State) : Host.Outcome State Fault Refusal := .next (railBelowThreshold s)

/-- VAON_BELOW_THRESHOLD (R397): the Mitten island loses power too. -/
def vaonBelowThreshold (s : State) : State :=
  let s := enterReset s
  { s with mt := { s.mt with vaon := false } }

def execVaonBelowThreshold (s : State) : Host.Outcome State Fault Refusal := .next (vaonBelowThreshold s)

/-- POWER_ON (R397, R402): VAON power-on resets everything, Mitten included; the fuse array and the flash stay. The device is held
in reset until its release. -/
def powerOn (s : State) : State :=
  let t := enterReset s
  { t with bus := { t.bus with regs := t.bus.regs.filter fun x => x.1 / 0x10000 ≠ 20, maq := [], com := [] }
           mt := { inReset := true, refAt := s.now, refGone := s.mt.refGone } }

def execPowerOn (s : State) : Host.Outcome State Fault Refusal := .next (powerOn s)

/-- VDDIO_SUPPLY_WARNING (R91, R394): a store write and a fuse run stop after the operation in progress. -/
def vddioSupplyWarning (s : State) : State := stopProg (stopStoreWrite s)

def execVddioSupplyWarning (s : State) : Host.Outcome State Fault Refusal := .next (vddioSupplyWarning s)

/-! ## Start-up (R384, R398 to R400, R218) -/

/-- The fuse shadows are sensed, and what follows from them is shown (R384, R391, R392). -/
def senseFuses (s : State) : State :=
  let s := { s with ar := { s.ar with shadow := s.ar.array } }
  let s := setFlag (setFlag s AR_STAT.LOADED true) AR_STAT.FINAL ((shadow s 4).testBit 31)
  let s := setFlag s CA_STORE_STAT.LOCKED ((shadow s 4).testBit 17)
  let x := BitVec.ofNat 32 (0xFE000000 + deviceId s)
  let s := setReg s TP_CLOCK_ID_LO.off x
  setCom (setMaq s TP_CLOCK_ID_LO.off x) TP_CLOCK_ID_LO.off x

/-- A module's SPD hub answers: a supported organisation starts to train (R218). -/
def spdFound (s : State) (x : Spd) : State :=
  if nChans s ≤ x.chan then s
  else
    let s := setReg s (MC_ORG.off x.chan) x.org
    let s := setFlag (setFlag s (MC_STAT.PRESENT x.chan) true) (MC_STAT.SPD x.chan) true
    if orgOk s x.chan then startTrain s x.chan else s

/-- What start-up does at once after a reset release or a wake (R399, R400). -/
def startUp (s : State) (b : Boot) : State :=
  let s := { s with bus := { s.bus with releasedAt := s.now }, cal := { s.cal with op := some (.load true) },
                    mt := { s.mt with refWait := s.mt.refGone, refBack := s.mt.refBack && !b.strap.getLsbD 3 } }
  let s := setFlag (senseFuses s) CA_STORE_STAT.WRITE_BUSY true
  let s := setFld s MT_STRAP.STRAP b.strap.toNat
  let s := if b.strap.getLsbD 3 then setFlag s MT_STAT.SRC_LPO true else s
  b.spd.foldl spdFound (setLink s b.width b.speed)

/-- RESET_RELEASE (R398). -/
def resetRelease (s : State) (b : Boot) : State :=
  if s.mt.inReset = false ∨ s.mt.vaon = false then s
  else startUp (setFld { s with mt := { s.mt with inReset := false } } MT_SLEEP_RES.OUTCOME 0) b

def execResetRelease (b : Boot) (s : State) : Host.Outcome State Fault Refusal := .next (resetRelease s b)

/-! ## The main PLL (R92, R95, R410, R428) -/

/-- MAIN_PLL_LOCK (R92, R410): Plinth starts at 0, or, on a wake, waits for P_r; every group acquires. -/
def mainPllLock (s : State) : State :=
  if s.mt.inReset ∨ s.mt.asleep ∨ s.pl.running ∨ s.mt.resume then s
  else if s.mt.sleep.isSome then
    let s := setFlag s PL_STAT.PLL_LOCK true
    dllPllLock { s with mt := { s.mt with resume := true } }
  else dllPllLock (plinthStart s)

def execMainPllLock (s : State) : Host.Outcome State Fault Refusal := .next (mainPllLock s)

/-- MAIN_PLL_LOSS (R95, R376). -/
def pllLoss (s : State) : State :=
  let lost : Bool := s.pl.running && flag s PL_STAT.PLL_LOCK
  let s := mainPllLoss s
  if lost then pairSend (alignLost s) .pllLoss else s

def execMainPllLoss (s : State) : Host.Outcome State Fault Refusal := .next (pllLoss s)

def execMainPllRelock (s : State) : Host.Outcome State Fault Refusal := .next (mainPllRelock s)

/-! ## Datapath flush (R403) -/

/-- A record of the open tile that is given up: a stamp counts as its lane's loss, a gap record's losses are owed again, and an epoch
or sleep-gap marker is due again ahead of every other (R100, R110, R412). -/
def giveUp (s : State) (g : Nat) (w : W64) : State :=
  if isStamp w then
    let n := recLane w
    setLane s n { lane s n with lost := min ((lane s n).lost + 1) (2 ^ 32 - 1) }
  else if isGap w then
    let k := wbits w 31 0
    match gapReason w with
    | 0 =>
      let n := gapLane w
      setLane s n { lane s n with lost := min ((lane s n).lost + k) (2 ^ 32 - 1) }
    | 1 => setGroup s g { group s g with qGap := (group s g).qGap + k }
    | 2 => setGroup s g { group s g with supGaps := (group s g).supGaps ++ [(gapLane w, k)] }
    | _ => s
  else if recKind w = 1 ∧ (recSub w = 0 ∨ recSub w = 5) then
    setGroup s g { group s g with marks := insertMark ⟨0, if recSub w = 0 then clsEpoch else clsSleep, w⟩ (group s g).marks }
  else s

/-- Tiles of a queue that are discarded, with the losses that they report. -/
def queueLoss (q : List QEntry) : Nat :=
  q.foldl (fun n e => match e.item with
    | .tile t _ => n + 1 + owed t
    | .vetoDrop k _ => n + k
    | _ => n) 0

/-- A lane group's chains, open tile and queue are discarded. -/
def flushGroup (s : State) (g : Nat) : State :=
  let s := forEach ((List.range 16).map fun i => 16 * g + i) s fun s n =>
    let L := lane s n
    setLane s n { L with chain := [], lost := min (L.lost + L.chain.length) (2 ^ 32 - 1) }
  let s := (group s g).tile.foldl (fun s w => giveUp s g w) s
  let G := group s g
  let s := setGroup s g { G with tile := [], tileTimes := [], waitCredit := false, queue := [], waitWin := [],
                                 qGap := G.qGap + queueLoss (G.queue) }
  let s := (G.queue.filterMap victim).foldl (fun s v => uncount s g v.2) s
  noteOcc (evalGroupBusy s g) g

/-- An epoch marker among records. -/
def hasEpoch (ws : List W64) : Bool := ws.any fun w => recKind w = 1 && recSub w = 0

/-- Losses that discarded records reported with reason 0x1: they are owed again (R123). -/
def owedRecs (ws : List W64) : Nat := ws.foldl (fun n w => if isGap w ∧ gapReason w = 1 then n + wbits w 31 0 else n) 0

/-- A cluster's inputs, results and derived queue are discarded, and its engines halt, which empties their ports (R199).  An epoch
marker that is discarded is owed to the stream again (R110). -/
def flushCluster (s : State) (c : Nat) : State :=
  let C := cluster s c
  let n := queueLoss (queue s (0x40 + c))
  let recs := C.tile ++ C.due
  let s := setCluster s c { C with inBuf := [], tile := [], due := [], lead := none, waitCredit := false, cont := 0,
                                   qGap := C.qGap + n + owedRecs recs, started := C.started && !C.fresh, fresh := false,
                                   marks := if C.fresh then [] else C.marks, epoch := if hasEpoch recs then none else C.epoch }
  let s := noteOcc (setQueue s (0x40 + c) []) (0x40 + c)
  forEach ((List.range 16).map fun j => 16 * c + j) s fun s e =>
    let E := engine s e
    let drops := E.rq.foldl (fun n x => n + x.2) E.rqLost
    let s := setEngine s e { E with rq := [], rqLost := drops }
    if active E then haltEngine s e 1 0
    else setEngine s e { engine s e with p0 := { E.p0 with q := [] }, p1 := { E.p1 with q := [] } }

/-- An MU bank's records and derived queue are discarded. -/
def flushBank (s : State) (b : Nat) : State :=
  let B := bank s b
  let n := queueLoss (queue s (0x50 + b))
  let s := setBank s b { B with recs := [], waitCredit := false, cont := 0, qGap := B.qGap + n + owedRecs B.recs,
                                started := B.started && !B.fresh, fresh := false, marks := if B.fresh then [] else B.marks,
                                epoch := if hasEpoch B.recs then none else B.epoch }
  bankNote (noteOcc (setQueue s (0x50 + b) []) (0x50 + b)) b

/-- The flush (R403). -/
def flush (s : State) : State :=
  let s := setFld s MT_SRST.DATAPATH 1
  let s := { s with mt := { s.mt with flushAt := some s.now } }
  let s := forEach (List.range (nMus s)) s muDisarm
  let s := forEach (List.range (nGroups s)) s flushGroup
  let s := forEach (List.range (nClusters s)) s flushCluster
  let s := forEach (List.range (nBanks s)) s flushBank
  let s := loseStrayAsides (forEach (List.range 16) s dropUnbound)
  forEach (List.range 64) s shutBlk

/-- DATAPATH_FLUSH_END (R403): 2 µs after its start. -/
def datapathFlushEnd (s : State) : State :=
  match s.mt.flushAt with
  | some t =>
    if t + usTicks 2 ≤ s.now then setFld { s with mt := { s.mt with flushAt := none } } MT_SRST.DATAPATH 0 else s
  | none => s

def execDatapathFlushEnd (s : State) : Host.Outcome State Fault Refusal := .next (datapathFlushEnd s)

/-! ## WCLK and MT_COUNT (R404) -/

/-- One WCLK cycle of MT_COUNT, in units of 2^-24 of 40 ns; it holds at all ones.  What counts for the bound of R411 is what lies between
N_e and N_r. -/
def countUp (s : State) : State :=
  let lpo := flag s MT_STAT.SRC_LPO
  let d := if lpo then (reg s MT_LPO_RATIO.off).toNat else 2 ^ 24
  let c := min (s.mt.count + d) (2 ^ 88 - 1)
  let sl := s.mt.sleep.map fun x => if lpo ∧ s.mt.resumeAt.isNone then { x with lpo := x.lpo + d, anyLpo := true } else x
  { s with mt := { s.mt with count := c, sleep := sl } }

/-- What waits for a whole unit of MT_COUNT happens at one: the entry edge of an accepted sleep, with WCLK going to the oscillator where
REF's receiver goes off (R405), P_r of a wake (R410), and awake
the switch of WCLK back to REF/4 (R404). -/
def wholeUnit (s : State) : State :=
  let M := s.mt
  let entry := if M.sleepReq.isSome ∧ M.entry.isNone then some { n := M.count, t := s.pl.t, f := s.pl.f, adj := s.pl.adj } else M.entry
  let resumeAt := if M.resume ∧ M.resumeAt.isNone then some (M.count, s.now) else M.resumeAt
  let s := { s with mt := { M with entry := entry, resumeAt := resumeAt } }
  if M.entry.isNone ∧ entry.isSome ∧ flag s MT_CFG.REF_RX = false then
    setFlag { s with mt := { s.mt with refBack := false } } MT_STAT.SRC_LPO true
  else if M.refBack ∧ M.asleep = false then setFlag { s with mt := { s.mt with refBack := false } } MT_STAT.SRC_LPO false else s

/-- One WCLK cycle, at which MT_COUNT may come to a whole unit. -/
def countStep (s : State) : State :=
  if s.mt.vaon = false then s
  else
    let t := countUp s
    if s.mt.count / 2 ^ 24 < t.mt.count / 2 ^ 24 then wholeUnit t else t

/-- REF_LOSS (R404). -/
def refLoss (s : State) : State :=
  let s := setFlag s MT_STAT.SRC_LPO true
  let s := if s.mt.asleep then sts s MT_STAT.REF_LOST else s
  { s with mt := { s.mt with refAt := s.now, refBack := false, refGone := true,
                             sleep := s.mt.sleep.map fun x => if s.mt.resumeAt.isNone then { x with refLost := true, anyLpo := true } else x } }

def execRefLoss (s : State) : Host.Outcome State Fault Refusal := .next (refLoss s)

/-- REF_RESTORE (R404, R399, R398): REF has been stable for 1 ms.  WCLK switches back to it at the next whole unit, awake and where the
strap does not keep it on the oscillator; a start-up that waited counts from the instant REF was stable. -/
def refRestore (s : State) : State :=
  if s.now < s.mt.refAt + msTicks 1 then s
  else
    let s := if s.mt.refWait then { s with bus := { s.bus with releasedAt := max s.bus.releasedAt (s.now - msTicks 1) } } else s
    { s with mt := { s.mt with refGone := false, refWait := false,
                               refBack := flag s MT_STAT.SRC_LPO && !(fld s MT_STRAP.STRAP).testBit 3 } }

def execRefRestore (s : State) : Host.Outcome State Fault Refusal := .next (refRestore s)

/-- LPO_CAL_WINDOW (R404): the ratio measured over a window of 2^22 REF/4 cycles. -/
def lpoCalWindow (s : State) (ratio : Nat) : State :=
  if s.mt.vaon = false then s
  else setFlag (setReg s MT_LPO_RATIO.off (BitVec.ofNat 32 ratio)) MT_STAT.LPO_CAL true

def execLpoCalWindow (ratio : Nat) (s : State) : Host.Outcome State Fault Refusal := .next (lpoCalWindow s ratio)

/-! ## Sleep (R405) -/

def mtAlarm (s : State) : Nat := pair64 s MT_ALARM_LO.off MT_ALARM_HI.off

/-- Whole units of MT_COUNT. -/
def countUnits (s : State) : Nat := s.mt.count / 2 ^ 24

/-- Why a sleep request is refused: the outcome of the table *Sleep outcomes*, or 0. -/
def sleepBar (s : State) : Nat :=
  let busy := (List.range 64).any (running s) || (List.range 16).any (fun r => flag s (CR_STAT.RUNNING r) || (cring s r).mig.isSome) ||
    (List.range 4).any (fun q => seqBusy s q) || storeWriting s
  if busy then 2
  else if fld s PR_STAT.ROLE ≠ 0 then 3
  else if (reg s MT_WAKE_EN.off).toNat % 1024 = 0 then 4
  else if flag s MT_WAKE_EN.ALARM ∧ mtAlarm s ≤ countUnits s then 5
  else if flag s MT_WAKE_EN.PIN ∧ Config.wakePinLow s.free then 5
  else 0

/-- A guarded write of MT_SLEEP (R405). -/
def sleepWrite (s : State) (v : W32) : State :=
  if v ≠ 1 then s
  else
    let c := sleepBar s
    let s := { s with free := s.free + 1 }
    if c ≠ 0 then setFld s MT_SLEEP_RES.OUTCOME c else { s with mt := { s.mt with sleepReq := some s.mt.count } }

/-- SLEEP_ENTRY (R405): the entry edge has come. -/
def sleepEntry (s : State) : State :=
  match s.mt.entry with
  | none => s
  | some e =>
    let k := fld s TP_ANCH_STAT.LATEST
    let rx := flag s MT_CFG.REF_RX
    let sl : Sleep := { n := e.n, t := e.t, f := e.f, adj := e.adj, lpoCal := flag s MT_STAT.LPO_CAL,
                        lpo := if flag s MT_STAT.SRC_LPO then s.mt.count - e.n else 0,
                        anyLpo := !rx || flag s MT_STAT.SRC_LPO, refLost := false, anchor := (latestAnchor s).map fun a => (k, a) }
    let r := resetKeepPins s
    let r := { r with ddr := { mem := s.ddr.mem, err := s.ddr.err }
                      mt := { r.mt with asleep := true, sleep := some sl, refBack := r.mt.refBack && rx } }
    let r := setPair64 r MT_ENTRY_T_LO.off MT_ENTRY_T_HI.off e.t.toNat
    let r := inc r MT_SLEEP_CNT.COUNT
    if rx then r else setFlag r MT_STAT.SRC_LPO true

def execSleepEntry (s : State) : Host.Outcome State Fault Refusal := .next (sleepEntry s)

/-! ## Waking (R407 to R412) -/

/-- The threshold of wake comparator k, −1.2 V + THR × 9.375 mV, in units of 5 µV (R406). -/
def wakeThr (s : State) (k : Nat) : Int := 1875 * Int.ofNat (fld s (MT_WCMP.THR k)) - 240000

/-- A wake comparator fires (R406): its input moves through the hysteresis of 20 mV about the threshold, on the edge chosen, and the
level is held for 50 ns.  The hysteresis lies evenly about the threshold (log 25). -/
def wakeFires (s : State) (x : WakeStep) : Bool :=
  let thr := wakeThr s x.cmp
  decide (x.cmp < 8) && decide (50 ≤ x.heldNs) &&
  if flag s (MT_WCMP.EDGE x.cmp) then decide (thr + 2000 ≤ x.before) && decide (x.after ≤ thr - 2000)
  else decide (x.before ≤ thr - 2000) && decide (thr + 2000 ≤ x.after)

/-- The comparators that fire, bit k for comparator k. -/
def firedMask (s : State) (xs : List WakeStep) : Nat := bitsWhere fun k => k < 8 && xs.any fun x => x.cmp = k && wakeFires s x

/-- The enabled causes among those that fire in one WCLK cycle: comparators, MT_ALARM and WAKE_N. -/
def wakeCause (s : State) (xs : List WakeStep) (pin : Bool) : Nat :=
  let alarm := if mtAlarm s ≤ countUnits s then 256 else 0
  (firedMask s xs + alarm + if pin then 512 else 0) &&& (reg s MT_WAKE_EN.off).toNat % 1024

/-- WAKE_EVENT (R407, R408): the causes are recorded and start-up repeats. -/
def wakeEvent (s : State) (wcmp : List WakeStep) (pin : Bool) (b : Boot) : State :=
  let c := wakeCause s wcmp pin
  if s.mt.asleep = false ∨ c = 0 then s
  else
    let s := setReg s MT_WAKE_CAUSE.off (BitVec.ofNat 32 c)
    let at_ := if flag s MT_CFG.REF_RX then s.mt.refAt else s.now
    let s := setFld { s with mt := { s.mt with asleep := false, woke := true, refAt := at_ } } MT_SLEEP_RES.OUTCOME 1
    startUp s b

def execWakeEvent (wcmp : List WakeStep) (pin : Bool) (b : Boot) (s : State) : Host.Outcome State Fault Refusal :=
  .next (wakeEvent s wcmp pin b)

/-- B (R411), in ticks. -/
def gapBound (x : Sleep) : Nat :=
  if x.anyLpo = false then 1024
  else
    let d := if x.lpoCal then 10000 else 50
    2048 + (if x.refLost then 65536 else 0) + (65536 * x.lpo + d * 2 ^ 24 - 1) / (d * 2 ^ 24)

/-- BOUND_EXP: the smallest e with B ≤ 2^e. -/
def boundExp (b : Nat) : Nat := ((List.range 64).find? fun e => decide (b ≤ 2 ^ e)).getD 63

/-- (T, F) at P_r as one number in units of 2^-40 tick (R410). -/
def resumeTF (x : Sleep) (count : Nat) : Nat :=
  let dn := count - x.n
  x.t.toNat * 2 ^ 40 + x.f.toNat + (64 * Int.ofNat dn * (1024 * 2 ^ 40 + adjInt x.adj) / 2 ^ 24).toNat

/-- The kept anchor stands at its index (R408). -/
def keepAnchor (s : State) (x : Option (Nat × Anchor)) : State :=
  match x with
  | none => s
  | some (k, a) =>
    let s := { s with tp := { s.tp with anchors := sset (fun _ => none) s.tp.anchors k (some a) } }
    setFlag (setFld s TP_ANCH_STAT.LATEST k) TP_STAT.ANCHORED true

/-- Plinth after k PCLK edges (R92). -/
def plinthEdges : Nat → Plinth → Plinth
  | 0, p => p
  | k + 1, p => plinthEdges k (plinthEdge p)

/-- PLINTH_RESUME (R408, R410 to R412): P_r has come; Plinth has counted since. -/
def plinthResume (s : State) : State :=
  match s.mt.sleep, s.mt.resumeAt with
  | some x, some (n, at_) =>
    let y := resumeTF x n
    let t := BitVec.ofNat 104 (y / 2 ^ 40)
    let f := BitVec.ofNat 40 y
    let B := gapBound x
    let s := setFlag (plinthStart s) PL_STAT.PLL_LOCK (flag s PL_STAT.PLL_LOCK)
    let s := { s with pl := { s.pl with t := t, f := f, tc := t, fc := f, adj := x.adj, adjLast := x.adj, frameT := some t, hist := [t],
                                        epochSeen := t.toNat / 2 ^ 47, gap := some (t.toNat, boundExp B) }
                      mt := { s.mt with sleep := none, resume := false, resumeAt := none } }
    let s := setPair64 s PL_ADJ_SET_LO.off PL_ADJ_SET_HI.off x.adj.toNat
    let s := setFld (setReg s PL_ADJ_LO.off (BitVec.ofNat 32 x.adj.toNat)) PL_ADJ_HI.ADJ (x.adj.toNat / 2 ^ 32)
    let s := keepAnchor s x.anchor
    let s := setPair64 s MT_GAP_BOUND_LO.off MT_GAP_BOUND_HI.off (min B (2 ^ 64 - 1))
    let s := { sts s MT_STAT.SLEPT with pl := plinthEdges (s.now - at_) (sts s MT_STAT.SLEPT).pl }
    let c := (reg s MT_WAKE_CAUSE.off).toNat
    if flag s MT_CFG.NOTICE_EN then
      postAt s (BitVec.ofNat 64 t.toNat) 0x1401 (c / 256 % 256) (c % 256) (BitVec.ofNat 128 (min B (2 ^ 64 - 1) + x.t.toNat % 2 ^ 64 * 2 ^ 64))
    else s
  | _, _ => s

def execPlinthResume (s : State) : Host.Outcome State Fault Refusal := .next (plinthResume s)

/-! ## Soft resets (R402, R403) -/

/-- A guarded write of MT_SRST: each bit that is 1 acts. After DEVICE the device is in reset as under RST_N, and releases itself. -/
def srstWrite (s : State) (v : W32) : State :=
  let s := if v.getLsbD 1 then flush s else s
  if v.getLsbD 0 then enterReset s else s

end Sys2Proof.Machine
end

