-- ==== Sys2Proof/Machine/Registers.lean ====
section
/-! DEFINITION. What each register does beyond its field types: a write of a whole register with the commands that it starts
(REGISTER_WRITE, 14_register_behaviour.md), and what a read returns, the fields included that follow from other state. -/

namespace Sys2Proof.Machine

/-! ## A whole-register write that its block has accepted -/

/-- By field type alone (R9, R289). -/
def plainWrite (s : State) (a : Access) (off : Nat) (v : W32) : State := writeReg s (writerPart s a off) off v

/-- GL_STALL_MAX_CLR (R288). -/
def glStallMaxClr (s : State) (a : Access) (v : W32) : State :=
  cmdWrite s a GL_STALL_MAX.off v fun s =>
    if v.getLsbD 31 then setFld (setFld s GL_STALL_MAX.NS 0) GL_STALL_MAX.BLOCK 0 else s

def execGlStallMaxClr (a : Access) (v : W32) (s : State) : Host.Outcome State Fault Refusal := .next (glStallMaxClr s a v)

/-- MQ_VIEW of a function (R298). -/
def viewOf (s : State) (f : Nat) : W32 := sget (fun _ => 0) s.bus.view f

def setView (s : State) (f : Nat) (v : W32) : State :=
  { s with bus := { s.bus with view := sset (fun _ => 0) s.bus.view f (v &&& 1) } }

def writeMQ (s : State) (a : Access) (off : Nat) (v : W32) : State :=
  if off = MQ_UNVEIL.off then mqUnveil s a v
  else if off = MQ_VIEW.off then setView s a.func v
  else if MQ_UG.off 0 ≤ off ∧ off ≤ MQ_UG.off 28 then regroup (plainWrite s a off v)
  else plainWrite s a off v

/-- HI: the base and configuration of a running or stopping ring, and the blocks of a function with a running ring, take no
write (R264, HI_DB_BASE). -/
def writeHI (s : State) (a : Access) (off : Nat) (v : W32) : State :=
  let o := off % 0x10000
  if o < 0x2000 then
    let r := o / 64
    if o % 64 = 12 then hiRingStop (hiRingStart s a r v) a r v
    else if o % 64 < 12 ∧ (running s r ∨ stopping s r) then s
    else plainWrite s a off v
  else if o < 0x3000 then
    let f := (o - 0x2000) / 64
    if o % 64 = 20 then hiKick s a f v
    else if o % 64 < 16 ∧ (List.range 64).any (fun r => running s r && ownHostRing s r = f) then s
    else if o % 64 = 16 ∧ flag s (HI_DB_CFG.EN f) = false then
      setFnHost (plainWrite s a off v) f { fnHost (plainWrite s a off v) f with interval := 0, idle := 0 }
    else plainWrite s a off v
  else plainWrite s a off v

def writePL (s : State) (a : Access) (off : Nat) (v : W32) : State :=
  if off = PL_ADJ_SET_HI.off then plAdjSetWrite s a v
  else if off = PL_CTRL.off then plCtrlWrite s a v
  else if off = PL_SNAP_CTRL.off then plSnapCancel (plSnapGo s a v) a v
  else plainWrite s a off v

def writeTP (s : State) (a : Access) (off : Nat) (v : W32) : State :=
  if off = TP_CMD.off then tpRestart (tpAnchor s a v) a v else plainWrite s a off v

def writeEP (s : State) (a : Access) (off : Nat) (v : W32) : State :=
  if off % 256 = 0x28 then epLinkReset (epFlush s a (off % 0x10000 / 256) v) a (off % 0x10000 / 256) v else plainWrite s a off v

def writeIN (s : State) (a : Access) (off : Nat) (v : W32) : State :=
  if off = IN_CMD.off then inOpenWire (inNulling s a v) a v else plainWrite s a off v

def writeLG (s : State) (a : Access) (off : Nat) (v : W32) : State :=
  let o := off % 0x10000
  let g := o / 256
  if 0x4000 ≤ o then plainWrite s a off v
  else match o % 256 with
    | 0x08 => lgQPeakClr s a g v
    | 0x34 => lgWinVeto s a g v
    | 0x50 => lgInjFlush s a g v
    | 0x54 => lgInjDataWrite s a g v
    | 0xC0 => lgDllRelock s a g v
    | _ => plainWrite s a off v

def writeCV (s : State) (a : Access) (off : Nat) (v : W32) : State :=
  let e := off % 0x10000 / 256
  match off % 256 with
  | 0 => cvHalt (cvStart s a e v) a e v
  | 0x2C => cvDecLatMaxClr s a e v
  | _ => plainWrite s a off v

def writeCC (s : State) (a : Access) (off : Nat) (v : W32) : State :=
  let o := off % 0x10000
  if o < 0x1000 ∧ o % 256 = 4 then ccInPeakClr s a (o / 256) v
  else if off = CC_FAB_WAIT_MAX.off then ccFabWaitMaxClr s a v
  else if 0x2000 ≤ o ∧ o % 16 = 0 then ccDqPeakClr s a ((o - 0x2000) / 16) v
  else plainWrite s a off v

def writeMU (s : State) (a : Access) (off : Nat) (v : W32) : State :=
  let o := off % 0x10000
  let u := o / 256
  if o < 0x4000 ∧ o % 256 = 0x1C then muCloseCmd (muDisarmCmd (muArm s a u v) a u v) a u v else plainWrite s a off v

/-- MC: a write of MC_ORG makes a channel present, and leaves MC_STAT.SPD (DESIGN CHOICE, log 19); the registers of a set in use take
none (R218, R222). -/
def writeMC (s : State) (a : Access) (off : Nat) (v : W32) : State :=
  let o := off % 0x10000
  if 0x1000 ≤ o then (if setInUse s ((o - 0x1000) / 16) then s else plainWrite s a off v)
  else match o % 256 with
    | 0 => mcRetire (mcTrain s a (o / 256) v) a (o / 256) v
    | 8 => setFlag (plainWrite s a off v) (MC_STAT.PRESENT (o / 256)) true
    | _ => plainWrite s a off v

def writeCR (s : State) (a : Access) (off : Nat) (v : W32) : State :=
  let r := off % 0x10000 / 256
  if off % 256 = 0x24 then
    crMigrate (crReplay (crRelease (crMark (crStop (crStart s a r v) a r v) a r v) a r v) a r v) a r v
  else plainWrite s a off v

/-- Granules that have not played so far count now, so that a written count replaces them too. -/
def settleStarve (s : State) (q : Nat) : State :=
  let k := curGranule s (seqr s q)
  match (seqr s q).starveFrom with
  | some p =>
    if p < k then
      let s := countUnplayed s q k
      setSeqr s q { seqr s q with starveFrom := some k }
    else s
  | none => s

def writePG (s : State) (a : Access) (off : Nat) (v : W32) : State :=
  let o := off % 0x10000
  let q := o / 256
  if o < 0x1000 then match o % 256 with
    | 0 => pgJump (pgClrreq (pgStop (pgStart s a q v) a q v) a q v) a q v
    | 0x14 => if v.getLsbD 31 then pgStoreClaim s a q v else pgStoreRelease s a q v
    | 0x18 => if (claimOf s q).isSome then s else plainWrite s a off v
    | 0x1C => if (claimOf s q).isSome then s else plainWrite s a off v
    | 0x44 => plainWrite (settleStarve s q) a off v
    | _ => plainWrite s a off v
  else if off = PG_OVR_EN_LO.off ∨ off = PG_OVR_EN_HI.off then endDisabled (noteOvr (overrideEnables s) (plainWrite s a off v))
  else if off = PG_OVR_CMD.off then pgOvrCmd s a v
  else plainWrite s a off v

/-- TT: the configuration of an armed trigger takes no write (R340). -/
def writeTT (s : State) (a : Access) (off : Nat) (v : W32) : State :=
  let o := off % 0x10000
  let t := o / 64
  if o < 0x1000 then
    if o % 64 = 0 then ttDisarm (ttArm s a t v) a t v
    else if o % 64 < 0x20 ∧ ttArmed s t then sts s (TT_STAT.WR_IGN t)
    else plainWrite s a off v
  else if off = TT_HOST_GATE.off then (if v.getLsbD 31 then ttHostGateOpen s a v else ttHostGateClose s a v)
  else plainWrite s a off v

def writeMA (s : State) (a : Access) (off : Nat) (v : W32) : State :=
  let o := off % 0x10000
  if o < 0x200 ∧ o % 256 = 0 then
    maSelfcal (maStop (maStart s a (o / 256) v) a (o / 256) v) a (o / 256) v
  else if 0x2000 ≤ o ∧ o < 0x3000 ∧ o % 32 = 0 then
    maAccClr (maAccSnap s a ((o - 0x2000) / 32) v) a ((o - 0x2000) / 32) v
  else if 0x3000 ≤ o ∧ o < 0x4000 ∧ o % 16 = 8 then maWinEnable s a ((o - 0x3000) / 16) v
  else if off = MA_REF.off then maRefEnable s a v
  else plainWrite s a off v

/-- The active's ADJ in force, as far as its events have told it; before any, it is a value of the active's that nothing here fixes
(R373, log 23). -/
def knownAdj (s : State) : BitVec 48 × State :=
  match s.pr.activeAdj with
  | some v => (v, s)
  | none =>
    let (k, s) := takeFree s
    (BitVec.ofNat 48 (Config.badWord k).toNat, s)

def writePR (s : State) (a : Access) (off : Nat) (v : W32) : State :=
  if off = PR_CMD.off then
    let (adj, s) := if v.getLsbD 31 then knownAdj s else (s.pl.adj, s)
    prResync (prYield (prMeasure (prAlign s a v adj) a v) a v) a v
  else plainWrite s a off v

/-- The block that an offset lies in takes the write. -/
def routeWrite (s : State) (a : Access) (off : Nat) (v : W32) : State :=
  match off / 0x10000 with
  | 0 => if off = GL_STALL_MAX.off then glStallMaxClr s a v else plainWrite s a off v
  | 2 => writeMQ s a off v
  | 3 => writeHI s a off v
  | 4 => writePL s a off v
  | 5 => writeTP s a off v
  | 6 => writeEP s a off v
  | 7 => writeIN s a off v
  | 8 => writeLG s a off v
  | 10 => writeCV s a off v
  | 11 => writeCC s a off v
  | 12 => writeMU s a off v
  | 13 => writeMC s a off v
  | 14 => writeCR s a off v
  | 16 => writePG s a off v
  | 17 => writeTT s a off v
  | 18 => writeMA s a off v
  | 19 => writePR s a off v
  | _ => plainWrite s a off v

/-! ## Reading (R9, R284, R285, R298, R388) -/

/-- A read-only value placed in a field's bits. -/
def put (w : Nat) (x : Fld) (v : Nat) : Nat := withBits w x.msb x.lsb v

/-- Low or high word of a 64-bit quantity. -/
def wordOf (v : Nat) (hi : Bool) : Nat := if hi then v / 2 ^ 32 % 2 ^ 32 else v % 2 ^ 32

def derivedAR (s : State) (f off w : Nat) : Nat :=
  if off = AR_STAT.off then put w AR_STAT.VPP_OK (bit1 (vppOk s))
  else if off = AR_SHADOW_DATA.off then
    (let r := fld s AR_SHADOW_SEL.ROW; if r < 4 then 0 else shadow s r)
  else if off = AR_FN_STAT.off then put (put w AR_FN_STAT.RIGHTS (bit1 (rights s f))) AR_FN_STAT.PART f
  else w

/-- MASK of MQ_UNVEIL: the groups whose register strobe has not had its edge. -/
def strobing (s : State) : Nat :=
  s.bus.strobes.foldl (fun m x => if x.src = 0 ∧ s.pl.edge < x.edge then m ||| x.mask else m) 0

/-- Unveil groups with a committed set that awaits its boundary (MQ_STAT.PENDING). -/
def pendingGroups (s : State) : Nat := s.bus.waiting.foldl (fun m x => m ||| 2 ^ x.2) 0

def derivedMQ (s : State) (f off w : Nat) : Nat :=
  if off = MQ_UNVEIL.off then strobing s
  else if off = MQ_STAT.off then put w MQ_STAT.PENDING (pendingGroups s)
  else if off = MQ_VIEW.off then (viewOf s f).toNat
  else w

/-- HI: the commands that have still to end among them (R9, R264, R268). -/
def derivedHI (s : State) (off w : Nat) : Nat :=
  let o := off % 0x10000
  let r := o / 64
  if o < 0x2000 then
    if o % 64 = 8 then put w (HI_RING_CFG.FUNC r) (ownHostRing s r)
    else if o % 64 = 12 then put w (HI_RING_CMD.START r) (bit1 (hring s r).starting)
    else if o % 64 = 0x14 then (if ringKind s r = 0 then put w (HI_RING_IDX.HOST r) (devIdx s r) else w)
    else if o % 64 = 16 then
      put w (HI_RING_STAT.WAIT r) (bit1 (match ringKind s r with
        | 0 => (stream s r).waiting
        | 1 => (hring s r).cmd.isSome
        | _ => false))
    else w
  else if o < 0x3000 ∧ o % 64 = 24 then
    let f := (o - 0x2000) / 64
    put w (HI_FN_STAT.IDLE f) (bit1 (decide (activeInterval s f < fetchInterval s f)))
  else if o < 0x3000 ∧ o % 64 = 20 then (let f := (o - 0x2000) / 64; put w (HI_KICK.KICK f) (bit1 (fnHost s f).kick))
  else if off = HI_LINK_STAT.off then put w HI_LINK_STAT.LANE_REV (bit1 ((fld s MT_STRAP.STRAP).testBit 1))
  else w

def derivedPL (s : State) (off w : Nat) : Nat :=
  if off = PL_EPOCH.off then tNow s / 2 ^ 47 % 2 ^ 32 else w

/-- The anchor that TP_ANCH_SEL selects, seen through the TP_ANCH registers (R312). -/
def derivedTP (s : State) (off w : Nat) : Nat :=
  let sel := anchorAt s (fld s TP_ANCH_SEL.INDEX)
  if off = TP_ANCH_STAT.off then
    match sel with
    | some a => put (put w TP_ANCH_STAT.VALID 1) TP_ANCH_STAT.REASON a.reason
    | none => put (put w TP_ANCH_STAT.VALID 0) TP_ANCH_STAT.REASON 0
  else
    let k := (off - TP_ANCH_T0.off) / 4
    if TP_ANCH_T0.off ≤ off ∧ off ≤ TP_ANCH_ADJ_LO.off then
      match sel with
      | none => 0
      | some a =>
        match k with
        | 0 => a.ta.toNat % 2 ^ 32
        | 1 => a.ta.toNat / 2 ^ 32 % 2 ^ 32
        | 2 => a.ta.toNat / 2 ^ 64 % 2 ^ 32
        | 3 => a.ta.toNat / 2 ^ 96 % 2 ^ 32
        | 4 => a.sec % 2 ^ 32
        | 5 => a.sec / 2 ^ 32 % 2 ^ 32
        | 6 => a.ns
        | 7 => a.adj.toNat / 2 ^ 32 * 2 ^ 16 + a.frac % 2 ^ 16
        | _ => a.adj.toNat % 2 ^ 32
    else w

def derivedIN (s : State) (off w : Nat) : Nat :=
  let o := off % 0x10000
  let i := o / 16
  if o < 0x2000 then
    if o % 16 = 8 then put (put w (IN_TRIM.ACT_A i) (activeTrim s (2 * i))) (IN_TRIM.ACT_B i) (activeTrim s (2 * i + 1))
    else if o % 16 = 12 then
      let w := put (put w (IN_STAT.CMP_A i) (bit1 (lane s (2 * i)).level)) (IN_STAT.CMP_B i) (bit1 (lane s (2 * i + 1)).level)
      put (put w (IN_STAT.SETTLE_A i) (bit1 (settling s (2 * i)))) (IN_STAT.SETTLE_B i) (bit1 (settling s (2 * i + 1)))
    else w
  else if IN_OPEN_MAP.off 0 ≤ off then
    bitsWhere fun j => flag s (IN_STAT.OW_OPEN (32 * ((off - IN_OPEN_MAP.off 0) / 4) + j))
  else w

/-- CC: the occupancy of a cluster's input buffer (R206). -/
def derivedCC (s : State) (off w : Nat) : Nat :=
  let c := off % 0x10000 / 256
  if off = CC_IN_OCC.off c then put w (CC_IN_OCC.OCC c) (inputOcc s c) else w

/-- LG: a FLUSH of the injection port that waits (R9, R145). -/
def derivedLG (s : State) (off w : Nat) : Nat :=
  let g := off % 0x10000 / 256
  if off = LG_INJ_CTRL.off g then put w (LG_INJ_CTRL.FLUSH g) (bit1 (group s g).injFlush) else w

def derivedCV (s : State) (off w : Nat) : Nat :=
  let e := off % 0x10000 / 256
  let E := engine s e
  let sel := greg E (fld s (CV_GREG_SEL.REG e))
  let shown := if active E then 0 else sel.toNat
  match off % 256 with
  | 0x04 => put w (CV_STAT.STATE e) E.st
  | 0x08 => put w (CV_PC.PC e) E.pc
  | 0x30 => put (put w (CV_PORT_OCC.P0 e) E.p0.q.length) (CV_PORT_OCC.P1 e) E.p1.q.length
  | 0x34 => put (put w (CV_KIND.P0 e) E.p0.kind.toNat) (CV_KIND.P1 e) E.p1.kind.toNat
  | 0x38 => E.p0.rsrc.toNat
  | 0x3C => E.p1.rsrc.toNat
  | 0x44 => (portOf E (fld s (CV_MASK_SEL.PORT e))).mask.toNat / 2 ^ (32 * fld s (CV_MASK_SEL.WORD e)) % 2 ^ 32
  | 0x4C => wordOf shown false
  | 0x50 => wordOf shown true
  | _ => w

def derivedMC (s : State) (off w : Nat) : Nat :=
  let o := off % 0x10000
  let i := (o - 0x1000) / 16
  if 0x1000 ≤ o ∧ o % 16 = 0 then put (put w (MC_IL_CFG.INUSE i) (bit1 (setInUse s i))) (MC_IL_CFG.VALID i) (bit1 (setValid s i))
  else w

/-- Slot counts hold at all ones when N = 2^32. -/
def hold32 (n : Nat) : Nat := min n (2 ^ 32 - 1)

def derivedCR (s : State) (off w : Nat) : Nat :=
  let r := off % 0x10000 / 256
  let c := cring s r
  match off % 256 with
  | 0x2C => hold32 c.wp
  | 0x30 => hold32 c.m
  | 0x34 => hold32 c.fill
  | 0x50 => hold32 c.k
  | _ => w

def derivedPK (s : State) (off w : Nat) : Nat :=
  let h := off % 0x10000 / 64
  if off % 64 = 0x14 then
    let x := stream s h
    let feeds := (List.range 16).any fun r => match (cring s r).replay with
      | some R => decide (R.hring = h)
      | none => false
    put (put (put w (PK_STAT.ACTIVE h) (bit1 (flag s (PK_CFG.EN h)))) (PK_STAT.REPLAY_IN h) (bit1 feeds))
      (PK_STAT.WIN_PENDING h) (bit1 (!x.asides.isEmpty))
  else w

/-- PG: PG_TL counts while the sequencer runs (R326), PG_JREQ shows the latches (R333), and the starving granules of the current
instance are part of the count.  A command bit reads 1 until its word has come (R9).  Of the override registers a function sees the bits of its own pins (R389). -/
def derivedPG (s : State) (f off w : Nat) : Nat :=
  let o := off % 0x10000
  let q := o / 256
  let Q := seqr s q
  let run := flag s (PG_STAT.RUNNING q)
  if o < 0x1000 then match o % 256 with
    | 0x00 =>
      let w := put (put w (PG_CMD.START q) (bit1 (flag s (PG_STAT.START_PEND q)))) (PG_CMD.STOP q) (bit1 Q.stopAt.isSome)
      put (put w (PG_CMD.CLRREQ q) (bit1 (decide (curWord s < Q.clr)))) (PG_CMD.JUMP q)
        (bitsWhere fun j => j < 4 && (latchWords Q j).any fun x => decide (curWord s < x))
    | 0x28 => if run then wordOf (samplesTo Q (curWord s) % 2 ^ 64) false else w
    | 0x2C => if run then wordOf (samplesTo Q (curWord s) % 2 ^ 64) true else w
    | 0x30 =>
      let set (j : Nat) : List Nat := (latchWords Q j).filter fun x => decide (x ≤ curWord s)
      let late (j : Nat) : Bool := match Q.path with
        | F :: _ => run && (set j).all fun x => decide (commitWord Q F.inst ≤ x)
        | [] => false
      let held (j : Nat) : Bool := !(set j).isEmpty
      (bitsWhere fun j => j < 4 && held j && !late j) + 16 * (bitsWhere fun j => j < 4 && held j && late j)
    | 0x44 => match Q.starveFrom with
      | some p => min (w + (curGranule s Q - p)) (2 ^ 32 - 1)
      | none => w
    | _ => w
  else if off = PG_OVR_CMD.off then put w PG_OVR_CMD.GO (bit1 (s.play.ovrReqs.any fun x => x.src = 1))
  else if off = PG_OVR_EN_LO.off ∨ off = PG_OVR_EN_HI.off then w &&& unitMask s f off
  else if off = PG_OVR_STAT_LO.off then (bitsWhere fun j => (pinOvr s j).isSome) &&& unitMask s f PG_OVR_EN_LO.off
  else if off = PG_OVR_STAT_HI.off then (bitsWhere fun j => (pinOvr s (32 + j)).isSome) &&& unitMask s f PG_OVR_EN_HI.off
  else w

def derivedMA (s : State) (off w : Nat) : Nat :=
  let o := off % 0x10000
  if o < 0x200 ∧ o % 256 = 8 then put w (MA_STAT.STATE (o / 256)) (maState s (o / 256)) else w

def derivedPR (s : State) (off w : Nat) : Nat :=
  let fr := (pairFront s (fld s PR_FRONT_SEL.GROUP)).getD (2 ^ 64 - 1)
  if off = PR_STAT.off then (if ready s then put w PR_STAT.ROLE 2 else w)
  else if off = PR_FRONT_T_LO.off then wordOf fr false
  else if off = PR_FRONT_T_HI.off then wordOf fr true
  else if off = PR_CAST_STAT.off ∧ isStandby s then
    put w PR_CAST_STAT.AGE (match s.pr.castApplied with
      | some t => min ((s.now - t) / 1600) 65535
      | none => 65535)
  else w

/-- MT_BOOT: how far start-up has come (R398). -/
def bootWord (s : State) : Nat :=
  let gs := List.range (nGroups s)
  bit1 (flag s PL_STAT.PLL_LOCK || s.pl.running) + 2 * bit1 (flag s AR_STAT.LOADED) +
  4 * bit1 (gs.all fun g => dllLocked s g || (group s g).dllLost) + 8 * bit1 (flag s CA_STORE_STAT.LOADED) +
  16 * bit1 (gs.all fun g => (group s g).ready)

def derivedMT (s : State) (off w : Nat) : Nat :=
  if off = MT_COUNT_LO.off then wordOf (countUnits s) false
  else if off = MT_COUNT_HI.off then wordOf (countUnits s) true
  else if off = MT_COUNT_FRAC.off then s.mt.count % 2 ^ 24
  else if off = MT_BOOT.off then bootWord s
  else if off = MT_SRST.off then 2 * bit1 s.mt.flushAt.isSome
  else w

def derivedIR (s : State) (off w : Nat) : Nat :=
  let f := off % 0x10000 / 64
  if off % 0x10000 < 0x1000 ∧ off % 64 = 4 then put w (IR_NSTAT.OCC f) (fnHost s f).nq.length else w

/-- The fields of a register that follow from other state than the register itself. -/
def derived (s : State) (f off w : Nat) : Nat :=
  match off / 0x10000 with
  | 0 => if off = GL_IDENT.off then put w GL_IDENT.VARIANT (if s.ft0512 then 2 else 1) else w
  | 1 => derivedAR s f off w
  | 2 => derivedMQ s f off w
  | 3 => derivedHI s off w
  | 4 => derivedPL s off w
  | 5 => derivedTP s off w
  | 7 => derivedIN s off w
  | 8 => derivedLG s off w
  | 10 => derivedCV s off w
  | 11 => derivedCC s off w
  | 13 => derivedMC s off w
  | 14 => derivedCR s off w
  | 15 => derivedPK s off w
  | 16 => derivedPG s f off w
  | 18 => derivedMA s off w
  | 19 => derivedPR s off w
  | 20 => derivedMT s off w
  | 21 => derivedIR s off w
  | _ => w

/-- What the fields of a register read as, for a function that owns it: cfg fields from the Maquette, or from the committed
set under MQ_VIEW (R9, R298). -/
def regValue (s : State) (f off : Nat) (fs : List RField) : W32 :=
  let cm := maskOf (fun t => t = .cfg) fs
  let staged := if (viewOf s f).getLsbD 0 then comOf s off else maqOf s off
  BitVec.ofNat 32 (derived s f off (mergeBits cm (reg s off).toNat staged.toNat))

/-- The offset lies in its block's guard window (R284). -/
def inGuardWindow (off : Nat) : Bool := decide (0xF000 ≤ off % 0x10000) && decide (off % 0x10000 < 0xF200)

/-- A read of a register offset by a function: zero where nothing is mapped, absent or not its own, and in the guard window (R3, R284,
R388). -/
def readReg (s : State) (f off : Nat) : W32 :=
  match findReg off with
  | none => 0
  | some (r, _, _) => if regPresent s off && mayRead s f off && !inGuardWindow off then regValue s f off r.fields else 0

/-- A read of any BAR0 offset: a bit alias returns its bit (R293). No read has a side effect (R285). -/
def readBar (s : State) (f off : Nat) : W32 :=
  if barUp s = false ∨ fnExists s f = false ∨ (fnHost s f).d3hot ∨ off % 4 ≠ 0 then 0
  else if 0x200000 ≤ off ∧ off < 0x300000 then
    let x := off - 0x200000
    BitVec.ofNat 32 (bit1 ((readReg s f (x / 0x8000 * 0x10000 + 4 * (x % 0x8000 / 0x80))).getLsbD (x % 0x80 / 4)))
  else readReg s f off

/-- A read request of n bytes at a BAR0 offset (R286): the addressed bytes of the registers that it reaches, lower address first; none,
Unsupported Request status, for a request of more than 8 bytes or one that crosses a multiple of 8. -/
def readReply (s : State) (f off n : Nat) : Option (List Byte) :=
  if 8 < off % 8 + n then none
  else some ((List.range n).map fun i => BitVec.ofNat 8 ((readBar s f ((off + i) / 4 * 4)).toNat / 2 ^ (8 * ((off + i) % 4))))

/-- A read of BAR2 by a function (R260). -/
def readBar2 (s : State) (f off : Nat) : W32 := if barUp s && fnExists s f && !(fnHost s f).d3hot then bar2Read s f off else 0

/-- A read of a function's configuration space (R260). -/
def readCfg (s : State) (f off : Nat) : W32 := if barUp s && fnExists s f then cfgRead s f off else 0

end Sys2Proof.Machine
end

