-- ==== Sys2Proof/Machine/BusOps.lean ====
section
/-! DEFINITION. The commands of the register bus (14_register_behaviour.md R286, R291 to R293): guarded pairs, whole-register
writes, dropped writes and bit aliases; and the application of committed sets (R296). -/

namespace Sys2Proof.Machine

/-! ## Guarded pairs (R291) -/

/-- The offset of slot k's opening half within its block. -/
def openOff (k : Nat) : Nat := 0xF000 + 4 * k

/-- The offset of slot k's closing half within its block. -/
def closeOff (k : Nat) : Nat := 0xF100 + 4 * k

/-- Slot k of a block names a grd register. -/
def slotGrd (blk k : Nat) : Bool :=
  match findReg (blk * 0x10000 + 4 * k) with
  | some (r, _, _) => hasGrd r.fields
  | none => false

/-- The register takes the pair's value, with what that starts: fuse programming (R393), the scan reference (R300), a forced
take-over (R367), a sleep request (R405), a soft reset (R402, R403). -/
def grdEffect (s : State) (off : Nat) (v : W32) : State :=
  if off = AR_PROG_ROW.off ∨ off = AR_PROG_DATA.off then
    progSet s off (if off = AR_PROG_ROW.off then v &&& 0x7F else v)
  else if off = AR_PROG_CMD.off then progCmd (setReg s off v) v
  else if off = MQ_SCAN_REF.off then scanRef s v
  else if off = PR_FORCE.off then forceWrite (setReg s off v) v
  else if off = MT_SLEEP.off then sleepWrite s v
  else if off = MT_SRST.off then srstWrite s v
  else s

/-- A pair that has run out ends: it is counted against its opening write (cause 2, or the first that applies). -/
def endExpired (s : State) (blk : Nat) : State :=
  match guardPair s blk with
  | some p =>
    if pairExpired s p then guardFault (setGuardPair s blk none) p.func (pairCause p 2) blk (openOff p.slot) else s
  | none => s

/-- The opening half arrives: a pair still open is counted at once under cause 3, and only the new pair is open. -/
def openPair (s : State) (a : Access) (blk k : Nat) (v : W32) : State :=
  let s := endExpired s blk
  let s := match guardPair s blk with
    | some p => guardFault s a.func (pairCause { p with broken := true } 3) blk (openOff k)
    | none => s
  setGuardPair s blk (some { slot := k, value := v, func := a.func, opened := s.now, broken := false,
                             noReg := !slotGrd blk k, noRights := !rights s a.func })

/-- The register takes the pair's value, when both halves are PF0's: every grd register is device-wide, and a write by another
function is one of an unowned unit, whatever its rights (R386, R388). -/
def grdWrite (s : State) (a : Access) (p : GuardPair) (blk k : Nat) : State :=
  if a.func ≠ 0 then ownFault s a (blk * 0x10000 + closeOff k)
  else if p.func ≠ 0 then ownFault s { a with func := p.func } (blk * 0x10000 + openOff k)
  else grdEffect s (blk * 0x10000 + 4 * k) p.value

/-- The closing half arrives: the pair ends, and its register takes the value when no cause applies. -/
def closePair (s : State) (a : Access) (blk k : Nat) (v : W32) : State :=
  let s := endExpired s blk
  match guardPair s blk with
  | none => guardFault s a.func 4 blk (closeOff k)
  | some p =>
    let s := setGuardPair s blk none
    let c := pairCause p (if p.slot ≠ k then 4 else if v ≠ ~~~p.value then 1 else 0)
    if c = 0 then grdWrite s a p blk k else guardFault s a.func c blk (closeOff k)

/-- The guard window of a block with registers: slots 0 to 63 (R284, R291). -/
def slotMapped (blk k : Nat) : Bool := decide (blk < 22) && decide (k < 64)

/-- GUARD_OPEN (R291). -/
def guardOpen (s : State) (a : Access) (blk k : Nat) (v : W32) : State :=
  if reaches s a = false ∨ slotMapped blk k = false then s
  else openPair (noteStall s a (blk * 0x10000 + openOff k)) a blk k v

def execGuardOpen (a : Access) (blk k : Nat) (v : W32) (s : State) : Host.Outcome State Fault Refusal := .next (guardOpen s a blk k v)

/-- GUARD_CLOSE (R291). -/
def guardClose (s : State) (a : Access) (blk k : Nat) (v : W32) : State :=
  if reaches s a = false ∨ slotMapped blk k = false then s
  else closePair (noteStall s a (blk * 0x10000 + closeOff k)) a blk k v

def execGuardClose (a : Access) (blk k : Nat) (v : W32) (s : State) : Host.Outcome State Fault Refusal := .next (guardClose s a blk k v)

/-- GUARD_TIMEOUT (R291): no closing write came by the 250th BCLK cycle. -/
def guardTimeout (s : State) (blk : Nat) : State := endExpired s blk

def execGuardTimeout (blk : Nat) (s : State) : Host.Outcome State Fault Refusal := .next (guardTimeout s blk)

/-! ## Guarded writes, both halves directly after one another -/

/-- A guarded write of v to the grd register at `off`. -/
def guardedWrite (s : State) (a : Access) (off : Nat) (v : W32) : State :=
  let blk := off / 0x10000
  let k := off % 0x10000 / 4
  guardClose (guardOpen s a blk k v) a blk k (~~~v)

/-- MQ_SCAN_REF_WRITE (R300). -/
def mqScanRefWrite (s : State) (a : Access) (v : W32) : State := guardedWrite s a MQ_SCAN_REF.off v

def execMqScanRefWrite (a : Access) (v : W32) (s : State) : Host.Outcome State Fault Refusal := .next (mqScanRefWrite s a v)

/-- PR_FORCE (R367). -/
def prForce (s : State) (a : Access) (v : W32) : State := guardedWrite s a PR_FORCE.off v

def execPrForce (a : Access) (v : W32) (s : State) : Host.Outcome State Fault Refusal := .next (prForce s a v)

/-- AR_PROG_CMD (R393, R394). -/
def arProgCmd (s : State) (a : Access) (v : W32) : State := guardedWrite s a AR_PROG_CMD.off v

def execArProgCmd (a : Access) (v : W32) (s : State) : Host.Outcome State Fault Refusal := .next (arProgCmd s a v)

/-- MT_SRST_DEVICE (R402): the written word's DEVICE bit. -/
def mtSrstDevice (s : State) (a : Access) (v : W32) : State := guardedWrite s a MT_SRST.off (v &&& 1)

def execMtSrstDevice (a : Access) (v : W32) (s : State) : Host.Outcome State Fault Refusal := .next (mtSrstDevice s a v)

/-- MT_SRST_DATAPATH (R403): the written word's DATAPATH bit. -/
def mtSrstDatapath (s : State) (a : Access) (v : W32) : State := guardedWrite s a MT_SRST.off (v &&& 2)

def execMtSrstDatapath (a : Access) (v : W32) (s : State) : Host.Outcome State Fault Refusal := .next (mtSrstDatapath s a v)

/-- MT_SLEEP (R405). -/
def mtSleep (s : State) (a : Access) (v : W32) : State := guardedWrite s a MT_SLEEP.off v

def execMtSleep (a : Access) (v : W32) (s : State) : Host.Outcome State Fault Refusal := .next (mtSleep s a v)

/-! ## Dropped writes (R286) -/

/-- A dropped write is counted, its sticky bit set, and the write logged. -/
def logDropped (s : State) (a : Access) (off be : Nat) (wide : Bool) : State :=
  let s := sts (inc s GL_NARROW_CNT.COUNT) (if wide then GL_ACC_STAT.OVERSIZE else GL_ACC_STAT.NARROW)
  setReg s GL_NARROW_LOG.off
    (BitVec.ofNat 32 (a.func % 8 * 2 ^ 29 + bit1 wide * 2 ^ 28 + be % 16 * 2 ^ 22 + off % 2 ^ 22))

/-- NARROW_WRITE (R286): whatever the location; nothing of it reaches a register or a guard slot (R284, R292). -/
def narrowWrite (s : State) (a : Access) (off be : Nat) : State :=
  if reaches s a = false ∨ be % 16 = 15 then s else logDropped s a off be false

def execNarrowWrite (a : Access) (off be : Nat) (_v : W32) (s : State) : Host.Outcome State Fault Refusal :=
  .next (narrowWrite s a off be)

/-- OVERSIZE_ACCESS (R286): a read completes with Unsupported Request status and changes nothing (R285). -/
def oversizeAccess (s : State) (a : Access) (off be : Nat) (isWrite : Bool) : State :=
  if reaches s a = false ∨ isWrite = false then s else logDropped s a off be true

def execOversizeAccess (a : Access) (off be : Nat) (isWrite : Bool) (s : State) : Host.Outcome State Fault Refusal :=
  .next (oversizeAccess s a off be isWrite)

/-! ## Bit aliases (R293) -/

/-- The field that holds a bit of a register. -/
def fieldAt (bit : Nat) (fs : List RField) : Option RField := fs.find? fun f => decide (f.lsb ≤ bit) && decide (bit ≤ f.msb)

/-- A word with one bit replaced. -/
def withBit (w : W32) (i : Nat) (b : Bool) : W32 := if b then w ||| (1#32 <<< i) else w &&& ~~~(1#32 <<< i)

/-- A write of the whole register that changes no field: live and cnt fields as they are, cfg fields as staged. -/
def unchanged (s : State) (a : Access) (off : Nat) (fs : List RField) : W32 :=
  let keep := maskOf (fun t => t = .live || t = .cnt) fs
  let cm := maskOf (fun t => t = .cfg) fs
  let w := if off = MQ_VIEW.off then viewOf s a.func else reg s off
  BitVec.ofNat 32 ((w.toNat &&& keep) ||| ((maqOf s off).toNat &&& cm))

/-- A count that a read computes is brought up to date before one of its bits is written. -/
def settleCount (s : State) (off : Nat) : State :=
  if off / 0x1000 = 0x100 ∧ off % 256 = 0x44 then settleStarve s (off % 0x1000 / 256) else s

/-- One bit of a register is written according to its field type (table *Alias writes by field type*). -/
def aliasBit (s : State) (a : Access) (off bit : Nat) (b : Bool) (r : RegRow) : State :=
  match fieldAt bit r.fields with
  | none => s
  | some f =>
    let s := settleCount s off
    let w := unchanged s a off r.fields
    match f.ty with
    | .ro => s
    | .grd => guardFault s a.func 7 (off / 0x10000) (off % 0x10000)
    | .cmd => if b then routeWrite s a off (withBit w bit true) else s
    | .sts => if b then s else routeWrite s a off (withBit w bit true)
    | .cfg | .live | .cnt =>
      routeWrite s a off (withBit (if r.half = .lo then (latchOf s off).getD (loInForce s off r.fields) else w) bit b)

/-- The bit belongs to a grd field. -/
def isGrdBit (bit : Nat) (r : RegRow) : Bool := (fieldAt bit r.fields).any fun f => f.ty = .grd

/-- The write of the alias word `off` of bit `bit` of the register at `tgt`.  A write to the alias of a grd bit is a guard fault of
cause 7 also where the function does not own the register, as a direct write of the register is (R291, R388, log 27). -/
def aliasAt (s : State) (a : Access) (off tgt bit : Nat) (b : Bool) : State :=
  match findReg tgt with
  | none => s
  | some (r, _, _) =>
    if !regPresent s tgt then s
    else if !mayWrite s a.func tgt then
      if isGrdBit bit r then guardFault (ownFault s a off) a.func 7 (tgt / 0x10000) (tgt % 0x10000) else ownFault s a off
    else aliasBit s a tgt bit b r

/-- ALIAS_WRITE (R293): `off` is the alias word's offset. -/
def aliasWrite (s : State) (a : Access) (off : Nat) (v : W32) : State :=
  if reaches s a = false ∨ off < 0x200000 ∨ 0x300000 ≤ off ∨ off % 4 ≠ 0 then s
  else
    let x := off - 0x200000
    aliasAt (breakPair (noteStall s a off) (x / 0x8000)) a off (x / 0x8000 * 0x10000 + 4 * (x % 0x8000 / 0x80)) (x % 0x80 / 4)
      (v.getLsbD 0)

def execAliasWrite (a : Access) (off : Nat) (v : W32) (s : State) : Host.Outcome State Fault Refusal := .next (aliasWrite s a off v)

/-! ## Whole-register writes (R9, R284) -/

/-- A write to an offset outside the guard windows and aliases. -/
def regWrite (s : State) (a : Access) (off : Nat) (v : W32) : State :=
  match findReg off with
  | none => breakPair (noteStall s a off) (off / 0x10000)
  | some (r, _, _) =>
    if hasGrd r.fields then
      guardFault (accept s a off fun s => s) a.func 7 (off / 0x10000) (off % 0x10000)
    else accept s a off fun s => routeWrite s a off v

/-- A write of the function's configuration space; with a return to D0 the window blocks of its streams whose fill can no longer come
are written (R228, log 15). -/
def cfgSpaceWrite (s : State) (f off : Nat) (v : W32) : State :=
  let t := cfgWrite s f off v
  if (fnHost s f).d3hot ∧ (fnHost t f).d3hot = false then loseStrayAsides t else t

/-- REGISTER_WRITE (R9): an aligned 32-bit write anywhere in BAR0; offsets from 0x40_0000 on stand for BAR2, and from 0x40_4000 on for
the function's configuration space, which answers in D3hot too (log 15). -/
def registerWrite (s : State) (a : Access) (off : Nat) (v : W32) : State :=
  let blk := off / 0x10000
  let o := off % 0x10000
  if off % 4 ≠ 0 ∨ barUp s = false ∨ fnExists s a.func = false then s
  else if 0x404000 ≤ off then cfgSpaceWrite s a.func (off - 0x404000) v
  else if reaches s a = false then s
  else if 0x400000 ≤ off then bar2Write s a.func (off - 0x400000) v
  else if 0x200000 ≤ off ∧ off < 0x300000 then aliasWrite s a off v
  else if 22 ≤ blk then noteStall s a off
  else if 0xF000 ≤ o ∧ o < 0xF100 then guardOpen s a blk ((o - 0xF000) / 4) v
  else if 0xF100 ≤ o ∧ o < 0xF200 then guardClose s a blk ((o - 0xF100) / 4) v
  else regWrite s a off v

def execRegisterWrite (a : Access) (off : Nat) (v : W32) (s : State) : Host.Outcome State Fault Refusal :=
  .next (registerWrite s a off v)

/-! ## Application of a committed set (R296) -/

/-- The unit's boundary has come: an even edge for IN and LG (R40), a stopped converter for MA (R358), an idle sequencer for PG, the
start of a word for TT; the other blocks apply in the arrival cycle.  A running sequencer and a running converter apply in
SEGMENT_BOUNDARY and MA_EXECUTION_END, calibration units in CAL_FRAME_BOUNDARY. -/
def boundary (s : State) : UBlock → Bool
  | .inLg _ | .busy => s.pl.edge % 2 = 0
  | .caGrp _ | .caCfg => false
  | .pg q => !flag s (PG_STAT.RUNNING q)
  | .tt => s.pl.edge % 4 = 0
  | .ma c => !(conv s c).run
  | _ => true

/-- The unit's committed set comes into force, with what follows from its new values. -/
def applySet (s : State) (u : UBlock) : State :=
  match u with
  | .inLg g => applyInLg s g
  | .busy => evalPins (applyRegs s u)
  | .mu n => applyMu s n
  | .cr r => applyCr s r
  | .pk h => applyPk s h
  | .tt => restartGens (applyRegs s u)
  | .ep _ | .tp => netConfig s (applyRegs s u)
  | .pr => applyPr s
  | .caGrp _ | .caCfg | .pg _ | .mc _ | .ma _ | .mt => applyRegs s u

/-- COMMITTED_SET_APPLY (R296). -/
def committedSetApply (s : State) (u : UBlock) : State :=
  if isWaiting s u && boundary s u then applySet s u else s

def execCommittedSetApply (u : UBlock) (s : State) : Host.Outcome State Fault Refusal := .next (committedSetApply s u)

end Sys2Proof.Machine
end

