-- ==== Sys2Proof/Machine/Tick.lean ====
section
/-! DEFINITION. The passage of time: one 625 ps period, in which every event command that falls due stays to be given by the
sender.  It is what the block does when no command waits; and the levels of its output pins. -/

namespace Sys2Proof.Machine

/-- The edge of PCLK at the end of the period: rate generators, T and F, and at a GCLK edge the BUSY pins and their hold counts
(R92, R147, R148, R338). -/
def pclkEdge (s : State) : State :=
  if s.pl.running then
    let s := advanceGens s
    let s := endStops { s with pl := plinthEdge s.pl }
    if s.pl.edge % 2 = 0 then evalNewWm (forEach (List.range (nBusy s)) (noteBusy s) tickHold) else s
  else s

/-- The present MCLK cycle ends with this period: the MARKs that arrived in it take effect (R214, R229). -/
def endCycle (s : State) : State := if fclk s < (s.now + 1) * 5 / 8 then applyMarks s else s

/-- One period of 625 ps passes: the MARKs of an MCLK cycle that ends, the edge, the MT count every 64 periods (R404), a launch that comes to the head of its queue
(R316), an ownership input that has been high for long enough (R367) and the cast link's next message (R362). -/
def tick (s : State) : State :=
  let s := endCycle s
  let s := pclkEdge { s with now := s.now + 1 }
  let s := if s.now % 64 = 0 then countStep s else s
  linkStep (fence (headReady (headReady s 0) 1))

/-! ## Output pins -/

/-- ALARM_N is low: an enabled alarm cause is set (R281). -/
def alarmLow (s : State) : Bool := (reg s IR_ALARM_STAT.off &&& reg s IR_ALARM_EN.off) ≠ 0

/-- The level of BUSY[p] (R148): the state of 8 GCLK cycles ago; high-impedance while its output is disabled or the device does not
drive its outputs. -/
def busyPin (s : State) (p : Nat) : Option Bool :=
  if drives s && flag s (LG_BUSY_CFG.OE p) then some (busyDriven s p) else none

/-- The level of PPS_OUT (R317). -/
def ppsPin (s : State) : Option Bool :=
  if drives s && flag s TP_PPS_CFG.OE then some s.tp.ppsHigh else none

/-- The level of OWN_OUT (R361, table *Roles*): high on the active device, low on a standby or a fenced device, idle without
the pair. -/
def ownOut (s : State) : Option Bool := if role s = 0 then none else some (role s = 3)

/-- WAKE_N is driven low: from the wake event until the register space answers (R407). -/
def wakeOut (s : State) : Bool := s.mt.woke && flag s MT_CFG.WAKE_OUT && !barUp s

/-- The transmitter of Ethernet port p is out of electrical idle (R401). -/
def ethDriven (s : State) (p : Nat) : Bool := !s.mt.inReset && !s.mt.asleep && flag s (EP_CFG.EN p)

/-- The cast transmitters are out of electrical idle: the pair fuse is set (R362, R401). -/
def castDriven (s : State) : Bool := !s.mt.inReset && !s.mt.asleep && pairFuse s

/-- RESET_n of DDR5 channel n is high: its training has begun (R401). -/
def ddrReleased (s : State) (n : Nat) : Bool :=
  flag s (MC_STAT.TRAINING n) || flag s (MC_STAT.TRAINED n) || flag s (MC_STAT.RETIRED n) ||
    (chan s n).orgPresent

end Sys2Proof.Machine
end

