-- ==== Sys2Proof/Machine/Dispatch.lean ====
section
/-! DEFINITION. The meaning of each command: one arm per constructor of `Instr`, in the order of the table. -/

namespace Sys2Proof.Machine

def exec (i : Instr) (s : State) : Host.Outcome State Fault Refusal :=
  match i with
  | .powerOn => Sys2Proof.Machine.execPowerOn s
  | .railBelowThreshold => Sys2Proof.Machine.execRailBelowThreshold s
  | .resetAssert => Sys2Proof.Machine.execResetAssert s
  | .resetRelease b => Sys2Proof.Machine.execResetRelease b s
  | .mainPllLock => Sys2Proof.Machine.execMainPllLock s
  | .mainPllLoss => Sys2Proof.Machine.execMainPllLoss s
  | .mainPllRelock => Sys2Proof.Machine.execMainPllRelock s
  | .vddioSupplyWarning => Sys2Proof.Machine.execVddioSupplyWarning s
  | .comparatorTransition lane falling taps further => Sys2Proof.Machine.execComparatorTransition lane falling taps further s
  | .stampEmit lane => Sys2Proof.Machine.execStampEmit lane s
  | .settlingWindowEnd lane => Sys2Proof.Machine.execSettlingWindowEnd lane s
  | .dllLockDeclare g => Sys2Proof.Machine.execDllLockDeclare g s
  | .dllLossDeclare g c => Sys2Proof.Machine.execDllLossDeclare g c s
  | .dllCodeStep g code err => Sys2Proof.Machine.execDllCodeStep g code err s
  | .lgDllRelock a g v => Sys2Proof.Machine.execLgDllRelock a g v s
  | .inNulling a v => Sys2Proof.Machine.execInNulling a v s
  | .inOpenWire a v => Sys2Proof.Machine.execInOpenWire a v s
  | .nullingComplete highA highB => Sys2Proof.Machine.execNullingComplete highA highB s
  | .openWireComplete => Sys2Proof.Machine.execOpenWireComplete s
  | .ma0BorrowStart => Sys2Proof.Machine.execMa0BorrowStart s
  | .ma0BorrowEnd m => Sys2Proof.Machine.execMa0BorrowEnd m s
  | .laneRecordTake g => Sys2Proof.Machine.execLaneRecordTake g s
  | .tileHoldTimeout g => Sys2Proof.Machine.execTileHoldTimeout g s
  | .allowanceRise g => Sys2Proof.Machine.execAllowanceRise g s
  | .fabricCreditEarn src => Sys2Proof.Machine.execFabricCreditEarn src s
  | .groupQueueRead q d => Sys2Proof.Machine.execGroupQueueRead q d s
  | .waitingWindowEntryWrite g => Sys2Proof.Machine.execWaitingWindowEntryWrite g s
  | .busyHoldExpiry p => Sys2Proof.Machine.execBusyHoldExpiry p s
  | .windowOpen g => Sys2Proof.Machine.execWindowOpen g s
  | .windowClose g => Sys2Proof.Machine.execWindowClose g s
  | .windowDurExpiry g => Sys2Proof.Machine.execWindowDurExpiry g s
  | .lgWinVeto a g v => Sys2Proof.Machine.execLgWinVeto a g v s
  | .vetoArrival g => Sys2Proof.Machine.execVetoArrival g s
  | .lgInjDataWrite a g v => Sys2Proof.Machine.execLgInjDataWrite a g v s
  | .lgInjFlush a g v => Sys2Proof.Machine.execLgInjFlush a g v s
  | .injectedTileSeal g => Sys2Proof.Machine.execInjectedTileSeal g s
  | .lgQPeakClr a g v => Sys2Proof.Machine.execLgQPeakClr a g v s
  | .epochBoundary => Sys2Proof.Machine.execEpochBoundary s
  | .tempDelivery => Sys2Proof.Machine.execTempDelivery s
  | .tempStaleExpiry g => Sys2Proof.Machine.execTempStaleExpiry g s
  | .tableBuildComplete g => Sys2Proof.Machine.execTableBuildComplete g s
  | .calFrameBoundary => Sys2Proof.Machine.execCalFrameBoundary s
  | .calStoreLoadComplete f => Sys2Proof.Machine.execCalStoreLoadComplete f s
  | .calMeasure c => Sys2Proof.Machine.execCalMeasure c s
  | .calMeasureComplete g h => Sys2Proof.Machine.execCalMeasureComplete g h s
  | .calTableWrite c => Sys2Proof.Machine.execCalTableWrite c s
  | .calTableRead c => Sys2Proof.Machine.execCalTableRead c s
  | .calStoreWrite c => Sys2Proof.Machine.execCalStoreWrite c s
  | .calStoreWriteComplete r => Sys2Proof.Machine.execCalStoreWriteComplete r s
  | .calStoreReload c => Sys2Proof.Machine.execCalStoreReload c s
  | .calFlashRead c responds => Sys2Proof.Machine.execCalFlashRead c responds s
  | .plAdjSetWrite a v => Sys2Proof.Machine.execPlAdjSetWrite a v s
  | .plRateSrcChange a v => Sys2Proof.Machine.execPlRateSrcChange a v s
  | .adjApply => Sys2Proof.Machine.execAdjApply s
  | .plOriginWaitClear a v => Sys2Proof.Machine.execPlOriginWaitClear a v s
  | .plSnapGo a v => Sys2Proof.Machine.execPlSnapGo a v s
  | .plSnapCancel a v => Sys2Proof.Machine.execPlSnapCancel a v s
  | .snapshotTake pin => Sys2Proof.Machine.execSnapshotTake pin s
  | .fabricEntry src => Sys2Proof.Machine.execFabricEntry src s
  | .fabricGrant => Sys2Proof.Machine.execFabricGrant s
  | .fabricDelivery => Sys2Proof.Machine.execFabricDelivery s
  | .clusterUnpack c => Sys2Proof.Machine.execClusterUnpack c s
  | .muTileArrival => Sys2Proof.Machine.execMuTileArrival s
  | .muProcessInput u => Sys2Proof.Machine.execMuProcessInput u s
  | .muArm a u v => Sys2Proof.Machine.execMuArm a u v s
  | .muClose a u v => Sys2Proof.Machine.execMuClose a u v s
  | .muDisarm a u v => Sys2Proof.Machine.execMuDisarm a u v s
  | .muGateLenExpiry u => Sys2Proof.Machine.execMuGateLenExpiry u s
  | .muPublish u => Sys2Proof.Machine.execMuPublish u s
  | .muBankHoldTimeout b => Sys2Proof.Machine.execMuBankHoldTimeout b s
  | .clusterResultTake c => Sys2Proof.Machine.execClusterResultTake c s
  | .clusterHoldTimeout c => Sys2Proof.Machine.execClusterHoldTimeout c s
  | .iAdd e => Sys2Proof.Machine.execIAdd e s
  | .iSub e => Sys2Proof.Machine.execISub e s
  | .iAnd e => Sys2Proof.Machine.execIAnd e s
  | .iOr e => Sys2Proof.Machine.execIOr e s
  | .iXor e => Sys2Proof.Machine.execIXor e s
  | .iShl e => Sys2Proof.Machine.execIShl e s
  | .iShr e => Sys2Proof.Machine.execIShr e s
  | .iSar e => Sys2Proof.Machine.execISar e s
  | .iMul e => Sys2Proof.Machine.execIMul e s
  | .iMulhu e => Sys2Proof.Machine.execIMulhu e s
  | .iMin e => Sys2Proof.Machine.execIMin e s
  | .iMax e => Sys2Proof.Machine.execIMax e s
  | .iMinu e => Sys2Proof.Machine.execIMinu e s
  | .iMaxu e => Sys2Proof.Machine.execIMaxu e s
  | .iAdds e => Sys2Proof.Machine.execIAdds e s
  | .iSubs e => Sys2Proof.Machine.execISubs e s
  | .iSlt e => Sys2Proof.Machine.execISlt e s
  | .iSltu e => Sys2Proof.Machine.execISltu e s
  | .iSeq e => Sys2Proof.Machine.execISeq e s
  | .iClz e => Sys2Proof.Machine.execIClz e s
  | .iPopc e => Sys2Proof.Machine.execIPopc e s
  | .iAddi e => Sys2Proof.Machine.execIAddi e s
  | .iAndi e => Sys2Proof.Machine.execIAndi e s
  | .iOri e => Sys2Proof.Machine.execIOri e s
  | .iXori e => Sys2Proof.Machine.execIXori e s
  | .iShi e => Sys2Proof.Machine.execIShi e s
  | .iMovi e => Sys2Proof.Machine.execIMovi e s
  | .iMovh e => Sys2Proof.Machine.execIMovh e s
  | .iExt e => Sys2Proof.Machine.execIExt e s
  | .iSext e => Sys2Proof.Machine.execISext e s
  | .iBr e => Sys2Proof.Machine.execIBr e s
  | .iBbit e => Sys2Proof.Machine.execIBbit e s
  | .iJmp e => Sys2Proof.Machine.execIJmp e s
  | .iCall e => Sys2Proof.Machine.execICall e s
  | .iJr e => Sys2Proof.Machine.execIJr e s
  | .iLd e => Sys2Proof.Machine.execILd e s
  | .iLdw e => Sys2Proof.Machine.execILdw e s
  | .iSt e => Sys2Proof.Machine.execISt e s
  | .iStw e => Sys2Proof.Machine.execIStw e s
  | .iHinc e => Sys2Proof.Machine.execIHinc e s
  | .iHadd e => Sys2Proof.Machine.execIHadd e s
  | .iPop e => Sys2Proof.Machine.execIPop e s
  | .popWaitComplete e waited => Sys2Proof.Machine.execPopWaitComplete e waited s
  | .iTrypop e => Sys2Proof.Machine.execITrypop e s
  | .iPeek e => Sys2Proof.Machine.execIPeek e s
  | .iSkip e => Sys2Proof.Machine.execISkip e s
  | .iWait e => Sys2Proof.Machine.execIWait e s
  | .waitComplete e waited => Sys2Proof.Machine.execWaitComplete e waited s
  | .iRecv e => Sys2Proof.Machine.execIRecv e s
  | .iSend e => Sys2Proof.Machine.execISend e s
  | .iRds e => Sys2Proof.Machine.execIRds e s
  | .iTreb e => Sys2Proof.Machine.execITreb e s
  | .iEmit e => Sys2Proof.Machine.execIEmit e s
  | .iEmitt e => Sys2Proof.Machine.execIEmitt e s
  | .iDrive e => Sys2Proof.Machine.execIDrive e s
  | .iPjump e => Sys2Proof.Machine.execIPjump e s
  | .iVeto e => Sys2Proof.Machine.execIVeto e s
  | .iMark e => Sys2Proof.Machine.execIMark e s
  | .iGate e => Sys2Proof.Machine.execIGate e s
  | .iMuarm e => Sys2Proof.Machine.execIMuarm e s
  | .iNote e => Sys2Proof.Machine.execINote e s
  | .iHalt e => Sys2Proof.Machine.execIHalt e s
  | .illegalInstruction e => Sys2Proof.Machine.execIllegalInstruction e s
  | .pcOverrun e => Sys2Proof.Machine.execPcOverrun e s
  | .cvStart a e v => Sys2Proof.Machine.execCvStart a e v s
  | .cvHalt a e v => Sys2Proof.Machine.execCvHalt a e v s
  | .cvLoadImem c => Sys2Proof.Machine.execCvLoadImem c s
  | .cvLoadLmem c => Sys2Proof.Machine.execCvLoadLmem c s
  | .cvReadLmem c => Sys2Proof.Machine.execCvReadLmem c s
  | .cvSubscribe c => Sys2Proof.Machine.execCvSubscribe c s
  | .cvDecLatMaxClr a e v => Sys2Proof.Machine.execCvDecLatMaxClr a e v s
  | .ccInPeakClr a c v => Sys2Proof.Machine.execCcInPeakClr a c v s
  | .ccDqPeakClr a d v => Sys2Proof.Machine.execCcDqPeakClr a d v s
  | .ccFabWaitMaxClr a v => Sys2Proof.Machine.execCcFabWaitMaxClr a v s
  | .overrideApply p => Sys2Proof.Machine.execOverrideApply p s
  | .overridePulseEnd p => Sys2Proof.Machine.execOverridePulseEnd p s
  | .jumpRequestArrival q => Sys2Proof.Machine.execJumpRequestArrival q s
  | .markArrival r => Sys2Proof.Machine.execMarkArrival r s
  | .clusterGateArrival c => Sys2Proof.Machine.execClusterGateArrival c s
  | .muarmArrival u => Sys2Proof.Machine.execMuarmArrival u s
  | .mcTrain a n v => Sys2Proof.Machine.execMcTrain a n v s
  | .channelTrainComplete n ok size => Sys2Proof.Machine.execChannelTrainComplete n ok size s
  | .mcRetire a n v => Sys2Proof.Machine.execMcRetire a n v s
  | .scrubRead n blk errs => Sys2Proof.Machine.execScrubRead n blk errs s
  | .crStart a r v => Sys2Proof.Machine.execCrStart a r v s
  | .crStop a r v => Sys2Proof.Machine.execCrStop a r v s
  | .crMark a r v => Sys2Proof.Machine.execCrMark a r v s
  | .crRelease a r v => Sys2Proof.Machine.execCrRelease a r v s
  | .crReplay a r v => Sys2Proof.Machine.execCrReplay a r v s
  | .crMigrate a r v => Sys2Proof.Machine.execCrMigrate a r v s
  | .ringWrite r => Sys2Proof.Machine.execRingWrite r s
  | .replaySlotRead r errs => Sys2Proof.Machine.execReplaySlotRead r errs s
  | .migrationCopy r errs => Sys2Proof.Machine.execMigrationCopy r errs s
  | .packerTakeItem h rep flip => Sys2Proof.Machine.execPackerTakeItem h rep flip s
  | .pkFlushExpiry h => Sys2Proof.Machine.execPkFlushExpiry h s
  | .pkRatioUpdate h => Sys2Proof.Machine.execPkRatioUpdate h s
  | .bufferIdleTimeout h => Sys2Proof.Machine.execBufferIdleTimeout h s
  | .hiRingStart a r v => Sys2Proof.Machine.execHiRingStart a r v s
  | .hiRingStop a r v => Sys2Proof.Machine.execHiRingStop a r v s
  | .ringStopped r => Sys2Proof.Machine.execRingStopped r s
  | .doorbellFetch f ok slots bad bufs => Sys2Proof.Machine.execDoorbellFetch f ok slots bad bufs s
  | .hiKick a f v => Sys2Proof.Machine.execHiKick a f v s
  | .nop c => Sys2Proof.Machine.execNop c s
  | .unknownOpcode c => Sys2Proof.Machine.execUnknownOpcode c s
  | .pgSegLoad c => Sys2Proof.Machine.execPgSegLoad c s
  | .pgSeqLoad c => Sys2Proof.Machine.execPgSeqLoad c s
  | .epFrameLaunch c => Sys2Proof.Machine.execEpFrameLaunch c s
  | .completionSlotWrite r fail => Sys2Proof.Machine.execCompletionSlotWrite r fail s
  | .msixRaise r => Sys2Proof.Machine.execMsixRaise r s
  | .interruptModExpiry r => Sys2Proof.Machine.execInterruptModExpiry r s
  | .noticeWrite f ok => Sys2Proof.Machine.execNoticeWrite f ok s
  | .functionLevelReset f => Sys2Proof.Machine.execFunctionLevelReset f s
  | .pcieHotReset width speed => Sys2Proof.Machine.execPcieHotReset width speed s
  | .registerWrite a off v => Sys2Proof.Machine.execRegisterWrite a off v s
  | .narrowWrite a off be v => Sys2Proof.Machine.execNarrowWrite a off be v s
  | .oversizeAccess a off be isWrite => Sys2Proof.Machine.execOversizeAccess a off be isWrite s
  | .aliasWrite a off v => Sys2Proof.Machine.execAliasWrite a off v s
  | .guardOpen a blk k v => Sys2Proof.Machine.execGuardOpen a blk k v s
  | .guardClose a blk k v => Sys2Proof.Machine.execGuardClose a blk k v s
  | .guardTimeout blk => Sys2Proof.Machine.execGuardTimeout blk s
  | .mqScanRefWrite a v => Sys2Proof.Machine.execMqScanRefWrite a v s
  | .mqUnveil a v => Sys2Proof.Machine.execMqUnveil a v s
  | .unveilPinStrobe => Sys2Proof.Machine.execUnveilPinStrobe s
  | .partnerStrobe => Sys2Proof.Machine.execPartnerStrobe s
  | .unveilLatch u => Sys2Proof.Machine.execUnveilLatch u s
  | .committedSetApply u => Sys2Proof.Machine.execCommittedSetApply u s
  | .integrityScanEnd => Sys2Proof.Machine.execIntegrityScanEnd s
  | .ptpSyncReceive fr => Sys2Proof.Machine.execPtpSyncReceive fr s
  | .ptpFollowUpReceive fr => Sys2Proof.Machine.execPtpFollowUpReceive fr s
  | .ptpDelayRespReceive fr => Sys2Proof.Machine.execPtpDelayRespReceive fr s
  | .ptpAnnounceReceive fr => Sys2Proof.Machine.execPtpAnnounceReceive fr s
  | .delayReqSend ahead => Sys2Proof.Machine.execDelayReqSend ahead s
  | .syncLossTimeout => Sys2Proof.Machine.execSyncLossTimeout s
  | .tpAnchor a v => Sys2Proof.Machine.execTpAnchor a v s
  | .tpRestart a v => Sys2Proof.Machine.execTpRestart a v s
  | .ptpForward fr => Sys2Proof.Machine.execPtpForward fr s
  | .frameTransmit p ahead => Sys2Proof.Machine.execFrameTransmit p ahead s
  | .frameLaunch p => Sys2Proof.Machine.execFrameLaunch p s
  | .epFlush a p v => Sys2Proof.Machine.execEpFlush a p v s
  | .epLinkReset a p v => Sys2Proof.Machine.execEpLinkReset a p v s
  | .ethLinkChange p up => Sys2Proof.Machine.execEthLinkChange p up s
  | .ppsOutRise => Sys2Proof.Machine.execPpsOutRise s
  | .ppsOutFall => Sys2Proof.Machine.execPpsOutFall s
  | .ppsInEdge => Sys2Proof.Machine.execPpsInEdge s
  | .gatePinEdge pin level => Sys2Proof.Machine.execGatePinEdge pin level s
  | .pgStart a q v => Sys2Proof.Machine.execPgStart a q v s
  | .sequencerFirstSample q => Sys2Proof.Machine.execSequencerFirstSample q s
  | .pgStop a q v => Sys2Proof.Machine.execPgStop a q v s
  | .pgClrreq a q v => Sys2Proof.Machine.execPgClrreq a q v s
  | .pgJump a q v => Sys2Proof.Machine.execPgJump a q v s
  | .pgStoreClaim a q v => Sys2Proof.Machine.execPgStoreClaim a q v s
  | .pgStoreRelease a q v => Sys2Proof.Machine.execPgStoreRelease a q v s
  | .pgOvrCmd a v => Sys2Proof.Machine.execPgOvrCmd a v s
  | .commitPoint q => Sys2Proof.Machine.execCommitPoint q s
  | .segmentBoundary q => Sys2Proof.Machine.execSegmentBoundary q s
  | .granuleStarve q => Sys2Proof.Machine.execGranuleStarve q s
  | .refillRead q errs => Sys2Proof.Machine.execRefillRead q errs s
  | .ttArm a t v => Sys2Proof.Machine.execTtArm a t v s
  | .ttDisarm a t v => Sys2Proof.Machine.execTtDisarm a t v s
  | .triggerFire t => Sys2Proof.Machine.execTriggerFire t s
  | .triggerGateClose t => Sys2Proof.Machine.execTriggerGateClose t s
  | .ttHostGateOpen a v => Sys2Proof.Machine.execTtHostGateOpen a v s
  | .ttHostGateClose a v => Sys2Proof.Machine.execTtHostGateClose a v s
  | .maRefEnable a v => Sys2Proof.Machine.execMaRefEnable a v s
  | .maRefReady => Sys2Proof.Machine.execMaRefReady s
  | .maSelfcal a c v => Sys2Proof.Machine.execMaSelfcal a c v s
  | .maSelfcalComplete c ofs gain => Sys2Proof.Machine.execMaSelfcalComplete c ofs gain s
  | .maStart a c v => Sys2Proof.Machine.execMaStart a c v s
  | .maStop a c v => Sys2Proof.Machine.execMaStop a c v s
  | .maExecutionEnd x0 x1 => Sys2Proof.Machine.execMaExecutionEnd x0 x1 s
  | .maAccSnap a n v => Sys2Proof.Machine.execMaAccSnap a n v s
  | .maAccClr a n v => Sys2Proof.Machine.execMaAccClr a n v s
  | .maWinEnable a n v => Sys2Proof.Machine.execMaWinEnable a n v s
  | .castLinkTrain lanes lat p => Sys2Proof.Machine.execCastLinkTrain lanes lat p s
  | .linkRetransmit => Sys2Proof.Machine.execLinkRetransmit s
  | .heartbeatSend => Sys2Proof.Machine.execHeartbeatSend s
  | .heartbeatReceive h => Sys2Proof.Machine.execHeartbeatReceive h s
  | .heartbeatLoss => Sys2Proof.Machine.execHeartbeatLoss s
  | .ownInChange level => Sys2Proof.Machine.execOwnInChange level s
  | .takeover => Sys2Proof.Machine.execTakeover s
  | .prYield a v => Sys2Proof.Machine.execPrYield a v s
  | .prForce a v => Sys2Proof.Machine.execPrForce a v s
  | .prAlign a v adj => Sys2Proof.Machine.execPrAlign a v adj s
  | .alignOffsetDone x => Sys2Proof.Machine.execAlignOffsetDone x s
  | .alignComplete x => Sys2Proof.Machine.execAlignComplete x s
  | .prMeasure a v => Sys2Proof.Machine.execPrMeasure a v s
  | .prResync a v => Sys2Proof.Machine.execPrResync a v s
  | .castStart => Sys2Proof.Machine.execCastStart s
  | .castEndReceive x => Sys2Proof.Machine.execCastEndReceive x s
  | .pairEventReceive ev => Sys2Proof.Machine.execPairEventReceive ev s
  | .spliceWpRecord => Sys2Proof.Machine.execSpliceWpRecord s
  | .cutPlace g => Sys2Proof.Machine.execCutPlace g s
  | .arProgCmd a v => Sys2Proof.Machine.execArProgCmd a v s
  | .fuseProgComplete blown => Sys2Proof.Machine.execFuseProgComplete blown s
  | .fuseVppChange inRange => Sys2Proof.Machine.execFuseVppChange inRange s
  | .mtSrstDevice a v => Sys2Proof.Machine.execMtSrstDevice a v s
  | .mtSrstDatapath a v => Sys2Proof.Machine.execMtSrstDatapath a v s
  | .datapathFlushEnd => Sys2Proof.Machine.execDatapathFlushEnd s
  | .mtSleep a v => Sys2Proof.Machine.execMtSleep a v s
  | .sleepEntry => Sys2Proof.Machine.execSleepEntry s
  | .wakeEvent wcmp pin b => Sys2Proof.Machine.execWakeEvent wcmp pin b s
  | .plinthResume => Sys2Proof.Machine.execPlinthResume s
  | .refLoss => Sys2Proof.Machine.execRefLoss s
  | .refRestore => Sys2Proof.Machine.execRefRestore s
  | .lpoCalWindow ratio => Sys2Proof.Machine.execLpoCalWindow ratio s
  | .glStallMaxClr a v => Sys2Proof.Machine.execGlStallMaxClr a v s
  | .vaonBelowThreshold => Sys2Proof.Machine.execVaonBelowThreshold s
  | .castLinkDrop lanes => Sys2Proof.Machine.execCastLinkDrop lanes s
  | .castEnd => Sys2Proof.Machine.execCastEnd s
  | .alignPulseTimeout => Sys2Proof.Machine.execAlignPulseTimeout s
  | .measureComplete x => Sys2Proof.Machine.execMeasureComplete x s
  | .ethFrameReceive fr => Sys2Proof.Machine.execEthFrameReceive fr s

end Sys2Proof.Machine
end

