-- ==== Sys2Proof/WellFormed.lean ====
section
/-! DEFINITION. Which commands are well formed: every index names a unit of the largest configuration, every offset lies in
BAR0, and data that the device reads from outside has the size that its source gives. -/

namespace Sys2Proof

/-- A function number (R260). -/
def accessOk (a : Access) : Bool := decide (a.func < 8)

/-- A descriptor of one of the 64 host rings, its byte fields within a byte (R262, R270). -/
def commandOk (c : Command) : Bool := decide (c.ring < 64) && decide (c.bytes.length = 32)

/-- A frame at one of the two ports (R301). -/
def frameOk (fr : Frame) : Bool := decide (fr.port < 2)

/-- One of the 16 capture rings or 64 packer streams (R136). -/
def destOk : Dest → Bool
  | .ring r => decide (r < 16)
  | .stream h => decide (h < 64)

/-- A unit of the table *Unveil-group assignment* (R294). -/
def unitOk : UBlock → Bool
  | .inLg g => decide (g < 64)
  | .caGrp g => decide (g < 64)
  | .mu u => decide (u < 64)
  | .cr r => decide (r < 16)
  | .pk h => decide (h < 64)
  | .pg q => decide (q < 4)
  | .mc n => decide (n < 4)
  | .ma c => decide (c < 2)
  | .ep p => decide (p < 2)
  | .busy | .caCfg | .tt | .tp | .pr | .mt => true

/-- SPD hubs of the four channels (R218), and a PCIe link of at most 16 lanes (R260). -/
def bootOk (b : Boot) : Bool := b.spd.all (fun x => decide (x.chan < 4)) && decide (b.width ≤ 16)

/-- Memory errors name a word of the block read (R219). -/
def errsOk (errs : List (Nat × Bool)) : Bool := errs.all fun x => decide (x.1 < 1024)

/-- Histograms of lanes, 512 bins each half (R83). -/
def histsOk (h : List Histogram) : Bool := h.all fun x => decide (x.lane < 1024) && decide (x.hA.length = 512) && decide (x.hB.length = 512)

/-- The command is well formed. -/
def Instr.wellFormed (i : Instr) : Bool :=
  match i with
  | .powerOn => true
  | .railBelowThreshold => true
  | .resetAssert => true
  | .resetRelease b => bootOk b
  | .mainPllLock => true
  | .mainPllLoss => true
  | .mainPllRelock => true
  | .vddioSupplyWarning => true
  | .comparatorTransition lane _ _ _ => decide (lane < 1024)
  | .stampEmit lane => decide (lane < 1024)
  | .settlingWindowEnd lane => decide (lane < 1024)
  | .dllLockDeclare g => decide (g < 64)
  | .dllLossDeclare g _ => decide (g < 64)
  | .dllCodeStep g code _ => decide (g < 64) && decide (code < 16384)
  | .lgDllRelock a g _ => accessOk a && decide (g < 64)
  | .inNulling a _ => accessOk a
  | .inOpenWire a _ => accessOk a
  | .nullingComplete _ _ => true
  | .openWireComplete => true
  | .ma0BorrowStart => true
  | .ma0BorrowEnd _ => true
  | .laneRecordTake g => decide (g < 64)
  | .tileHoldTimeout g => decide (g < 64)
  | .allowanceRise g => decide (g < 64)
  | .fabricCreditEarn src => decide (src < 84)
  | .groupQueueRead q d => decide (q < 84) && destOk d
  | .waitingWindowEntryWrite g => decide (g < 64)
  | .busyHoldExpiry p => decide (p < 16)
  | .windowOpen g => decide (g < 64)
  | .windowClose g => decide (g < 64)
  | .windowDurExpiry g => decide (g < 64)
  | .lgWinVeto a g _ => accessOk a && decide (g < 64)
  | .vetoArrival g => decide (g < 64)
  | .lgInjDataWrite a g _ => accessOk a && decide (g < 64)
  | .lgInjFlush a g _ => accessOk a && decide (g < 64)
  | .injectedTileSeal g => decide (g < 64)
  | .lgQPeakClr a g _ => accessOk a && decide (g < 64)
  | .epochBoundary => true
  | .tempDelivery => true
  | .tempStaleExpiry g => decide (g < 64)
  | .tableBuildComplete g => decide (g < 64)
  | .calFrameBoundary => true
  | .calStoreLoadComplete _ => true
  | .calMeasure c => commandOk c
  | .calMeasureComplete g h => decide (g < 64) && histsOk h
  | .calTableWrite c => commandOk c
  | .calTableRead c => commandOk c
  | .calStoreWrite c => commandOk c
  | .calStoreWriteComplete _ => true
  | .calStoreReload c => commandOk c
  | .calFlashRead c _ => commandOk c
  | .plAdjSetWrite a _ => accessOk a
  | .plRateSrcChange a _ => accessOk a
  | .adjApply => true
  | .plOriginWaitClear a _ => accessOk a
  | .plSnapGo a _ => accessOk a
  | .plSnapCancel a _ => accessOk a
  | .snapshotTake _ => true
  | .fabricEntry src => decide (src < 84)
  | .fabricGrant => true
  | .fabricDelivery => true
  | .clusterUnpack c => decide (c < 16)
  | .muTileArrival => true
  | .muProcessInput u => decide (u < 64)
  | .muArm a u _ => accessOk a && decide (u < 64)
  | .muClose a u _ => accessOk a && decide (u < 64)
  | .muDisarm a u _ => accessOk a && decide (u < 64)
  | .muGateLenExpiry u => decide (u < 64)
  | .muPublish u => decide (u < 64)
  | .muBankHoldTimeout b => decide (b < 4)
  | .clusterResultTake c => decide (c < 16)
  | .clusterHoldTimeout c => decide (c < 16)
  | .iAdd e => decide (e < 256)
  | .iSub e => decide (e < 256)
  | .iAnd e => decide (e < 256)
  | .iOr e => decide (e < 256)
  | .iXor e => decide (e < 256)
  | .iShl e => decide (e < 256)
  | .iShr e => decide (e < 256)
  | .iSar e => decide (e < 256)
  | .iMul e => decide (e < 256)
  | .iMulhu e => decide (e < 256)
  | .iMin e => decide (e < 256)
  | .iMax e => decide (e < 256)
  | .iMinu e => decide (e < 256)
  | .iMaxu e => decide (e < 256)
  | .iAdds e => decide (e < 256)
  | .iSubs e => decide (e < 256)
  | .iSlt e => decide (e < 256)
  | .iSltu e => decide (e < 256)
  | .iSeq e => decide (e < 256)
  | .iClz e => decide (e < 256)
  | .iPopc e => decide (e < 256)
  | .iAddi e => decide (e < 256)
  | .iAndi e => decide (e < 256)
  | .iOri e => decide (e < 256)
  | .iXori e => decide (e < 256)
  | .iShi e => decide (e < 256)
  | .iMovi e => decide (e < 256)
  | .iMovh e => decide (e < 256)
  | .iExt e => decide (e < 256)
  | .iSext e => decide (e < 256)
  | .iBr e => decide (e < 256)
  | .iBbit e => decide (e < 256)
  | .iJmp e => decide (e < 256)
  | .iCall e => decide (e < 256)
  | .iJr e => decide (e < 256)
  | .iLd e => decide (e < 256)
  | .iLdw e => decide (e < 256)
  | .iSt e => decide (e < 256)
  | .iStw e => decide (e < 256)
  | .iHinc e => decide (e < 256)
  | .iHadd e => decide (e < 256)
  | .iPop e => decide (e < 256)
  | .popWaitComplete e _ => decide (e < 256)
  | .iTrypop e => decide (e < 256)
  | .iPeek e => decide (e < 256)
  | .iSkip e => decide (e < 256)
  | .iWait e => decide (e < 256)
  | .waitComplete e _ => decide (e < 256)
  | .iRecv e => decide (e < 256)
  | .iSend e => decide (e < 256)
  | .iRds e => decide (e < 256)
  | .iTreb e => decide (e < 256)
  | .iEmit e => decide (e < 256)
  | .iEmitt e => decide (e < 256)
  | .iDrive e => decide (e < 256)
  | .iPjump e => decide (e < 256)
  | .iVeto e => decide (e < 256)
  | .iMark e => decide (e < 256)
  | .iGate e => decide (e < 256)
  | .iMuarm e => decide (e < 256)
  | .iNote e => decide (e < 256)
  | .iHalt e => decide (e < 256)
  | .illegalInstruction e => decide (e < 256)
  | .pcOverrun e => decide (e < 256)
  | .cvStart a e _ => accessOk a && decide (e < 256)
  | .cvHalt a e _ => accessOk a && decide (e < 256)
  | .cvLoadImem c => commandOk c
  | .cvLoadLmem c => commandOk c
  | .cvReadLmem c => commandOk c
  | .cvSubscribe c => commandOk c
  | .cvDecLatMaxClr a e _ => accessOk a && decide (e < 256)
  | .ccInPeakClr a c _ => accessOk a && decide (c < 16)
  | .ccDqPeakClr a d _ => accessOk a && decide (d < 20)
  | .ccFabWaitMaxClr a _ => accessOk a
  | .overrideApply p => decide (p < 64)
  | .overridePulseEnd p => decide (p < 64)
  | .jumpRequestArrival q => decide (q < 4)
  | .markArrival r => decide (r < 16)
  | .clusterGateArrival c => decide (c < 16)
  | .muarmArrival u => decide (u < 64)
  | .mcTrain a n _ => accessOk a && decide (n < 4)
  | .channelTrainComplete n _ _ => decide (n < 4)
  | .mcRetire a n _ => accessOk a && decide (n < 4)
  | .scrubRead n _ errs => decide (n < 4) && errsOk errs
  | .crStart a r _ => accessOk a && decide (r < 16)
  | .crStop a r _ => accessOk a && decide (r < 16)
  | .crMark a r _ => accessOk a && decide (r < 16)
  | .crRelease a r _ => accessOk a && decide (r < 16)
  | .crReplay a r _ => accessOk a && decide (r < 16)
  | .crMigrate a r _ => accessOk a && decide (r < 16)
  | .ringWrite r => decide (r < 16)
  | .replaySlotRead r errs => decide (r < 16) && errsOk errs
  | .migrationCopy r errs => decide (r < 16) && errsOk errs
  | .packerTakeItem h _ _ => decide (h < 64)
  | .pkFlushExpiry h => decide (h < 64)
  | .pkRatioUpdate h => decide (h < 64)
  | .bufferIdleTimeout h => decide (h < 64)
  | .hiRingStart a r _ => accessOk a && decide (r < 64)
  | .hiRingStop a r _ => accessOk a && decide (r < 64)
  | .ringStopped r => decide (r < 64)
  | .doorbellFetch f _ _ _ _ => decide (f < 8)
  | .hiKick a f _ => accessOk a && decide (f < 8)
  | .nop c => commandOk c
  | .unknownOpcode c => commandOk c
  | .pgSegLoad c => commandOk c
  | .pgSeqLoad c => commandOk c
  | .epFrameLaunch c => commandOk c
  | .completionSlotWrite r _ => decide (r < 64)
  | .msixRaise r => decide (r < 64)
  | .interruptModExpiry r => decide (r < 64)
  | .noticeWrite f _ => decide (f < 8)
  | .functionLevelReset f => decide (f < 8)
  | .pcieHotReset _ _ => true
  | .registerWrite a off _ => accessOk a && decide (off < 0x405000) && decide (off % 4 = 0)
  | .narrowWrite a off be _ => accessOk a && decide (off < 0x400000) && decide (off % 4 = 0) && decide (be < 15)
  | .oversizeAccess a off be _ => accessOk a && decide (off < 0x400000) && decide (be < 16)
  | .aliasWrite a off _ => accessOk a && decide (0x200000 ≤ off) && decide (off < 0x300000) && decide (off % 4 = 0)
  | .guardOpen a blk k _ => accessOk a && decide (blk < 22) && decide (k < 64)
  | .guardClose a blk k _ => accessOk a && decide (blk < 22) && decide (k < 64)
  | .guardTimeout blk => decide (blk < 22)
  | .mqScanRefWrite a _ => accessOk a
  | .mqUnveil a _ => accessOk a
  | .unveilPinStrobe => true
  | .partnerStrobe => true
  | .unveilLatch u => unitOk u
  | .committedSetApply u => unitOk u
  | .integrityScanEnd => true
  | .ptpSyncReceive fr => frameOk fr
  | .ptpFollowUpReceive fr => frameOk fr
  | .ptpDelayRespReceive fr => frameOk fr
  | .ptpAnnounceReceive fr => frameOk fr
  | .delayReqSend _ => true
  | .syncLossTimeout => true
  | .tpAnchor a _ => accessOk a
  | .tpRestart a _ => accessOk a
  | .ptpForward fr => frameOk fr
  | .frameTransmit p _ => decide (p < 2)
  | .frameLaunch p => decide (p < 2)
  | .epFlush a p _ => accessOk a && decide (p < 2)
  | .epLinkReset a p _ => accessOk a && decide (p < 2)
  | .ethLinkChange p _ => decide (p < 2)
  | .ppsOutRise => true
  | .ppsOutFall => true
  | .ppsInEdge => true
  | .gatePinEdge pin _ => decide (pin < 16)
  | .pgStart a q _ => accessOk a && decide (q < 4)
  | .sequencerFirstSample q => decide (q < 4)
  | .pgStop a q _ => accessOk a && decide (q < 4)
  | .pgClrreq a q _ => accessOk a && decide (q < 4)
  | .pgJump a q _ => accessOk a && decide (q < 4)
  | .pgStoreClaim a q _ => accessOk a && decide (q < 4)
  | .pgStoreRelease a q _ => accessOk a && decide (q < 4)
  | .pgOvrCmd a _ => accessOk a
  | .commitPoint q => decide (q < 4)
  | .segmentBoundary q => decide (q < 4)
  | .granuleStarve q => decide (q < 4)
  | .refillRead q errs => decide (q < 4) && errsOk errs
  | .ttArm a t _ => accessOk a && decide (t < 32)
  | .ttDisarm a t _ => accessOk a && decide (t < 32)
  | .triggerFire t => decide (t < 32)
  | .triggerGateClose t => decide (t < 32)
  | .ttHostGateOpen a _ => accessOk a
  | .ttHostGateClose a _ => accessOk a
  | .maRefEnable a _ => accessOk a
  | .maRefReady => true
  | .maSelfcal a c _ => accessOk a && decide (c < 2)
  | .maSelfcalComplete c _ _ => decide (c < 2)
  | .maStart a c _ => accessOk a && decide (c < 2)
  | .maStop a c _ => accessOk a && decide (c < 2)
  | .maExecutionEnd x0 x1 => (x0 ++ x1).all fun c => decide (-2048 ≤ c) && decide (c ≤ 2047)
  | .maAccSnap a n _ => accessOk a && decide (n < 128)
  | .maAccClr a n _ => accessOk a && decide (n < 128)
  | .maWinEnable a n _ => accessOk a && decide (n < 64)
  | .castLinkTrain _ _ _ => true
  | .linkRetransmit => true
  | .heartbeatSend => true
  | .heartbeatReceive _ => true
  | .heartbeatLoss => true
  | .ownInChange _ => true
  | .takeover => true
  | .prYield a _ => accessOk a
  | .prForce a _ => accessOk a
  | .prAlign a _ _ => accessOk a
  | .alignOffsetDone _ => true
  | .alignComplete _ => true
  | .prMeasure a _ => accessOk a
  | .prResync a _ => accessOk a
  | .castStart => true
  | .castEndReceive _ => true
  | .pairEventReceive _ => true
  | .spliceWpRecord => true
  | .cutPlace g => decide (g < 64)
  | .arProgCmd a _ => accessOk a
  | .fuseProgComplete _ => true
  | .fuseVppChange _ => true
  | .mtSrstDevice a _ => accessOk a
  | .mtSrstDatapath a _ => accessOk a
  | .datapathFlushEnd => true
  | .mtSleep a _ => accessOk a
  | .sleepEntry => true
  | .wakeEvent wcmp _ b => bootOk b && wcmp.all fun x => decide (x.cmp < 8)
  | .plinthResume => true
  | .refLoss => true
  | .refRestore => true
  | .lpoCalWindow _ => true
  | .glStallMaxClr a _ => accessOk a
  | .vaonBelowThreshold => true
  | .castLinkDrop _ => true
  | .castEnd => true
  | .alignPulseTimeout => true
  | .measureComplete _ => true
  | .ethFrameReceive fr => frameOk fr

/-- The register access that a command makes, if it is one (R286 to R293). -/
def Instr.access (i : Instr) : Option Access :=
  match i with
  | .powerOn => none
  | .railBelowThreshold => none
  | .resetAssert => none
  | .resetRelease _ => none
  | .mainPllLock => none
  | .mainPllLoss => none
  | .mainPllRelock => none
  | .vddioSupplyWarning => none
  | .comparatorTransition _ _ _ _ => none
  | .stampEmit _ => none
  | .settlingWindowEnd _ => none
  | .dllLockDeclare _ => none
  | .dllLossDeclare _ _ => none
  | .dllCodeStep _ _ _ => none
  | .lgDllRelock a _ _ => some a
  | .inNulling a _ => some a
  | .inOpenWire a _ => some a
  | .nullingComplete _ _ => none
  | .openWireComplete => none
  | .ma0BorrowStart => none
  | .ma0BorrowEnd _ => none
  | .laneRecordTake _ => none
  | .tileHoldTimeout _ => none
  | .allowanceRise _ => none
  | .fabricCreditEarn _ => none
  | .groupQueueRead _ _ => none
  | .waitingWindowEntryWrite _ => none
  | .busyHoldExpiry _ => none
  | .windowOpen _ => none
  | .windowClose _ => none
  | .windowDurExpiry _ => none
  | .lgWinVeto a _ _ => some a
  | .vetoArrival _ => none
  | .lgInjDataWrite a _ _ => some a
  | .lgInjFlush a _ _ => some a
  | .injectedTileSeal _ => none
  | .lgQPeakClr a _ _ => some a
  | .epochBoundary => none
  | .tempDelivery => none
  | .tempStaleExpiry _ => none
  | .tableBuildComplete _ => none
  | .calFrameBoundary => none
  | .calStoreLoadComplete _ => none
  | .calMeasure _ => none
  | .calMeasureComplete _ _ => none
  | .calTableWrite _ => none
  | .calTableRead _ => none
  | .calStoreWrite _ => none
  | .calStoreWriteComplete _ => none
  | .calStoreReload _ => none
  | .calFlashRead _ _ => none
  | .plAdjSetWrite a _ => some a
  | .plRateSrcChange a _ => some a
  | .adjApply => none
  | .plOriginWaitClear a _ => some a
  | .plSnapGo a _ => some a
  | .plSnapCancel a _ => some a
  | .snapshotTake _ => none
  | .fabricEntry _ => none
  | .fabricGrant => none
  | .fabricDelivery => none
  | .clusterUnpack _ => none
  | .muTileArrival => none
  | .muProcessInput _ => none
  | .muArm a _ _ => some a
  | .muClose a _ _ => some a
  | .muDisarm a _ _ => some a
  | .muGateLenExpiry _ => none
  | .muPublish _ => none
  | .muBankHoldTimeout _ => none
  | .clusterResultTake _ => none
  | .clusterHoldTimeout _ => none
  | .iAdd _ => none
  | .iSub _ => none
  | .iAnd _ => none
  | .iOr _ => none
  | .iXor _ => none
  | .iShl _ => none
  | .iShr _ => none
  | .iSar _ => none
  | .iMul _ => none
  | .iMulhu _ => none
  | .iMin _ => none
  | .iMax _ => none
  | .iMinu _ => none
  | .iMaxu _ => none
  | .iAdds _ => none
  | .iSubs _ => none
  | .iSlt _ => none
  | .iSltu _ => none
  | .iSeq _ => none
  | .iClz _ => none
  | .iPopc _ => none
  | .iAddi _ => none
  | .iAndi _ => none
  | .iOri _ => none
  | .iXori _ => none
  | .iShi _ => none
  | .iMovi _ => none
  | .iMovh _ => none
  | .iExt _ => none
  | .iSext _ => none
  | .iBr _ => none
  | .iBbit _ => none
  | .iJmp _ => none
  | .iCall _ => none
  | .iJr _ => none
  | .iLd _ => none
  | .iLdw _ => none
  | .iSt _ => none
  | .iStw _ => none
  | .iHinc _ => none
  | .iHadd _ => none
  | .iPop _ => none
  | .popWaitComplete _ _ => none
  | .iTrypop _ => none
  | .iPeek _ => none
  | .iSkip _ => none
  | .iWait _ => none
  | .waitComplete _ _ => none
  | .iRecv _ => none
  | .iSend _ => none
  | .iRds _ => none
  | .iTreb _ => none
  | .iEmit _ => none
  | .iEmitt _ => none
  | .iDrive _ => none
  | .iPjump _ => none
  | .iVeto _ => none
  | .iMark _ => none
  | .iGate _ => none
  | .iMuarm _ => none
  | .iNote _ => none
  | .iHalt _ => none
  | .illegalInstruction _ => none
  | .pcOverrun _ => none
  | .cvStart a _ _ => some a
  | .cvHalt a _ _ => some a
  | .cvLoadImem _ => none
  | .cvLoadLmem _ => none
  | .cvReadLmem _ => none
  | .cvSubscribe _ => none
  | .cvDecLatMaxClr a _ _ => some a
  | .ccInPeakClr a _ _ => some a
  | .ccDqPeakClr a _ _ => some a
  | .ccFabWaitMaxClr a _ => some a
  | .overrideApply _ => none
  | .overridePulseEnd _ => none
  | .jumpRequestArrival _ => none
  | .markArrival _ => none
  | .clusterGateArrival _ => none
  | .muarmArrival _ => none
  | .mcTrain a _ _ => some a
  | .channelTrainComplete _ _ _ => none
  | .mcRetire a _ _ => some a
  | .scrubRead _ _ _ => none
  | .crStart a _ _ => some a
  | .crStop a _ _ => some a
  | .crMark a _ _ => some a
  | .crRelease a _ _ => some a
  | .crReplay a _ _ => some a
  | .crMigrate a _ _ => some a
  | .ringWrite _ => none
  | .replaySlotRead _ _ => none
  | .migrationCopy _ _ => none
  | .packerTakeItem _ _ _ => none
  | .pkFlushExpiry _ => none
  | .pkRatioUpdate _ => none
  | .bufferIdleTimeout _ => none
  | .hiRingStart a _ _ => some a
  | .hiRingStop a _ _ => some a
  | .ringStopped _ => none
  | .doorbellFetch _ _ _ _ _ => none
  | .hiKick a _ _ => some a
  | .nop _ => none
  | .unknownOpcode _ => none
  | .pgSegLoad _ => none
  | .pgSeqLoad _ => none
  | .epFrameLaunch _ => none
  | .completionSlotWrite _ _ => none
  | .msixRaise _ => none
  | .interruptModExpiry _ => none
  | .noticeWrite _ _ => none
  | .functionLevelReset _ => none
  | .pcieHotReset _ _ => none
  | .registerWrite a _ _ => some a
  | .narrowWrite a _ _ _ => some a
  | .oversizeAccess a _ _ _ => some a
  | .aliasWrite a _ _ => some a
  | .guardOpen a _ _ _ => some a
  | .guardClose a _ _ _ => some a
  | .guardTimeout _ => none
  | .mqScanRefWrite a _ => some a
  | .mqUnveil a _ => some a
  | .unveilPinStrobe => none
  | .partnerStrobe => none
  | .unveilLatch _ => none
  | .committedSetApply _ => none
  | .integrityScanEnd => none
  | .ptpSyncReceive _ => none
  | .ptpFollowUpReceive _ => none
  | .ptpDelayRespReceive _ => none
  | .ptpAnnounceReceive _ => none
  | .delayReqSend _ => none
  | .syncLossTimeout => none
  | .tpAnchor a _ => some a
  | .tpRestart a _ => some a
  | .ptpForward _ => none
  | .frameTransmit _ _ => none
  | .frameLaunch _ => none
  | .epFlush a _ _ => some a
  | .epLinkReset a _ _ => some a
  | .ethLinkChange _ _ => none
  | .ppsOutRise => none
  | .ppsOutFall => none
  | .ppsInEdge => none
  | .gatePinEdge _ _ => none
  | .pgStart a _ _ => some a
  | .sequencerFirstSample _ => none
  | .pgStop a _ _ => some a
  | .pgClrreq a _ _ => some a
  | .pgJump a _ _ => some a
  | .pgStoreClaim a _ _ => some a
  | .pgStoreRelease a _ _ => some a
  | .pgOvrCmd a _ => some a
  | .commitPoint _ => none
  | .segmentBoundary _ => none
  | .granuleStarve _ => none
  | .refillRead _ _ => none
  | .ttArm a _ _ => some a
  | .ttDisarm a _ _ => some a
  | .triggerFire _ => none
  | .triggerGateClose _ => none
  | .ttHostGateOpen a _ => some a
  | .ttHostGateClose a _ => some a
  | .maRefEnable a _ => some a
  | .maRefReady => none
  | .maSelfcal a _ _ => some a
  | .maSelfcalComplete _ _ _ => none
  | .maStart a _ _ => some a
  | .maStop a _ _ => some a
  | .maExecutionEnd _ _ => none
  | .maAccSnap a _ _ => some a
  | .maAccClr a _ _ => some a
  | .maWinEnable a _ _ => some a
  | .castLinkTrain _ _ _ => none
  | .linkRetransmit => none
  | .heartbeatSend => none
  | .heartbeatReceive _ => none
  | .heartbeatLoss => none
  | .ownInChange _ => none
  | .takeover => none
  | .prYield a _ => some a
  | .prForce a _ => some a
  | .prAlign a _ _ => some a
  | .alignOffsetDone _ => none
  | .alignComplete _ => none
  | .prMeasure a _ => some a
  | .prResync a _ => some a
  | .castStart => none
  | .castEndReceive _ => none
  | .pairEventReceive _ => none
  | .spliceWpRecord => none
  | .cutPlace _ => none
  | .arProgCmd a _ => some a
  | .fuseProgComplete _ => none
  | .fuseVppChange _ => none
  | .mtSrstDevice a _ => some a
  | .mtSrstDatapath a _ => some a
  | .datapathFlushEnd => none
  | .mtSleep a _ => some a
  | .sleepEntry => none
  | .wakeEvent _ _ _ => none
  | .plinthResume => none
  | .refLoss => none
  | .refRestore => none
  | .lpoCalWindow _ => none
  | .glStallMaxClr a _ => some a
  | .vaonBelowThreshold => none
  | .castLinkDrop _ => none
  | .castEnd => none
  | .alignPulseTimeout => none
  | .measureComplete _ => none
  | .ethFrameReceive _ => none

end Sys2Proof
end

