-- ==== Sys2Proof/Safety.lean ====
section
/-! DEFINITION. What counts as a safe run of the block, in the terms that statements use: the canonical form of its memories, fuses
that only rise, which registers a command leaves alone, and when a write reaches its register. -/

namespace Sys2Proof.Machine

/-- The byte memories stand in their canonical form. -/
def State.wf (s : State) : Prop := Memory.wf 0 s.ddr.mem = true ∧ Memory.wf 0 s.host.mem = true

/-- No blown fuse of the one state is whole in the other (R384). -/
def FusesKept (s t : State) : Prop := ∀ row, fuseRow s row &&& fuseRow t row = fuseRow s row

/-- Every register but those listed holds its value. -/
def RegsKept (s t : State) (offs : List Nat) : Prop := ∀ o, o ∉ offs → reg t o = reg s o

/-- The registers that posting a notice may write (R280): drop counts, overflow bits and the alarm of an overflow. -/
def noticeRegs : List Nat :=
  IR_ALARM_STAT.off :: (List.range 8).flatMap fun f => [IR_NSTAT.off f, IR_NDROP_CNT.off f]

/-- Nothing changes but the values of the registers listed. -/
def OnlyRegs (s t : State) (offs : List Nat) : Prop :=
  t = { s with bus := { s.bus with regs := t.bus.regs } } ∧ RegsKept s t offs

/-- Nothing changes but the values of the registers listed and the notice queues. -/
def OnlyRegsAndNotices (s t : State) (offs : List Nat) : Prop :=
  t = { s with bus := { s.bus with regs := t.bus.regs }, host := { s.host with fns := t.host.fns } } ∧
  RegsKept s t (offs ++ noticeRegs)

/-- A write reaches its register: BAR0 answers, the function exists and owns the unit, and the unit is present
(R4, R7, R386, R388). -/
def Reached (s : State) (a : Access) (off : Nat) : Prop :=
  reaches s a = true ∧ regPresent s off = true ∧ mayWrite s a.func off = true

/-- A whole write of the register acts by its field types alone: its unit takes writes now, and nothing follows from the write but what
they say. -/
def TakesPlain (s : State) (off : Nat) : Prop :=
  off % 4 = 0 ∧ off % 0x10000 < 0xF000 ∧ off < 0x160000 ∧ off / 0x10000 ≠ 2 ∧
  off ∉ [PL_CTRL.off, PL_ADJ_SET_HI.off, PG_OVR_EN_LO.off, PG_OVR_EN_HI.off, MA_REF.off] ∧ (∀ g < 64, off ≠ LG_INJ_DATA.off g) ∧
  (∀ f < 8, off ≠ HI_DB_CFG.off f) ∧ (off / 0x10000 = 3 → ∀ r < 64, running s r = false ∧ stopping s r = false) ∧
  (∀ n < 4, off ≠ MC_ORG.off n) ∧ (off / 0x10000 = 13 → setInUse s ((off % 0x10000 - 0x1000) / 16) = false) ∧
  (∀ q < 4, off ≠ PG_STARVE_GR_CNT.off q ∧ off ≠ PG_STORE_CFG.off q ∧ (off / 0x10000 = 16 → claimOf s q = none)) ∧
  (off / 0x10000 = 17 → ttArmed s (off % 0x10000 / 64) = false) ∧ (∀ w < 64, off ≠ MA_WIN_CFG.off w)

/-- A register has taken a word by its field types (R9): live and cnt bits are the word's, sts bits written 1 are clear, cfg bits of the
Maquette are the word's, within the bits of units of partition p, and all others are as they were. -/
def BitsTaken (s t : State) (p off : Nat) (fs : List RField) (v : W32) : Prop :=
  (∀ b < 32, (reg t off).getLsbD b =
    ((if (maskOf (fun x => x = .live || x = .cnt) fs).testBit b then v.getLsbD b && (unitMask s p off).testBit b
      else (reg s off).getLsbD b) && !((maskOf (fun x => x = .sts) fs).testBit b && v.getLsbD b))) ∧
  (∀ b < 32, (maqOf t off).getLsbD b =
    if (maskOf (fun x => x = .cfg) fs).testBit b then v.getLsbD b && (unitMask s p off).testBit b else (maqOf s off).getLsbD b)

/-- The alias word of bit b of the register at an offset (R293). -/
def aliasOf (off b : Nat) : Nat := 0x200000 + off / 0x10000 * 0x8000 + off % 0x10000 / 4 * 0x80 + 4 * b

/-- Every block but MT, the memories and the pins is as after reset (R402). -/
def BlocksReset (t : State) : Prop :=
  t.pl = {} ∧ t.inp.lanes = [] ∧ t.inp.cmd = none ∧ t.lg = {} ∧ t.fab = { creditFrom := fclk t / 32 } ∧ t.mus = {} ∧ t.host.fns = [] ∧ t.mon = {} ∧ t.tp = {} ∧
  t.play = {} ∧ (∀ o, o / 0x10000 ≠ 20 → o ≠ PR_STAT.off → reg t o = regReset o)

/-- Host memory holds its bytes outside the regions listed, each a base and a length. -/
def HostBytesKept (s t : State) (rs : List (Nat × Nat)) : Prop :=
  ∀ a, (∀ x ∈ rs, a < x.1 ∨ x.1 + x.2 ≤ a) → mget 0 t.host.mem a = mget 0 s.host.mem a

/-- DDR5 holds its bytes outside the regions listed. -/
def DdrBytesKept (s t : State) (rs : List (Nat × Nat)) : Prop :=
  ∀ a, (∀ x ∈ rs, a < x.1 ∨ x.1 + x.2 ≤ a) → mget 0 t.ddr.mem a = mget 0 s.ddr.mem a

/-- A descriptor of an operation is at the head of its ring, with no reserved field set (R271). -/
def CmdTaken (s : State) (c : Command) (op : Nat) : Prop := cmdReady s c = true ∧ c.opcode = op ∧ reservedBad c = false

/-- Where the STATUS word of the descriptor lies in host memory (R270). -/
def statusAt (s : State) (c : Command) : Nat := entryAddr s c.ring (devIdx s c.ring) + 28

/-- Every channel that ring r needs for its next access of a class has come to it (R236). -/
def Served (s : State) (r : Nat) (k : Class3) : Prop := ∀ a ∈ requests s r k, turn3 s (chanOf a) k = true

/-- The patrol has come to a block of a channel on which nothing else waits (R220, R236). -/
def ScrubTurn (s : State) (n blk : Nat) : Prop := scrubDue s n blk = true ∧ turn2 s n = false ∧ ∀ k, waits3 s n k = false

/-- Stream h's encoder has taken nothing in this FCLK cycle, and its turn has come to h (R239). -/
def EncTurn (s : State) (h : Nat) : Prop := (encoder s (h % 8)).takeCyc ≠ some (fclk s) ∧ encoderTurn s (h % 8) = some h

/-- The descriptor is complete: STATUS holds its outcome and code with bit 31 set, and the consumer index has passed it, with its
completion slot due (R269, R271). -/
def CmdDone (s t : State) (c : Command) (outcome code : Nat) : Prop :=
  mreadBytes 0 t.host.mem (statusAt s c) 4 = leBytes (2 ^ 31 + outcome * 256 + code) 4 ∧
  devIdx t c.ring = (devIdx s c.ring + 1) % 2 ^ 16 ∧ (hring t c.ring).cmd = none ∧
  (hring t c.ring).slotDue = some (devIdx t c.ring)

/-- The descriptor runs over time: its ring waits for it (R271). -/
def CmdHeld (s t : State) (c : Command) : Prop := (hring t c.ring).cmd = some c ∧ devIdx t c.ring = devIdx s c.ring

/-- A sealed-tile source waits for a credit or for room in its entry buffer (R17, R203). -/
def sourceWaits (s : State) (code : Nat) : Bool :=
  if code < 0x40 then (group s code).waitCredit
  else if code < 0x50 then (cluster s (code - 0x40)).waitCredit else (bank s (code - 0x50)).waitCredit

/-- The saturating value of an n-bit count after k more events (R9). -/
def sat (n x k : Nat) : Nat := min (x + k) (2 ^ n - 1)

/-- Engine e runs, the cycle of its next issue has come, and the word at its PC is a legal word of an opcode (R178, R180, R184). -/
def Runs (s : State) (e : Nat) (w : W32) (opc : Nat) : Prop :=
  e < nEngines s ∧ (engine s e).st = 2 ∧ (engine s e).overrun = false ∧ issueCycle (engine s e) ≤ eclk s ∧
  fetch (engine s e) = w ∧ legal w = true ∧ iOpc w = opc

/-- Only engine e differs. -/
def OnlyEngine (s t : State) (e : Nat) : Prop :=
  t = { s with fab := { s.fab with engines := t.fab.engines } } ∧ ∀ d, d ≠ e → engine t d = engine s d

/-- Engine e has gone on to the next index after n more cycles, or cannot advance from 4,095 (R180, R186). -/
def WentOn (s t : State) (e n : Nat) : Prop :=
  (engine t e).pc = (if (engine s e).pc = 4095 then 4095 else (engine s e).pc + 1) ∧
  (engine t e).overrun = decide ((engine s e).pc = 4095) ∧ (engine t e).cyc = (engine s e).cyc + n ∧ (engine t e).st = 2

/-- Register rd holds v, g0 keeping its 0, and every other register its value (R179). -/
def GregIs (s t : State) (e rd : Nat) (v : W64) : Prop :=
  ∀ i, greg (engine t e) i = if i = rd ∧ i ≠ 0 then v else greg (engine s e) i

/-- An instruction of n cycles wrote v to rd, went on, and did nothing else (R179, R180, R186, R189). -/
def Wrote (s t : State) (e n rd : Nat) (v : W64) : Prop :=
  OnlyEngine s t e ∧ WentOn s t e n ∧ GregIs s t e rd v ∧
  engine t e = { engine s e with g := (engine t e).g, pc := (engine t e).pc, overrun := (engine t e).overrun,
                                 cyc := (engine t e).cyc, lat := (engine s e).lat.map (· + n) }

/-- An instruction of n cycles went to a target and did nothing else (R180, R186). -/
def JumpedTo (s t : State) (e n tgt : Nat) : Prop :=
  OnlyEngine s t e ∧
  engine t e = { engine s e with pc := tgt, cyc := (engine s e).cyc + n, lat := (engine s e).lat.map (· + n) }

/-- An ALU function's row: rd = f(ra, rb) in n cycles (R185). -/
def AluRow (i : Nat → Instr) (fn n : Nat) (f : W64 → W64 → W64) : Prop :=
  ∀ (s : State) (e : Nat) (w : W32), Runs s e w 0x00 → iFn w = fn → ∃ t, exec (i e) s = .next t ∧
    Wrote s t e n (iRd w) (f (greg (engine s e) (iRa w)) (greg (engine s e) (iRb w)))

/-- A row of the instruction set with rd = f(word, ra) in one cycle (R185). -/
def ImmRow (i : Nat → Instr) (opc : Nat) (f : W32 → W64 → W64) : Prop :=
  ∀ (s : State) (e : Nat) (w : W32), Runs s e w opc → ∃ t, exec (i e) s = .next t ∧
    Wrote s t e 1 (iRd w) (f w (greg (engine s e) (iRa w)))

/-- Engine e has halted with a cause: its ports and mailbox are emptied, its registers, PC and memories kept, the halt recorded,
and an event record of tag 15 is its last result (R193, R195, R199). -/
def Halted (s t : State) (e cause : Nat) : Prop :=
  (engine t e).st = 1 ∧ (engine t e).p0.q = [] ∧ (engine t e).p1.q = [] ∧ (engine t e).pc = (engine s e).pc ∧
  (engine t e).g = (engine s e).g ∧ (engine t e).imem = (engine s e).imem ∧ (engine t e).lmem = (engine s e).lmem ∧
  (engine t e).rq.length = (engine s e).rq.length + 1 ∧ (∀ m ∈ (cluster t (e / 16)).box, m.dst ≠ e) ∧
  fld t (CV_STAT.CAUSE e) = cause ∧ (3 ≤ cause → flag t (CV_STAT.EXC e) = true) ∧
  fld t (CV_HALT_INFO.EMPTIED e) = ((engine s e).p0.q.length + (engine s e).p1.q.length) % 2 ^ 8 ∧
  ∀ d, d ≠ e → engine t d = engine s d

/-- A record came from port p of engine e, whose queue is now q: rd holds v, the count of R189 restarts, and the other port and
the memories are kept (R187, R189). -/
def FromPort (s t : State) (e n rd p : Nat) (v : W64) (q : List W64) : Prop :=
  WentOn s t e n ∧ GregIs s t e rd v ∧ (engine t e).lat = some 1 ∧
  portOf (engine t e) p = { portOf (engine s e) p with q := q } ∧ portOf (engine t e) (1 - p) = portOf (engine s e) (1 - p) ∧
  (engine t e).lmem = (engine s e).lmem ∧ (engine t e).rq = (engine s e).rq ∧ ∀ d, d ≠ e → engine t d = engine s d

/-- T is what a reading of cluster c's copy of T gives now: what another reading of this ECLK cycle gave, else T at one of the PCLK
edges 7 to 12 before the present one, never below an earlier reading (R190). -/
def ReadsCopy (s : State) (c T : Nat) : Prop :=
  if (cluster s c).tCyc = some (eclk s) then T = (cluster s c).tCopy
  else ∃ k < 6, T = max ((s.pl.hist.drop (7 + k)).headD 0).toNat (cluster s c).tCopy

/-- A decision instruction's row: a refused decision is only counted (R197); an accepted one joins those in flight, in the order of
issue cycles and engines (R198), and is counted (R213), or is suppressed on a standby (R370). -/
def DecRow (i : Nat → Instr) (opc : Nat) (ok : State → Nat → W32 → Bool) (d : State → Nat → W32 → Decision) : Prop :=
  ∀ (s : State) (e : Nat) (w : W32), Runs s e w opc → ∃ t, exec (i e) s = .next t ∧ WentOn s t e 1 ∧
    (engine t e).g = (engine s e).g ∧
    (isStandby s = false → ok s e w = true →
      t.fab.decs = insertDec ⟨issueCycle (engine s e), e, d s e w⟩ s.fab.decs ∧
      fld t (CV_DEC_CNT.COUNT e) = sat 32 (fld s (CV_DEC_CNT.COUNT e)) 1) ∧
    (ok s e w = false → t.fab.decs = s.fab.decs ∧ flag t (CV_STAT.DEC_REFUSED e) = true ∧
      fld t (CV_DEC_REFUSED_CNT.COUNT e) = sat 32 (fld s (CV_DEC_REFUSED_CNT.COUNT e)) 1) ∧
    (isStandby s = true → ok s e w = true → t.fab.decs = s.fab.decs ∧ fld t PR_SUPPRESS_CNT.COUNT = sat 32 (fld s PR_SUPPRESS_CNT.COUNT) 1)

/-- What a LOCKED servo does at a Sync of corrected origin m1 and ingress t2, n PCLK edges after the accepted one before, whose
offset o lies within STEP_THR: TP_OFFSET shows o, and the integral term and the issued ADJ follow R307. -/
def LockedStep (s t : State) (m1 t2 : Int) (n : Nat) : Prop :=
  ∀ d a o r, delayD s = some d → latestAnchor s = some a → o = a.at_ t2 - (m1 + d + asym s) → (o.natAbs : Int) ≤ stepThr s →
    r = (-(o * 2 ^ 40)).tdiv (40 * Int.ofNat n) →
    servoState t = 3 ∧ fld t TP_OFFSET.VALUE = satSigned 32 (sixteenths o) ∧
    t.tp.i = s.tp.i + r.fdiv (2 ^ usedFld s TP_SERVO.KI) ∧
    t.pl.servoAdj = adjOf (t.tp.i + r.fdiv (2 ^ usedFld s TP_SERVO.KP))

end Sys2Proof.Machine
end

