-- ==== Sys2Proof/Certificates/Slice0/Obligations.lean ====
section
/-! DEFINITION. The statements for the provers: what each command does, what it leaves alone, and what every step keeps. -/

open Sys2Proof Sys2Proof.Machine

/-- R397, R402: what each way into reset leaves. -/
def Obligations.EnteringReset : Prop :=
  (∀ s : State, ∃ t, exec .powerOn s = .next t ∧ BlocksReset t ∧ t.mt = { inReset := true, refAt := s.now, refGone := s.mt.refGone } ∧
    (∀ o, o / 0x10000 = 20 → reg t o = regReset o) ∧ FusesKept s t ∧ t.host.mem = s.host.mem ∧ t.cal.slotA = s.cal.slotA ∧
    t.cal.slotB = s.cal.slotB ∧ t.pending = s.pending) ∧
  (∀ s : State, ∀ i ∈ [Instr.railBelowThreshold, .resetAssert, .vaonBelowThreshold], ∃ t, exec i s = .next t ∧ BlocksReset t ∧
    t.mt.inReset = true ∧ t.mt.asleep = false ∧ t.mt.sleep = none ∧ t.mt.count = s.mt.count ∧
    t.mt.vaon = (if i = .vaonBelowThreshold then false else s.mt.vaon) ∧
    (∀ o, o / 0x10000 = 20 → o ≠ MT_SRST.off → o ≠ MT_WAKE_CAUSE.off → reg t o = reg s o) ∧
    reg t MT_WAKE_CAUSE.off = (if i = .resetAssert ∧ s.mt.asleep = true then 0x400 else reg s MT_WAKE_CAUSE.off) ∧
    (s.ar.run = none → t.ar.array = s.ar.array) ∧ FusesKept s t ∧ t.host.mem = s.host.mem ∧ t.cal.slotA = s.cal.slotA ∧
    t.cal.slotB = s.cal.slotB ∧ t.pending = s.pending)

/-- R398, R399, R384, R406 to R408: start-up after a release and after a wake.  Voltages are in units of 5 µV; that the hysteresis lies
evenly about the threshold is log 25. -/
def Obligations.StartUp : Prop :=
  (∀ (s : State) (b : Boot), s.mt.inReset = true → s.mt.vaon = true → ∃ t, exec (.resetRelease b) s = .next t ∧
    t.mt.inReset = false ∧ t.bus.releasedAt = s.now ∧ t.mt.refWait = s.mt.refGone ∧ t.ar.shadow = s.ar.array ∧ t.ar.array = s.ar.array ∧
    fld t MT_STRAP.STRAP = b.strap.toNat ∧ flag t AR_STAT.LOADED = true ∧ fld t MT_SLEEP_RES.OUTCOME = 0 ∧
    t.cal.op = some (.load true) ∧ flag t CA_STORE_STAT.WRITE_BUSY = true) ∧
  (∀ (s : State) (k : List WakeStep) (pin : Bool) (b : Boot), s.mt.asleep = true → wakeCause s k pin ≠ 0 →
    ∃ t, exec (.wakeEvent k pin b) s = .next t ∧
    t.mt.asleep = false ∧ t.bus.releasedAt = s.now ∧ t.mt.refWait = s.mt.refGone ∧ t.ar.shadow = s.ar.array ∧ t.ar.array = s.ar.array ∧
    (reg t MT_WAKE_CAUSE.off).toNat = wakeCause s k pin ∧ fld t MT_STRAP.STRAP = b.strap.toNat ∧
    fld t MT_SLEEP_RES.OUTCOME = 1 ∧ t.mt.sleep = s.mt.sleep ∧ t.mt.count = s.mt.count ∧ t.cal.op = some (.load true)) ∧
  (∀ (s : State) (k ns : Nat) (x y : Int) (b : Boot), s.mt.asleep = true → k < 8 → (reg s MT_WAKE_EN.off).toNat.testBit k = true → 50 ≤ ns →
    (if flag s (MT_WCMP.EDGE k) then y + 240000 + 2000 ≤ 1875 * Int.ofNat (fld s (MT_WCMP.THR k)) ∧
      1875 * Int.ofNat (fld s (MT_WCMP.THR k)) + 2000 ≤ x + 240000
     else x + 240000 + 2000 ≤ 1875 * Int.ofNat (fld s (MT_WCMP.THR k)) ∧ 1875 * Int.ofNat (fld s (MT_WCMP.THR k)) + 2000 ≤ y + 240000) →
    ∃ t, exec (.wakeEvent [⟨k, x, y, ns⟩] false b) s = .next t ∧ t.mt.asleep = false ∧
    (reg t MT_WAKE_CAUSE.off).toNat.testBit k = true) ∧
  (∀ (s : State) (k ns : Nat) (x y : Int) (b : Boot), s.mt.asleep = true → s.mt.count / 2 ^ 24 < mtAlarm s → ns < 50 →
    exec (.wakeEvent [⟨k, x, y, ns⟩] false b) s = .next s)

/-- R92, R95, R58, R428, R410: the main PLL's events. -/
def Obligations.MainPll : Prop :=
  (∀ s : State, s.mt.inReset = false → s.mt.asleep = false → s.pl.running = false → s.mt.sleep = none → s.mt.resume = false →
    ∃ t, exec .mainPllLock s = .next t ∧ t.pl.running = true ∧ t.pl.t = 0 ∧ t.pl.f = 0 ∧ t.pl.edge = 0 ∧ t.pl.frameT = some 0 ∧
    flag t PL_STAT.RUNNING = true ∧ flag t PL_STAT.PLL_LOCK = true ∧
    ∀ g < nGroups s, (group t g).dllOn = true ∧ fld t (LG_DLL_STAT.CTRL g) = 0x2000) ∧
  (∀ s : State, s.mt.inReset = false → s.mt.asleep = false → s.pl.running = false → s.mt.sleep.isSome = true → s.mt.resume = false →
    ∃ t, exec .mainPllLock s = .next t ∧ t.pl = s.pl ∧ t.mt = { s.mt with resume := true } ∧
    flag t PL_STAT.PLL_LOCK = true ∧ ∀ g < nGroups s, (group t g).dllOn = true ∧ fld t (LG_DLL_STAT.CTRL g) = 0x2000) ∧
  (∀ s : State, flag s PL_STAT.PLL_LOCK = true →
    ∃ t, exec .mainPllLoss s = .next t ∧ t.pl = s.pl ∧ t.mt = { s.mt with resume := false } ∧ flag t PL_STAT.PLL_LOCK = false ∧ flag t PL_STAT.PLL_UNLOCKED = true ∧
    fld t PL_PLL_UNLOCK_CNT.COUNT = sat 16 (fld s PL_PLL_UNLOCK_CNT.COUNT) 1 ∧
    ∀ g < nGroups s, (group t g).dllOn = false ∧ dllLocked t g = false ∧
      flag t (LG_DLL_STAT.UNLOCKED g) = (flag s (LG_DLL_STAT.UNLOCKED g) || dllLocked s g) ∧
      fld t (LG_DLL_UNLOCK_CNT.COUNT g) = sat 16 (fld s (LG_DLL_UNLOCK_CNT.COUNT g)) (if dllLocked s g then 1 else 0) ∧
      fld t (LG_DLL_STAT.CTRL g) = fld s (LG_DLL_STAT.CTRL g)) ∧
  (∀ s : State, s.pl.running = true → flag s PL_STAT.PLL_LOCK = false →
    ∃ t, exec .mainPllRelock s = .next t ∧ t.pl = s.pl ∧ flag t PL_STAT.PLL_LOCK = true ∧
    ∀ g < nGroups s, (group t g).dllOn = true ∧ (group t g).dllRun = s.now ∧ fld t (LG_DLL_STAT.CTRL g) = 0x2000) ∧
  (∀ s : State, s.pl.running = false → s.mt.inReset = false → s.mt.asleep = false → s.mt.sleep.isSome = true →
    flag s PL_STAT.PLL_LOCK = false →
    ∃ t, exec .mainPllRelock s = .next t ∧ t.pl = s.pl ∧ t.mt = { s.mt with resume := true } ∧ flag t PL_STAT.PLL_LOCK = true ∧
    ∀ g < nGroups s, (group t g).dllOn = true ∧ (group t g).dllRun = s.now ∧ fld t (LG_DLL_STAT.CTRL g) = 0x2000)

/-- R91, R394, R403, R404: small events of Mitten and of the supplies, whole. -/
def Obligations.MittenEvents : Prop :=
  (∀ s : State, ∃ t, exec .vddioSupplyWarning s = .next t ∧
    t = { s with cal := { s.cal with aborted := s.cal.aborted || storeWriting s }, ar := { s.ar with
      stop := s.ar.stop || s.ar.run.isSome,
      stopAt := if s.ar.run.isSome ∧ s.ar.stop = false then s.now else s.ar.stopAt } }) ∧
  (∀ (s : State) (n : Nat), s.mt.flushAt = some n → n + 3200 ≤ s.now → ∃ t, exec .datapathFlushEnd s = .next t ∧
    t = { s with mt := { s.mt with flushAt := none }, bus := { s.bus with regs := t.bus.regs } } ∧ fld t MT_SRST.DATAPATH = 0 ∧
    RegsKept s t [MT_SRST.off]) ∧
  (∀ s : State, ∃ t, exec .refLoss s = .next t ∧ flag t MT_STAT.SRC_LPO = true ∧
    flag t MT_STAT.REF_LOST = (flag s MT_STAT.REF_LOST || s.mt.asleep) ∧ RegsKept s t [MT_STAT.off] ∧ t.mt.count = s.mt.count ∧
    t.mt.refGone = true ∧ t.mt.refAt = s.now ∧ t = { s with mt := t.mt, bus := { s.bus with regs := t.bus.regs } }) ∧
  (∀ s : State, s.mt.refAt + 1600000 ≤ s.now → ∃ t, exec .refRestore s = .next t ∧
    t = { s with mt := { s.mt with refGone := false, refWait := false,
                                   refBack := flag s MT_STAT.SRC_LPO && !(fld s MT_STRAP.STRAP).testBit 3 },
                 bus := { s.bus with releasedAt := if s.mt.refWait then max s.bus.releasedAt (s.now - 1600000) else s.bus.releasedAt } }) ∧
  (∀ s : State, s.now < s.mt.refAt + 1600000 → exec .refRestore s = .next s) ∧
  (∀ s : State, s.mt.vaon = true → s.mt.asleep = false → s.mt.sleepReq = none → s.mt.entry = none → s.mt.refBack = true →
    flag s MT_STAT.SRC_LPO = true → s.mt.count < 2 ^ 88 - 2 ^ 32 →
    (flag (countStep s) MT_STAT.SRC_LPO = false ↔ s.mt.count / 2 ^ 24 < (s.mt.count + (reg s MT_LPO_RATIO.off).toNat) / 2 ^ 24) ∧
    (countStep s).mt.count = s.mt.count + (reg s MT_LPO_RATIO.off).toNat ∧ RegsKept s (countStep s) [MT_STAT.off]) ∧
  (∀ (s : State) (n : Nat), s.mt.vaon = true → ∃ t, exec (.lpoCalWindow n) s = .next t ∧ OnlyRegs s t [MT_STAT.off, MT_LPO_RATIO.off] ∧
    flag t MT_STAT.LPO_CAL = true ∧ reg t MT_LPO_RATIO.off = BitVec.ofNat 32 n)

/-- R405, R408, R410 to R412: the sleep's edges.  Edges counted since P_r where PLINTH_RESUME runs later: log 25. -/
def Obligations.SleepAndResume : Prop :=
  (∀ (s : State) (n : Nat), s.mt.sleepReq = some n → s.mt.vaon = true → s.mt.entry = none →
    (countStep s).mt.entry = if s.mt.count / 2 ^ 24 < (countStep s).mt.count / 2 ^ 24 then
      some { n := (countStep s).mt.count, t := s.pl.t, f := s.pl.f, adj := s.pl.adj } else none) ∧
  (∀ (s : State) (e : EntryEdge), s.mt.entry = some e → ∃ t x, exec .sleepEntry s = .next t ∧
    t.mt.asleep = true ∧ t.mt.sleep = some x ∧ x.n = e.n ∧ x.t = e.t ∧ x.f = e.f ∧ x.adj = e.adj ∧
    t.mt.count = s.mt.count ∧ t.ddr.mem = s.ddr.mem ∧ BlocksReset t ∧ flag t PL_CTRL.RATE_SRC = false ∧
    pair64 t MT_ENTRY_T_LO.off MT_ENTRY_T_HI.off = e.t.toNat % 2 ^ 64 ∧
    fld t MT_SLEEP_CNT.COUNT = min (fld s MT_SLEEP_CNT.COUNT + 1) (2 ^ 32 - 1)) ∧
  (∀ s : State, s.mt.resume = true → s.mt.vaon = true → s.mt.resumeAt = none →
    (countStep s).mt.resumeAt = if s.mt.count / 2 ^ 24 < (countStep s).mt.count / 2 ^ 24 then some ((countStep s).mt.count, s.now)
      else none) ∧
  (∀ (s : State) (x : Sleep) (c n : Nat), s.mt.sleep = some x → s.mt.resumeAt = some (c, n) → ∃ t, exec .plinthResume s = .next t ∧
    t.pl.running = true ∧ t.mt.sleep = none ∧ t.pl.adj = x.adj ∧ t.pl.edge = s.now - n ∧
    (s.now ≤ n → t.pl.t.toNat * 2 ^ 40 + t.pl.f.toNat = (x.t.toNat * 2 ^ 40 + x.f.toNat +
      (64 * Int.ofNat (c - x.n) * (1024 * 2 ^ 40 + adjInt x.adj) / 2 ^ 24).toNat) % 2 ^ 144) ∧
    pair64 t MT_GAP_BOUND_LO.off MT_GAP_BOUND_HI.off = min (gapBound x) (2 ^ 64 - 1) ∧ flag t MT_STAT.SLEPT = true ∧
    flag t PL_CTRL.RATE_SRC = flag s PL_CTRL.RATE_SRC ∧ pair64 t PL_ADJ_SET_LO.off PL_ADJ_SET_HI.off = x.adj.toNat ∧
    (flag s MT_CFG.NOTICE_EN = true → (fld s (IR_NMASK.BLOCK 0)).testBit 20 = true → (fnHost s 0).nq = [] → (fnHost s 0).dropped = 0 →
      ∃ q, (fnHost t 0).nq = [q] ∧ q.ty = 0x1401 ∧ q.merged = 0 ∧ q.t.toNat = (x.t.toNat * 2 ^ 40 + x.f.toNat +
        (64 * Int.ofNat (c - x.n) * (1024 * 2 ^ 40 + adjInt x.adj) / 2 ^ 24).toNat) / 2 ^ 40 % 2 ^ 64))

/-- R402, R403, R405: what the guarded MT commands do.  The order of the refusals and the reset that lasts until RESET_RELEASE: log 25; the
free level of WAKE_N: log 26; the lost fills of the flush: log 19. -/
def Obligations.MtGuardedWrites : Prop :=
  (∀ (s : State) (a : Access) (v : W32), reaches s a = true → a.func = 0 → rights s 0 = true → guardPair s 20 = none → v.getLsbD 0 = true →
    ∃ t, exec (.mtSrstDevice a v) s = .next t ∧ t.mt.inReset = true ∧ BlocksReset t ∧ t.mt.count = s.mt.count) ∧
  (∀ (s : State) (a : Access) (v : W32), reaches s a = true → a.func = 0 → rights s 0 = true → guardPair s 20 = none → v.getLsbD 1 = true →
    ∃ t, exec (.mtSrstDatapath a v) s = .next t ∧ t.mt.flushAt = some s.now ∧ flag t MT_SRST.DATAPATH = true ∧ t.pl = s.pl ∧
    t.bus.maq = s.bus.maq ∧ t.bus.com = s.bus.com ∧ t.ddr = { s.ddr with rings := t.ddr.rings } ∧
    (∀ r < 16, cring t r = { cring s r with resv := (cring t r).resv, handed := (cring t r).handed, replay := (cring t r).replay }) ∧
    (∀ g < nGroups s, (group t g).queue = [] ∧ (group t g).tile = []) ∧ (∀ n < nLanes s, (lane t n).chain = [])) ∧
  (∀ (s : State) (a : Access), reaches s a = true → a.func = 0 → rights s 0 = true → guardPair s 20 = none →
    ∃ t, exec (.mtSleep a 1) s = .next t ∧ t.pl = s.pl ∧
    (sleepBar s = 0 → t.mt = { s.mt with sleepReq := some s.mt.count }) ∧
    (sleepBar s ≠ 0 → t.mt = s.mt ∧ fld t MT_SLEEP_RES.OUTCOME = sleepBar s))

/-- R93, R94, R105, R372: requests for ADJ, their application, and the release from ORIGIN_WAIT. -/
def Obligations.RateControl : Prop :=
  (∀ (s : State) (a : Access) (v : W32), Reached s a PL_ADJ_SET_HI.off → flag s PL_CTRL.RATE_SRC = false → isStandby s = false →
    ∃ t, exec (.plAdjSetWrite a v) s = .next t ∧
    t.pl = { s.pl with adjReq := some (BitVec.ofNat 48 (((latchOf s PL_ADJ_SET_LO.off).getD (reg s PL_ADJ_SET_LO.off)).toNat +
        2 ^ 32 * (v.toNat % 2 ^ 16)), if fld s PR_STAT.ROLE = 3 then tNow s + 2 ^ 24 else 0) }) ∧
  (∀ (s : State) (a : Access) (v : W32), Reached s a PL_CTRL.off → flag s PL_CTRL.RATE_SRC = false → v.getLsbD 0 = true →
    fld s PR_STAT.ROLE = 0 → ∃ t, exec (.plRateSrcChange a v) s = .next t ∧ flag t PL_CTRL.RATE_SRC = true ∧
    t.pl.adjReq = some (s.pl.servoAdj, 0)) ∧
  (∀ (s : State) (a : Access) (v : W32), Reached s a PL_CTRL.off → v.getLsbD 2 = false →
    ∃ t, exec (.plOriginWaitClear a v) s = .next t ∧ flag t PL_CTRL.ORIGIN_WAIT = false ∧
    ∀ g < nGroups s, (calGroup s g).first = true → (group t g).ready = true) ∧
  (∀ (s : State) (v : BitVec 48) (n : Nat), s.pl.adjReq = some (v, n) → adjDue s n = true → ∃ t, exec .adjApply s = .next t ∧
    t.pl = { s.pl with adj := clampAdj v, adjReq := none } ∧ -adjLimit ≤ adjInt t.pl.adj ∧ adjInt t.pl.adj ≤ adjLimit ∧
    (flag t PL_STAT.CLAMPED = (flag s PL_STAT.CLAMPED || decide (clampAdj v ≠ v))) ∧
    fld t PL_ADJ_CNT.COUNT = min (fld s PL_ADJ_CNT.COUNT + 1) (2 ^ 32 - 1) ∧ (reg t PL_ADJ_LO.off).toNat = t.pl.adj.toNat % 2 ^ 32 ∧
    fld t PL_ADJ_HI.ADJ = t.pl.adj.toNat / 2 ^ 32 ∧ fld t PL_ADJ_HI.SEQ = (fld s PL_ADJ_HI.SEQ + 1) % 2 ^ 8 ∧
    pair64 t PL_ADJ_T_LO.off PL_ADJ_T_HI.off = (advanceTF s.pl.t s.pl.f t.pl.adj).1.toNat % 2 ^ 64) ∧
  (∀ p : Plinth, (plinthEdge p).edge = p.edge + 1 ∧ (plinthEdge p).adj = p.adj ∧
    Int.ofNat ((plinthEdge p).t.toNat * 2 ^ 40 + (plinthEdge p).f.toNat) =
      (Int.ofNat (p.t.toNat * 2 ^ 40 + p.f.toNat) + (1024 * 2 ^ 40 + adjInt p.adj)) % 2 ^ 144 ∧
    (-225179981368 ≤ adjInt p.adj → adjInt p.adj ≤ 225179981368 → p.t.toNat + 2048 < 2 ^ 104 →
      p.t.toNat + 1023 ≤ (plinthEdge p).t.toNat ∧ (plinthEdge p).t.toNat ≤ p.t.toNat + 1025)) ∧
  (∀ s : State, (tick s).now = s.now + 1 ∧ (tick s).pl = if s.pl.running then plinthEdge s.pl else s.pl)

/-- R100, R103, R104: epoch markers and snapshots. -/
def Obligations.EpochsAndSnapshots : Prop :=
  (∀ s : State, s.pl.running = true → s.pl.epochSeen < tNow s / 2 ^ 47 → ∃ t, exec .epochBoundary s = .next t ∧
    t.pl = { s.pl with epochSeen := tNow s / 2 ^ 47 } ∧ t.bus = s.bus ∧
    ∀ g < nGroups s, (group t g).marks = if (group s g).ready then
      insertMark ⟨s.pl.edge, 0, BitVec.ofNat 64 (2 ^ 62 + tNow s / 2 ^ 47 % 2 ^ 58)⟩ (group s g).marks else (group s g).marks) ∧
  (∀ (s : State) (a : Access) (v : W32), Reached s a PL_SNAP_CTRL.off → v.getLsbD 31 = true → flag s PL_SNAP_CTRL.GO = false →
    ∃ t, exec (.plSnapGo a v) s = .next t ∧ flag t PL_SNAP_CTRL.GO = true ∧
    t.pl = { s.pl with snapSrc := v.toNat % 4, snapEdge := s.pl.edge } ∧
    fld t PL_SNAP_CTRL.SRC = v.toNat % 4 ∧ RegsKept s t [PL_SNAP_CTRL.off, GL_STALL_MAX.off]) ∧
  (∀ (s : State) (a : Access) (v : W32), Reached s a PL_SNAP_CTRL.off → v.getLsbD 30 = true →
    ∃ t, exec (.plSnapCancel a v) s = .next t ∧ flag t PL_SNAP_CTRL.GO = false ∧ t.pl = s.pl ∧
    RegsKept s t [PL_SNAP_CTRL.off, GL_STALL_MAX.off]) ∧
  (∀ (s : State) (pin : Bool), s.pl.running = true → flag s PL_SNAP_CTRL.GO = true → s.pl.snapEdge < s.pl.edge →
    (s.pl.snapSrc = 0 ∨ s.pl.snapSrc = 3 ∨ pin = true) →
    ∃ t, exec (.snapshotTake pin) s = .next t ∧
    pair64 t PL_SNAP_T0.off PL_SNAP_T1.off + 2 ^ 64 * pair64 t PL_SNAP_T2.off PL_SNAP_T3.off = s.pl.t.toNat ∧
    pair64 t PL_SNAP_FRAC_LO.off PL_SNAP_FRAC_HI.off = s.pl.f.toNat ∧
    pair64 t PL_SNAP_ADJ_LO.off PL_SNAP_ADJ_HI.off = s.pl.adjLast.toNat ∧ fld t PL_SNAP_STAT.SRC_USED = s.pl.snapSrc % 4 ∧
    fld t PL_SNAP_STAT.SEQ = (fld s PL_SNAP_STAT.SEQ + 1) % 2 ^ 8 ∧ flag t PL_SNAP_CTRL.GO = false ∧
    OnlyRegs s t [PL_SNAP_T0.off, PL_SNAP_T1.off, PL_SNAP_T2.off, PL_SNAP_T3.off, PL_SNAP_FRAC_LO.off, PL_SNAP_FRAC_HI.off,
      PL_SNAP_ADJ_LO.off, PL_SNAP_ADJ_HI.off, PL_SNAP_STAT.off, PL_SNAP_CTRL.off]) ∧
  (∀ T w : Nat, w = (epochWord T).toNat → bitsOf w 63 62 = 1 ∧ bitsOf w 57 0 = T / 2 ^ 47 % 2 ^ 58 ∧ bitsOf w 61 58 = 0) ∧
  (∀ sub hi T w : Nat, sub < 16 → w = (markWord sub hi T).toNat → bitsOf w 63 62 = 1 ∧ bitsOf w 61 58 = sub ∧ bitsOf w 57 56 = 0 ∧
    bitsOf w 55 48 = hi % 256 ∧ bitsOf w 47 0 = T % 2 ^ 48) ∧
  (∀ e T w : Nat, w = (sleepGapWord e T).toNat → bitsOf w 63 62 = 1 ∧ bitsOf w 61 58 = 5 ∧ bitsOf w 57 52 = e % 64 ∧
    bitsOf w 51 48 = 0 ∧ bitsOf w 47 0 = T % 2 ^ 48)

/-- R54, R63 to R65, R97, R108, R130, R131: from a transition to the lane chain. -/
def Obligations.StampPath : Prop :=
  (∀ (s : State) (n : Nat) (falling p : Bool) (taps : Taps) (k f : Nat), cellsOn s = true → n < nLanes s → s.pl.running = true →
    s.pl.edge ≠ 0 → oldestFalling taps (edgeSel s n) (lane s n).level falling = p → edgeSelected s n p = true → (lane s n).supp = none → (group s (n / 16)).ready = true → (lane s n).last = none →
    fineOf (activeTable s n) (rawCode taps (!p) (lane s n).level) = (f, false) →
    ∃ t h, exec (.comparatorTransition n falling taps k) s = .next t ∧ (lane t n).pipe = (lane s n).pipe ++ [h] ∧
    h.s = s.pl.tc.toNat + f + ((Int.ofNat (s.pl.fc.toNat * 2 ^ 10) + Int.ofNat f * adjInt s.pl.adjLast + 2 ^ 49) / 2 ^ 50).toNat ∧
    h.falling = p ∧ h.quality = quality s n ∧ h.at_ = s.pl.edge ∧ h.pile = decide (0 < k) ∧
    (lane t n).last = some (s.pl.edge - 1, f) ∧
    fld t (LG_PILEUP_CNT.COUNT (n / 16)) = min (fld s (LG_PILEUP_CNT.COUNT (n / 16)) + k) (2 ^ 32 - 1)) ∧
  (∀ (s : State) (n : Nat) (falling p : Bool) (taps : Taps) (k f c0 f0 : Nat), cellsOn s = true → n < nLanes s → s.pl.running = true →
    s.pl.edge ≠ 0 → oldestFalling taps (edgeSel s n) (lane s n).level falling = p → edgeSelected s n p = true → (lane s n).supp = none → (group s (n / 16)).ready = true →
    (lane s n).last = some (c0, f0) → dllLocked s (n / 16) = true →
    fineOf (activeTable s n) (rawCode taps (!p) (lane s n).level) = (f, false) →
    (Int.ofNat (s.pl.edge - 1) - Int.ofNat c0) * 1024 + (Int.ofNat f - Int.ofNat f0) < 2048 →
    ∃ t, exec (.comparatorTransition n falling taps k) s = .next t ∧ (lane t n).pipe.length = (lane s n).pipe.length ∧
    (∀ q h, (lane s n).pipe = q ++ [h] → (lane t n).pipe = q ++ [{ h with pile := true }]) ∧ (lane t n).last = (lane s n).last ∧
    fld t (LG_PILEUP_CNT.COUNT (n / 16)) = min (fld s (LG_PILEUP_CNT.COUNT (n / 16)) + (1 + k)) (2 ^ 32 - 1)) ∧
  (∀ (s : State) (n : Nat) (falling p : Bool) (taps : Taps) (k f c0 f0 : Nat), cellsOn s = true → n < nLanes s → s.pl.running = true →
    s.pl.edge ≠ 0 → oldestFalling taps (edgeSel s n) (lane s n).level falling = p → edgeSelected s n p = true → (lane s n).supp = none → (group s (n / 16)).ready = true →
    (lane s n).last = some (c0, f0) → fineOf (activeTable s n) (rawCode taps (!p) (lane s n).level) = (f, false) →
    2048 ≤ (Int.ofNat (s.pl.edge - 1) - Int.ofNat c0) * 1024 + (if dllLocked s (n / 16) then Int.ofNat f - Int.ofNat f0 else 0) →
    ∃ t h, exec (.comparatorTransition n falling taps k) s = .next t ∧ (lane t n).pipe = (lane s n).pipe ++ [h] ∧
    h.s = s.pl.tc.toNat + f + ((Int.ofNat (s.pl.fc.toNat * 2 ^ 10) + Int.ofNat f * adjInt s.pl.adjLast + 2 ^ 49) / 2 ^ 50).toNat ∧
    h.falling = p ∧ h.quality = quality s n ∧ h.at_ = s.pl.edge ∧ h.pile = decide (0 < k) ∧
    (lane t n).last = some (s.pl.edge - 1, f) ∧
    fld t (LG_PILEUP_CNT.COUNT (n / 16)) = min (fld s (LG_PILEUP_CNT.COUNT (n / 16)) + k) (2 ^ 32 - 1)) ∧
  (∀ (s : State) (n : Nat) (falling p : Bool) (taps : Taps) (k f c0 f0 : Nat), cellsOn s = true → n < nLanes s → s.pl.running = true →
    s.pl.edge ≠ 0 → oldestFalling taps (edgeSel s n) (lane s n).level falling = p → edgeSelected s n p = true → (lane s n).supp = none → (group s (n / 16)).ready = true →
    (lane s n).last = some (c0, f0) → dllLocked s (n / 16) = false →
    fineOf (activeTable s n) (rawCode taps (!p) (lane s n).level) = (f, false) → s.pl.edge - 1 < c0 + 2 →
    ∃ t, exec (.comparatorTransition n falling taps k) s = .next t ∧ (lane t n).pipe = markPile (lane s n).pipe ∧
    (lane t n).last = (lane s n).last) ∧
  (∀ (s : State) (n : Nat) (h : Held) (r : List Held), (lane s n).pipe = h :: r → h.at_ + 5 ≤ s.pl.edge → (lane s n).chain.length < 32 →
    ∃ t, exec (.stampEmit n) s = .next t ∧ (lane t n).pipe = r ∧
    (lane t n).chain = (lane s n).chain ++ [⟨stampWord n h.falling h.pile h.quality h.s, h.s, (s.pl.edge + 1) / 2⟩] ∧
    (lane t n).lost = (lane s n).lost ∧ t = { s with inp := { s.inp with lanes := t.inp.lanes } } ∧ ∀ m, m ≠ n → lane t m = lane s m) ∧
  (∀ (s : State) (n : Nat) (h : Held) (r : List Held), n < 1024 → (lane s n).pipe = h :: r → h.at_ + 5 ≤ s.pl.edge →
    32 ≤ (lane s n).chain.length → ∃ t, exec (.stampEmit n) s = .next t ∧
    (lane t n).chain = (lane s n).chain.drop 1 ++ [⟨stampWord n h.falling h.pile h.quality h.s, h.s, (s.pl.edge + 1) / 2⟩] ∧
    (lane t n).lost = min ((lane s n).lost + 1) (2 ^ 32 - 1) ∧ flag t (LG_STAT.CHAIN_LOST (n / 16)) = true ∧
    fbit t (LG_CHAIN_LOST_MAP.LANE (n / 16)) (n % 16) = true) ∧
  (∀ (lane q x : Nat) (falling pile : Bool) (w : Nat), w = (stampWord lane falling pile q x).toNat →
    bitsOf w 63 62 = 0 ∧ bitsOf w 61 52 = lane % 1024 ∧ bitsOf w 51 51 = (if falling then 1 else 0) ∧
    bitsOf w 50 50 = (if pile then 1 else 0) ∧ bitsOf w 49 48 = q % 4 ∧ bitsOf w 47 0 = x % 2 ^ 48)

/-- R38, R45, R56, R58, R428: suppression's end and the loop of a group. -/
def Obligations.SettlingAndDll : Prop :=
  (∀ (s : State) (n k : Nat), n < nLanes s → (lane s n).suppCmd = true → settling s n = false → commandHolds s (n / 2) = false →
    measuring s n = false → (lane s n).supp = some k → edgeSel s n ≠ 0 →
    ∃ t, exec (.settlingWindowEnd n) s = .next t ∧ (lane t n).supp = none ∧ (lane t n).suppCmd = false ∧
    (group t (n / 16)).supGaps = (group s (n / 16)).supGaps ++ [(n, k)] ∧ t.bus = s.bus) ∧
  (∀ (s : State) (g : Nat), g < nGroups s → (group s g).dllOn = true → dllLocked s g = false → flag s PL_STAT.PLL_LOCK = true →
    (group s g).dllRun + 16384 ≤ s.now → ∃ t, exec (.dllLockDeclare g) s = .next t ∧ dllLocked t g = true ∧
    flag t (LG_DLL_CTRL.RELOCK g) = false ∧ OnlyRegsAndNotices s t [LG_DLL_STAT.off g, LG_DLL_CTRL.off g]) ∧
  (∀ (s : State) (g : Nat) (e : Int), g < nGroups s → dllLocked s g = true → 16 < e.natAbs →
    ∃ t, exec (.dllLossDeclare g (.replicaError e)) s = .next t ∧ dllLocked t g = false ∧ flag t (LG_DLL_STAT.UNLOCKED g) = true ∧
    fld t (LG_DLL_UNLOCK_CNT.COUNT g) = min (fld s (LG_DLL_UNLOCK_CNT.COUNT g) + 1) (2 ^ 16 - 1) ∧
    fld t (LG_DLL_STAT.CTRL g) = 0x2000 ∧ (group t g).dllOn = true ∧ (group t g).dllRun = s.now ∧ (group t g).dllLost = true ∧
    flag t IR_ALARM_STAT.DLL = true) ∧
  (∀ (s : State) (g code : Nat) (err : BitVec 16), g < nGroups s → (group s g).dllOn = true → code < 2 ^ 14 →
    (dllLocked s g = true → code = fld s (LG_DLL_STAT.CTRL g) ∨ (code ≤ fld s (LG_DLL_STAT.CTRL g) + 1 ∧
      fld s (LG_DLL_STAT.CTRL g) ≤ code + 1 ∧ (group s g).dllStep + 64 ≤ s.now)) →
    ∃ t, exec (.dllCodeStep g code err) s = .next t ∧ fld t (LG_DLL_STAT.CTRL g) = code ∧ fld t (LG_DLL_ERR.ERR g) = err.toNat ∧
    dllLocked t g = dllLocked s g ∧ RegsKept s t [LG_DLL_STAT.off g, LG_DLL_ERR.off g]) ∧
  (∀ (s : State) (a : Access) (g : Nat) (v : W32), g < nGroups s → Reached s a (LG_DLL_CTRL.off g) → v.getLsbD 31 = true →
    flag s PL_STAT.PLL_LOCK = true → ∃ t, exec (.lgDllRelock a g v) s = .next t ∧ dllLocked t g = false ∧
    flag t (LG_DLL_CTRL.RELOCK g) = true ∧ fld t (LG_DLL_STAT.CTRL g) = 0x2000 ∧ (group t g).dllOn = true ∧
    (group t g).dllRun = s.now)

/-- R43 to R48, R50, R359: the commands of the input cells.  The second borrow of an open-wire command is log 17, the counting of
transitions log 14. -/
def Obligations.InputCommands : Prop :=
  (∀ (s : State) (a : Access) (v : W32), Reached s a IN_CMD.off → v.getLsbD 31 = true → v.getLsbD 12 = false → s.inp.cmd = none →
    inputFor s a.func (v.toNat % 512) = true → maAvailable s = true → ∃ t, exec (.inNulling a v) s = .next t ∧
    t.inp.cmd = some ⟨v.toNat % 512, false, .wait1, none, none, 0, 0, false, false, 0, s.now⟩ ∧ flag t IN_CMD.GO = true ∧
    flag t (IN_STAT.CMD_ACTIVE (v.toNat % 512)) = true) ∧
  (∀ (s : State) (a : Access) (v : W32), Reached s a IN_CMD.off → v.getLsbD 31 = true → v.getLsbD 12 = true → s.inp.cmd = none →
    inputFor s a.func (v.toNat % 512) = true → maAvailable s = true → ∃ t, exec (.inOpenWire a v) s = .next t ∧
    t.inp.cmd = some ⟨v.toNat % 512, true, .wait1, none, none, 0, 0, false, false, 0, s.now⟩ ∧ flag t IN_CMD.GO = true ∧
    flag t (IN_STAT.CMD_ACTIVE (v.toNat % 512)) = true) ∧
  (∀ (s : State) (c : InCmd), s.inp.cmd = some c → c.phase = .wait1 ∨ (c.phase = .wait2 ∧ c.at_ + 32000 ≤ s.now) →
    borrowFree s = true → ∃ t, exec .ma0BorrowStart s = .next t ∧ (conv t 0).borrowAt = some s.now ∧
    t.inp.cmd = some { c with phase := (if c.phase = .wait1 then .read1 else .read2), togA := 0, togB := 0,
                              highA := (lane s (2 * c.input)).level, highB := (lane s (2 * c.input + 1)).level, at_ := s.now }) ∧
  (∀ (s : State) (c : InCmd) (n : Nat) (falling : Bool) (taps : Taps) (k : Nat), cellsOn s = true → n < nLanes s →
    s.inp.cmd = some c → c.phase = .read1 ∨ c.phase = .read2 → c.input = n / 2 → samplesPassed s.now c.at_ 40 = true →
    samplesPassed s.now c.at_ (40 + if c.openWire then 4096 else 16384) = false →
    ∃ t j, exec (.comparatorTransition n falling taps k) s = .next t ∧
    j = max (lineChanges taps.l0 (lane s n).level 128)
      (if (1 + k) % 2 = 1 ↔ (lane s n).level ≠ (lane t n).level then 1 + k else 2 + k) ∧
    t.inp.cmd = some (if n % 2 = 0 then { c with highA := (lane t n).level, togA := c.togA + j }
      else { c with highB := (lane t n).level, togB := c.togB + j })) ∧
  (∀ (s : State) (c : InCmd) (m : BaselineReading) (n : Nat), s.inp.cmd = some c → c.phase = .read1 → c.openWire = false →
    (conv s 0).borrowAt = some n → samplesPassed s.now n (borrowSamples c) = true → ∃ t, exec (.ma0BorrowEnd m) s = .next t ∧
    (conv t 0).borrowAt = none ∧
    t.inp.cmd = some (if c.togA ≤ 2 ∧ c.togB ≤ 2 ∧ m.sigma ≤ 150 then { c with phase := .search, m1 := some m, at_ := s.now }
      else { c with phase := .ending, m1 := some m, reject := (if c.togA ≤ 2 ∧ c.togB ≤ 2 then 5 else 4), at_ := s.now })) ∧
  (∀ (s : State) (c : InCmd) (m : BaselineReading) (hA hB : List Nat), s.inp.cmd = some c → c.openWire = false → c.phase = .search →
    c.m1 = some m → c.input < 512 → s.inp.held = [] → c.at_ + 19200 ≤ s.now → ∃ t, exec (.nullingComplete hA hB) s = .next t ∧
    fld t (IN_TRIM.STORED_A c.input) = (trimOf hA).toNat ∧ fld t (IN_TRIM.STORED_B c.input) = (trimOf hB).toNat ∧
    fld t (IN_TRIM.NULL_RES c.input) = 1 ∧ flag t (IN_STAT.NULL_FAIL c.input) = flag s (IN_STAT.NULL_FAIL c.input) ∧
    fld t IN_CMD_RESULT.OUTCOME = 1 ∧ fld t IN_NULL_REJ_CNT.COUNT = fld s IN_NULL_REJ_CNT.COUNT ∧ t.inp.cmd = none ∧
    flag t IN_CMD.GO = false ∧ flag t (IN_STAT.CMD_ACTIVE c.input) = false ∧
    (lane t (2 * c.input)).settleEnd = 2 * gclk s + 2400 ∧ (lane t (2 * c.input + 1)).settleEnd = 2 * gclk s + 2400) ∧
  (∀ (s : State) (c : InCmd) (m : BaselineReading) (hA hB : List Nat), s.inp.cmd = some c → c.openWire = false → c.phase = .ending →
    c.m1 = some m → c.input < 512 → c.reject < 8 → s.inp.held = [] → ∃ t, exec (.nullingComplete hA hB) s = .next t ∧
    fld t (IN_TRIM.STORED_A c.input) = fld s (IN_TRIM.STORED_A c.input) ∧
    fld t (IN_TRIM.STORED_B c.input) = fld s (IN_TRIM.STORED_B c.input) ∧ fld t (IN_TRIM.NULL_RES c.input) = 2 ∧
    flag t (IN_STAT.NULL_FAIL c.input) = true ∧ fld t IN_CMD_RESULT.OUTCOME = c.reject ∧
    fld t IN_CMD_RESULT.VALUE = min m.sigma 0xFFF ∧ fld t IN_CMD_RESULT.TOG_A = min c.togA 15 ∧
    fld t IN_CMD_RESULT.TOG_B = min c.togB 15 ∧
    fld t IN_NULL_REJ_CNT.COUNT = min (fld s IN_NULL_REJ_CNT.COUNT + 1) (2 ^ 16 - 1) ∧ t.inp.cmd = none ∧ flag t IN_CMD.GO = false) ∧
  (∀ (s : State) (c : InCmd), cellsOn s = true → s.inp.cmd = some c → c.openWire = true → (c.phase = .read1 → (inputDrive s c.input).2 = false) ∧
    (c.phase = .read2 → inputDrive s c.input = (false, true))) ∧
  (∀ (s : State) (c : InCmd) (m1 m2 : BaselineReading), s.inp.cmd = some c → c.openWire = true → c.phase = .ending → c.m1 = some m1 →
    c.m2 = some m2 → c.input < 512 → s.inp.held = [] → ∃ t, exec .openWireComplete s = .next t ∧
    fld t (IN_TRIM.OW_RES c.input) = (if m2.mean - m1.mean < 5000 then 1
      else if 50000 < m2.mean - m1.mean ∧ c.highA = true ∧ c.highB = true ∧ c.togA = 0 ∧ c.togB = 0 then 2 else 3) ∧
    fld t IN_CMD_RESULT.OUTCOME = fld t (IN_TRIM.OW_RES c.input) ∧ t.inp.cmd = none ∧ flag t IN_CMD.GO = false ∧
    flag t (IN_STAT.CMD_ACTIVE c.input) = false)

/-- R16, R17, R132 to R135, R138: placing, sealing and queueing.  That gap records are placed as soon as they are pending, and that
veto-drop entries need no place, is log 10. -/
def Obligations.TileAssembler : Prop :=
  (∀ (s : State) (g : Nat) (m : Mark) (r : List Mark), g < nGroups s → s.pl.running = true → (group s g).tile.length < 6 →
    (group s g).placed ≠ some (s.pl.edge / 2) → (group s g).ready = true →
    tNow s / 2 ^ 47 ≤ s.pl.epochSeen → (group s g).marks = m :: r →
    ∃ t, exec (.laneRecordTake g) s = .next t ∧ (group t g).tile = (group s g).tile ++ [m.word] ∧ (group t g).marks = r ∧
    (group t g).placed = some (s.pl.edge / 2) ∧ (group t g).allow = (group s g).allow ∧ t.bus = s.bus) ∧
  (∀ (s : State) (g : Nat), g < nGroups s → s.pl.running = true → (group s g).tile.length < 6 →
    (group s g).placed ≠ some (s.pl.edge / 2) → (group s g).ready = true →
    tNow s / 2 ^ 47 ≤ s.pl.epochSeen → (group s g).marks = [] → (group s g).qGap ≠ 0 →
    ∃ t, exec (.laneRecordTake g) s = .next t ∧
    (group t g).tile = (group s g).tile ++ [gapWord true false 1 0 (group s g).qGap] ∧ (group t g).qGap = 0 ∧
    (group t g).epochDue = true ∧ t.bus = s.bus) ∧
  (∀ (s : State) (g n : Nat), g < nGroups s → s.pl.running = true → (group s g).tile.length < 6 →
    (group s g).placed ≠ some (s.pl.edge / 2) → (group s g).ready = true →
    tNow s / 2 ^ 47 ≤ s.pl.epochSeen → (group s g).marks = [] → (group s g).qGap = 0 → lossLane s g = some n → ∃ t, exec (.laneRecordTake g) s = .next t ∧
    (group t g).tile = (group s g).tile ++ [gapWord false true 0 n (lane s n).lost] ∧ (lane t n).lost = 0 ∧
    (∀ m < n, m / 16 = n / 16 → (lane s m).lost = 0) ∧ (group t g).epochDue = true ∧ t.bus = s.bus) ∧
  (∀ (s : State) (g : Nat), g < nGroups s → s.pl.running = true → (group s g).tile.length < 6 →
    (group s g).placed ≠ some (s.pl.edge / 2) → (group s g).ready = true →
    tNow s / 2 ^ 47 ≤ s.pl.epochSeen → (group s g).marks = [] → (group s g).qGap = 0 → lossLane s g = none → (group s g).epochDue = true → ∃ t, exec (.laneRecordTake g) s = .next t ∧
    (group t g).tile = (group s g).tile ++ [BitVec.ofNat 64 (2 ^ 62 + tNow s / 2 ^ 47 % 2 ^ 58)] ∧ (group t g).epochDue = false ∧
    t.bus = s.bus) ∧
  (∀ (s : State) (g n k : Nat) (r : List (Nat × Nat)), g < nGroups s → s.pl.running = true → (group s g).tile.length < 6 →
    (group s g).placed ≠ some (s.pl.edge / 2) → (group s g).ready = true →
    tNow s / 2 ^ 47 ≤ s.pl.epochSeen → (group s g).marks = [] → (group s g).qGap = 0 → lossLane s g = none → (group s g).epochDue = false → (group s g).supGaps = (n, k) :: r →
    ∃ t, exec (.laneRecordTake g) s = .next t ∧ (group t g).tile = (group s g).tile ++ [gapWord false true 2 n k] ∧
    (group t g).supGaps = r ∧ t.bus = s.bus) ∧
  (∀ (s : State) (g n : Nat) (h : ChainRec) (r : List ChainRec), g < nGroups s → s.pl.running = true → (group s g).tile.length < 6 →
    (group s g).placed ≠ some (s.pl.edge / 2) → (group s g).ready = true →
    tNow s / 2 ^ 47 ≤ s.pl.epochSeen → (group s g).marks = [] → (group s g).qGap = 0 →
    lossLane s g = none → (group s g).epochDue = false → (group s g).supGaps = [] → (group s g).allow ≠ 0 →
    pickLane s g = some n → (lane s n).chain = h :: r → ∃ t, exec (.laneRecordTake g) s = .next t ∧
    (group t g).tile = (group s g).tile ++ [h.word] ∧ (lane t n).chain = r ∧ (group t g).allow = (group s g).allow - 1 ∧
    (group t g).rr = (n + 1) % 16 ∧ (group t g).placed = some (s.pl.edge / 2) ∧ t.bus = s.bus) ∧
  (∀ (s : State) (g : Nat) (m : Mark) (r : List Mark), g < nGroups s → s.pl.running = true → (group s g).tile.length = 6 →
    (group s g).placed ≠ some (s.pl.edge / 2) → (group s g).ready = true → tNow s / 2 ^ 47 ≤ s.pl.epochSeen → (group s g).marks = m :: r →
    (group s g).win = none → ∃ t, exec (.laneRecordTake g) s = .next t ∧ (group t g).marks = r ∧
    (maySeal s g = true → (group t g).tile = [] ∧
      (source t g).crossing = (source s g).crossing ++ [dataTile g (fld s (LG_SEQ.SEQ g)) ((group s g).tile ++ [m.word])] ∧
      fld t (LG_SEQ.SEQ g) = (fld s (LG_SEQ.SEQ g) + 1) % 2 ^ 16) ∧
    (maySeal s g = false → (group t g).tile = (group s g).tile ++ [m.word] ∧ (group t g).waitCredit = true ∧
      fld t (LG_SEQ.SEQ g) = fld s (LG_SEQ.SEQ g))) ∧
  (∀ (s : State) (g n : Nat) (h : ChainRec) (r : List ChainRec), g < nGroups s → s.pl.running = true → (group s g).tile.length = 6 →
    (group s g).placed ≠ some (s.pl.edge / 2) → (group s g).ready = true →
    tNow s / 2 ^ 47 ≤ s.pl.epochSeen → (group s g).marks = [] → (group s g).qGap = 0 →
    lossLane s g = none → (group s g).epochDue = false → (group s g).supGaps = [] → (group s g).allow ≠ 0 →
    pickLane s g = some n → (lane s n).chain = h :: r → (group s g).win = none → maySeal s g = true →
    ∃ t, exec (.laneRecordTake g) s = .next t ∧ (group t g).tile = [] ∧ (lane t n).chain = r ∧ (group t g).allow = (group s g).allow - 1 ∧
    (source t g).crossing = (source s g).crossing ++ [dataTile g (fld s (LG_SEQ.SEQ g)) ((group s g).tile ++ [h.word])] ∧
    fld t (LG_SEQ.SEQ g) = (fld s (LG_SEQ.SEQ g) + 1) % 2 ^ 16) ∧
  (∀ (s : State) (g : Nat), g < nGroups s → (group s g).rises < s.pl.edge / 2 / 32 → ∃ t, exec (.allowanceRise g) s = .next t ∧
    (group t g).allow = min 14 ((group s g).allow + 7) ∧ (group t g).rises = (group s g).rises + 1 ∧
    t = { s with lg := { s.lg with groups := t.lg.groups } }) ∧
  (∀ (s : State) (g : Nat), g < 64 → sealDue s g = true → maySeal s g = true → (group s g).win = none →
    ∃ t, exec (.tileHoldTimeout g) s = .next t ∧ (group t g).tile = [] ∧
    (source t g).credits = min 8 ((source s g).credits + (creditsDue s - (source s g).earned)) - 1 ∧
    (source t g).crossing = (source s g).crossing ++ [dataTile g (fld s (LG_SEQ.SEQ g)) (group s g).tile] ∧
    fld t (LG_SEQ.SEQ g) = (fld s (LG_SEQ.SEQ g) + 1) % 2 ^ 16 ∧ flag t PL_STAT.EMITTED = true ∧
    (destsOf s g ≠ [] → (group s g).waitWin = [] → places (group s g).queue < 1024 →
      (group t g).queue = (group s g).queue ++
        [⟨.tile (dataTile g (fld s (LG_SEQ.SEQ g)) (group s g).tile) none, destsOf s g, false⟩]) ∧
    (destsOf s g ≠ [] → (group s g).waitWin = [] → 1024 ≤ places (group s g).queue →
      (∀ x q, takeVictim (group s g).queue = some ((x, none), q) →
        (group t g).queue = q ++ [⟨.tile (dataTile g (fld s (LG_SEQ.SEQ g)) (group s g).tile) none, destsOf s g, false⟩] ∧
        (group t g).qGap = (group s g).qGap + (1 + owed x) ∧ flag t (LG_STAT.Q_LOST g) = true ∧
        fld t (LG_Q_LOST_CNT.COUNT g) = min (fld s (LG_Q_LOST_CNT.COUNT g) + 1) (2 ^ 32 - 1)) ∧
      (takeVictim (group s g).queue = none → (group t g).queue = (group s g).queue ∧
        (group t g).qGap = (group s g).qGap + (1 + owed (dataTile g (fld s (LG_SEQ.SEQ g)) (group s g).tile)) ∧
        flag t (LG_STAT.Q_LOST g) = true ∧
        fld t (LG_Q_LOST_CNT.COUNT g) = min (fld s (LG_Q_LOST_CNT.COUNT g) + 1) (2 ^ 32 - 1)))) ∧
  (∀ (s : State) (g : Nat) (it : QItem) (r : List QItem), g < 64 → (group s g).waitWin = it :: r → destsOf s g ≠ [] →
    places (group s g).queue < 1024 → ∃ t, exec (.waitingWindowEntryWrite g) s = .next t ∧
    (group t g).waitWin = r.dropWhile (fun x => placeless ⟨x, [], false⟩) ∧
    (group t g).queue = (group s g).queue ++
      (it :: r.takeWhile fun x => placeless ⟨x, [], false⟩).map (fun x => ⟨x, destsOf s g, false⟩) ∧
    fld t (LG_Q_OCC.OCC g) = places (group t g).queue % 2 ^ 11) ∧
  (∀ (tiles valid : Bool) (reason lane k w : Nat), w = (gapWord tiles valid reason lane k).toNat →
    bitsOf w 63 58 = 49 ∧ bitsOf w 57 57 = (if tiles then 1 else 0) ∧ bitsOf w 56 56 = (if valid then 1 else 0) ∧
    bitsOf w 55 52 = reason % 16 ∧ bitsOf w 51 42 = (if valid then lane % 1024 else 0) ∧ bitsOf w 41 32 = 0 ∧
    bitsOf w 31 0 = min k (2 ^ 32 - 1))

/-- R138 to R140, R142, R148: windows of a lane group and the BUSY pins. -/
def Obligations.WindowsAndBusy : Prop :=
  (∀ (s : State) (g : Nat) (e : GateEv) (r : List GateEv), g < 64 → (group s g).win = none → e.open_ = true → (∃ l, (group s g).winEv = l ++ e :: r ∧ ∀ y ∈ l, y.open_ = false) →
    flag s (LG_WIN_CFG.EN g) = true → framesWindow s g e.id = true → waitCount (group s g) < 4 →
    ∃ t, exec (.windowOpen g) s = .next t ∧ (group t g).winEv = r ∧ (group t g).nextWin = ((group s g).nextWin + 1) % 2 ^ 32 ∧
    (group t g).win = some ⟨(group s g).nextWin, 0, e.id, markWord 2 e.id e.t, s.pl.edge / 2, fld s (LG_WIN_CFG.DUR g), 0, none, false, 0, 0⟩ ∧
    flag t (LG_STAT.WIN_OPEN g) = true ∧ fld t (LG_WIN_STAT.WINDOW g) = (group s g).nextWin % 2 ^ 32) ∧
  (∀ (s : State) (g : Nat) (e : GateEv) (r : List GateEv), g < 64 → (group s g).winEv = e :: r → e.open_ = true →
    (group s g).win = none → flag s (LG_WIN_CFG.EN g) = true → framesWindow s g e.id = true → 4 ≤ waitCount (group s g) →
    ∃ t, exec (.windowOpen g) s = .next t ∧ (group t g).win = none ∧
    fld t (LG_WIN_REFUSED_CNT.COUNT g) = min (fld s (LG_WIN_REFUSED_CNT.COUNT g) + 1) (2 ^ 16 - 1)) ∧
  (∀ (s : State) (g : Nat) (e : GateEv) (r : List GateEv) (W : Win), g < 64 → (group s g).win = some W → e.open_ = false → e.id = W.gate →
    (∃ l, (group s g).winEv = l ++ e :: r ∧ ∀ y ∈ l, y.id ≠ W.gate) → flag s (LG_WIN_CFG.EN g) = true → ∃ t, exec (.windowClose g) s = .next t ∧
    (group t g).win = none ∧ (group t g).winEv = r ∧ flag t (LG_STAT.WIN_OPEN g) = false ∧ flag t (LG_STAT.VETOED g) = false) ∧
  (∀ (s : State) (g : Nat) (W : Win), g < 64 → (group s g).win = some W → flag s (LG_WIN_CFG.EN g) = false →
    ∃ t, exec (.windowClose g) s = .next t ∧ (group t g).win = none ∧ (group t g).winEv = [] ∧
    flag t (LG_STAT.WIN_OPEN g) = false ∧ flag t (LG_STAT.VETOED g) = false) ∧
  (∀ (s : State) (g : Nat) (W : Win), g < 64 → (group s g).win = some W → W.dur ≠ 0 → W.openedCyc + 8 * W.dur ≤ s.pl.edge / 2 →
    ∃ t, exec (.windowDurExpiry g) s = .next t ∧ (group t g).win = none ∧ flag t (LG_STAT.WIN_OPEN g) = false) ∧
  (∀ (s : State) (a : Access) (g : Nat) (v : W32), g < nGroups s → Reached s a (LG_WIN_CMD.off g) → v.getLsbD 0 = true →
    ∃ t, exec (.lgWinVeto a g v) s = .next t ∧ (group t g).vetoes = (group s g).vetoes + 1 ∧ flag t (LG_WIN_CMD.VETO g) = true) ∧
  (∀ (s : State) (g n : Nat), g < 64 → (group s g).vetoes = n + 1 → ∃ t, exec (.vetoArrival g) s = .next t ∧
    (group t g).vetoes = n ∧ ((group s g).win.isSome = true → ∃ W, (group t g).win = some W ∧ W.vetoed = true) ∧
    ((group s g).win = none → (group t g).win = none ∧
      fld t (LG_WIN_VETO_LATE_CNT.COUNT g) = min (fld s (LG_WIN_VETO_LATE_CNT.COUNT g) + 1) (2 ^ 16 - 1))) ∧
  (∀ (s : State) (g : Nat) (pre post : List SentDec) (y : SentDec), g < 64 → (group s g).vetoes = 0 → s.fab.decs = pre ++ y :: post →
    y.d = .veto g → (∀ x ∈ pre, x.d ≠ .veto g) → inOrder s y = true → ∃ t, exec (.vetoArrival g) s = .next t ∧
    t.fab = { s.fab with decs := pre ++ post } ∧ ((group s g).win.isSome = true → ∃ W, (group t g).win = some W ∧ W.vetoed = true) ∧
    ((group s g).win = none → (group t g).win = none ∧
      fld t (LG_WIN_VETO_LATE_CNT.COUNT g) = min (fld s (LG_WIN_VETO_LATE_CNT.COUNT g) + 1) (2 ^ 16 - 1))) ∧
  (∀ (s : State) (p : Nat), p < nBusy s → pinWanted s p = false → holdOf s p = 0 → fbit s LG_BUSY_STAT.STATE p = true →
    ∃ t, exec (.busyHoldExpiry p) s = .next t ∧ fld t LG_BUSY_STAT.STATE = fld s LG_BUSY_STAT.STATE - 2 ^ p ∧
    OnlyRegs s t [LG_BUSY_STAT.off]) ∧
  (∀ state part gate len num w : Nat, w = (windowWord state part gate len num).toNat →
    bitsOf w 63 58 = (if part = 0 then 50 else 51) ∧ bitsOf w 57 56 = state % 4 ∧
    bitsOf w 55 48 = (if part = 0 then gate else part) % 256 ∧ bitsOf w 47 32 = len % 2 ^ 16 ∧ bitsOf w 31 0 = num % 2 ^ 32) ∧
  (∀ (s : State) (g state : Nat) (W : Win) (c : W64),
    (W.part = 0 → (windowTile s g W state (some c)).slots =
      [windowWord state 0 W.gate W.len W.num, W.openMark, c] ++ List.replicate 4 0xC000000000000000#64) ∧
    (W.part ≠ 0 → (windowTile s g W state none).slots =
      [windowWord state W.part W.gate W.len W.num] ++ List.replicate 6 0xC000000000000000#64))

/-- R122, R145, R146: injected tiles; the map of LG_Q_OCC. -/
def Obligations.InjectionPort : Prop :=
  (∀ (s : State) (a : Access) (g : Nat) (v : W32), g < nGroups s → Reached s a (LG_INJ_DATA.off g) → flag s (LG_INJ_CTRL.EN g) = true →
    (group s g).inj.length < 13 → ∃ t, exec (.lgInjDataWrite a g v) s = .next t ∧ (group t g).inj = (group s g).inj ++ [v] ∧
    fld t (LG_INJ_CTRL.FILL g) = (group s g).inj.length + 1 ∧ (group t g).injTile = (group s g).injTile) ∧
  (∀ (s : State) (a : Access) (g : Nat) (v : W32), g < nGroups s → Reached s a (LG_INJ_DATA.off g) → flag s (LG_INJ_CTRL.EN g) = true →
    (group s g).inj.length = 13 → ∃ t, exec (.lgInjDataWrite a g v) s = .next t ∧
    ((group s g).injTile = none → (group t g).inj = [] ∧ (group t g).injTile = some ((group s g).inj ++ [v]) ∧
      fld t (LG_INJ_CTRL.FILL g) = 0) ∧
    ((group s g).injTile ≠ none → (group t g).inj = (group s g).inj ++ [v] ∧ (group t g).injTile = (group s g).injTile ∧
      (group t g).injFlush = true ∧ fld t (LG_INJ_CTRL.FILL g) = 14)) ∧
  (∀ (s : State) (a : Access) (g : Nat) (v : W32), g < nGroups s → Reached s a (LG_INJ_DATA.off g) →
    flag s (LG_INJ_CTRL.EN g) = false ∨ 14 ≤ (group s g).inj.length →
    ∃ t, exec (.lgInjDataWrite a g v) s = .next t ∧ (group t g).inj = (group s g).inj ∧ flag t (LG_STAT.INJ_OVF g) = true ∧
    fld t (LG_INJ_OVF_CNT.COUNT g) = min (fld s (LG_INJ_OVF_CNT.COUNT g) + 1) (2 ^ 16 - 1)) ∧
  (∀ (s : State) (a : Access) (g : Nat) (v : W32), g < nGroups s → Reached s a (LG_INJ_CTRL.off g) → v.getLsbD 31 = true →
    (group s g).inj ≠ [] → (group s g).injTile = none → ∃ t, exec (.lgInjFlush a g v) s = .next t ∧ (group t g).inj = [] ∧
    (group t g).injTile = some (group s g).inj ∧ fld t (LG_INJ_CTRL.FILL g) = 0) ∧
  (∀ (s : State) (a : Access) (g : Nat) (v : W32), g < nGroups s → Reached s a (LG_INJ_CTRL.off g) → v.getLsbD 31 = true →
    (group s g).inj ≠ [] → (group s g).injTile ≠ none → ∃ t, exec (.lgInjFlush a g v) s = .next t ∧ (group t g).inj = (group s g).inj ∧
    (group t g).injTile = (group s g).injTile ∧ (group t g).injFlush = true) ∧
  (∀ (s : State) (g : Nat) (ws : List W32), g < 64 → (group s g).injTile = some ws → maySeal s g = true → sealDue s g = false →
    (group s g).sealedCyc ≠ some (s.pl.edge / 2) → ∃ t, exec (.injectedTileSeal g) s = .next t ∧
    ((group s g).injFlush = false → (group t g).injTile = none) ∧
    ((group s g).injFlush = true → (group s g).inj ≠ [] → (group t g).injTile = some (group s g).inj ∧ (group t g).inj = [] ∧
      (group t g).injFlush = false) ∧
    (source t g).credits = min 8 ((source s g).credits + (creditsDue s - (source s g).earned)) - 1 ∧
    (source t g).crossing = (source s g).crossing ++ [mkTile g false true ws.length (fld s (LG_SEQ.SEQ g)) (injSlots ws)] ∧
    fld t (LG_SEQ.SEQ g) = (fld s (LG_SEQ.SEQ g) + 1) % 2 ^ 16) ∧
  (∀ (s : State) (g : Nat), sealDue s g = true ∨ (group s g).sealedCyc = some (s.pl.edge / 2) → exec (.injectedTileSeal g) s = .next s) ∧
  (∀ (s : State) (a : Access) (g : Nat) (v : W32), g < nGroups s → Reached s a (LG_Q_OCC.off g) → v.getLsbD 15 = true →
    ∃ t, exec (.lgQPeakClr a g v) s = .next t ∧ fld t (LG_Q_OCC.PEAK g) = fld s (LG_Q_OCC.OCC g) ∧
    fld t (LG_Q_OCC.OCC g) = fld s (LG_Q_OCC.OCC g) ∧ RegsKept s t [LG_Q_OCC.off g, GL_STALL_MAX.off]) ∧
  (∀ (g vb seq : Nat) (window injected : Bool) (slots : List W64) (x : Tile) (h : Nat), slots.length = 7 →
    x = mkTile g window injected vb seq slots → h = x.hdr.toNat →
    bitsOf h 63 56 = g % 256 ∧ bitsOf h 55 54 = 0 ∧ bitsOf h 53 53 = (if window then 1 else 0) ∧
    bitsOf h 52 52 = (if injected then 1 else 0) ∧ bitsOf h 51 48 = vb % 16 ∧ bitsOf h 47 32 = seq % 2 ^ 16 ∧
    bitsOf h 31 0 = (crc32c ((tileBytes x).drop 8)).toNat ∧ x.slots = slots ∧ (tileBytes x).length = 64 ∧
    ∀ j < 64, ((tileBytes x).getD j 0).toNat = ((x.hdr :: x.slots).getD (j / 8) 0).toNat / 2 ^ (8 * (j % 8)) % 256) ∧
  (∀ (g seq : Nat) (recs : List W64), recs.length ≤ 7 →
    (dataTile g seq recs).slots = recs ++ List.replicate (7 - recs.length) 0xC000000000000000#64) ∧
  (∀ (k : W32 → W32) (bs : List Byte), (∀ c, k c = if c &&& 1#32 = 1#32 then (c >>> 1) ^^^ 0x82F63B78#32 else c >>> 1) →
    crc32c bs = (bs.foldl (fun c b => k (k (k (k (k (k (k (k (c ^^^ b.zeroExtend 32))))))))) 0xFFFFFFFF#32) ^^^ 0xFFFFFFFF#32) ∧
  crc32c [0x31, 0x32, 0x33, 0x34, 0x35, 0x36, 0x37, 0x38, 0x39] = 0xE3069283#32

/-- R71, R72, R76 to R78, R80: from a temperature to an active table. -/
def Obligations.BinTables : Prop :=
  (∀ (s : State) (n : Nat) (x : Int) (r : List (Nat × Int)), s.mon.temps = (n, x) :: r → ∃ t, exec .tempDelivery s = .next t ∧
    t.mon.temps = r ∧ ∀ g < nGroups s,
      if fld s (CA_GRP_CFG.TSEL g) = n then fld t (CA_GRP_TEMP.TEMP g) = wrapInt 16 x ∧ (calGroup t g).delivered = true
      else reg t (CA_GRP_TEMP.off g) = reg s (CA_GRP_TEMP.off g) ∧ calGroup t g = calGroup s g) ∧
  (∀ (s : State) (g n : Nat), g < nGroups s → (calGroup s g).staleFrom = some n →
    n + 1600000 * max 1 (fld s CA_CFG.STALE_MS) ≤ s.now → ∃ t, exec (.tempStaleExpiry g) s = .next t ∧
    (calGroup t g).staleFrom = none ∧ flag t (CA_GRP_STAT.TEMP_STALE g) = true) ∧
  (∀ (s : State) (g : Nat) (st : Staging), g < 64 → (calGroup s g).building = some st → failMask 0 st.tables = 0 → st.firstTable = false →
    (calGroup s g).again = false → (∀ x, groupTemp s g = some x → (x - st.temp).natAbs < 16) → s.pl.frameT = none →
    ∃ t, exec (.tableBuildComplete g) s = .next t ∧ (calGroup t g).building = none ∧ (calGroup t g).staged = some st ∧
    (calGroup t g).tUsed = some st.temp ∧ flag t (CA_GRP_STAT.STAGED g) = true ∧ flag t (CA_GRP_STAT.BUILDING g) = false ∧
    ∀ n, activeTable t n = activeTable s n) ∧
  (∀ (s : State) (g : Nat) (st : Staging), g < 64 → (calGroup s g).building = some st → failMask 0 st.tables = 0 → st.firstTable = true →
    (calGroup s g).staged = none → ∃ t, exec (.tableBuildComplete g) s = .next t ∧ (calGroup t g).first = true ∧
    fld t (CA_GRP_STAT.T_USED g) = wrapInt 16 st.temp ∧
    (∀ i < 16, activeTable t (16 * g + i) = st.tables.getD i (List.replicate 512 1024)) ∧
    (flag s PL_CTRL.ORIGIN_WAIT = false → (group t g).ready = true)) ∧
  (∀ (s : State) (g : Nat) (st : Staging), (calGroup s g).building = some st → st.firstTable = false → s.pl.frameT.isSome = true →
    exec (.tableBuildComplete g) s = .next s) ∧
  (∀ (s : State) (g i : Nat) (st : Staging), i < 16 → s.pl.frameT.isSome = true → (calGroup s g).staged = some st →
    activeTable s (16 * g + i) = st.tables.getD i (List.replicate 512 1024)) ∧
  (∀ (s : State) (x : BitVec 104), s.pl.frameT = some x → ∃ t, exec .calFrameBoundary s = .next t ∧ t.pl = { s.pl with frameT := none } ∧
    fld t CA_FRAME_CNT.COUNT = s.pl.edge / 2 ^ 20 % 2 ^ 32 ∧ pair64 t CA_FRAME_T_LO.off CA_FRAME_T_HI.off = x.toNat % 2 ^ 64 ∧
    ∀ g < nGroups s, (calGroup t g).staged = none ∧ ∀ st, (calGroup s g).staged = some st →
      ∀ i < 16, activeTable t (16 * g + i) = st.tables.getD i (List.replicate 512 1024))

/-- R82 to R86: the commands over bin sets. -/
def Obligations.BinSetCommands : Prop :=
  (∀ (s : State) (c : Command) (x : Int), CmdTaken s c 0x100 → p0f c 5 0 < nGroups s → p0f c 33 32 ≠ 3 → p0f c 38 36 ≤ 4 →
    ownGroup s (p0f c 5 0) = cmdPart s c → (calGroup s (p0f c 5 0)).measure = none → storeWriting s = false →
    groupTemp s (p0f c 5 0) = some x → (x - (1600 + 2240 * Int.ofNat (p0f c 33 32))).natAbs ≤ 128 →
    ∃ t m, exec (.calMeasure c) s = .next t ∧ (calGroup t (p0f c 5 0)).measure = some m ∧ m.mask = p0f c 31 16 ∧ m.set = p0f c 33 32 ∧
    m.p = 20 + p0f c 38 36 ∧ m.cmd = c ∧ m.dllLost = false ∧ m.temps = none ∧ m.at_ = s.now ∧ CmdHeld s t c ∧
    ∀ i < 16, m.mask.testBit i = true → (lane t (16 * p0f c 5 0 + i)).supp.isSome = true) ∧
  (∀ (s : State) (g : Nat) (hs : List Histogram) (m : Measure), (calGroup s g).measure = some m → m.at_ + collectTicks m.p ≤ s.now →
    m.set < 3 → (∀ h ∈ hs, h.hA.length = 512 ∧ h.hB.length = 512) →
    ∃ t, exec (.calMeasureComplete g hs) s = .next t ∧ (calGroup t g).measure = none ∧
    ∀ h ∈ hs, ∀ i < 16, m.mask.testBit i = true → histOf (16 * g + i) hs = h →
      ∀ w, w = (List.range 512).map (fun b => min 4095 (((h.hA.getD b 0 + h.hB.getD b 0) * 2 ^ 20 + 2 ^ m.p) / (2 * 2 ^ m.p))) →
      workSet t (16 * g + i) m.set =
        (if m.dllLost = false ∧ spread m = false ∧ checks13 w = 0 ∧ chiSquare h.hA h.hB ≤ 700 then w
         else workSet s (16 * g + i) m.set)) ∧
  (∀ (s : State) (g : Nat) (hs : List Histogram) (m : Measure), (calGroup s g).measure = some m → m.at_ + collectTicks m.p ≤ s.now →
    m.set < 3 → ∃ t, exec (.calMeasureComplete g hs) s = .next t ∧
    ∀ n, ∀ k < 3, n / 16 ≠ g ∨ m.mask.testBit (n % 16) = false ∨ k ≠ m.set → workSet t n k = workSet s n k) ∧
  (∀ (s : State) (c : Command) (bs : List Byte), CmdTaken s c 0x101 → p0f c 9 0 < nLanes s → p0f c 33 32 ≠ 3 →
    ownGroup s (p0f c 9 0 / 16) = cmdPart s c → storeWriting s = false → c.data = some bs → checks13 (unpackSet bs) = 0 →
    ∃ t, exec (.calTableWrite c) s = .next t ∧ workSet t (p0f c 9 0) (p0f c 33 32) = unpackSet bs ∧
    isNominal t (p0f c 9 0) (p0f c 33 32) = false ∧ CmdDone s t c 2 1 ∧ HostBytesKept s t [(statusAt s c, 4)]) ∧
  (∀ (s : State) (c : Command) (bs : List Byte), CmdTaken s c 0x101 → p0f c 9 0 < nLanes s → p0f c 33 32 ≠ 3 →
    ownGroup s (p0f c 9 0 / 16) = cmdPart s c → storeWriting s = false → c.data = some bs → checks13 (unpackSet bs) ≠ 0 →
    ∃ t, exec (.calTableWrite c) s = .next t ∧ t.cal = s.cal ∧ CmdDone s t c 3 1 ∧
    bitsOf (reg t (CA_LANE_RES.off (p0f c 9 0))).toNat 7 4 = checks13 (unpackSet bs)) ∧
  (∀ (s : State) (c : Command) (w : List Nat), CmdTaken s c 0x102 → p0f c 9 0 < nLanes s → ownGroup s (p0f c 9 0 / 16) = cmdPart s c →
    w = (if p0f c 33 32 = 3 then activeTable s (p0f c 9 0) else workSet s (p0f c 9 0) (p0f c 33 32)) →
    ∃ t, exec (.calTableRead c) s = .next t ∧ CmdDone s t c 0 1 ∧ t.cal = s.cal ∧
    HostBytesKept s t [(statusAt s c, 4), (c.addr.toNat, (packSet w).length)] ∧
    ∀ i < (packSet w).length, (c.addr.toNat + i < statusAt s c ∨ statusAt s c + 4 ≤ c.addr.toNat + i) →
      mget 0 t.host.mem (c.addr.toNat + i) = (packSet w).getD i 0)

/-- R82, R87 to R91: the calibration store.  The content that is written, and when a slot counts as valid, are log 36; a torn slot's bytes are
log 16. -/
def Obligations.CalibrationStore : Prop :=
  (∀ (s : State) (c : Command), CmdTaken s c 0x103 → cmdPart s c = 0 → (shadow s 4).testBit 17 = false → s.cal.op = none →
    newSeq s ≠ 0xFFFFFFFF → ∃ t, exec (.calStoreWrite c) s = .next t ∧ t.cal.op = some (.write (writeTarget s) (newSeq s)) ∧
    (slotOf t (writeTarget s)).torn = true ∧ slotOf t (1 - writeTarget s) = slotOf s (1 - writeTarget s) ∧
    flag t CA_STORE_STAT.WRITE_BUSY = true ∧ CmdHeld s t c) ∧
  (∀ (s : State) (i n : Nat), i < 2 → s.cal.op = some (.write i n) → s.cal.aborted = false →
    ∃ t, exec (.calStoreWriteComplete .done) s = .next t ∧ t.cal.op = none ∧ slotValid (slotOf t i) = true ∧ (slotOf t i).seq = n ∧
    (slotOf t i).sets = s.cal.sets ∧ slotOf t (1 - i) = slotOf s (1 - i) ∧ fld t CA_STORE_RES.OUTCOME = 1 ∧
    flag t CA_STORE_STAT.WRITE_BUSY = false) ∧
  (∀ (s : State) (i n : Nat), i < 2 → s.cal.op = some (.write i n) → s.cal.aborted = true →
    ∃ t, exec (.calStoreWriteComplete .aborted) s = .next t ∧ t.cal.op = none ∧ slotOf t 0 = slotOf s 0 ∧ slotOf t 1 = slotOf s 1 ∧
    fld t CA_STORE_RES.OUTCOME = 2 ∧ fld t CA_STORE_ABORT_CNT.COUNT = min (fld s CA_STORE_ABORT_CNT.COUNT + 1) (2 ^ 16 - 1)) ∧
  (∀ (s : State) (i n : Nat), i < 2 → s.cal.op = some (.write i n) → s.cal.aborted = false →
    ∃ t, exec (.calStoreWriteComplete .mismatch) s = .next t ∧ t.cal.op = none ∧ slotValid (slotOf t i) = false ∧
    (slotOf t i).header = true ∧ (slotOf t i).seq = n ∧ (slotOf t i).commit = 0xFFFFFFFF ∧ slotOf t (1 - i) = slotOf s (1 - i) ∧
    fld t CA_STORE_RES.OUTCOME = 5 ∧ ∀ k p, p < 0x1000 ∨ 0x3FFFFC ≤ p → p < 0x400000 →
      flashByte t k (0x400000 * i + p) = slotByte (slotOf t i) p) ∧
  (∀ (s : State) (c : Command), CmdTaken s c 0x104 → cmdPart s c = 0 → s.cal.op = none → ∃ t, exec (.calStoreReload c) s = .next t ∧
    t.cal = { s.cal with op := some (.load false), opCmd := some c, aborted := false } ∧ flag t CA_STORE_STAT.WRITE_BUSY = true ∧
    CmdHeld s t c) ∧
  (∀ (s : State) (f : FlashRead) (va vb : Bool) (i : Nat), s.cal.op = some (.load false) → f.responds = true →
    (fld s MT_STRAP.STRAP).testBit 2 = false → va = (slotWhole s.cal.slotA && !f.failA) → vb = (slotWhole s.cal.slotB && !f.failB) →
    (va = true ∨ vb = true) → i = (if va && vb then (if s.cal.slotB.seq < s.cal.slotA.seq then 0 else 1) else if va then 0 else 1) →
    ∃ t, exec (.calStoreLoadComplete f) s = .next t ∧ t.cal.op = none ∧ flag t CA_STORE_STAT.WRITE_BUSY = false ∧
    fld t CA_STORE_STAT.ACTIVE_SLOT = i ∧
    ∀ n < nLanes s, ∀ k < 3, workSet t n k = sget (fun _ => List.replicate 512 1024) (slotOf s i).sets (3 * n + k) ∧
      isNominal t n k = false) ∧
  (∀ (s : State) (f : FlashRead) (c : Command), s.cal.op = some (.load false) → s.cal.opCmd = some c → (hring s c.ring).cmd = some c → c.ring < 64 →
    f.responds = false → ∃ t, exec (.calStoreLoadComplete f) s = .next t ∧ CmdDone s t c 7 7 ∧ t.cal.op = none ∧
    t.cal.sets = s.cal.sets ∧ fld t CA_STORE_RES.OUTCOME = 7) ∧
  (∀ (s : State) (c : Command), CmdTaken s c 0x105 → 4 ≤ c.p1.toNat → c.p1.toNat ≤ 2 ^ 20 → c.p1.toNat % 4 = 0 →
    p0f c 22 0 + c.p1.toNat ≤ 2 ^ 23 → ∃ t, exec (.calFlashRead c false) s = .next t ∧ CmdDone s t c 7 7 ∧ t.cal = s.cal ∧
    HostBytesKept s t [(statusAt s c, 4)]) ∧
  (∀ (s : State) (c : Command), CmdTaken s c 0x105 → 4 ≤ c.p1.toNat → c.p1.toNat ≤ 2 ^ 20 → c.p1.toNat % 4 = 0 →
    p0f c 22 0 + c.p1.toNat ≤ 2 ^ 23 → ∃ t, exec (.calFlashRead c true) s = .next t ∧ CmdDone s t c 0 1 ∧ t.cal = s.cal ∧
    HostBytesKept s t [(statusAt s c, 4), (c.addr.toNat, c.p1.toNat)] ∧
    ∀ i < c.p1.toNat, (c.addr.toNat + i < statusAt s c ∨ statusAt s c + 4 ≤ c.addr.toNat + i) →
      (slotOf s ((p0f c 22 0 + i) / 0x400000)).torn = false →
      mget 0 t.host.mem (c.addr.toNat + i) = slotByte (slotOf s ((p0f c 22 0 + i) / 0x400000)) ((p0f c 22 0 + i) % 0x400000))

/-- R9, R284 to R286, R288, R289, R291, R293, R294, R298, R388: writes and reads of BAR0.  Writes of cmd fields are the commands' own
statements; that an alias write of a grd bit without ownership counts twice is log 27. -/
def Obligations.RegisterWrites : Prop :=
  (∀ (s : State) (a : Access) (off i j : Nat) (r : RegRow) (v : W32), off / 0x10000 ∈ [1, 7, 8, 9, 10, 12, 14, 15, 20, 21] → off % 4 = 0 →
    off % 0x10000 < 0xF000 → findReg off = some (r, i, j) → maskOf (fun x => x = .cmd || x = .grd) r.fields = 0 → r.half = .none →
    (∀ g < 64, off ≠ LG_INJ_DATA.off g) → Reached s a off → ∃ t, exec (.registerWrite a off v) s = .next t ∧
    (∀ b < 32, (reg t off).getLsbD b =
      ((if (maskOf (fun x => x = .live || x = .cnt) r.fields).testBit b then v.getLsbD b && (unitMask s (writerPart s a off) off).testBit b
        else (reg s off).getLsbD b) && !((maskOf (fun x => x = .sts) r.fields).testBit b && v.getLsbD b))) ∧
    (∀ b < 32, (maqOf t off).getLsbD b =
      if (maskOf (fun x => x = .cfg) r.fields).testBit b then v.getLsbD b && (unitMask s (writerPart s a off) off).testBit b
      else (maqOf s off).getLsbD b) ∧
    RegsKept s t [off, GL_STALL_MAX.off] ∧ t.bus.com = s.bus.com ∧ (∀ o, o ≠ off → maqOf t o = maqOf s o) ∧
    t.pl = s.pl ∧ t.inp = s.inp ∧ t.lg = s.lg ∧ t.fab = s.fab ∧ t.mus = s.mus ∧ t.ddr = s.ddr ∧ t.host = s.host ∧ t.mt = s.mt) ∧
  (∀ (s : State) (a : Access) (off i j : Nat) (r : RegRow) (v : W32), off / 0x10000 ∈ [9, 12, 20, 21] → off % 4 = 0 →
    off % 0x10000 < 0xF000 → findReg off = some (r, i, j) → maskOf (fun x => x = .cmd || x = .grd) r.fields = 0 → r.half = .lo →
    maskOf (fun x => x = .live || x = .cnt || x = .cfg) r.fields ≠ 0 → Reached s a off → ∃ t, exec (.registerWrite a off v) s = .next t ∧
    latchOf t off = some v ∧ RegsKept s t [GL_STALL_MAX.off] ∧ t.bus.maq = s.bus.maq) ∧
  (∀ (s : State) (a : Access) (off i j : Nat) (r : RegRow) (v : W32), off < 0x160000 → off % 4 = 0 → off % 0x10000 < 0xF000 →
    findReg off = some (r, i, j) → maskOf (fun x => x = .grd) r.fields ≠ 0 → Reached s a off →
    ∃ t, exec (.registerWrite a off v) s = .next t ∧ flag t GL_ACC_STAT.GUARD = true ∧
    fld t GL_GUARD_CNT.COUNT = min (fld s GL_GUARD_CNT.COUNT + 1) (2 ^ 32 - 1) ∧ t.bus.maq = s.bus.maq ∧
    RegsKept s t [GL_ACC_STAT.off, GL_GUARD_CNT.off, GL_GUARD_LOG.off, GL_STALL_MAX.off]) ∧
  (∀ (s : State) (a : Access) (f : Nat) (v : W32), f < 8 → Reached s a (IR_NMASK.off f) →
    ∃ t, exec (.registerWrite a (IR_NMASK.off f) v) s = .next t ∧ reg t (IR_NMASK.off f) = v ∧
    RegsKept s t [IR_NMASK.off f, GL_STALL_MAX.off] ∧ t.bus.maq = s.bus.maq) ∧
  (∀ (s : State) (a : Access) (i : Nat) (v : W32), i < 512 → Reached s a (IN_THR.off i) →
    ∃ t, exec (.registerWrite a (IN_THR.off i) v) s = .next t ∧
    maqOf t (IN_THR.off i) = (maqOf s (IN_THR.off i) &&& 0xF000F000) ||| (v &&& 0x0FFF0FFF) ∧
    RegsKept s t [GL_STALL_MAX.off] ∧ t.bus.com = s.bus.com ∧ ∀ o, o ≠ IN_THR.off i → maqOf t o = maqOf s o) ∧
  (∀ (s : State) (a : Access) (g : Nat) (v : W32), g < 64 → Reached s a (LG_STAT.off g) →
    ∃ t, exec (.registerWrite a (LG_STAT.off g) v) s = .next t ∧ reg t (LG_STAT.off g) = reg s (LG_STAT.off g) &&& ~~~(v &&& 0x1F8) ∧
    RegsKept s t [LG_STAT.off g, GL_STALL_MAX.off]) ∧
  (∀ (s : State) (a : Access) (i : Nat) (v : W32), i < 512 → reaches s a = true → regPresent s (IN_THR.off i) = true →
    mayWrite s a.func (IN_THR.off i) = false → ∃ t, exec (.registerWrite a (IN_THR.off i) v) s = .next t ∧ t.bus.maq = s.bus.maq ∧
    fld t AR_OWN_FAULT_CNT.COUNT = min (fld s AR_OWN_FAULT_CNT.COUNT + 1) (2 ^ 32 - 1) ∧
    reg t AR_OWN_LOG.off = BitVec.ofNat 32 (a.func % 8 * 2 ^ 29 + IN_THR.off i) ∧
    RegsKept s t [AR_OWN_FAULT_CNT.off, AR_OWN_LOG.off, GL_STALL_MAX.off]) ∧
  (∀ (s : State) (a : Access) (off be : Nat) (v : W32), reaches s a = true → be % 16 ≠ 15 →
    ∃ t, exec (.narrowWrite a off be v) s = .next t ∧ OnlyRegs s t [GL_NARROW_CNT.off, GL_ACC_STAT.off, GL_NARROW_LOG.off] ∧
    fld t GL_NARROW_CNT.COUNT = min (fld s GL_NARROW_CNT.COUNT + 1) (2 ^ 32 - 1) ∧ flag t GL_ACC_STAT.NARROW = true ∧
    flag t GL_ACC_STAT.OVERSIZE = flag s GL_ACC_STAT.OVERSIZE ∧
    reg t GL_NARROW_LOG.off = BitVec.ofNat 32 (a.func % 8 * 2 ^ 29 + be % 16 * 2 ^ 22 + off % 2 ^ 22)) ∧
  (∀ (s : State) (a : Access) (off be : Nat), reaches s a = true → ∃ t, exec (.oversizeAccess a off be true) s = .next t ∧
    OnlyRegs s t [GL_NARROW_CNT.off, GL_ACC_STAT.off, GL_NARROW_LOG.off] ∧ flag t GL_ACC_STAT.OVERSIZE = true ∧
    fld t GL_NARROW_CNT.COUNT = min (fld s GL_NARROW_CNT.COUNT + 1) (2 ^ 32 - 1) ∧ flag t GL_ACC_STAT.NARROW = flag s GL_ACC_STAT.NARROW ∧
    reg t GL_NARROW_LOG.off = BitVec.ofNat 32 (a.func % 8 * 2 ^ 29 + 2 ^ 28 + be % 16 * 2 ^ 22 + off % 2 ^ 22)) ∧
  (∀ (s : State) (a : Access) (off be : Nat), exec (.oversizeAccess a off be false) s = .next s) ∧
  (∀ (s : State) (a : Access) (f i : Nat) (v : W32), f < 8 → i < 32 → Reached s a (IR_NMASK.off f) →
    ∃ t, exec (.aliasWrite a (0x200000 + 21 * 0x8000 + (IR_NMASK.off f % 0x10000) / 4 * 0x80 + 4 * i) v) s = .next t ∧
    (∀ j < 32, (reg t (IR_NMASK.off f)).getLsbD j = if j = i then v.getLsbD 0 else (reg s (IR_NMASK.off f)).getLsbD j) ∧
    RegsKept s t [IR_NMASK.off f, GL_STALL_MAX.off]) ∧
  (∀ (s : State) (a : Access) (v : W32), Reached s a GL_STALL_MAX.off → v.getLsbD 31 = true →
    ∃ t, exec (.glStallMaxClr a v) s = .next t ∧ fld t GL_STALL_MAX.NS = 0 ∧ fld t GL_STALL_MAX.BLOCK = 0 ∧
    RegsKept s t [GL_STALL_MAX.off]) ∧
  (∀ (s : State) (a : Access) (off i j : Nat) (r : RegRow) (v : W32), TakesPlain s off → findReg off = some (r, i, j) →
    maskOf (fun x => x = .cmd || x = .grd) r.fields = 0 → Reached s a off →
    (r.half = .none → ∃ t, exec (.registerWrite a off v) s = .next t ∧ BitsTaken s t (writerPart s a off) off r.fields v ∧
      RegsKept s t [off, GL_STALL_MAX.off] ∧ (∀ o, o ≠ off → maqOf t o = maqOf s o) ∧ t.bus.com = s.bus.com ∧
      t = { s with bus := t.bus, pr := t.pr }) ∧
    (r.half = .lo → isWritable r.fields = true → ∃ t, exec (.registerWrite a off v) s = .next t ∧
      latchOf t off = some v ∧ (∀ o, o ≠ off → latchOf t o = latchOf s o) ∧ RegsKept s t [GL_STALL_MAX.off] ∧
      t.bus.maq = s.bus.maq ∧ t = { s with bus := t.bus }) ∧
    (r.half = .hi → isWritable r.fields = true → ∀ q i' j', findReg (off - 4) = some (q, i', j') →
      ∃ t, exec (.registerWrite a off v) s = .next t ∧ BitsTaken s t (writerPart s a off) off r.fields v ∧
      BitsTaken s t (writerPart s a off) (off - 4) q.fields ((latchOf s (off - 4)).getD (loInForce s (off - 4) r.fields)) ∧
      RegsKept s t [off, off - 4, GL_STALL_MAX.off] ∧ (∀ o, o ≠ off → o ≠ off - 4 → maqOf t o = maqOf s o) ∧
      t.bus.com = s.bus.com ∧ t = { s with bus := t.bus, pr := t.pr })) ∧
  (∀ (s : State) (a : Access) (off i j b : Nat) (r : RegRow) (v : W32) (ty : Option FTy), TakesPlain s off → off % 0x10000 < 0x400 → b < 32 →
    findReg off = some (r, i, j) → maskOf (fun x => x = .cmd || x = .grd) r.fields = 0 → Reached s a off →
    ty = (fieldAt b r.fields).map (·.ty) →
    (r.half = .none → unitMask s (writerPart s a off) off = 2 ^ 32 - 1 → ∃ t, exec (.aliasWrite a (aliasOf off b) v) s = .next t ∧
      (∀ k < 32, (reg t off).getLsbD k =
        if k = b ∧ (ty = some .live ∨ ty = some .cnt) then v.getLsbD 0
        else if k = b ∧ ty = some .sts then (reg s off).getLsbD k && v.getLsbD 0 else (reg s off).getLsbD k) ∧
      (∀ k < 32, (maqOf t off).getLsbD k = if k = b ∧ ty = some .cfg then v.getLsbD 0 else (maqOf s off).getLsbD k) ∧
      RegsKept s t [off, GL_STALL_MAX.off] ∧ (∀ o, o ≠ off → maqOf t o = maqOf s o) ∧ t.bus.com = s.bus.com) ∧
    (r.half = .lo → ty = some .live ∨ ty = some .cnt ∨ ty = some .cfg → ∃ t, exec (.aliasWrite a (aliasOf off b) v) s = .next t ∧
      (∃ w, latchOf t off = some w ∧ ∀ k < 32, w.getLsbD k =
        if k = b then v.getLsbD 0 else ((latchOf s off).getD (loInForce s off r.fields)).getLsbD k) ∧
      RegsKept s t [GL_STALL_MAX.off] ∧ t.bus.maq = s.bus.maq)) ∧
  (∀ (s : State) (a : Access) (off i j b : Nat) (r : RegRow) (v : W32), off % 4 = 0 → off % 0x10000 < 0x400 → off < 0x160000 → b < 32 →
    findReg off = some (r, i, j) → reaches s a = true → regPresent s off = true → isGrdBit b r = true →
    ∃ t, exec (.aliasWrite a (aliasOf off b) v) s = .next t ∧ flag t GL_ACC_STAT.GUARD = true ∧
    fld t GL_GUARD_CNT.COUNT = min (fld s GL_GUARD_CNT.COUNT + 1) (2 ^ 32 - 1) ∧
    (flag s GL_ACC_STAT.GUARD = false → bitsOf (reg t GL_GUARD_LOG.off).toNat 23 21 = 7) ∧
    fld t AR_OWN_FAULT_CNT.COUNT = (if mayWrite s a.func off then fld s AR_OWN_FAULT_CNT.COUNT
      else min (fld s AR_OWN_FAULT_CNT.COUNT + 1) (2 ^ 32 - 1)) ∧ t.bus.maq = s.bus.maq ∧
    RegsKept s t [GL_ACC_STAT.off, GL_GUARD_CNT.off, GL_GUARD_LOG.off, AR_OWN_FAULT_CNT.off, AR_OWN_LOG.off, GL_STALL_MAX.off]) ∧
  (∀ (s : State) (f off : Nat), (findReg off = none ∨ regPresent s off = false ∨ mayRead s f off = false ∨
      (0xF000 ≤ off % 0x10000 ∧ off % 0x10000 < 0xF200)) → readReg s f off = 0) ∧
  (∀ (s : State) (f off i j : Nat) (r : RegRow), off / 0x10000 ∈ [6, 9, 12, 17] → findReg off = some (r, i, j) → regPresent s off = true →
    mayRead s f off = true → inGuardWindow off = false → ∀ b < 32, (readReg s f off).getLsbD b =
      if (maskOf (fun x => x = .cfg) r.fields).testBit b then
        (if (viewOf s f).getLsbD 0 then (comOf s off).getLsbD b else (maqOf s off).getLsbD b)
      else (reg s off).getLsbD b) ∧
  (∀ (s : State) (f off p : Nat), regOwner s off = .part p → p ≠ f →
    mayRead s f off = decide (f = 0 ∧ (off / 0x10000 = 21 ∨ (off / 0x10000 = 3 ∧ 0x2000 ≤ off % 0x10000)))) ∧
  (∀ (s : State) (f off b : Nat), barUp s = true → fnExists s f = true → (fnHost s f).d3hot = false → off % 4 = 0 → b < 32 →
    (off < 0x200000 → readBar s f off = readReg s f off) ∧
    (off < 0x160000 → off % 0x10000 < 0x400 → readBar s f (aliasOf off b) = if (readReg s f off).getLsbD b then 1 else 0)) ∧
  (∀ (s : State) (f off : Nat), (barUp s = false ∨ fnExists s f = false ∨ (fnHost s f).d3hot = true) → readBar s f off = 0) ∧
  (∀ (s : State) (f off n k : Nat), off % 8 + n ≤ 8 → k < n → ∃ l, readReply s f off n = some l ∧ l.length = n ∧
    l.getD k 0 = (readBar s f ((off + k) / 4 * 4)).extractLsb' (8 * ((off + k) % 4)) 8)

/-- R291, R300, R386, R388: the two halves of a guarded write, and whose writes take effect (that it is PF0's alone: log 27). -/
def Obligations.GuardedPairs : Prop :=
  (∀ (s : State) (a : Access) (blk k : Nat) (v : W32), reaches s a = true → blk < 22 → k < 64 → guardPair s blk = none →
    ∃ t, exec (.guardOpen a blk k v) s = .next t ∧
    guardPair t blk = some ⟨k, v, a.func, s.now, false, !slotGrd blk k, !rights s a.func⟩ ∧
    (∀ b, b ≠ blk → guardPair t b = guardPair s b) ∧ RegsKept s t [GL_STALL_MAX.off]) ∧
  (∀ (s : State) (a : Access) (blk k : Nat) (v : W32) (p : GuardPair), reaches s a = true → blk < 22 → k < 64 →
    guardPair s blk = some p → pairExpired s p = false → p.slot = k → p.broken = false → p.noReg = false → p.noRights = false →
    v ≠ ~~~p.value → ∃ t, exec (.guardClose a blk k v) s = .next t ∧ guardPair t blk = none ∧ flag t GL_ACC_STAT.GUARD = true ∧
    fld t GL_GUARD_CNT.COUNT = min (fld s GL_GUARD_CNT.COUNT + 1) (2 ^ 32 - 1) ∧
    (flag s GL_ACC_STAT.GUARD = false → reg t GL_GUARD_LOG.off =
      BitVec.ofNat 32 (a.func * 2 ^ 24 + 1 * 2 ^ 21 + blk * 2 ^ 16 + (0xF100 + 4 * k))) ∧
    (flag s GL_ACC_STAT.GUARD = true → reg t GL_GUARD_LOG.off = reg s GL_GUARD_LOG.off) ∧
    RegsKept s t [GL_GUARD_LOG.off, GL_GUARD_CNT.off, GL_ACC_STAT.off, GL_STALL_MAX.off]) ∧
  (∀ (s : State) (a : Access) (p : GuardPair), reaches s a = true → guardPair s 2 = some p → pairExpired s p = false →
    p.slot = MQ_SCAN_REF.off % 0x10000 / 4 → p.broken = false → p.noReg = false → p.noRights = false → a.func = 0 → p.func = 0 →
    ∃ t, exec (.guardClose a 2 p.slot (~~~p.value)) s = .next t ∧ guardPair t 2 = none ∧ reg t MQ_SCAN_REF.off = p.value ∧
    flag t MQ_SCAN_STAT.REF_SET = true ∧ flag t MQ_SCAN_STAT.REF_STALE = false ∧ t.bus.strobes = s.bus.strobes ∧
    RegsKept s t [MQ_SCAN_REF.off, MQ_SCAN_STAT.off, GL_STALL_MAX.off]) ∧
  (∀ (s : State) (a : Access) (v : W32), reaches s a = true → a.func = 0 → rights s 0 = true → guardPair s 2 = none →
    ∃ t, exec (.mqScanRefWrite a v) s = .next t ∧ reg t MQ_SCAN_REF.off = v ∧ flag t MQ_SCAN_STAT.REF_SET = true ∧
    flag t MQ_SCAN_STAT.REF_STALE = false ∧ guardPair t 2 = none ∧
    RegsKept s t [MQ_SCAN_REF.off, MQ_SCAN_STAT.off, GL_STALL_MAX.off]) ∧
  (∀ (s : State) (a : Access) (v : W32), reaches s a = true → a.func ≠ 0 → rights s a.func = true → guardPair s 2 = none →
    ∃ t, exec (.mqScanRefWrite a v) s = .next t ∧ guardPair t 2 = none ∧ t.bus.strobes = s.bus.strobes ∧
    fld t AR_OWN_FAULT_CNT.COUNT = sat 32 (fld s AR_OWN_FAULT_CNT.COUNT) 1 ∧
    RegsKept s t [AR_OWN_FAULT_CNT.off, AR_OWN_LOG.off, GL_STALL_MAX.off]) ∧
  (∀ (s : State) (a : Access) (v : W32), reaches s a = true → a.func ≠ 0 → rights s a.func = false → guardPair s 2 = none →
    ∃ t, exec (.mqScanRefWrite a v) s = .next t ∧ guardPair t 2 = none ∧ t.bus.strobes = s.bus.strobes ∧
    flag t GL_ACC_STAT.GUARD = true ∧ fld t GL_GUARD_CNT.COUNT = sat 32 (fld s GL_GUARD_CNT.COUNT) 1 ∧
    (flag s GL_ACC_STAT.GUARD = false → bitsOf (reg t GL_GUARD_LOG.off).toNat 23 21 = 6) ∧
    RegsKept s t [GL_GUARD_LOG.off, GL_GUARD_CNT.off, GL_ACC_STAT.off, GL_STALL_MAX.off]) ∧
  (∀ (s : State) (blk : Nat) (p : GuardPair), guardPair s blk = some p → pairExpired s p = true →
    ∃ t, exec (.guardTimeout blk) s = .next t ∧ guardPair t blk = none ∧ flag t GL_ACC_STAT.GUARD = true ∧
    fld t GL_GUARD_CNT.COUNT = min (fld s GL_GUARD_CNT.COUNT + 1) (2 ^ 32 - 1) ∧
    (flag s GL_ACC_STAT.GUARD = false → p.func < 8 → blk < 22 → p.slot < 64 → bitsOf (reg t GL_GUARD_LOG.off).toNat 23 21 =
      (if p.noRights then 6 else if p.noReg then 5 else if p.broken then 3 else 2)))

/-- R390: rights, and what a guarded write without them does. -/
def Obligations.GuardRights : Prop :=
  (∀ (s : State) (f : Nat), (shadow s 4).testBit 19 = false → rights s f = decide (f = 0)) ∧
  (∀ (s : State) (f : Nat), (shadow s 4).testBit 19 = true → rights s f = (shadow s 5).testBit (8 + f)) ∧
  (∀ (s : State) (a : Access) (v : W32), reaches s a = true → rights s a.func = false → s.bus.pair = [] →
    ∀ i ∈ [Instr.mqScanRefWrite a v, .prForce a v, .arProgCmd a v, .mtSrstDevice a v, .mtSrstDatapath a v, .mtSleep a v],
      ∃ t, exec i s = .next t ∧ OnlyRegs s t [GL_STALL_MAX.off, GL_GUARD_CNT.off, GL_ACC_STAT.off, GL_GUARD_LOG.off] ∧
      flag t GL_ACC_STAT.GUARD = true ∧ fld t GL_GUARD_CNT.COUNT = min (fld s GL_GUARD_CNT.COUNT + 1) (2 ^ 32 - 1) ∧
      (flag s GL_ACC_STAT.GUARD = false → bitsOf (reg t GL_GUARD_LOG.off).toNat 23 21 = 6)) ∧
  (∀ (s : State) (a : Access) (off : Nat) (v : W32), off ∈ [AR_PROG_ROW.off, AR_PROG_DATA.off] → reaches s a = true →
    rights s a.func = false → s.bus.pair = [] → ∃ u t, exec (.guardOpen a 1 (off % 0x10000 / 4) v) s = .next u ∧
      exec (.guardClose a 1 (off % 0x10000 / 4) (~~~v)) u = .next t ∧
      OnlyRegs s t [GL_STALL_MAX.off, GL_GUARD_CNT.off, GL_ACC_STAT.off, GL_GUARD_LOG.off] ∧ flag t GL_ACC_STAT.GUARD = true)

/-- R386: which functions exist, and whose each unit is. -/
def Obligations.Partitions : Prop :=
  (∀ s : State, fnExists s 0 = true) ∧
  (∀ (s : State) (f : Nat), 1 ≤ f → f < 8 → fnExists s f = (shadow s 5).testBit f) ∧
  (∀ (s : State) (r0 j : Nat), partOf s r0 j =
    if fnExists s (shadow s (r0 + j / 8) / 2 ^ (4 * (j % 8)) % 8) then shadow s (r0 + j / 8) / 2 ^ (4 * (j % 8)) % 8 else 0) ∧
  (∀ (s : State) (r0 j f : Nat), s.ar.shadow = [] → partOf s r0 j = 0 ∧ (fnExists s f = true → f = 0)) ∧
  (∀ (s : State) (f off : Nat), regOwner s off = .device → off ≠ MQ_UNVEIL.off → off ≠ MQ_VIEW.off →
    mayWrite s f off = decide (f = 0))

/-- R295 to R297, R299, R300: from the Maquette to the values in force. -/
def Obligations.UnveilPath : Prop :=
  (∀ (s : State) (a : Access) (v : W32), Reached s a MQ_UNVEIL.off → v.toNat % 2 ^ 16 ≠ 0 → ∃ t x, exec (.mqUnveil a v) s = .next t ∧
    t.bus.strobes = s.bus.strobes ++ [x] ∧ x.mask = v.toNat % 2 ^ 16 ∧ x.src = 0 ∧ x.func = a.func ∧ x.edge = s.pl.edge + 1 ∧
    (∀ u ∈ allUnits s, u ∈ x.left ↔ (x.mask.testBit (unveilGroup s u) = true ∧ ∃ o ∈ unitOffs u, strobeOwns s 0 a.func o = true)) ∧
    t.bus.maq = s.bus.maq ∧ t.bus.com = s.bus.com ∧ RegsKept s t [MQ_LAST.off, MQ_LAST_T_LO.off, MQ_LAST_T_HI.off, GL_STALL_MAX.off] ∧
    ((∀ e ∈ s.bus.seen, e < s.pl.edge + 1) → fld t MQ_LAST.MASK = x.mask ∧ fld t MQ_LAST.SRC = 0 ∧
      fld t MQ_LAST.SEQ = (fld s MQ_LAST.SEQ + 1) % 256 ∧
      pair64 t MQ_LAST_T_LO.off MQ_LAST_T_HI.off = (advanceTF s.pl.t s.pl.f s.pl.adj).1.toNat % 2 ^ 64) ∧
    ((∀ e ∈ s.bus.seen, e ≤ s.pl.edge + 1) → s.pl.edge + 1 ∈ s.bus.seen → fld t MQ_LAST.MASK = fld s MQ_LAST.MASK ||| x.mask ∧
      fld t MQ_LAST.SRC = 0 ∧ fld t MQ_LAST.SEQ = fld s MQ_LAST.SEQ)) ∧
  (∀ (s : State) (a : Access) (v : W32), Reached s a MQ_UNVEIL.off → v.toNat % 2 ^ 16 = 0 → ∃ t, exec (.mqUnveil a v) s = .next t ∧
    t.bus.strobes = s.bus.strobes ∧ t.bus.maq = s.bus.maq ∧ t.bus.com = s.bus.com ∧ RegsKept s t [GL_STALL_MAX.off]) ∧
  (∀ s : State, barUp s = true → flag s MQ_PIN_CFG.EN = true → ∃ t x, exec .unveilPinStrobe s = .next t ∧
    t.bus.strobes = s.bus.strobes ++ [x] ∧ x.mask = fld s MQ_PIN_CFG.MASK % 2 ^ 16 ∧ x.src = 2 ∧ x.edge = s.pl.edge + 1 ∧
    RegsKept s t [MQ_LAST.off, MQ_LAST_T_LO.off, MQ_LAST_T_HI.off] ∧
    ((∀ e ∈ s.bus.seen, e < s.pl.edge + 1) → fld t MQ_LAST.MASK = x.mask ∧ fld t MQ_LAST.SRC = 2)) ∧
  (∀ s : State, flag s MQ_PIN_CFG.EN = false → exec .unveilPinStrobe s = .next s) ∧
  (∀ (s : State) (x : PartnerStrobe) (r : List PartnerStrobe), s.pr.strobes = x :: r → x.t ≤ tNow s →
    (x.late = true → x.arrived ≠ s.pl.edge) → x.mask &&& fld s MQ_PAIR_CFG.ACCEPT ≠ 0 →
    ∃ t y, exec .partnerStrobe s = .next t ∧ t.pr.strobes = r ∧
    t.bus.strobes = s.bus.strobes ++ [y] ∧ y.mask = (x.mask &&& fld s MQ_PAIR_CFG.ACCEPT) ∧ y.src = 3 ∧ y.edge = s.pl.edge ∧
    flag t MQ_STAT.PAIR_LATE = (flag s MQ_STAT.PAIR_LATE || x.late)) ∧
  (∀ (s : State) (u : UBlock) (x : Strobe), strobeFor u s.bus.strobes = some x → arrived s u x.edge = true →
    ∃ t, exec (.unveilLatch u) s = .next t ∧ isWaiting t u = true ∧ t.bus.maq = s.bus.maq ∧ RegsKept s t [MQ_SCAN_STAT.off,
      MQ_SUPERSEDE_CNT.off, MQ_STAT.off] ∧ flag t MQ_SCAN_STAT.REF_STALE = true ∧
    (∀ o ∈ unitOffs u, strobeOwns s x.src x.func o = true →
      (comOf t o).toNat &&& cfgMask o = (maqOf s o).toNat &&& cfgMask o) ∧
    ∀ o, o ∉ unitOffs u → comOf t o = comOf s o) ∧
  (∀ (s : State) (a : Access) (k : Nat) (v : W32), k < 29 → Reached s a (MQ_UG.off k) → ∃ t, exec (.registerWrite a (MQ_UG.off k) v) s = .next t ∧
    t.bus.strobes.length = s.bus.strobes.length ∧ ∀ (n : Nat) (x y : Strobe), s.bus.strobes[n]? = some x → t.bus.strobes[n]? = some y →
      y.mask = x.mask ∧ y.edge = x.edge ∧ ∀ u ∈ allUnits s, u ∈ y.left ↔ if onItsWay s x u then
        (x.mask.testBit (unveilGroup t u) = true ∧ ∃ o ∈ unitOffs u, strobeOwns s x.src x.func o = true) else u ∈ x.left) ∧
  (∀ (s : State) (u : UBlock), (∃ n, u = .mc n ∨ u = .ma n ∨ u = .pg n ∨ u = .mt) → isWaiting s u = true → boundary s u = true →
    ∃ t, exec (.committedSetApply u) s = .next t ∧ isWaiting t u = false ∧ RegsKept s t (unitOffs u) ∧ t.bus.com = s.bus.com ∧
    ∀ o ∈ unitOffs u, reg t o = BitVec.ofNat 32 (mergeBits (cfgMask o) (reg s o).toNat (comOf s o).toNat)) ∧
  (∀ (s : State) (u : UBlock), u ∈ allUnits s → isWaiting s u = true → boundary s u = true → s.inp.cmd = none →
    ∃ t, exec (.committedSetApply u) s = .next t ∧ isWaiting t u = false ∧ t.bus.com = s.bus.com ∧ t.bus.maq = s.bus.maq ∧
    ∀ o ∈ unitOffs u, (reg t o).toNat &&& cfgMask o = (comOf s o).toNat &&& cfgMask o) ∧
  (∀ s : State, s.bus.scanOn = true → s.bus.scanVoid = false → flag s MQ_SCAN_STAT.REF_SET = true → flag s MQ_SCAN_STAT.REF_STALE = false →
    scanCrc s ≠ reg s MQ_SCAN_REF.off → ∃ t, exec .integrityScanEnd s = .next t ∧ t.bus.scanOn = false ∧
    reg t MQ_SCAN_LAST.off = scanCrc s ∧ flag t MQ_SCAN_STAT.MISMATCH = true ∧ flag t IR_ALARM_STAT.INTEGRITY = true ∧
    fld t MQ_SCAN_MISMATCH_CNT.COUNT = min (fld s MQ_SCAN_MISMATCH_CNT.COUNT + 1) (2 ^ 32 - 1)) ∧
  (∀ s : State, s.bus.scanOn = true → s.bus.scanVoid = true → ∃ t, exec .integrityScanEnd s = .next t ∧ t.bus.scanOn = false ∧
    reg t MQ_SCAN_LAST.off = scanCrc s ∧ fld t MQ_SCAN_VOID_CNT.COUNT = sat 32 (fld s MQ_SCAN_VOID_CNT.COUNT) 1 ∧
    flag t MQ_SCAN_STAT.MISMATCH = flag s MQ_SCAN_STAT.MISMATCH ∧
    RegsKept s t [MQ_SCAN_LAST.off, MQ_SCAN_STAT.off, MQ_SCAN_VOID_CNT.off])

/-- R262 to R268, R271: rings, doorbells, and descriptors without an effect of their own.  The index check of a notice ring and a ring
that starts are read as log 37 says; D3hot is log 15. -/
def Obligations.HostRings : Prop :=
  (∀ (s : State) (a : Access) (r : Nat) (v : W32), r < 64 → Reached s a (HI_RING_CMD.off r) → v.getLsbD 31 = true →
    startRefused s r = false → ∃ t, exec (.hiRingStart a r v) s = .next t ∧ (hring t r).starting = true ∧
    (hring t r).slotDue = some 0 ∧ devIdx t r = 0 ∧ hostIdx t r = 0 ∧ (hring t r).fetched = false) ∧
  (∀ (s : State) (a : Access) (r : Nat) (v : W32), r < 64 → Reached s a (HI_RING_CMD.off r) → v.getLsbD 30 = true → running s r = true →
    ∃ t, exec (.hiRingStop a r v) s = .next t ∧ stopping t r = true ∧ running t r = true ∧ flag t (HI_RING_CMD.STOP r) = true) ∧
  (∀ (s : State) (a : Access) (f : Nat) (v : W32), f < 8 → Reached s a (HI_KICK.off f) → v.getLsbD 0 = true →
    ∃ t, exec (.hiKick a f v) s = .next t ∧ fnHost t f = { fnHost s f with interval := 0, idle := 0, kick := true } ∧
    ∀ k, k ≠ f → fnHost t k = fnHost s k) ∧
  (∀ (s : State) (f r n : Nat) (bufs : List (Nat × List (List Byte))), f < 8 → flag s (HI_DB_CFG.EN f) = true → (fnHost s f).d3hot = false →
    (fnHost s f).kick = true → doorRings s f = [r] → n < 2 ^ 16 → useWith s r n ≤ ringSize s r →
    ∃ t, exec (.doorbellFetch f true [(r, n)] [] bufs) s = .next t ∧ hostIdx t r = n ∧ (hring t r).fetched = true ∧
    (fnHost t f).kick = false ∧ (fnHost t f).fetchAt = s.now ∧ t.host.mem = s.host.mem) ∧
  (∀ (s : State) (f r n : Nat) (bufs : List (Nat × List (List Byte))), f < 8 → flag s (HI_DB_CFG.EN f) = true → (fnHost s f).d3hot = false →
    (fnHost s f).kick = true → doorRings s f = [r] → n < 2 ^ 16 → ringSize s r < useWith s r n →
    ∃ t, exec (.doorbellFetch f true [(r, n)] [] bufs) s = .next t ∧ running t r = false ∧ flag t (HI_RING_STAT.IDX_ERR r) = true ∧
    devIdx t r = devIdx s r ∧ hostIdx t r = hostIdx s r) ∧
  (∀ (s : State) (c : Command), CmdTaken s c 0 → ∃ t, exec (.nop c) s = .next t ∧ CmdDone s t c 0 1 ∧
    HostBytesKept s t [(statusAt s c, 4)] ∧ RegsKept s t [HI_RING_IDX.off c.ring] ∧
    t = { s with bus := { s.bus with regs := t.bus.regs }, host := { s.host with rings := t.host.rings, mem := t.host.mem } }) ∧
  (∀ (s : State) (c : Command), cmdReady s c = true → listedOpcode c.opcode = false → ∃ t, exec (.unknownOpcode c) s = .next t ∧
    CmdDone s t c 0 2 ∧ flag t (HI_RING_STAT.DESC_ERR c.ring) = true ∧ HostBytesKept s t [(statusAt s c, 4)] ∧
    RegsKept s t (HI_RING_IDX.off c.ring :: HI_RING_STAT.off c.ring :: noticeRegs))

/-- R269, R273, R276 to R278, R402: what the device sends to the host.  The undo of a failed entry is logs 34 and 37; the vector table,
its masks and configuration space are log 15. -/
def Obligations.HostOutput : Prop :=
  (∀ (s : State) (r d : Nat), r < 64 → (fnHost s (ownHostRing s r)).d3hot = false → (hring s r).slotDue = some d → (∀ n, (hring s r).slotAt = some n → n + 400 ≤ s.now) →
    ((hring s r).starting = true → ringKind s r = 0 → ∀ h < 64, (stream s h).asides = []) →
    ∃ t, exec (.completionSlotWrite r none) s = .next t ∧
    mreadBytes 0 t.host.mem (cbBase s (ownHostRing s r) + 8 * r) 8 = leBytes d 8 ∧
    HostBytesKept s t [(cbBase s (ownHostRing s r) + 8 * r, 8)] ∧ (hring t r).slotDue = none ∧ (hring t r).slotAt = some s.now ∧
    (hring t r).raise = ((hring s r).raise || (hring s r).irqDue) ∧ ((hring s r).starting = true → running t r = true)) ∧
  (∀ (s : State) (r d : Nat), r < 64 → (fnHost s (ownHostRing s r)).d3hot = false → (hring s r).slotDue = some d → (∀ n, (hring s r).slotAt = some n → n + 400 ≤ s.now) →
    ∃ t, exec (.completionSlotWrite r (some (cbBase s (ownHostRing s r) + 8 * r))) s = .next t ∧ running t r = false ∧
    (hring t r).slotDue = none ∧ flag t (HI_RING_STAT.DMA_ERR r) = true ∧ flag t (HI_FN_STAT.DMA_ERR (ownHostRing s r)) = true ∧
    t.host.mem = s.host.mem) ∧
  (∀ (s : State) (r d a : Nat) (old : List Byte) (l : List (Nat × List Byte)), r < 64 → (fnHost s (ownHostRing s r)).d3hot = false → (hring s r).slotDue = some d →
    (∀ n, (hring s r).slotAt = some n → n + 400 ≤ s.now) → (hring s r).unack = (a, old) :: l →
    a ≠ cbBase s (ownHostRing s r) + 8 * r → ∃ t, exec (.completionSlotWrite r (some a)) s = .next t ∧ running t r = false ∧
    flag t (HI_RING_STAT.DMA_ERR r) = true ∧ t.host.mem = mwriteBytes 0 s.host.mem a old ∧
    devIdx t r = (devIdx s r + 2 ^ 16 - 1) % 2 ^ 16) ∧
  (∀ (s : State) (r : Nat), (hring s r).raise = true → moderated s r = false → (fnHost s (ownHostRing s r)).msixEn = true →
    vectorMasked s (ownHostRing s r) (fld s (HI_RING_CFG.VEC r)) = false → ∃ t, exec (.msixRaise r) s = .next t ∧
    (hring t r).raise = false ∧ (hring t r).raisedAt = some s.now ∧
    sget (fun _ => 0) (fnHost t (ownHostRing s r)).raised (fld s (HI_RING_CFG.VEC r)) =
      sget (fun _ => 0) (fnHost s (ownHostRing s r)).raised (fld s (HI_RING_CFG.VEC r)) + 1 ∧ t.bus = s.bus) ∧
  (∀ (s : State) (r : Nat), (hring s r).raise = true → moderated s r = true → ∃ t, exec (.msixRaise r) s = .next t ∧
    (hring t r).raise = false ∧ (hring t r).deferred = true ∧ t.host.fns = s.host.fns ∧ t.bus = s.bus) ∧
  (∀ (s : State) (r : Nat), (hring s r).deferred = true → moderated s r = false → (fnHost s (ownHostRing s r)).msixEn = true →
    vectorMasked s (ownHostRing s r) (fld s (HI_RING_CFG.VEC r)) = false → ∃ t, exec (.interruptModExpiry r) s = .next t ∧
    (hring t r).deferred = false ∧ (hring t r).raisedAt = some s.now ∧
    sget (fun _ => 0) (fnHost t (ownHostRing s r)).raised (fld s (HI_RING_CFG.VEC r)) =
      sget (fun _ => 0) (fnHost s (ownHostRing s r)).raised (fld s (HI_RING_CFG.VEC r)) + 1 ∧ t.bus = s.bus) ∧
  (∀ (s : State) (r : Nat), (hring s r).raise = true → moderated s r = false → (fnHost s (ownHostRing s r)).msixEn = true →
    (msixVec s (ownHostRing s r) (fld s (HI_RING_CFG.VEC r))).ctrl.getLsbD 0 = true ∨ (fnHost s (ownHostRing s r)).msixMask = true → ∃ t, exec (.msixRaise r) s = .next t ∧
    (hring t r).raise = false ∧ (msixVec t (ownHostRing s r) (fld s (HI_RING_CFG.VEC r))).pending = true ∧
    (fnHost t (ownHostRing s r)).raised = (fnHost s (ownHostRing s r)).raised ∧ t.bus = s.bus) ∧
  (∀ (s : State) (f r : Nat) (n : Notice) (q : List Notice), f < 8 → (fnHost s f).d3hot = false → (fnHost s f).nq = n :: q → (fnHost s f).dropped = 0 →
    flag s (IR_NCFG.EN f) = true → n.at_ + 1600 * fld s (IR_NCFG.HOLD f) ≤ s.now → fld s (IR_NCFG.RING f) = r → ownHostRing s r = f →
    ringKind s r = 3 → running s r = true → stopping s r = false → (hring s r).fetched = true →
    inUse (devIdx s r) (hostIdx s r) < ringSize s r → ∃ t, exec (.noticeWrite f true) s = .next t ∧ (fnHost t f).nq = q ∧
    mreadBytes 0 t.host.mem (entryAddr s r (devIdx s r)) 32 = noticeBytes n (fld s (IR_NSEQ.SEQ f)) ∧
    HostBytesKept s t [(entryAddr s r (devIdx s r), 32)] ∧ devIdx t r = (devIdx s r + 1) % 2 ^ 16 ∧
    fld t (IR_NSEQ.SEQ f) = (fld s (IR_NSEQ.SEQ f) + 1) % 2 ^ 16) ∧
  (∀ (s : State) (r : Nat), r < 64 → stopping s r = true → ringKind s r = 1 → (hring s r).cmd = none → (fnHost s (ownHostRing s r)).d3hot = false →
    ∃ t, exec (.ringStopped r) s = .next t ∧ running t r = false ∧ stopping t r = false ∧ (hring t r).slotDue = some (devIdx s r) ∧
    (hring t r).unack = (hring s r).unack) ∧
  (∀ (s : State) (a : Access) (f : Nat) (v : W32), a.func = f → f < 8 → barUp s = true → fnExists s f = true →
    ∃ t, exec (.registerWrite a 0x4040B0 v) s = .next t ∧ (fnHost t f).msixEn = v.getLsbD 31 ∧ (fnHost t f).msixMask = v.getLsbD 30 ∧
    (fnHost t f).nq = (fnHost s f).nq ∧ t.bus = s.bus ∧ t.host.mem = s.host.mem) ∧
  (∀ (s : State) (w k : Nat), ∃ t, exec (.pcieHotReset w k) s = .next t ∧ t.pl = s.pl ∧
    (∀ f < 8, fnExists s f = true → (fnHost t f).nq = [] ∧ flag t (HI_DB_CFG.EN f) = false) ∧
    (∀ r < 64, running t r = false) ∧ fld t HI_LINK_STAT.WIDTH = w % 2 ^ 6 ∧ fld t HI_LINK_STAT.SPEED = k % 2 ^ 4)

/-- R282: what a Function Level Reset does and leaves. -/
def Obligations.FunctionLevelReset : Prop :=
  ∀ (s : State) (f : Nat), f < 8 → fnExists s f = true → ∃ t, exec (.functionLevelReset f) s = .next t ∧
    (∀ r < 64, ownHostRing s r = f → running t r = false ∧ stopping t r = false ∧ (hring t r).starting = false ∧
      (hring t r).slotDue = none ∧ (hring t r).irqDue = false ∧ (hring t r).cmd = none) ∧
    (∀ r < 64, ownHostRing s r ≠ f → running t r = running s r ∧ hring t r = hring s r) ∧
    pair64 t (HI_DB_BASE_LO.off f) (HI_DB_BASE_HI.off f) = 0 ∧ pair64 t (HI_CB_BASE_LO.off f) (HI_CB_BASE_HI.off f) = 0 ∧
    flag t (HI_DB_CFG.EN f) = false ∧ (fnHost t f).nq = [] ∧ (fnHost t f).dropped = (fnHost s f).dropped ∧
    (∀ k < 8, fld t (IR_NDROP_CNT.COUNT k) = fld s (IR_NDROP_CNT.COUNT k)) ∧ (∀ k, k ≠ f → fnHost t k = fnHost s k) ∧
    (∀ h < 64, ownHostRing s h ≠ f → stream t h = stream s h) ∧
    t.pl = s.pl ∧ t.inp = s.inp ∧ t.cal = s.cal ∧ t.mus = s.mus ∧ t.fab = { s.fab with dq := t.fab.dq } ∧ t.ar = s.ar ∧ t.ddr = s.ddr ∧
    t.mon = s.mon ∧ t.tp = s.tp ∧ t.play = s.play ∧ t.pr = s.pr ∧ t.mt = s.mt ∧ t.host.mem = s.host.mem ∧
    (∀ g < 64, group t g = { group s g with queue := (group t g).queue, waitWin := (group t g).waitWin, win := (group t g).win }) ∧
    (∀ g < 64, ((group s g).win = none ↔ (group t g).win = none) ∧ (group t g).waitWin.length = (group s g).waitWin.length) ∧
    t.bus = { s.bus with regs := t.bus.regs } ∧
    ∀ o, o / 0x10000 ∉ [3, 8, 11, 14, 15] → reg t o = reg s o

/-- R348, R350 to R352, R354, R357, R358: the converters' commands and executions.  A START of a running converter is log 17. -/
def Obligations.MonitorConverters : Prop :=
  (∀ (s : State) (a : Access) (c : Nat) (v : W32), c < 2 → Reached s a (MA_CMD.off c) → v.getLsbD 29 = true → (conv s c).calEnd = none →
    flag s MA_REF.READY = true → (conv s c).run = false → (conv s c).borrowAt = none →
    ∃ t, exec (.maSelfcal a c v) s = .next t ∧ (conv t c).calEnd = some (s.now + 4960000) ∧ flag t (MA_CMD.SELFCAL c) = true ∧
    conv t (1 - c) = conv s (1 - c)) ∧
  (∀ (s : State) (c n : Nat) (ofs : BitVec 10) (gain : BitVec 16), c < 2 → (conv s c).calEnd = some n → n ≤ s.now →
    ∃ t, exec (.maSelfcalComplete c ofs gain) s = .next t ∧ (conv t c).calEnd = none ∧ fld t (MA_CAL.OFS c) = ofs.toNat ∧
    fld t (MA_CAL.GAIN c) = gain.toNat ∧ flag t (MA_STAT.CAL_DONE c) = true ∧ flag t (MA_CMD.SELFCAL c) = false) ∧
  (∀ (s : State) (a : Access) (c : Nat) (v : W32), c < 2 → Reached s a (MA_CMD.off c) → v.getLsbD 31 = true → flag s MA_REF.READY = true →
    flag s (MA_STAT.CAL_DONE c) = true → ∃ t, exec (.maStart a c v) s = .next t ∧ (conv t c).run = true ∧ (conv t c).prev = none ∧
    (conv t c).rep = 0 ∧ reg t (MA_POS.off c) = 0) ∧
  (∀ (s : State) (a : Access) (c : Nat) (v : W32), c < 2 → Reached s a (MA_CMD.off c) → v.getLsbD 30 = true →
    ∃ t, exec (.maStop a c v) s = .next t ∧ (conv t c).run = false ∧ (conv t c).startAt = none) ∧
  (∀ (s : State) (xs : List Int), maDue s 0 = true → (conv s 0).role = .own → (conv s 1).startAt = none →
    xs.length = 2 ^ (maCur s 0).avg → (∀ x ∈ xs, -2048 ≤ x ∧ x ≤ 2047) → fld s (MA_ACC_CFG.LEN (maCur s 0).tgt) = 0 → (acc s (maCur s 0).tgt).count + 1 < 2 ^ 32 →
    ∃ t, exec (.maExecutionEnd xs []) s = .next t ∧
    (acc t (maCur s 0).tgt).sum = (acc s (maCur s 0).tgt).sum + maValue s 0 (maCur s 0).avg xs ∧
    (acc t (maCur s 0).tgt).count = (acc s (maCur s 0).tgt).count + 1 ∧
    (acc t (maCur s 0).tgt).blank = min ((acc s (maCur s 0).tgt).blank + blanking (conv s 0).prev (maCur s 0)) (2 ^ 32 - 1) ∧
    ∀ n, n ≠ (maCur s 0).tgt → acc t n = acc s n) ∧
  (∀ (s : State) (a : Access) (n : Nat) (v : W32), n < 128 → Reached s a (MA_ACC_CFG.off n) → v.getLsbD 31 = true →
    ∃ t, exec (.maAccSnap a n v) s = .next t ∧ acc t n = {} ∧ fld t (MA_ACC_CNT.VALUE n) = (acc s n).count % 2 ^ 32 ∧
    fld t (MA_ACC_BLANK.VALUE n) = (acc s n).blank % 2 ^ 32 ∧ fld t (MA_ACC_MINMAX.MIN n) = wrapInt 16 (acc s n).min ∧
    fld t (MA_ACC_SUM_HI.SEQ n) = (fld s (MA_ACC_SUM_HI.SEQ n) + 1) % 2 ^ 8 ∧ ∀ m, m ≠ n → acc t m = acc s m) ∧
  (∀ (s : State) (a : Access) (n : Nat) (v : W32), n < 128 → Reached s a (MA_ACC_CFG.off n) → v.getLsbD 30 = true →
    ∃ t, exec (.maAccClr a n v) s = .next t ∧ acc t n = {} ∧ (∀ m, m ≠ n → acc t m = acc s m) ∧
    RegsKept s t [MA_ACC_CFG.off n, GL_STALL_MAX.off]) ∧
  (∀ (s : State) (a : Access) (n : Nat) (v : W32), n < 64 → Reached s a (MA_WIN_CFG.off n) → v.getLsbD 31 = true →
    ∃ t, exec (.maWinEnable a n v) s = .next t ∧ winOut t n = false ∧ flag t (MA_WIN_CFG.EN n) = true ∧
    ∀ m, m ≠ n → winOut t m = winOut s m) ∧
  (∀ (s : State) (a : Access) (c : Nat) (v : W32), c < 2 → Reached s a (MA_CMD.off c) → v.getLsbD 29 = true →
    (flag s MA_REF.READY = false ∨ (conv s c).run = true ∨ (conv s c).borrowAt.isSome = true) →
    ∃ t, exec (.maSelfcal a c v) s = .next t ∧ flag t (MA_STAT.CAL_REF c) = true ∧ t.mon = s.mon)

/-- R356: the reference buffer that both converters share. -/
def Obligations.ReferenceBuffer : Prop :=
  (∀ (s : State) (a : Access) (v : W32), Reached s a MA_REF.off → flag s MA_REF.EN = false → v.getLsbD 31 = true →
    ∃ t, exec (.maRefEnable a v) s = .next t ∧ flag t MA_REF.EN = true ∧ t.mon = { s.mon with refAt := some s.now } ∧
    flag t MA_REF.READY = flag s MA_REF.READY) ∧
  (∀ (s : State) (n : Nat), s.mon.refAt = some n → n + 3200000 ≤ s.now → ∃ t, exec .maRefReady s = .next t ∧
    flag t MA_REF.READY = true ∧ t.mon = { s.mon with refAt := none } ∧ RegsKept s t [MA_REF.off]) ∧
  (∀ (s : State) (n : Nat), s.mon.refAt = some n → s.now < n + 3200000 → exec .maRefReady s = .next s) ∧
  (∀ (s : State) (a : Access) (v : W32), Reached s a MA_REF.off → flag s MA_REF.EN = true → v.getLsbD 31 = false →
    ∃ t, exec (.maRefEnable a v) s = .next t ∧ flag t MA_REF.READY = false ∧ flag t MA_REF.EN = false ∧ t.mon.refAt = none ∧
    ∀ c < 2, (conv t c).run = false ∧ ((conv s c).run = true → (conv t c).startAt = none ∧ flag t (MA_STAT.REF_LOST c) = true ∧
      (flag s (MA_CFG.NOTICE_EN c) = true → (fld s (IR_NMASK.BLOCK 0)).testBit 0x12 = true → (fnHost s 0).dropped = 0 →
        (fnHost s 0).nq.length < 255 → ∃ n ∈ (fnHost t 0).nq, n.ty = 0x1203 ∧ n.source = c ∧ n.aux = 2 ∧ n.t = t64 s)))

/-- R360, R362 to R365: link and heartbeats.  What a drop gives up, a narrower link and the heartbeat's word on the alignment are read
as log 23 says. -/
def Obligations.CastLink : Prop :=
  (∀ (s : State) (n lat : Nat) (p : Identity), pairFuse s = true → n ≠ 0 → s.mt.inReset = false → s.mt.asleep = false →
    ∃ t, exec (.castLinkTrain n lat p) s = .next t ∧ flag t PR_STAT.LINK_UP = true ∧ t.pr.partner = some p ∧
    fld t PR_LINK.WIDTH = (if 4 ≤ n then 4 else if 2 ≤ n then 2 else 1) ∧ fld t PR_LINK.LAT = min lat 255 ∧
    (mismatch s p = true → flag t PR_STAT.MISMATCH = true ∧ fld t PR_STAT.ROLE = (if fld s PR_STAT.ROLE = 4 then 4 else 0)) ∧
    (mismatch s p = false → fld t PR_STAT.ROLE = fld s PR_STAT.ROLE)) ∧
  (∀ (s : State) (n : Nat), flag s PR_STAT.LINK_UP = true → ∃ t, exec (.castLinkDrop n) s = .next t ∧
    flag t PR_STAT.LINK_DOWN = true ∧ flag t IR_ALARM_STAT.PAIR = true ∧ flag t PR_STAT.LINK_UP = decide (n ≠ 0) ∧
    fld t PR_LINK.WIDTH = (if 2 ≤ n then 2 else n) ∧
    (n ≠ 0 → t.pr = s.pr) ∧
    (n = 0 → t.pr.linkQ = [] ∧ t.pr.castAt = none ∧ t.pr.castNext = none ∧ t.pr.partnerAligns = false ∧ t.pr.hbAt = s.pr.hbAt ∧
      t.pr.resync = (s.pr.resync || (s.pr.castAt.isSome && s.pr.castFull) || s.pr.linkQ.any fun m => match m with
        | .castEnd _ full => full
        | _ => false))) ∧
  (∀ s : State, flag s PR_STAT.LINK_UP = true → ∃ t, exec .linkRetransmit s = .next t ∧ OnlyRegs s t [PR_RETX_CNT.off] ∧
    fld t PR_RETX_CNT.COUNT = min (fld s PR_RETX_CNT.COUNT + 1) (2 ^ 32 - 1)) ∧
  (∀ s : State, pairFuse s = true → flag s PR_STAT.LINK_UP = true → (∀ n h, s.pr.hbSent = some (n, h) → hbIndex n < hbIndex s.now) →
    ∃ t h, exec .heartbeatSend s = .next t ∧ t = { s with pr := { s.pr with hbSent := some (s.now, h), linkQ := s.pr.linkQ ++ [.heartbeat h] } } ∧ h.t = t64 s ∧
    h.role = (if ready s then 2 else fld s PR_STAT.ROLE) ∧ h.castSeq = fld s PR_CAST_STAT.SEQ ∧ h.yields = false ∧
    h.tookOver = false ∧ h.aligning = s.pr.align.isSome) ∧
  (∀ (s : State) (m : LinkMsg), flag s PR_STAT.LINK_UP = true → s.pr.linkBusy ≤ s.now → nextMsg s.pr.linkQ = some m →
    (linkStep s).pr.linkQ = s.pr.linkQ.erase m ∧ (linkStep s).pr.linkBusy = s.now + msgTime s m ∧ ∃ u, (linkStep s).pr.linkSent = some (s.now, u) ∧
    (∀ h, m = .heartbeat h → ∃ k, u = .heartbeat k ∧ k.t = t64 s ∧ k.role = (if ready s then 2 else fld s PR_STAT.ROLE) ∧
      k.castSeq = fld s PR_CAST_STAT.SEQ) ∧ (msgClass m ≠ 0 → u = m)) ∧
  (∀ (s : State) (h : Heartbeat), pairFuse s = true → flag s PR_STAT.LINK_UP = true → fld s PR_STAT.ROLE ≠ 3 → h.yields = false →
    ∃ t, exec (.heartbeatReceive h) s = .next t ∧ t.pr.hbAt = some s.now ∧ t.pr.activeSeen = decide (h.role = 3) ∧
    t.pr.hbLost = (if h.role ≠ 3 ∧ s.pr.hbLost = 2 then 2 else 0) ∧ t.pr.hbOff = some (heartbeatOffset s h) ∧
    t.pr.partnerAligns = h.aligning ∧
    (isStandby s = true → hbSkewed s h = true → flag t PR_STAT.ALIGNED = false) ∧
    fld t PR_STAT.ROLE = fld s PR_STAT.ROLE) ∧
  (∀ (s : State) (n : Nat), s.pr.hbAt = some n → fld s PR_STAT.ROLE ≠ 0 → n + 3200 ≤ s.now → s.pr.hbLost = 0 →
    ∃ t, exec .heartbeatLoss s = .next t ∧ t.pr = { s.pr with hbLost := 1 } ∧ flag t PR_STAT.HB_LOST = true ∧
    (isStandby s = true → flag s PR_STAT.OWN_IN = true → flag t PR_STAT.SPLIT = true) ∧ fld t PR_STAT.ROLE = fld s PR_STAT.ROLE) ∧
  (∀ (s : State) (b : Bool), flag s PR_STAT.OWN_IN ≠ b → ∃ t, exec (.ownInChange b) s = .next t ∧ flag t PR_STAT.OWN_IN = b ∧
    t.pr = { s.pr with ownSince := s.now } ∧
    (isStandby s = true → s.pr.hbLost ≠ 0 → b = true → flag t PR_STAT.SPLIT = true ∧ flag t IR_ALARM_STAT.PAIR = true) ∧
    (¬(isStandby s = true ∧ s.pr.hbLost ≠ 0 ∧ b = true) → RegsKept s t [PR_STAT.off] ∧ flag t PR_STAT.SPLIT = flag s PR_STAT.SPLIT) ∧ fld t PR_STAT.ROLE = fld s PR_STAT.ROLE)

/-- R365 to R367, R369, R382: who is active, and the Casts.  The Cast's way through the link's queue and its being cut off are log 23. -/
def Obligations.TakeOverAndCasts : Prop :=
  (∀ s : State, ready s = true → s.pr.hbLost ≠ 0 → ownLow s = true → ∃ t, exec .takeover s = .next t ∧ fld t PR_STAT.ROLE = 3 ∧
    flag t PR_STAT.TAKEOVER = true ∧ t.pr.forced = decide (s.pr.hbLost = 3) ∧
    fld t PR_TAKEOVER_CNT.COUNT = min (fld s PR_TAKEOVER_CNT.COUNT + 1) (2 ^ 32 - 1) ∧
    pair64 t PR_TAKE_T_LO.off PR_TAKE_T_HI.off = s.pl.t.toNat % 2 ^ 64) ∧
  (∀ (s : State) (a : Access), reaches s a = true → a.func = 0 → rights s 0 = true → guardPair s 19 = none → isStandby s = true →
    flag s PR_STAT.ALIGNED = true → ∃ t, exec (.prForce a 1) s = .next t ∧ fld t PR_STAT.ROLE = 3 ∧ t.pr.forced = true ∧
    flag t PR_STAT.TAKEOVER = true ∧ pair64 t PR_TAKE_T_LO.off PR_TAKE_T_HI.off = s.pl.t.toNat % 2 ^ 64) ∧
  (∀ (s : State) (a : Access) (v : W32), Reached s a PR_CMD.off → v.getLsbD 29 = true → fld s PR_STAT.ROLE = 3 →
    ∃ t, exec (.prYield a v) s = .next t ∧ fld t PR_STAT.ROLE = 1 ∧ t.pr.forced = false ∧ t.pr.elected = none ∧ t.pr.castAt = none ∧ t.pr.castNext = none ∧ t.pr.castOk = false) ∧
  (∀ s : State, fld s PR_STAT.ROLE = 3 → flag s PR_STAT.LINK_UP = true → s.pr.castAt = none →
    (∀ n, s.pr.castLast = some n → n + castPeriod s ≤ s.now) → exec .castStart s =
      .next { s with pr := { s.pr with
        castAt := some s.now, castLast := some s.now, castFull := s.pr.resync,
        resync := false, castNext := some (castImage s),
        linkQ := s.pr.linkQ ++ (castLines s (s.pr.resync || s.pr.castPrev.isNone)).map .line } }) ∧
  (∀ (s : State) (n : Nat), s.pr.castAt = some n → linesWait s = false → fld s PR_STAT.ROLE = 3 → ∃ t, exec .castEnd s = .next t ∧
    t.pr.castPrev = s.pr.castNext ∧ t.pr.castFull = (if t.pr.castAt = none then s.pr.castFull else s.pr.resync) ∧
    .castEnd ((fld s PR_CAST_STAT.SEQ + 1) % 2 ^ 16) s.pr.castFull ∈ t.pr.linkQ ∧ fld t PR_CAST_CNT.COUNT = min (fld s PR_CAST_CNT.COUNT + 1) (2 ^ 32 - 1) ∧
    fld t PR_CAST_STAT.SEQ = (fld s PR_CAST_STAT.SEQ + 1) % 2 ^ 16 ∧
    fld t PR_CAST_STAT.AGE = min ((s.now - n) / 1600) 65535) ∧
  (∀ (s : State) (n : Nat), s.pr.castAt = some n → linesWait s = true ∨ fld s PR_STAT.ROLE ≠ 3 → exec .castEnd s = .next s) ∧
  (∀ (s : State) (x : Cast), isStandby s = true → flag s PR_STAT.LINK_UP = true → x.engines = [] →
    ∃ t, exec (.castEndReceive x) s = .next t ∧ t.pr.castApplied = some s.now ∧ t.pr.castOk = (s.pr.castOk || x.full) ∧
    fld t PR_CAST_STAT.SEQ = x.seq % 2 ^ 16 ∧ fld t PR_CAST_CNT.COUNT = min (fld s PR_CAST_CNT.COUNT + 1) (2 ^ 32 - 1) ∧
    t.fab = s.fab) ∧
  (∀ (s : State) (x : Cast) (ce : CastEngine), isStandby s = true → flag s PR_STAT.LINK_UP = true → x.engines = [ce] →
    heldHalted s ce.e = true → ce.e < nEngines s → ∃ t, exec (.castEndReceive x) s = .next t ∧ (engine t ce.e).pc = ce.pc % 4096 ∧
    (engine t ce.e).st = (engine s ce.e).st ∧ ∀ e, e ≠ ce.e → engine t e = engine s e) ∧
  (∀ (s : State) (a : Access) (v : W32), Reached s a PR_CMD.off → v.getLsbD 28 = true → ∃ t, exec (.prResync a v) s = .next t ∧
    t.pr = { s.pr with resync := true, castOk := false })

/-- R368, R372, R373, R375, R376, R378, R379: alignment, mirrored events, cuts.  When the active's ADJ comes into force, the stamps' way
over the link and the event PllLoss are log 23. -/
def Obligations.AlignmentAndSplicing : Prop :=
  (∀ (s : State) (a : Access) (v : W32) (adj : BitVec 48), Reached s a PR_CMD.off → v.getLsbD 31 = true → s.pr.align = none →
    isStandby s = true → flag s PR_STAT.LINK_UP = true → flag s PL_STAT.EMITTED = false → flag s PL_CTRL.ORIGIN_WAIT = true →
    s.pr.activeSeen = true → ∃ t, exec (.prAlign a v adj) s = .next t ∧ t.pr.align = some ⟨false, false, 0, s.now, []⟩ ∧
    t.pl = { s.pl with adjReq := some (adj, tNow s + 2 ^ 24) } ∧ flag t PR_CMD.ALIGN = true) ∧
  (∀ (s : State) (x : AlignRun) (act : List Nat) (d : Int) (n y : Nat), s.pr.align = some x → x.measure = false → x.residual = false →
    pulsesDone s x = true → measured s x.own act = (some d, n) → Int.ofNat (s.pl.t.toNat * 2 ^ 40 + s.pl.f.toNat) + d * 2 ^ 32 = Int.ofNat y →
    flag s PL_STAT.EMITTED = false → s.pl.originDone = false → s.pl.t.toNat ≤ y / 2 ^ 40 → y < 2 ^ 144 →
    ∃ t, exec (.alignOffsetDone ⟨act⟩) s = .next t ∧ t.pl.t.toNat * 2 ^ 40 + t.pl.f.toNat = y ∧ t.pl.originDone = true ∧
    flag t PL_STAT.ORIGIN_LOADED = true ∧ t.pr.align = some { x with residual := true, pairs := n, at_ := s.now, own := [] }) ∧
  (∀ (s : State) (x : AlignRun) (act : List Nat) (d : Int) (n : Nat), s.pr.align = some x → x.residual = true →
    pulsesDone s x = true → measured s x.own act = (some d, n) → ∃ t, exec (.alignComplete ⟨act⟩) s = .next t ∧ flag t PR_STAT.ALIGNED = true ∧ t.pr.align = none ∧
    fld t PR_ALIGN_STAT.OUTCOME = 1 ∧ fld t PR_ALIGN_STAT.PAIRS = min n 65535 ∧ t.pl = s.pl ∧
    reg t PR_ALIGN_RES.off = BitVec.ofInt 32 (max (-(2 ^ 31)) (min (2 ^ 31 - 1) d))) ∧
  (∀ (s : State) (n further : Nat) (taps : Taps) (x : AlignRun), n = alignLane s → n < nLanes s → cellsOn s = true → s.pl.running = true →
    s.pl.edge ≠ 0 → s.pr.align = some x → ∃ t, exec (.comparatorTransition n false taps further) s = .next t ∧ t.pr.linkQ = s.pr.linkQ ∧
    t.pr.align = some { x with own := if x.own.length < alignPulses s then x.own ++ [stampOf s n (rawCode taps true (lane s n).level)]
      else x.own }) ∧
  (∀ (s : State) (n further : Nat) (taps : Taps), n = alignLane s → n < nLanes s → cellsOn s = true → s.pl.running = true →
    s.pl.edge ≠ 0 → s.pr.align = none → fld s PR_STAT.ROLE = 3 → flag s PR_STAT.LINK_UP = true → s.pr.partnerAligns = true →
    ∃ t, exec (.comparatorTransition n false taps further) s = .next t ∧ t.pr.align = none ∧
    t.pr.linkQ = s.pr.linkQ ++ [.stamp (stampOf s n (rawCode taps true (lane s n).level))]) ∧
  (∀ (s : State) (a : Access) (v : W32), Reached s a PR_CMD.off → v.getLsbD 30 = true → s.pr.align = none → isStandby s = true →
    flag s PR_STAT.ALIGNED = true → ∃ t, exec (.prMeasure a v) s = .next t ∧ t.pr.align = some ⟨true, false, 0, s.now, []⟩ ∧
    flag t PR_CMD.MEASURE = true ∧ t.pl = s.pl) ∧
  (∀ (s : State) (x : AlignRun) (act : List Nat) (d : Int) (n : Nat), s.pr.align = some x → x.measure = true →
    pulsesDone s x = true → measured s x.own act = (some d, n) → ∃ t, exec (.measureComplete ⟨act⟩) s = .next t ∧ t.pr.align = none ∧ t.pl = s.pl ∧
    fld t PR_ALIGN_STAT.OUTCOME = 1 ∧ flag t PR_STAT.ALIGNED = flag s PR_STAT.ALIGNED ∧
    reg t PR_ALIGN_RES.off = BitVec.ofInt 32 (max (-(2 ^ 31)) (min (2 ^ 31 - 1) d))) ∧
  (∀ (s : State) (x : AlignRun), s.pr.align = some x → x.at_ + 1600000000 ≤ s.now → ∃ t, exec .alignPulseTimeout s = .next t ∧
    t.pr.align = none ∧ fld t PR_ALIGN_STAT.OUTCOME = 3 ∧ flag t PR_CMD.ALIGN = false ∧ flag t PR_CMD.MEASURE = false ∧ t.pl = s.pl) ∧
  (∀ s : State, isStandby s = true → flag s PR_STAT.LINK_UP = true →
    (∀ off v, exec (.pairEventReceive (.maq off v)) s = .next (setMaq s off v)) ∧
    (∀ m n, ∃ t, exec (.pairEventReceive (.strobe m n)) s = .next t ∧
      t = { s with pr := { s.pr with strobes := s.pr.strobes ++ [⟨m, n, decide (n ≤ tNow s), s.pl.edge⟩] } }) ∧
    (∀ v n, ∃ t, exec (.pairEventReceive (.adj v n)) s = .next t ∧ t.pl = { s.pl with adjReq := some (v, n) } ∧
      t.pr.activeAdj = some v ∧ (n ≤ lastEvenT s → flag t PR_STAT.ALIGNED = false) ∧
      (lastEvenT s < n → flag t PR_STAT.ALIGNED = flag s PR_STAT.ALIGNED)) ∧
    (∀ g, exec (.pairEventReceive (.veto g)) s = .next { s with fab := { s.fab with decs := insertDec ⟨eclk s, 256, .veto g⟩ s.fab.decs } }) ∧
    (∀ r, exec (.pairEventReceive (.mark r)) s = .next { s with fab := { s.fab with decs := insertDec ⟨eclk s, 256, .mark r⟩ s.fab.decs } }) ∧
    (∀ u n, exec (.pairEventReceive (.muarm u n)) s = .next { s with fab := { s.fab with decs := insertDec ⟨eclk s, 256, .muarm u n⟩ s.fab.decs } }) ∧
    (∀ c b n, ∃ t, exec (.pairEventReceive (.gate c b n)) s = .next t ∧ t.fab.decs = insertDec ⟨eclk s, 256, .gate c b n⟩ s.fab.decs ∧
      flag t (CC_GATE_STAT.OPEN c) = b ∧ (cluster t c).gateT = n) ∧
    (∃ t, exec (.pairEventReceive .pllLoss) s = .next t ∧ flag t PR_STAT.ALIGNED = false ∧ t.pl = s.pl ∧ t.fab = s.fab)) ∧
  (∀ s : State, isStandby s = true → s.pr.spliceAt < tNow s / 2 ^ 26 → ∃ t, exec .spliceWpRecord s = .next t ∧
    t.pr.spliceAt = tNow s / 2 ^ 26 ∧ ∀ r, spliceOf t r = if r ∈ spliceRings s then
      ((tNow s / 2 ^ 26, (cring s r).wp) :: spliceOf s r).take 256 else spliceOf s r) ∧
  (∀ (s : State) (g c : Nat), fld s PR_STAT.ROLE = 3 → g < nGroups s → (exportedGroups s).contains g = true →
    c = quiet (max 1 (fld s PR_CFG.CUT_GUARD)) ((cutOf s g).last + 2 ^ 16) (cutOf s g).times →
    c + max 1 (fld s PR_CFG.CUT_GUARD) < progress s g → (cutOf s g).done = none → fld s (LG_SEQ.SEQ g) ≠ 0 →
    ∃ t, exec (.cutPlace g) s = .next t ∧ cutOf t g = { cutOf s g with
      last := c, times := (cutOf s g).times.filter (fun x => c < x), cuts := (cutOf s g).cuts ++ [(c, fld s (LG_SEQ.SEQ g))] } ∧
    ∀ k, k ≠ g → cutOf t k = cutOf s k)

/-- R17, R203 to R206, R209: a tile crosses the fabric.  The credits' phase and a tile's crossing cycle are read as log 13 says. -/
def Obligations.FabricPath : Prop :=
  (∀ (s : State) (c : Nat), codePresent s c = true → (source s c).earned < creditsDue s → ∃ t, exec (.fabricCreditEarn c) s = .next t ∧
    (source s c).earned < (source t c).earned ∧ (source t c).entry = (source s c).entry ∧
    (sourceWaits s c = false → (source t c).earned = (source s c).earned + 1 ∧ (source t c).credits = min 8 ((source s c).credits + 1) ∧
      t = { s with fab := { s.fab with src := t.fab.src } })) ∧
  (∀ (s : State) (c : Nat), creditsDue s ≤ (source s c).earned → exec (.fabricCreditEarn c) s = .next s) ∧
  (∀ (s : State) (c : Nat) (x : Tile) (r : List Tile), (source s c).crossing = x :: r → (source s c).entry.length < 8 →
    ∃ t, exec (.fabricEntry c) s = .next t ∧ (source t c).crossing = r ∧ (source t c).entry = (source s c).entry ++ [(x, fclk s)] ∧
    (source t c).credits = (source s c).credits ∧ (∀ d, d ≠ c → source t d = source s d) ∧
    t = { s with fab := { s.fab with src := t.fab.src } }) ∧
  (∀ (s : State) (c : Nat) (x : Tile) (k : Nat) (r : List (Tile × Nat)), c < 0x54 → s.fab.grantCyc ≠ some (fclk s) →
    (source s c).entry = (x, k) :: r →
    (∀ d < 0x54, ∀ y j q, (source s d).entry = (y, j) :: q → k < j ∨ (k = j ∧ c ≤ d)) →
    ∃ t dst l, exec .fabricGrant s = .next t ∧ t.fab.grantCyc = some (fclk s) ∧
    t.fab.pipe = s.fab.pipe ++ (c, x, fclk s, dst) :: l ∧ l.length ≤ 1 ∧
    (∀ j < 16, dst.testBit j = (decide (j < nClusters s) && clusterWants s c j)) ∧
    ((∀ d < 0x54, (if d = c then r else (source s d).entry) = []) → l = []) ∧
    (∀ (c₂ : Nat) (x₂ : Tile) (k₂ : Nat) (r₂ : List (Tile × Nat)), c₂ < 0x54 → (if c₂ = c then r else (source s c₂).entry) = (x₂, k₂) :: r₂ →
      (∀ d < 0x54, ∀ y j q, (if d = c then r else (source s d).entry) = (y, j) :: q → k₂ < j ∨ (k₂ = j ∧ c₂ ≤ d)) →
      ∃ dst₂, l = [(c₂, x₂, fclk s, dst₂)] ∧ ∀ j < 16, dst₂.testBit j = (decide (j < nClusters s) && clusterWants s c₂ j)) ∧
    pair64 t CC_FAB_GRANT_LO.off CC_FAB_GRANT_HI.off =
      (pair64 s CC_FAB_GRANT_LO.off CC_FAB_GRANT_HI.off + 1 + l.length) % 2 ^ 64) ∧
  (∀ (s : State), s.fab.grantCyc = some (fclk s) → exec .fabricGrant s = .next s) ∧
  (∀ (s : State) (code k dst : Nat) (x : Tile) (r : List (Nat × Tile × Nat × Nat)), s.fab.pipe = (code, x, k, dst) :: r →
    k + 12 ≤ fclk s → code < 0x54 → ∃ t, exec .fabricDelivery s = .next t ∧ t.fab.pipe = r ∧
    t.fab.muIn = (if code < 0x40 then s.fab.muIn ++ [x] else s.fab.muIn) ∧
    ∀ c < 16,
      (cluster t c).inBuf = (if dst.testBit c ∧ inputOcc s c < 32 then (cluster s c).inBuf ++ [(x, fclk s + 1 + inputOcc s c)]
        else (cluster s c).inBuf) ∧
      fld t (CC_IN_DROP_CNT.COUNT c) = (if dst.testBit c ∧ 32 ≤ inputOcc s c
        then sat 32 (fld s (CC_IN_DROP_CNT.COUNT c)) 1 else fld s (CC_IN_DROP_CNT.COUNT c)))

/-- R23, R136, R137, R210, R226, R231, R239: the read side of a queue.  The losses owed again are log 19, the words of a reservation
log 10. -/
def Obligations.QueueRead : Prop :=
  ∀ (s : State) (q code : Nat) (d : Dest), code = (if q < 64 then q else dqCode (q - 64)) → q < 84 →
    (∀ (pre post : List QEntry) (e : QEntry), destReady s d = true → nextSource s d = some code →
      queue s code = pre ++ e :: post → (∀ x ∈ pre, d ∉ x.left) → d ∈ e.left →
      ∃ t, exec (.groupQueueRead q d) s = .next t ∧
      (match d with
       | .ring r =>
         (flag s (CR_STAT.STALLED r) = false ∨ isFill e.item = true →
           cring t r = { cring s r with inbox := (cring s r).inbox ++ [⟨code, sealItem e.item⟩], takeCyc := some (fclk s),
                                        rr := (code + 1) % 0x54 }) ∧
         (flag s (CR_STAT.STALLED r) = true → isFill e.item = false → (cring t r).inbox = (cring s r).inbox ∧
           (cring t r).takeCyc = some (fclk s) ∧ (cring t r).rr = (code + 1) % 0x54 ∧
           dropsOf (cring t r) code = dropsOf (cring s r) code + (match e.item with
             | .tile x _ => 1 + owed x
             | .vetoDrop n _ => n
             | _ => 0) ∧
           fld t (CR_DROP_CNT.COUNT r) = (match e.item with
             | .tile _ _ => sat 32 (fld s (CR_DROP_CNT.COUNT r)) 1
             | _ => fld s (CR_DROP_CNT.COUNT r)))
       | .stream h => stream t h = { stream s h with live := some ⟨code, sealItem e.item⟩, rr := (code + 1) % 0x54 }) ∧
      t.lg.readPort = portWords (some (sealItem e.item)) ∧
      queue t code = pre ++ (if ∀ x ∈ e.left, x = d then []
        else [{ item := sealItem e.item, left := e.left.filter (· ≠ d), taken := true }]) ++ post ∧
      ∀ c, c ≠ code → queue t c = queue s c) ∧
    (destReady s d = true → codePresent s code = true → (∀ x ∈ queue s code, d ∉ x.left) →
      exec (.groupQueueRead q d) s = .next { s with lg := { s.lg with readPort := List.replicate 9 0 } }) ∧
    (srcReady s d code = true → nextSource s d ≠ some code → exec (.groupQueueRead q d) s = .next s)

/-- R181 to R183, R195, R203, R206, R207, R210 and the maps of CC_IN_OCC, CC_DQ_OCC and CC_FAB_WAIT_MAX.  The place of an owed loss gap
record and a tile's crossing cycle are log 13. -/
def Obligations.ClusterPaths : Prop :=
  (∀ (s : State) (f c w : Nat), c < 16 → derived s f (CC_IN_OCC.off c) w =
    put w (CC_IN_OCC.OCC c) ((cluster s c).inBuf.filter fun x => decide (fclk s < x.2)).length) ∧
  (∀ (s : State) (c k : Nat) (x : Tile) (r : List (Tile × Nat)), c < 16 → (cluster s c).inBuf = (x, k) :: r →
    unpackDue s k = true → (cluster s c).unpCyc ≠ some (eclk s) → failsCheck s x = false →
    tileInjected x = false → ∃ t, exec (.clusterUnpack c) s = .next t ∧ (cluster t c).inBuf = r ∧
    ∀ e, (e / 16 ≠ c ∨ active (engine s e) = false → engine t e = engine s e) ∧
      ∀ p < 2, e / 16 = c → active (engine s e) = true → (portOf (engine s e) p).q.length ≤ 64 →
        (portOf (engine t e) p).q =
          ((portOf (engine s e) p).q ++ x.slots.filter fun w => admits (portOf (engine s e) p) (tileGroup x) w).take 64) ∧
  (∀ (s : State) (c k : Nat) (x : Tile) (r : List (Tile × Nat)), c < 16 → (cluster s c).inBuf = (x, k) :: r →
    unpackDue s k = true → (cluster s c).unpCyc ≠ some (eclk s) → failsCheck s x = true →
    ∃ t, exec (.clusterUnpack c) s = .next t ∧ (cluster t c).inBuf = r ∧ t.fab.engines = s.fab.engines ∧
    flag t (CC_STAT.CORRUPT c) = true ∧ fld t (CC_CORRUPT_CNT.COUNT c) = sat 32 (fld s (CC_CORRUPT_CNT.COUNT c)) 1) ∧
  (∀ (s : State) (c : Nat) (w : W64) (r : List W64), c < nClusters s → (cluster s c).tile.length < 6 →
    (cluster s c).placed ≠ some (eclk s) → (cluster s c).due = w :: r → ∃ t, exec (.clusterResultTake c) s = .next t ∧
    (cluster t c).tile = (cluster s c).tile ++ [freshEpoch s w] ∧ (cluster t c).due = r ∧ (cluster t c).placed = some (eclk s) ∧
    t = { s with fab := { s.fab with clusters := t.fab.clusters } }) ∧
  (∀ (s : State) (c k e : Nat) (w : W64) (r : List (W64 × Nat)), c < nClusters s → (cluster s c).tile.length < 6 →
    (cluster s c).placed ≠ some (eclk s) → (cluster s c).due = [] → (cluster s c).lead = none → (cluster s c).qGap = 0 →
    (cluster s c).marks = [] → (cluster s c).started = true → (cluster s c).epoch = some (tNow s / 2 ^ 47) →
    k < 16 → e = 16 * c + ((cluster s c).rr + k) % 16 → (∀ j < k, (engine s (16 * c + ((cluster s c).rr + j) % 16)).rq = []) →
    (engine s e).rq = (w, 0) :: r → ∃ t, exec (.clusterResultTake c) s = .next t ∧
    (cluster t c).tile = (cluster s c).tile ++ [w] ∧ engine t e = { engine s e with rq := r } ∧ (cluster t c).rr = (e + 1) % 16 ∧
    t = { s with fab := { s.fab with clusters := t.fab.clusters, engines := t.fab.engines } }) ∧
  (∀ (s : State) (c : Nat), c < 16 → (cluster s c).tile ≠ [] → (cluster s c).tile.length ≤ 7 →
    ((cluster s c).qGap ≠ 0 → (cluster s c).tile.length ≤ 5) → (cluster s c).cont ≤ (cluster s c).tile.length → (cluster s c).tileCyc + 10 ≤ eclk s → maySeal s (0x40 + c) = true →
    ∃ t, exec (.clusterHoldTimeout c) s = .next t ∧ (cluster t c).tile = [] ∧ (cluster t c).qGap = 0 ∧
    (source t (0x40 + c)).credits =
      min 8 ((source s (0x40 + c)).credits + (creditsDue s - (source s (0x40 + c)).earned)) - 1 ∧
    (source t (0x40 + c)).crossing = (source s (0x40 + c)).crossing ++
      [dataTile (0x40 + c) (fld s (CC_RES_SEQ.SEQ c)) ((cluster s c).tile.take (cluster s c).cont ++
        (if (cluster s c).qGap = 0 then [] else [gapWord true false 1 0 (cluster s c).qGap, epochWord (tNow s)]) ++
        (cluster s c).tile.drop (cluster s c).cont)] ∧
    fld t (CC_RES_SEQ.SEQ c) = (fld s (CC_RES_SEQ.SEQ c) + 1) % 2 ^ 16 ∧ RegsKept s t [CC_RES_SEQ.off c, PL_STAT.off]) ∧
  (∀ (s : State) (a : Access) (c : Nat) (v : W32), Reached s a (CC_IN_OCC.off c) → c < 16 → v.getLsbD 15 = true →
    ∃ t, exec (.ccInPeakClr a c v) s = .next t ∧ fld t (CC_IN_OCC.PEAK c) = inputOcc s c % 2 ^ 6 ∧
    t.fab = s.fab ∧ RegsKept s t [CC_IN_OCC.off c, GL_STALL_MAX.off]) ∧
  (∀ (s : State) (a : Access) (d : Nat) (v : W32), Reached s a (CC_DQ_OCC.off d) → d < 20 → v.getLsbD 15 = true →
    ∃ t, exec (.ccDqPeakClr a d v) s = .next t ∧ fld t (CC_DQ_OCC.PEAK d) = fld s (CC_DQ_OCC.OCC d) ∧
    fld t (CC_DQ_OCC.OCC d) = fld s (CC_DQ_OCC.OCC d) ∧ RegsKept s t [CC_DQ_OCC.off d, GL_STALL_MAX.off]) ∧
  (∀ (s : State) (a : Access) (v : W32), Reached s a CC_FAB_WAIT_MAX.off → v.getLsbD 31 = true →
    ∃ t, exec (.ccFabWaitMaxClr a v) s = .next t ∧ fld t CC_FAB_WAIT_MAX.MAX = 0 ∧ fld t CC_FAB_WAIT_MAX.SRC = 0 ∧
    RegsKept s t [CC_FAB_WAIT_MAX.off, GL_STALL_MAX.off])

/-- R139, R144, R158, R213: cluster gates and Carver arms.  The wait for the engines that issue before a decision is log 13. -/
def Obligations.GateAndArmArrival : Prop :=
  (∀ (s : State) (c T : Nat) (o : Bool) (pre post : List SentDec) (y : SentDec), c < nClusters s → s.fab.decs = pre ++ y :: post →
    y.d = .gate c o T → (∀ x ∈ pre, ∀ o' T', x.d ≠ .gate c o' T') → inOrder s y = true → ∃ t, exec (.clusterGateArrival c) s = .next t ∧ t.fab.decs = pre ++ post ∧
    ∀ g < nGroups s, (group t g).winEv =
      (if windowEvent s g (0x30 + c) then (group s g).winEv ++ [⟨o, 0x30 + c, T⟩] else (group s g).winEv)) ∧
  (∀ (s : State) (u T : Nat) (pre post : List SentDec) (y : SentDec), u < 64 → s.fab.decs = pre ++ y :: post →
    y.d = .muarm u T → (∀ x ∈ pre, ∀ T', x.d ≠ .muarm u T') → inOrder s y = true → muMode s u ≠ 0 → ∃ t, exec (.muarmArrival u) s = .next t ∧ t.fab.decs = pre ++ post ∧
    (mu t u).evs = (mu s u).evs ++ [if T < (mu s u).frontier then .arm (mu s u).frontier true else .arm T false] ∧
    (T < (mu s u).frontier → flag t (MU_STAT.LATE u) = true)) ∧
  (∀ (s : State) (c T : Nat) (o : Bool) (pre post : List SentDec) (y : SentDec), s.fab.decs = pre ++ y :: post →
    y.d = .gate c o T → (∀ x ∈ pre, ∀ o' T', x.d ≠ .gate c o' T') → inOrder s y = false → exec (.clusterGateArrival c) s = .next s)

/-- R151, R158, R161, R162, R171: inputs of the measurement units. -/
def Obligations.MuInputs : Prop :=
  (∀ (s : State) (x : Tile) (r : List Tile), s.fab.muIn = x :: r → x.slots.length ≤ 7 → ∃ t, exec .muTileArrival s = .next t ∧
    t.fab.muIn = r ∧ ∀ u < nMus s,
      (failsCheck s x = false → tileInjected x = false → (mu s u).recs.length + 21 ≤ 256 →
        (mu t u).recs = (mu s u).recs ++ (x.slots.filter isStamp).flatMap fun w =>
          ((muRoles s u).filter fun l => l.2 / 16 = tileGroup x ∧ l.2 = recLane w).map fun l => ⟨rebuild (tNow s) (recTime w), w, l.1⟩) ∧
      (failsCheck s x = true → (mu t u).recs = (mu s u).recs ∧ ((muLanes s u).any (fun n => n / 16 = tileGroup x) = true →
        flag t (MU_STAT.CORRUPT u) = true ∧ fld t (MU_CORRUPT_CNT.COUNT u) = sat 32 (fld s (MU_CORRUPT_CNT.COUNT u)) 1))) ∧
  (∀ (s : State) (u : Nat) (pre post : List MuRec) (x : MuRec), u < nMus s → muMode s u ≠ 0 → (mu s u).evs = [] →
    (mu s u).recs = pre ++ x :: post → (∀ y ∈ pre, recKey x < recKey y) → (∀ y ∈ post, recKey x ≤ recKey y) →
    muReady s u x.t = true → gateEndsBy s u x.t = false → ∃ t, exec (.muProcessInput u) s = .next t ∧
    (mu t u).recs = pre ++ post ∧ (mu t u).frontier = max (mu s u).frontier x.t ∧ ∀ v, v ≠ u → mu t v = mu s v) ∧
  (∀ (s : State) (u T : Nat) (late : Bool), u < nMus s → muMode s u ≠ 0 → muGsrc s u = 0 → (mu s u).st = 0 → (mu s u).meas = none →
    (mu s u).busy < 2 → (mu s u).evs = [.arm T late] → (mu s u).recs = [] → muReady s u T = true →
    ∃ t m, exec (.muProcessInput u) s = .next t ∧ (mu t u).st = 2 ∧ (mu t u).evs = [] ∧ (mu t u).tArm = T ∧
    (mu t u).meas = some m ∧ m.tOpen = T ∧ m.mode = muMode s u ∧ m.n = 0 ∧ m.flags = (if late then 32 else 0) ∧
    flag t (MU_STAT.OPEN u) = true ∧ flag t (MU_STAT.ARMED u) = true) ∧
  (∀ (s : State) (u : Nat) (x : MuRec) (m : Meas), u < nMus s → muMode s u ≠ 0 → (mu s u).evs = [] → (mu s u).recs = [x] →
    x.role = 3 → muEdgeOk s u 3 x.word = true → (mu s u).meas = some m → m.mode = 5 → m.tOpen ≤ x.t → m.nmax = 0 → m.n + 1 < 2 ^ 40 →
    muReady s u x.t = true → gateEndsBy s u x.t = false → ∃ t, exec (.muProcessInput u) s = .next t ∧ (mu t u).recs = [] ∧
    (mu t u).meas = some { m with n := m.n + 1, first := if m.n = 0 then x.t else m.first, last := x.t,
                                  flags := m.flags ||| usedFlags x.word } ∧
    t.bus = s.bus)

/-- R153, R155, R159, R160, R174, R177: commands, closes and results of the measurement units.  An owed gap record's place is log 13, the
events that a DISARM leaves log 11. -/
def Obligations.MuResults : Prop :=
  (∀ (s : State) (a : Access) (u : Nat) (v : W32), u < nMus s → Reached s a (MU_CMD.off u) → muMode s u ≠ 0 → v.getLsbD 0 = true →
    ∃ t, exec (.muArm a u v) s = .next t ∧ mu t u = { mu s u with evs := (mu s u).evs ++ [.arm (tNext s) false] } ∧
    RegsKept s t [GL_STALL_MAX.off]) ∧
  (∀ (s : State) (a : Access) (u : Nat) (v : W32), u < nMus s → Reached s a (MU_CMD.off u) → muMode s u ≠ 0 → v.getLsbD 2 = true →
    ∃ t, exec (.muClose a u v) s = .next t ∧ mu t u = { mu s u with evs := (mu s u).evs ++ [.hostClose (tNext s)] } ∧
    RegsKept s t [GL_STALL_MAX.off]) ∧
  (∀ (s : State) (a : Access) (u : Nat) (v : W32), u < nMus s → Reached s a (MU_CMD.off u) → v.getLsbD 1 = true →
    ∃ t, exec (.muDisarm a u v) s = .next t ∧ (mu t u).st = 0 ∧ (mu t u).evs = (mu s u).evs ∧ flag t (MU_STAT.OPEN u) = false ∧
    flag t (MU_STAT.ARMED u) = false ∧ ∀ m, (mu s u).st = 2 → (mu s u).meas = some m → (mu t u).meas = none ∧
      (mu t u).busy = (mu s u).busy + 1 ∧ flag t (MU_STAT.ABORTED u) = true ∧ (mu t u).pubs.length = (mu s u).pubs.length + 1) ∧
  (∀ (s : State) (u : Nat) (m : Meas), u < 64 → (mu s u).meas = some m → m.gateLen ≠ 0 → muReady s u (m.tOpen + m.gateLen) = true →
    (∀ e ∈ (mu s u).evs, 5 * (m.tOpen + m.gateLen) ≤ evKey e) → (∀ x ∈ (mu s u).recs, 5 * (m.tOpen + m.gateLen) ≤ recKey x) →
    ∃ t, exec (.muGateLenExpiry u) s = .next t ∧ (mu t u).meas = none ∧ (mu t u).busy = (mu s u).busy + 1 ∧
    (mu t u).frontier = max (mu s u).frontier (m.tOpen + m.gateLen) ∧ (mu t u).pubs.length = (mu s u).pubs.length + 1 ∧
    (mu t u).st = (if flag s (MU_ARM_CFG.REPEAT u) then 1 else 0) ∧ flag t (MU_STAT.FINISHING u) = true ∧ t.free = s.free + 1) ∧
  (∀ (s : State) (u : Nat) (p : Pub) (r : List Pub), u < 64 → (mu s u).pubs = p :: r → ∃ t, exec (.muPublish u) s = .next t ∧
    (mu t u).pubs = r ∧ (mu t u).seq = ((mu s u).seq + 1) % 256 ∧ (mu t u).busy = (if p.frees then (mu s u).busy - 1 else (mu s u).busy) ∧
    flag t (MU_STAT.DONE u) = true ∧ fld t (MU_RESULT_CNT.COUNT u) = sat 32 (fld s (MU_RESULT_CNT.COUNT u)) 1 ∧
    ∀ i < 24, (reg t (MU_RES_LO.off u i)).toNat = p.slots.getD i 0 % 2 ^ 32 ∧
      fld t (MU_RES_HI.SEQ u i) = (mu t u).seq ∧ fld t (MU_RES_HI.VALUE u i) = p.slots.getD i 0 / 2 ^ 32 % 2 ^ 24) ∧
  (∀ (s : State) (b n : Nat) (l : List W64), b < 4 → (bank s b).recs ≠ [] → (bank s b).tileCyc + 8 ≤ fclk s →
    maySeal s (0x50 + b) = true → n = (bank s b).cont + (((bank s b).recs.drop (bank s b).cont).takeWhile continues).length →
    l = (bank s b).recs.take n ++ (if (bank s b).qGap = 0 then [] else [gapWord true false 1 0 (bank s b).qGap, epochWord (tNow s)]) ++
      (bank s b).recs.drop n →
    ∃ t, exec (.muBankHoldTimeout b) s = .next t ∧
    (bank t b).recs = l.drop 7 ++ (bank s b).marks.take (128 - (l.drop 7).length) ∧ (bank t b).qGap = 0 ∧
    (source t (0x50 + b)).crossing = (source s (0x50 + b)).crossing ++
      [dataTile (0x50 + b) (fld s (MU_BANK_SEQ.SEQ b)) (l.take 7)] ∧
    (source t (0x50 + b)).credits = min 8 ((source s (0x50 + b)).credits + (creditsDue s - (source s (0x50 + b)).earned)) - 1 ∧
    fld t (MU_BANK_SEQ.SEQ b) = (fld s (MU_BANK_SEQ.SEQ b) + 1) % 2 ^ 16) ∧
  (∀ source payload w : Nat, w = (resultWord source payload).toNat → bitsOf w 63 62 = 2 ∧ bitsOf w 61 54 = source % 256 ∧
    bitsOf w 53 0 = payload % 2 ^ 54)

/-- R179, R180, R184 to R186 and the table *ALU functions*. -/
def Obligations.AluFunctions : Prop :=
  AluRow .iAdd 0x00 1 (fun a b => BitVec.ofNat 64 (a.toNat + b.toNat)) ∧
  AluRow .iSub 0x01 1 (fun a b => BitVec.ofInt 64 (a.toInt - b.toInt)) ∧
  AluRow .iAnd 0x02 1 (fun a b => a &&& b) ∧ AluRow .iOr 0x03 1 (fun a b => a ||| b) ∧ AluRow .iXor 0x04 1 (fun a b => a ^^^ b) ∧
  AluRow .iShl 0x05 1 (fun a b => BitVec.ofNat 64 (a.toNat * 2 ^ (b.toNat % 64))) ∧
  AluRow .iShr 0x06 1 (fun a b => BitVec.ofNat 64 (a.toNat / 2 ^ (b.toNat % 64))) ∧
  AluRow .iSar 0x07 1 (fun a b => BitVec.ofInt 64 (a.toInt / 2 ^ (b.toNat % 64))) ∧
  AluRow .iMul 0x08 3 (fun a b => BitVec.ofNat 64 (a.toNat * b.toNat)) ∧
  AluRow .iMulhu 0x09 3 (fun a b => BitVec.ofNat 64 (a.toNat * b.toNat / 2 ^ 64)) ∧
  AluRow .iMin 0x0A 1 (fun a b => if a.toInt ≤ b.toInt then a else b) ∧
  AluRow .iMax 0x0B 1 (fun a b => if b.toInt ≤ a.toInt then a else b) ∧
  AluRow .iMinu 0x0C 1 (fun a b => if a.toNat ≤ b.toNat then a else b) ∧
  AluRow .iMaxu 0x0D 1 (fun a b => if b.toNat ≤ a.toNat then a else b) ∧
  AluRow .iAdds 0x0E 1 (fun a b => BitVec.ofInt 64 (max (-(2 ^ 63)) (min (2 ^ 63 - 1) (a.toInt + b.toInt)))) ∧
  AluRow .iSubs 0x0F 1 (fun a b => BitVec.ofInt 64 (max (-(2 ^ 63)) (min (2 ^ 63 - 1) (a.toInt - b.toInt)))) ∧
  AluRow .iSlt 0x10 1 (fun a b => if a.toInt < b.toInt then 1 else 0) ∧
  AluRow .iSltu 0x11 1 (fun a b => if a.toNat < b.toNat then 1 else 0) ∧
  AluRow .iSeq 0x12 1 (fun a b => if a = b then 1 else 0) ∧
  AluRow .iClz 0x13 1 (fun a _ => BitVec.ofNat 64 ((List.range 64).findIdx fun i => a.getLsbD (63 - i))) ∧
  AluRow .iPopc 0x14 1 (fun a _ => BitVec.ofNat 64 ((List.range 64).countP a.getLsbD))

/-- R179, R180, R184, R185 and the table *Instruction set*, opcodes 0x01 to 0x09. -/
def Obligations.ImmediateInstructions : Prop :=
  ImmRow .iAddi 0x01 (fun w a => a + BitVec.ofInt 64 (signedOf 16 w.toNat)) ∧
  ImmRow .iAndi 0x02 (fun w a => a &&& BitVec.ofNat 64 (w.toNat % 2 ^ 16)) ∧
  ImmRow .iOri 0x03 (fun w a => a ||| BitVec.ofNat 64 (w.toNat % 2 ^ 16)) ∧
  ImmRow .iXori 0x04 (fun w a => a ^^^ BitVec.ofNat 64 (w.toNat % 2 ^ 16)) ∧
  ImmRow .iShi 0x05 (fun w a =>
    let n := w.toNat % 64
    if ibits w 7 6 = 0 then BitVec.ofNat 64 (a.toNat * 2 ^ n)
    else if ibits w 7 6 = 1 then BitVec.ofNat 64 (a.toNat / 2 ^ n)
    else if ibits w 7 6 = 2 then BitVec.ofInt 64 (a.toInt / 2 ^ n)
    else BitVec.ofNat 64 (a.toNat / 2 ^ n + a.toNat * 2 ^ (64 - n))) ∧
  ImmRow .iMovi 0x06 (fun w _ => BitVec.ofInt 64 (signedOf 16 w.toNat)) ∧
  ImmRow .iExt 0x08 (fun w a =>
    BitVec.ofNat 64 (a.toNat / 2 ^ ibits w 11 6 % 2 ^ (if w.toNat % 64 = 0 then 64 else w.toNat % 64))) ∧
  ImmRow .iSext 0x09 (fun w a =>
    let n := w.toNat % 64
    BitVec.ofInt 64 (Int.ofNat (a.toNat % 2 ^ (n + 1)) - if a.getLsbD n then 2 ^ (n + 1) else 0)) ∧
  (∀ (s : State) (e : Nat) (w : W32), Runs s e w 0x07 → ∃ t v, exec (.iMovh e) s = .next t ∧ Wrote s t e 1 (iRd w) v ∧
    ∀ i < 64, v.getLsbD i = if 16 * ibits w 17 16 ≤ i ∧ i < 16 * ibits w 17 16 + 16 then w.getLsbD (i - 16 * ibits w 17 16)
      else (greg (engine s e) (iRd w)).getLsbD i)

/-- R180, R185, R186 and the table *Branch conditions*. -/
def Obligations.BranchesAndJumps : Prop :=
  (∀ (s : State) (e : Nat) (w : W32) (a b : W64) (p : Bool), Runs s e w 0x10 → a = greg (engine s e) (iRd w) →
    b = greg (engine s e) (iRa w) →
    (p = true ↔ match ibits w 15 12 with
      | 0 => a = b
      | 1 => a ≠ b
      | 2 => a.toInt < b.toInt
      | 3 => b.toInt ≤ a.toInt
      | 4 => a.toNat < b.toNat
      | 5 => b.toNat ≤ a.toNat
      | 6 => (a - b).toInt < 0
      | _ => 0 ≤ (a - b).toInt) →
    ∃ t, exec (.iBr e) s = .next t ∧ (p = true → JumpedTo s t e 2 (iTgt w)) ∧ (p = false → Wrote s t e 1 0 0)) ∧
  (∀ (s : State) (e : Nat) (w : W32), Runs s e w 0x11 → ∃ t, exec (.iBbit e) s = .next t ∧
    ((greg (engine s e) (iRd w)).getLsbD (ibits w 20 15) = w.getLsbD 14 → JumpedTo s t e 2 (iTgt w)) ∧
    ((greg (engine s e) (iRd w)).getLsbD (ibits w 20 15) ≠ w.getLsbD 14 → Wrote s t e 1 0 0)) ∧
  (∀ (s : State) (e : Nat) (w : W32), Runs s e w 0x12 → ∃ t, exec (.iJmp e) s = .next t ∧ JumpedTo s t e 2 (iTgt w)) ∧
  (∀ (s : State) (e : Nat) (w : W32), Runs s e w 0x13 → ∃ t, exec (.iCall e) s = .next t ∧ OnlyEngine s t e ∧
    GregIs s t e 31 (BitVec.ofNat 64 ((engine s e).pc + 1)) ∧
    engine t e = { engine s e with g := (engine t e).g, pc := iTgt w, cyc := (engine s e).cyc + 2,
                                   lat := (engine s e).lat.map (· + 2) }) ∧
  (∀ (s : State) (e : Nat) (w : W32), Runs s e w 0x14 → ∃ t, exec (.iJr e) s = .next t ∧
    JumpedTo s t e 2 ((greg (engine s e) (iRa w)).toNat % 2 ^ 12))

/-- R185, R192, R199: local memory. -/
def Obligations.LocalMemory : Prop :=
  (∀ (s : State) (e opc n a : Nat) (w : W32) (i : Nat → Instr), (i = .iLd ∧ opc = 0x18 ∧ n = 8) ∨ (i = .iLdw ∧ opc = 0x19 ∧ n = 4) →
    Runs s e w opc → a = (greg (engine s e) (iRa w) + BitVec.ofInt 64 (signedOf 16 w.toNat)).toNat → a < 0x20000 → a % n = 0 →
    ∃ t v, exec (i e) s = .next t ∧ Wrote s t e 2 (iRd w) v ∧
    ∀ k < 8, v.extractLsb' (8 * k) 8 = if k < n then mget 0 (engine s e).lmem (a + k) else 0) ∧
  (∀ (s : State) (e opc n a : Nat) (w : W32) (i : Nat → Instr), (i = .iSt ∧ opc = 0x1A ∧ n = 8) ∨ (i = .iStw ∧ opc = 0x1B ∧ n = 4) →
    Runs s e w opc → a = (greg (engine s e) (iRa w) + BitVec.ofInt 64 (signedOf 16 w.toNat)).toNat → a < 0x20000 → a % n = 0 →
    ∃ t, exec (i e) s = .next t ∧ OnlyEngine s t e ∧ WentOn s t e 1 ∧
    engine t e = { engine s e with lmem := (engine t e).lmem, pc := (engine t e).pc, overrun := (engine t e).overrun,
                                   cyc := (engine t e).cyc, lat := (engine s e).lat.map (· + 1) } ∧
    ∀ x, mget 0 (engine t e).lmem x = if a ≤ x ∧ x < a + n then (greg (engine s e) (iRd w)).extractLsb' (8 * (x - a)) 8
      else mget 0 (engine s e).lmem x) ∧
  (∀ (s : State) (e opc a k old : Nat) (w : W32) (i : Nat → Instr),
    (i = .iHinc ∧ opc = 0x1C ∧ k = 1 ∧ a = (greg (engine s e) (iRa w) + BitVec.ofInt 64 (signedOf 16 w.toNat)).toNat) ∨
      (i = .iHadd ∧ opc = 0x1D ∧ k = (greg (engine s e) (iRb w)).toNat % 2 ^ 32 ∧ a = (greg (engine s e) (iRa w)).toNat) →
    Runs s e w opc → a < 0x20000 → a % 4 = 0 → old = leNat (mreadBytes 0 (engine s e).lmem a 4) →
    ∃ t, exec (i e) s = .next t ∧ WentOn s t e 2 ∧ GregIs s t e (iRd w) (BitVec.ofNat 64 (sat 32 old k)) ∧
    leNat (mreadBytes 0 (engine t e).lmem a 4) = sat 32 old k ∧
    (∀ x, x < a ∨ a + 4 ≤ x → mget 0 (engine t e).lmem x = mget 0 (engine s e).lmem x) ∧
    (2 ^ 32 ≤ old + k → flag t (CV_STAT.HIST_SAT e) = true) ∧ (old + k < 2 ^ 32 → t.bus = s.bus) ∧
    RegsKept s t [CV_STAT.off e] ∧ ∀ d, d ≠ e → engine t d = engine s d) ∧
  (∀ (s : State) (e opc n a : Nat) (w : W32) (i : Nat → Instr),
    ((i = .iLd ∧ opc = 0x18 ∧ n = 8) ∨ (i = .iLdw ∧ opc = 0x19 ∧ n = 4) ∨ (i = .iSt ∧ opc = 0x1A ∧ n = 8) ∨
      (i = .iStw ∧ opc = 0x1B ∧ n = 4) ∨ (i = .iHinc ∧ opc = 0x1C ∧ n = 4) ∨ (i = .iHadd ∧ opc = 0x1D ∧ n = 4)) →
    Runs s e w opc →
    a = (if opc = 0x1D then (greg (engine s e) (iRa w)).toNat
      else (greg (engine s e) (iRa w) + BitVec.ofInt 64 (signedOf 16 w.toNat)).toNat) →
    (0x20000 ≤ a → ∃ t, exec (i e) s = .next t ∧ Halted s t e 4) ∧
    (a < 0x20000 → a % n ≠ 0 → ∃ t, exec (i e) s = .next t ∧ Halted s t e 5))

/-- R185, R187 to R189: ports and waits.  When WAIT sees a message is log 38. -/
def Obligations.PortsAndWaits : Prop :=
  (∀ (s : State) (e opc p : Nat) (w : W32) (x : W64) (r : List W64) (i : Nat → Instr),
    (i = .iPop ∧ opc = 0x20) ∨ (i = .iTrypop ∧ opc = 0x21) → Runs s e w opc → p = ibits w 0 0 → (portOf (engine s e) p).q = x :: r →
    ∃ t, exec (i e) s = .next t ∧ FromPort s t e 1 (iRd w) p x r ∧
    fld t (CV_POP_CNT.COUNT e) = sat 32 (fld s (CV_POP_CNT.COUNT e)) 1 ∧ RegsKept s t [CV_POP_CNT.off e]) ∧
  (∀ (s : State) (e : Nat) (w : W32), Runs s e w 0x20 → (portOf (engine s e) (ibits w 0 0)).q = [] →
    ∃ t, exec (.iPop e) s = .next t ∧ OnlyEngine s t e ∧ engine t e = { engine s e with st := 3 }) ∧
  (∀ (s : State) (e p n : Nat) (w : W32) (x : W64) (r : List W64), e < 256 → (engine s e).st = 3 → (engine s e).overrun = false →
    fetch (engine s e) = w → iOpc w = 0x20 → p = ibits w 0 0 → (portOf (engine s e) p).q = x :: r → n = eclk s - issueCycle (engine s e) →
    ∃ t, exec (.popWaitComplete e n) s = .next t ∧ FromPort s t e (n + 1) (iRd w) p x r ∧
    fld t (CV_POP_CNT.COUNT e) = sat 32 (fld s (CV_POP_CNT.COUNT e)) 1) ∧
  (∀ (s : State) (e : Nat) (w : W32), Runs s e w 0x21 → (portOf (engine s e) (ibits w 0 0)).q = [] →
    ∃ t, exec (.iTrypop e) s = .next t ∧ Wrote s t e 1 (iRd w) 0xC000000000000000) ∧
  (∀ (s : State) (e p : Nat) (w : W32) (x : W64) (r : List W64), Runs s e w 0x22 → p = ibits w 0 0 →
    (portOf (engine s e) p).q = x :: r → ∃ t, exec (.iPeek e) s = .next t ∧ FromPort s t e 1 (iRd w) p x (x :: r) ∧ t.bus = s.bus) ∧
  (∀ (s : State) (e : Nat) (w : W32), Runs s e w 0x22 → (portOf (engine s e) (ibits w 0 0)).q = [] →
    ∃ t, exec (.iPeek e) s = .next t ∧ Wrote s t e 1 (iRd w) 0xC000000000000000) ∧
  (∀ (s : State) (e p n : Nat) (w : W32), Runs s e w 0x23 → p = ibits w 0 0 →
    n = min (ibits w 15 8) (portOf (engine s e) p).q.length → n ≠ 0 →
    ∃ t, exec (.iSkip e) s = .next t ∧ FromPort s t e 1 (iRd w) p (BitVec.ofNat 64 n) ((portOf (engine s e) p).q.drop n) ∧
    fld t (CV_POP_CNT.COUNT e) = sat 32 (fld s (CV_POP_CNT.COUNT e)) n) ∧
  (∀ (s : State) (e : Nat) (w : W32), Runs s e w 0x23 → (portOf (engine s e) (ibits w 0 0)).q = [] →
    ∃ t, exec (.iSkip e) s = .next t ∧ WentOn s t e 1 ∧ GregIs s t e (iRd w) 0 ∧ (engine t e).lat = (engine s e).lat.map (· + 1)) ∧
  (∀ (s : State) (e c n : Nat) (w : W32), e < 256 → iOpc w = 0x24 → ibits w 3 3 = 0 →
    c = (if w.getLsbD 0 ∧ (engine s e).p0.q ≠ [] then 1 else 0) + (if w.getLsbD 1 ∧ (engine s e).p1.q ≠ [] then 2 else 0) +
      (if w.getLsbD 2 ∧ mailFor s e ≠ [] then 4 else 0) →
    (Runs s e w 0x24 → c ≠ 0 → ∃ t, exec (.iWait e) s = .next t ∧ OnlyEngine s t e ∧ WentOn s t e 1 ∧
      GregIs s t e (iRd w) (BitVec.ofNat 64 c)) ∧
    (Runs s e w 0x24 → c = 0 → ∃ t, exec (.iWait e) s = .next t ∧ OnlyEngine s t e ∧ engine t e = { engine s e with st := 3 }) ∧
    ((engine s e).st = 3 → (engine s e).overrun = false → fetch (engine s e) = w → c ≠ 0 → n = eclk s - issueCycle (engine s e) →
      ∃ t, exec (.waitComplete e n) s = .next t ∧ OnlyEngine s t e ∧ WentOn s t e (n + 1) ∧ GregIs s t e (iRd w) (BitVec.ofNat 64 c))) ∧
  (∀ (s : State) (e c : Nat) (w : W32), Runs s e w 0x24 → w.getLsbD 3 = true →
    c = (if w.getLsbD 0 ∧ (engine s e).p0.q ≠ [] then 1 else 0) + (if w.getLsbD 1 ∧ (engine s e).p1.q ≠ [] then 2 else 0) +
      (if w.getLsbD 2 ∧ mailFor s e ≠ [] then 4 else 0) →
    (∀ T, ReadsCopy s (e / 16) T → (BitVec.ofNat 64 T - greg (engine s e) (iRa w)).slt 0 = false) →
    ∃ t, exec (.iWait e) s = .next t ∧ WentOn s t e 1 ∧ GregIs s t e (iRd w) (BitVec.ofNat 64 (c + 8)))

/-- R185, R190, R191, R193 to R195. -/
def Obligations.MailTimeAndResults : Prop :=
  (∀ (s : State) (e : Nat) (w : W32) (m : Msg) (pre post : List Msg), Runs s e w 0x25 → (cluster s (e / 16)).box = pre ++ m :: post →
    (∀ x ∈ pre, ¬(x.dst = e ∧ x.cyc + 2 ≤ eclk s)) → m.dst = e → m.cyc + 2 ≤ eclk s →
    ∃ t, exec (.iRecv e) s = .next t ∧ WentOn s t e 1 ∧ GregIs s t e (iRd w) m.payload ∧ (cluster t (e / 16)).box = pre ++ post ∧
    t.bus = s.bus) ∧
  (∀ (s : State) (e : Nat) (w : W32), Runs s e w 0x25 → (∀ x ∈ (cluster s (e / 16)).box, ¬(x.dst = e ∧ x.cyc + 2 ≤ eclk s)) →
    ∃ t, exec (.iRecv e) s = .next t ∧ JumpedTo s t e 2 (iTgt w)) ∧
  (∀ (s : State) (e d : Nat) (w : W32), Runs s e w 0x26 → d = e / 16 * 16 + ibits w 20 17 →
    (active (engine s d) = true → (cluster s (e / 16)).box.length < 16 → ∃ t pre post, exec (.iSend e) s = .next t ∧ WentOn s t e 1 ∧
      (engine t e).g = (engine s e).g ∧ (cluster s (e / 16)).box = pre ++ post ∧
      (cluster t (e / 16)).box = pre ++ ⟨greg (engine s e) (iRd w), e, d, issueCycle (engine s e)⟩ :: post ∧
      (∀ m ∈ pre, m.cyc < issueCycle (engine s e) ∨ (m.cyc = issueCycle (engine s e) ∧ m.src ≤ e)) ∧
      (∀ m r, post = m :: r → issueCycle (engine s e) < m.cyc ∨ (issueCycle (engine s e) = m.cyc ∧ e < m.src)) ∧
      ((∀ m ∈ (cluster s (e / 16)).box, m.cyc < issueCycle (engine s e) ∨ (m.cyc = issueCycle (engine s e) ∧ m.src ≤ e)) → post = [])) ∧
    (active (engine s d) = true → 16 ≤ (cluster s (e / 16)).box.length → ∃ t, exec (.iSend e) s = .next t ∧
      JumpedTo { s with bus := t.bus } t e 2 (iTgt w) ∧ flag t (CV_STAT.MB_FULL e) = true ∧ RegsKept s t [CV_STAT.off e]) ∧
    (active (engine s d) = false → ∃ t, exec (.iSend e) s = .next t ∧ WentOn s t e 1 ∧
      (cluster t (e / 16)).box = (cluster s (e / 16)).box ∧
      fld t (CC_MB_DISC_CNT.COUNT (e / 16)) = sat 16 (fld s (CC_MB_DISC_CNT.COUNT (e / 16))) 1 ∧
      flag t (CC_STAT.MB_DISC (e / 16)) = true)) ∧
  (∀ (s : State) (e : Nat) (w : W32), Runs s e w 0x27 → ibits w 7 0 ≠ 0 → ∃ t, exec (.iRds e) s = .next t ∧
    Wrote s t e 1 (iRd w) (BitVec.ofNat 64 (match ibits w 7 0 with
      | 1 => (engine s e).p0.q.length
      | 2 => (engine s e).p1.q.length
      | 3 => (engine s e).p0.lost
      | 4 => (engine s e).p1.lost
      | 5 => e
      | 6 => (engine s e).cyc
      | 7 => ((cluster s (e / 16)).box.filter fun m => m.dst = e ∧ m.cyc + 2 ≤ eclk s).length
      | 8 => deviceId s
      | _ => fld s TP_ANCH_STAT.LATEST))) ∧
  (∀ (s : State) (e : Nat) (w : W32), Runs s e w 0x27 → ibits w 7 0 = 0 → ∃ t T, exec (.iRds e) s = .next t ∧
    ReadsCopy s (e / 16) T ∧ WentOn s t e 1 ∧ GregIs s t e (iRd w) (BitVec.ofNat 64 T) ∧
    (cluster t (e / 16)).tCopy = T ∧ (cluster t (e / 16)).tCyc = some (eclk s) ∧ (cluster s (e / 16)).tCopy ≤ T ∧
    t.free = (if (cluster s (e / 16)).tCyc = some (eclk s) then s.free else s.free + 1)) ∧
  (∀ (s : State) (e : Nat) (w : W32) (a b : W64), Runs s e w 0x28 → a = greg (engine s e) (iRa w) → b = greg (engine s e) (iRb w) →
    ∃ t v, exec (.iTreb e) s = .next t ∧ Wrote s t e 1 (iRd w) v ∧ v.toNat % 2 ^ 48 = a.toNat % 2 ^ 48 ∧
    (v - (b - BitVec.ofNat 64 (2 ^ 47))).toNat < 2 ^ 48) ∧
  (∀ (s : State) (e opc pay : Nat) (w : W32) (i : Nat → Instr),
    (i = .iEmit ∧ opc = 0x2C ∧ pay = (greg (engine s e) (iRa w)).toNat % 2 ^ 54) ∨
      (i = .iEmitt ∧ opc = 0x2D ∧ pay = (greg (engine s e) (iRb w)).toNat % 2 ^ 6 * 2 ^ 48 +
        (greg (engine s e) (iRa w)).toNat % 2 ^ 48) →
    Runs s e w opc →
    ((engine s e).rq.length < 8 → ∃ t, exec (i e) s = .next t ∧ WentOn s t e 1 ∧ (engine t e).g = (engine s e).g ∧
      (engine t e).rq = (engine s e).rq ++ [(resultWord (e % 16 * 16 + ibits w 3 0) pay, (engine s e).rqLost)] ∧
      (engine t e).rqLost = 0 ∧ fld t (CV_EMIT_CNT.COUNT e) = sat 32 (fld s (CV_EMIT_CNT.COUNT e)) 1) ∧
    (8 ≤ (engine s e).rq.length → ∃ t, exec (i e) s = .next t ∧ WentOn s t e 1 ∧ (engine t e).g = (engine s e).g ∧
      (engine t e).rq = (engine s e).rq ∧ (engine t e).rqLost = (engine s e).rqLost + 1 ∧ flag t (CV_STAT.EMIT_LOST e) = true ∧
      fld t (CV_EMIT_LOST_CNT.COUNT e) = sat 32 (fld s (CV_EMIT_LOST_CNT.COUNT e)) 1))

/-- R189, R190, R196 to R198, R213 to R215, R370, R389: decisions.  How the order of issue is kept is log 13. -/
def Obligations.CarverDecisions : Prop :=
  DecRow .iDrive 0x30
    (fun s e w => pinPresent s (ibits w 15 10) && ownPin s (ibits w 15 10) = enginePart s e && overrideCopy s (ibits w 15 10))
    (fun s e w => .drive (ibits w 15 10) (ibits w 9 8) (max 1 ((greg (engine s e) (iRa w)).toNat % 2 ^ 16))) ∧
  DecRow .iPjump 0x31 (fun s e w => decide (ibits w 3 2 < nSeqs s) && ownSeq s (ibits w 3 2) = enginePart s e)
    (fun _ _ w => .pjump (ibits w 3 2) (ibits w 1 0)) ∧
  DecRow .iVeto 0x32 (fun s e w => decide (ibits w 5 0 < nGroups s) && ownGroup s (ibits w 5 0) = enginePart s e)
    (fun _ _ w => .veto (ibits w 5 0)) ∧
  DecRow .iMark 0x33 (fun s e w => ownRing s (ibits w 3 0) = enginePart s e) (fun _ _ w => .mark (ibits w 3 0)) ∧
  (∀ (s : State) (e c : Nat) (w : W32), Runs s e w 0x34 → inTurn s (clusterEngines (e / 16)) e = true → c = e / 16 → isStandby s = false →
    flag s (CC_GATE_STAT.OPEN c) ≠ w.getLsbD 0 → ∃ t T, exec (.iGate e) s = .next t ∧ WentOn s t e 1 ∧
    t.fab.decs = insertDec ⟨issueCycle (engine s e), e, .gate c (w.getLsbD 0) (max T (cluster s c).gateT)⟩ s.fab.decs ∧
    (cluster t c).gateT = max T (cluster s c).gateT ∧ flag t (CC_GATE_STAT.OPEN c) = w.getLsbD 0 ∧
    (T < (cluster s c).gateT → flag t (CV_STAT.GATE_LATE e) = true) ∧
    fld t (CV_DEC_CNT.COUNT e) = sat 32 (fld s (CV_DEC_CNT.COUNT e)) 1 ∧
    (w.getLsbD 1 = true → T = full64 (tNow s) (greg (engine s e) (iRa w)).toNat) ∧
    (w.getLsbD 1 = false → ReadsCopy s c T)) ∧
  (∀ (s : State) (e : Nat) (w : W32), Runs s e w 0x34 → inTurn s (clusterEngines (e / 16)) e = true →
    flag s (CC_GATE_STAT.OPEN (e / 16)) = w.getLsbD 0 → ∃ t, exec (.iGate e) s = .next t ∧ WentOn s t e 1 ∧
    t.fab.decs = s.fab.decs ∧ flag t (CV_STAT.DEC_REFUSED e) = true) ∧
  (∀ (s : State) (e u : Nat) (w : W32), Runs s e w 0x35 → u = ibits w 5 0 → isStandby s = false → u < nMus s →
    ownMu s u = enginePart s e → ∃ t T, exec (.iMuarm e) s = .next t ∧ WentOn s t e 1 ∧
    t.fab.decs = insertDec ⟨issueCycle (engine s e), e, .muarm u T⟩ s.fab.decs ∧ fld t (CV_DEC_CNT.COUNT e) = sat 32 (fld s (CV_DEC_CNT.COUNT e)) 1 ∧
    (w.getLsbD 6 = true → T = full64 (tNow s) (greg (engine s e) (iRa w)).toNat) ∧
    (w.getLsbD 6 = false → ReadsCopy s (e / 16) T)) ∧
  (∀ (s : State) (e : Nat) (w : W32), Runs s e w 0x36 → inTurn s (List.range (nEngines s)) e = true → isStandby s = false → ∃ t, exec (.iNote e) s = .next t ∧ WentOn s t e 1 ∧
    (engine t e).g = (engine s e).g ∧ t.fab.decs = s.fab.decs ∧
    fld t (CV_DEC_CNT.COUNT e) = sat 32 (fld s (CV_DEC_CNT.COUNT e)) 1) ∧
  (∀ (s : State) (e f : Nat) (l : List Nat), f ∈ l → (engine s f).st = 2 →
    (issueCycle (engine s f) < issueCycle (engine s e) ∨ (issueCycle (engine s f) = issueCycle (engine s e) ∧ f < e)) →
    (l = clusterEngines (e / 16) → exec (.iGate e) s = .next s) ∧ (l = List.range (nEngines s) → exec (.iNote e) s = .next s)) ∧
  (∀ (s : State) (a : Access) (e : Nat) (v : W32), e < 256 → Reached s a (CV_DEC_LAT_MAX.off e) → v.getLsbD 31 = true →
    ∃ t, exec (.cvDecLatMaxClr a e v) s = .next t ∧ fld t (CV_DEC_LAT_MAX.MAX e) = 0 ∧
    RegsKept s t [CV_DEC_LAT_MAX.off e, GL_STALL_MAX.off])

/-- R184, R186, R193, R199 to R201, R205, R369: the life of an engine. -/
def Obligations.EngineLife : Prop :=
  (∀ (s : State) (a : Access) (e : Nat) (v : W32), e < 256 → Reached s a (CV_CTRL.off e) → v.getLsbD 31 = true →
    ((engine s e).st = 0 ∨ (engine s e).st = 1) → heldHalted s e = false → ∃ t, exec (.cvStart a e v) s = .next t ∧
    (engine t e).st = 2 ∧ (engine t e).pc = v.toNat % 2 ^ 12 ∧ (engine t e).at0 = eclk s ∧ (engine t e).cyc = 0 ∧ (engine t e).lat = none ∧
    (engine t e).overrun = false ∧ (engine t e).g = (if v.getLsbD 29 then [] else (engine s e).g) ∧
    (engine t e).imem = (engine s e).imem ∧ (engine t e).lmem = (engine s e).lmem ∧
    (engine t e).rq.length = (engine s e).rq.length + 1 ∧ ∀ d, d ≠ e → engine t d = engine s d) ∧
  (∀ (s : State) (a : Access) (e : Nat) (v : W32), e < 256 → Reached s a (CV_CTRL.off e) → v.getLsbD 31 = true →
    (active (engine s e) = true ∨ heldHalted s e = true) → ∃ t, exec (.cvStart a e v) s = .next t ∧ t.fab = s.fab) ∧
  (∀ (s : State) (a : Access) (e : Nat) (v : W32), e < 256 → Reached s a (CV_CTRL.off e) → v.getLsbD 30 = true →
    active (engine s e) = true → ∃ t, exec (.cvHalt a e v) s = .next t ∧ Halted s t e 1) ∧
  (∀ (s : State) (e : Nat) (w : W32), Runs s e w 0x3E → ∃ t, exec (.iHalt e) s = .next t ∧ Halted s t e 2 ∧
    fld t (CV_HALT_INFO.CODE e) = w.toNat % 2 ^ 8) ∧
  (∀ (s : State) (e : Nat), e < nEngines s → (engine s e).st = 2 → (engine s e).overrun = false → issueCycle (engine s e) ≤ eclk s →
    legal (fetch (engine s e)) = false → ∃ t, exec (.illegalInstruction e) s = .next t ∧ Halted s t e 3) ∧
  (∀ (s : State) (e : Nat), e < nEngines s → (engine s e).st = 2 → (engine s e).overrun = true → issueCycle (engine s e) ≤ eclk s →
    ∃ t, exec (.pcOverrun e) s = .next t ∧ Halted s t e 6 ∧ (engine t e).overrun = false) ∧
  (∀ (s : State) (c : Command) (bs : List Byte) (e i n : Nat), CmdTaken s c 0x200 → e = p0f c 7 0 → i = p0f c 27 16 → n = c.p1.toNat →
    e < nEngines s → ownCluster s (e / 16) = cmdPart s c → n ≠ 0 → i + n ≤ 4096 → active (engine s e) = false → c.data = some bs →
    ∃ t, exec (.cvLoadImem c) s = .next t ∧ CmdDone s t c 0 1 ∧ HostBytesKept s t [(statusAt s c, 4)] ∧
    engine t e = { engine s e with imem := (engine t e).imem } ∧
    ∀ k, sget (fun _ => 0xFFFFFFFF) (engine t e).imem k =
      if i ≤ k ∧ k < i + n then BitVec.ofNat 32 (leNat ((bs.drop (4 * (k - i))).take 4))
      else sget (fun _ => 0xFFFFFFFF) (engine s e).imem k) ∧
  (∀ (s : State) (c : Command) (bs : List Byte) (e o n : Nat), CmdTaken s c 0x201 → e = p0f c 7 0 → o = p0f c 48 32 → n = c.p1.toNat →
    e < nEngines s → ownCluster s (e / 16) = cmdPart s c → 8 ≤ n → n % 8 = 0 → o % 8 = 0 → o + n ≤ 0x20000 →
    active (engine s e) = false → c.data = some bs → bs.length = n → ∃ t, exec (.cvLoadLmem c) s = .next t ∧ CmdDone s t c 0 1 ∧
    engine t e = { engine s e with lmem := (engine t e).lmem } ∧
    ∀ k, mget 0 (engine t e).lmem k = if o ≤ k ∧ k < o + n then bs.getD (k - o) 0 else mget 0 (engine s e).lmem k) ∧
  (∀ (s : State) (c : Command) (e o n : Nat), CmdTaken s c 0x202 → e = p0f c 7 0 → o = p0f c 48 32 → n = c.p1.toNat →
    e < nEngines s → ownCluster s (e / 16) = cmdPart s c → 8 ≤ n → n % 8 = 0 → o % 8 = 0 → o + n ≤ 0x20000 →
    active (engine s e) = false → ∃ t, exec (.cvReadLmem c) s = .next t ∧ CmdDone s t c 0 1 ∧ t.fab = s.fab ∧
    HostBytesKept s t [(statusAt s c, 4), (c.addr.toNat, n)] ∧
    ∀ k < n, (c.addr.toNat + k < statusAt s c ∨ statusAt s c + 4 ≤ c.addr.toNat + k) →
      mget 0 t.host.mem (c.addr.toNat + k) = mget 0 (engine s e).lmem (o + k)) ∧
  (∀ (s : State) (c : Command) (bs : List Byte) (e p : Nat), CmdTaken s c 0x203 → e = p0f c 7 0 → p = p0f c 8 8 → e < nEngines s →
    ownCluster s (e / 16) = cmdPart s c → c.data = some bs → bs.length = 128 → ∃ t, exec (.cvSubscribe c) s = .next t ∧
    CmdDone s t c 0 1 ∧ (portOf (engine t e) p).q = (portOf (engine s e) p).q ∧
    (portOf (engine t e) p).kind = BitVec.ofNat 8 (p0f c 23 16) ∧ portOf (engine t e) (1 - p) = portOf (engine s e) (1 - p) ∧
    (∀ n < 1024, (portOf (engine t e) p).mask.getLsbD n =
      ((bs.getD (n / 8) 0).getLsbD (n % 8) && decide (n < nLanes s) && decide (ownGroup s (n / 16) = cmdPart s c))) ∧
    (∀ d < 20, (portOf (engine t e) p).rsrc.getLsbD d =
      (c.p0.getLsbD (32 + d) && dqPresent s d && decide (ownDq s d = cmdPart s c))))

/-- R217 to R220, R235, R236: channels.  What a retired channel's bytes read as is log 33, the patrol's order and interval log 19. -/
def Obligations.DdrChannels : Prop :=
  (∀ (s : State) (a : Access) (n : Nat) (v : W32), n < 4 → Reached s a (MC_CMD.off n) → v.getLsbD 31 = true →
    flag s (MC_STAT.TRAINING n) = false → ∃ t, exec (.mcTrain a n v) s = .next t ∧ flag t (MC_STAT.TRAINING n) = true ∧
    flag t (MC_STAT.TRAINED n) = false ∧ flag t (MC_STAT.RETIRED n) = false ∧ t.ddr = { s.ddr with chans := t.ddr.chans } ∧
    (chan t n).org = reg s (MC_ORG.off n) ∧ (chan t n).orgPresent = flag s (MC_STAT.PRESENT n) ∧
    RegsKept s t [MC_CMD.off n, MC_STAT.off n, GL_STALL_MAX.off]) ∧
  (∀ (s : State) (n size : Nat), n < nChans s → flag s (MC_STAT.TRAINING n) = true → (chan s n).orgPresent = true →
    bitsOf (chan s n).org.toNat 17 16 ≤ 1 → bitsOf (chan s n).org.toNat 15 14 ≤ 2 → 8 ≤ size → size ≤ 64 →
    ∃ t, exec (.channelTrainComplete n true size) s = .next t ∧ flag t (MC_STAT.TRAINING n) = false ∧
    flag t (MC_STAT.TRAINED n) = true ∧ fld t (MC_STAT.SIZE n) = size ∧ RegsKept s t [MC_STAT.off n, MC_CMD.off n] ∧
    t = { s with bus := { s.bus with regs := t.bus.regs }, ddr := { s.ddr with chans := t.ddr.chans } }) ∧
  (∀ (s : State) (n size : Nat), n < nChans s → flag s (MC_STAT.TRAINING n) = true →
    ∃ t, exec (.channelTrainComplete n false size) s = .next t ∧ flag t (MC_STAT.TRAINING n) = false ∧
    flag t (MC_STAT.TRAIN_FAIL n) = true ∧ flag t (MC_STAT.TRAINED n) = flag s (MC_STAT.TRAINED n) ∧ t.ddr = s.ddr) ∧
  (∀ (s : State) (a : Access) (n : Nat) (v : W32), n < 4 → Reached s a (MC_CMD.off n) → v.getLsbD 30 = true →
    chanInUse s n = false → ∃ t, exec (.mcRetire a n v) s = .next t ∧ flag t (MC_STAT.TRAINED n) = false ∧
    flag t (MC_STAT.RETIRED n) = true ∧
    (∀ x, mget 0 t.ddr.mem x = if x / 2 ^ 36 = n then 0 else mget 0 s.ddr.mem x) ∧ t.ddr.rings = s.ddr.rings) ∧
  (∀ (s : State) (a : Access) (n : Nat) (v : W32), n < 4 → Reached s a (MC_CMD.off n) → v.getLsbD 30 = true →
    chanInUse s n = true → ∃ t, exec (.mcRetire a n v) s = .next t ∧ flag t (MC_STAT.RETIRE_REF n) = true ∧ t.ddr = s.ddr) ∧
  (∀ (s : State) (n blk : Nat) (errs : List (Nat × Bool)), ¬ ScrubTurn s n blk → exec (.scrubRead n blk errs) s = .next s) ∧
  (∀ (s : State) (n blk : Nat), ScrubTurn s n blk → (∀ i < 8, wordErr s (n * 2 ^ 36 + 64 * blk + 8 * i) = 0) →
    ∃ t, exec (.scrubRead n blk []) s = .next t ∧ t = { s with ddr := { s.ddr with chans := t.ddr.chans } } ∧
    (chan t n).scrub = (blk + 1) % (chanUnits s n * 64)) ∧
  (∀ (s : State) (n blk j : Nat), ScrubTurn s n blk → blk < 2 ^ 30 → j < 8 →
    wordErr s (n * 2 ^ 36 + 64 * blk + 8 * j) = 1 → (∀ i < 8, i ≠ j → wordErr s (n * 2 ^ 36 + 64 * blk + 8 * i) = 0) →
    ∃ t, exec (.scrubRead n blk []) s = .next t ∧ wordErr t (n * 2 ^ 36 + 64 * blk + 8 * j) = 0 ∧ t.ddr.mem = s.ddr.mem ∧
    fld t (MC_CE_CNT.COUNT n) = sat 32 (fld s (MC_CE_CNT.COUNT n)) 1 ∧ flag t (MC_STAT.CE n) = true ∧
    fld t (MC_UE_CNT.COUNT n) = fld s (MC_UE_CNT.COUNT n)) ∧
  (∀ (s : State) (n blk j : Nat), ScrubTurn s n blk → blk < 2 ^ 30 → j < 8 →
    wordErr s (n * 2 ^ 36 + 64 * blk + 8 * j) = 2 → (∀ i < 8, i ≠ j → wordErr s (n * 2 ^ 36 + 64 * blk + 8 * i) = 0) →
    ∃ t, exec (.scrubRead n blk []) s = .next t ∧ t.ddr = { s.ddr with chans := t.ddr.chans } ∧
    fld t (MC_UE_CNT.COUNT n) = sat 32 (fld s (MC_UE_CNT.COUNT n)) 1 ∧ flag t (MC_STAT.UE n) = true ∧
    flag t IR_ALARM_STAT.MC_UE = true)

/-- R224, R225, R229, R232 to R234: ring commands.  What START gives up, what STOP leaves in the write buffer and the grounds of code 1
are logs 19 and 8; the end of the MCLK cycle is log 13. -/
def Obligations.RingCommands : Prop :=
  (∀ (s : State) (a : Access) (r : Nat) (v : W32) (x : Region), r < 16 → Reached s a (CR_CMD.off r) → v.getLsbD 31 = true →
    flag s (CR_STAT.RUNNING r) = false →
    x = ⟨fld s (CR_CFG.BIND r), fld s (CR_BASE.VALUE r), fld s (CR_SIZE.VALUE r)⟩ → regionOk s x = true →
    (∀ y ∈ barRegions s, regionsMeet s x y = false) → regionOwned s (ownRing s r) x = true →
    ∃ t, exec (.crStart a r v) s = .next t ∧ flag t (CR_STAT.RUNNING r) = true ∧ (cring t r).n = x.size * 64 ∧ (cring t r).wp = 0 ∧
    (cring t r).fill = 0 ∧ (cring t r).k = 0 ∧ (cring t r).inbox = [] ∧ flag t (CR_STAT.MARK_SET r) = false ∧ flag t (CR_STAT.STALLED r) = false ∧
    (cring t r).replay = none ∧ (cring t r).mig = none ∧ fld t (CR_BIND_RD.BIND r) = x.bind ∧ fld t (CR_BIND_RD.BASE r) = x.base ∧
    t.ddr.mem = s.ddr.mem) ∧
  (∀ (s : State) (a : Access) (r : Nat) (v : W32), r < 16 → Reached s a (CR_CMD.off r) → v.getLsbD 31 = true →
    flag s (CR_STAT.RUNNING r) = true → ∃ t, exec (.crStart a r v) s = .next t ∧ flag t (CR_STAT.CMD_REF r) = true ∧
    fld t (CR_STAT.REF_CODE r) = 1 ∧ t.ddr = s.ddr) ∧
  (∀ (s : State) (a : Access) (r : Nat) (v : W32), r < 16 → Reached s a (CR_CMD.off r) → v.getLsbD 30 = true →
    ∃ t, exec (.crStop a r v) s = .next t ∧ flag t (CR_STAT.RUNNING r) = false ∧
    (cring t r).inbox = (cring s r).inbox ∧ t.ddr.mem = s.ddr.mem ∧ (cring t r).wp = (cring s r).wp ∧ (cring t r).fill = (cring s r).fill) ∧
  (∀ (s : State) (r K : Nat), r < 16 → flag s (CR_STAT.RUNNING r) = true →
    (flag s (CR_STAT.MARK_SET r) = false ∨ flag s (CR_CFG.MODE r) = false) →
    K = min (fld s (CR_LOOKBACK.TILES r)) (min (cring s r).fill ((cring s r).n - 1)) →
    (∀ (a : Access) (v : W32), Reached s a (CR_CMD.off r) → v.getLsbD 29 = true → ∃ t, exec (.crMark a r v) s = .next t ∧
      cring t r = { cring s r with m := ((cring s r).wp + (cring s r).n - K) % (cring s r).n, k := K, skip := 0, overran := false } ∧
      flag t (CR_STAT.MARK_SET r) = true) ∧
    (∀ (pre post : List SentDec) (y : SentDec), s.fab.decs = pre ++ y :: post → y.d = .mark r → (∀ x ∈ pre, x.d ≠ .mark r) → inOrder s y = true →
      ∃ t T, exec (.markArrival r) s = .next t ∧ t.ddr = s.ddr ∧ t.bus = s.bus ∧
      t.fab = { s.fab with decs := pre ++ post, marksIn := s.fab.marksIn ++ [(r, T)] }) ∧
    (∀ T, s.fab.marksIn = [(r, T)] → (s.now + 1) * 5 / 8 = fclk s + 1 → (endCycle s).fab = { s.fab with marksIn := [] } ∧
      cring (endCycle s) r = { cring s r with m := ((cring s r).wp + (cring s r).n - K) % (cring s r).n, k := K, skip := 0, overran := false } ∧
      flag (endCycle s) (CR_STAT.MARK_SET r) = true)) ∧
  (∀ s : State, (s.now + 1) * 5 / 8 = fclk s → endCycle s = s) ∧
  (∀ (s : State) (a : Access) (r : Nat) (v : W32), r < 16 → Reached s a (CR_CMD.off r) → v.getLsbD 29 = true →
    flag s (CR_STAT.RUNNING r) = false → ∃ t, exec (.crMark a r v) s = .next t ∧ t.ddr = s.ddr ∧
    fld t (CR_MARK_IGN_CNT.COUNT r) = sat 32 (fld s (CR_MARK_IGN_CNT.COUNT r)) 1) ∧
  (∀ (s : State) (a : Access) (r : Nat) (v : W32), r < 16 → Reached s a (CR_CMD.off r) → v.getLsbD 28 = true →
    ∃ t, exec (.crRelease a r v) s = .next t ∧ flag t (CR_STAT.MARK_SET r) = false ∧ flag t (CR_STAT.STALLED r) = false ∧
    (cring t r).replay = none ∧ (cring t r).wp = (cring s r).wp ∧ t.ddr.mem = s.ddr.mem) ∧
  (∀ (s : State) (a : Access) (r h : Nat) (v : W32), r < 16 → Reached s a (CR_CMD.off r) → v.getLsbD 27 = true →
    h = fld s (CR_REPLAY.HRING r) → flag s (CR_STAT.MARK_SET r) = true → (cring s r).replay = none →
    ownHostRing s h = ownRing s r → streamRuns s h = true → (cring s r).k ≠ 0 → ∃ t R, exec (.crReplay a r v) s = .next t ∧
    (cring t r).replay = some R ∧ R.hring = h ∧ R.total = (cring s r).k ∧ R.next = (cring s r).m ∧ R.read = 0 ∧ R.done = 0 ∧
    flag t (CR_STAT.REPLAYING r) = true ∧ t.ddr.mem = s.ddr.mem) ∧
  (∀ (s : State) (a : Access) (r : Nat) (v : W32) (x : Region), r < 16 → Reached s a (CR_CMD.off r) → v.getLsbD 26 = true →
    flag s (CR_STAT.RUNNING r) = true → (cring s r).mig = none →
    x = ⟨fld s (CR_MIG.BIND r), fld s (CR_MIG.BASE r), (cring s r).n / 64⟩ → regionOk s x = true →
    (∀ y ∈ barRegions s, regionsMeet s x y = false) → regionOwned s (ownRing s r) x = true →
    ∃ t, exec (.crMigrate a r v) s = .next t ∧ cring t r = { cring s r with mig := some ⟨x.bind, x.base, (cring s r).wp, 0, 0, []⟩ } ∧
    flag t (CR_STAT.MIGRATING r) = true ∧ t.ddr.mem = s.ddr.mem)

/-- R226, R228, R229, R231, R233, R234, R236: slots of the capture rings.  The rounds of class 3, the note's own write and what a dropped
tile owes are logs 19 and 8. -/
def Obligations.RingSlots : Prop :=
  (∀ (s : State) (r code addr : Nat) (x u : Tile) (w : Option (Nat × Nat)) (rest : List Inbound), r < 16 →
    (cring s r).inbox = ⟨code, .tile x w⟩ :: rest → Served s r .wr → (cring s r).n ≠ 0 → flag s (CR_STAT.STALLED r) = false → dropsOf (cring s r) code = 0 → (cring s r).mig = none →
    (flag s (CR_STAT.MARK_SET r) = true → (cring s r).k < (cring s r).n) → x.slots.length = 7 →
    u = (if failsCheck s x then markCorrupt x else x) → addr = slotAddr s (ringRegion s r).bind (ringRegion s r).base (cring s r).wp →
    ∃ t, exec (.ringWrite r) s = .next t ∧ (cring t r).inbox = rest ∧ (∀ i < 64, mget 0 t.ddr.mem (addr + i) = (tileBytes u).getD i 0) ∧
    DdrBytesKept s t [(addr, 64)] ∧ (cring t r).wp = ((cring s r).wp + 1) % (cring s r).n ∧
    (cring t r).fill = min ((cring s r).fill + 1) (cring s r).n ∧
    (cring t r).k = (if flag s (CR_STAT.MARK_SET r) then (cring s r).k + 1 else (cring s r).k) ∧ (cring t r).m = (cring s r).m ∧
    ∀ q, q ≠ r → cring t q = cring s q) ∧
  (∀ (s : State) (r code : Nat) (x : Tile) (w : Option (Nat × Nat)) (rest : List Inbound), r < 16 → (cring s r).inbox = ⟨code, .tile x w⟩ :: rest →
    (cring s r).n ≠ 0 → flag s (CR_STAT.STALLED r) = true → ∃ t, exec (.ringWrite r) s = .next t ∧ t.ddr.mem = s.ddr.mem ∧
    (cring t r).wp = (cring s r).wp ∧ dropsOf (cring t r) code = dropsOf (cring s r) code + 1 + owed x ∧
    fld t (CR_DROP_CNT.COUNT r) = sat 32 (fld s (CR_DROP_CNT.COUNT r)) 1) ∧
  (∀ (s : State) (r code addr : Nat) (x : Tile) (w : Option (Nat × Nat)) (rest : List Inbound), r < 16 →
    (cring s r).inbox = ⟨code, .tile x w⟩ :: rest → Served s r .wr → (cring s r).n ≠ 0 → mustStall s r = false →
    dropsOf (cring s r) code ≠ 0 → addr = slotAddr s (ringRegion s r).bind (ringRegion s r).base (cring s r).wp → (cring s r).mig = none →
    ∃ t, exec (.ringWrite r) s = .next t ∧ (cring t r).inbox = (cring s r).inbox ∧ dropsOf (cring t r) code = 0 ∧
    (∀ i < 64, mget 0 t.ddr.mem (addr + i) = ((ringNote code (tileSeq x) (dropsOf (cring s r) code) 5).flatMap wordBytes).getD i 0) ∧
    DdrBytesKept s t [(addr, 64)] ∧ (cring t r).wp = ((cring s r).wp + 1) % (cring s r).n) ∧
  (∀ (s : State) (r code n : Nat) (x : Tile) (w : Option (Nat × Nat)) (rest : List Inbound), r < 16 →
    (cring s r).inbox = ⟨code, .tile x w⟩ :: rest → Served s r .wr → (cring s r).n ≠ 0 → mustStall s r = false →
    dropsOf (cring s r) code = 0 → (cring s r).splice = some n → ∃ t, exec (.ringWrite r) s = .next t ∧
    (1 < n → (cring t r).splice = some (n - 1) ∧ (cring t r).replay = (cring s r).replay) ∧
    (n ≤ 1 → (cring t r).splice = none ∧ (flag s (CR_STAT.MARK_SET r) = true → (cring s r).replay = none →
      ownHostRing s (fld s (CR_REPLAY.HRING r)) = ownRing s r → streamRuns s (fld s (CR_REPLAY.HRING r)) = true →
      ∃ R, (cring t r).replay = some R ∧ R.total = (cring s r).k + 1 ∧ R.next = (cring s r).m ∧ flag t (CR_STAT.REPLAYING r) = true))) ∧
  (∀ (s : State) (r : Nat) (R : Replay), (cring s r).replay = some R → R.cyc = some (fclk s) → ∀ errs, exec (.replaySlotRead r errs) s = .next s) ∧
  (∀ (s : State) (r g num part addr : Nat) (rest : List Inbound), r < 16 →
    (cring s r).inbox = ⟨g, .reservation num part⟩ :: rest → Served s r .wr → (cring s r).n ≠ 0 →
    (fillQueued s (.ring r) g num part || rest.any fun y => y.code == g && isFillOf num part y.item) = true →
    flag s (CR_STAT.STALLED r) = false → flag s (CR_STAT.MARK_SET r) = false → (cring s r).mig = none →
    addr = slotAddr s (ringRegion s r).bind (ringRegion s r).base (cring s r).wp → ∃ t, exec (.ringWrite r) s = .next t ∧
    (∀ i < 64, mget 0 t.ddr.mem (addr + i) = ((placeholder g num part).flatMap wordBytes).getD i 0) ∧ DdrBytesKept s t [(addr, 64)] ∧
    resvOf (cring t r) g = some ((cring s r).wp, num, part) ∧ (cring t r).wp = ((cring s r).wp + 1) % (cring s r).n) ∧
  (∀ (s : State) (r addr : Nat) (R : Replay) (x : Tile), (cring s r).replay = some R → nextReplay s R.hring = some r →
    Served s r .rd → R.held = [] → R.passed = 0 → addr = readAddr s r R.next → (∀ i < 8, wordErr s (addr + 8 * i) = 0) →
    tileWords x = (List.range 8).map (fun i => ddrWord s (addr + 8 * i)) → isNote (tileWords x) = false → failsCheck s x = false →
    ∃ t, exec (.replaySlotRead r []) s = .next t ∧ (stream t R.hring).rep = [.tile (tileGroup x) x] ∧ t.ddr.mem = s.ddr.mem ∧
    (R.done + 1 < R.total →
      (cring t r).replay = some { R with read := R.read + 1, done := R.done + 1, next := (R.next + 1) % (cring s r).n,
                                         cyc := some (fclk s) }) ∧
    (R.total ≤ R.done + 1 → (cring t r).replay = none ∧ flag t (CR_STAT.REPLAYING r) = false)) ∧
  (∀ (s : State) (r k src dst : Nat) (m : Migration), r < 16 → (cring s r).mig = some m → Served s r .cp → k = (m.start + m.copied) % (cring s r).n →
    inNew m (cring s r).n k = false → src = slotAddr s (ringRegion s r).bind (ringRegion s r).base k →
    dst = slotAddr s m.bind m.base k → (∀ i < 8, wordErr s (src + 8 * i) = 0) → ∃ t, exec (.migrationCopy r []) s = .next t ∧
    (∀ i < 64, mget 0 t.ddr.mem (dst + i) = mget 0 s.ddr.mem (src + i)) ∧ DdrBytesKept s t [(dst, 64)] ∧
    (m.copied + 1 < (cring s r).n → (cring t r).mig = some { m with copied := m.copied + 1 } ∧ t.bus = s.bus) ∧
    ((cring s r).n ≤ m.copied + 1 → (cring t r).mig = none ∧ flag t (CR_STAT.MIGRATING r) = false ∧
      fld t (CR_BIND_RD.BIND r) = m.bind % 2 ^ 3 ∧ fld t (CR_BIND_RD.BASE r) = m.base % 2 ^ 26)) ∧
  (∀ (s : State) (r : Nat) (errs : List (Nat × Bool)),
    (¬ Served s r .wr → exec (.ringWrite r) s = .next s) ∧ (¬ Served s r .rd → exec (.replaySlotRead r errs) s = .next s) ∧
    (¬ Served s r .cp → exec (.migrationCopy r errs) s = .next s)) ∧
  (∀ (s : State) (n : Nat) (k : Class3), trained s n = true → (waits3 s n k = true) → turn2 s n = false →
    ∃ j, waits3 s n j = true ∧ turn3 s n j = true) ∧
  (∀ (s : State) (r g num part : Nat) (rest : List Inbound), r < 16 → (cring s r).inbox = ⟨g, .reservation num part⟩ :: rest →
    Served s r .wr → (cring s r).n ≠ 0 → flag s (CR_STAT.STALLED r) = false → flag s (CR_STAT.MARK_SET r) = false →
    fillQueued s (.ring r) g num part = false → (∀ y ∈ rest, y.code = g → isFillOf num part y.item = false) →
    ∃ t, exec (.ringWrite r) s = .next t ∧ resvOf (cring t r) g = none ∧ (cring t r).wp = ((cring s r).wp + 1) % (cring s r).n)

/-- R123, R239 to R241, R243, R244, R247, R258, R265, R275: the packer streams.  The encoder's round and the losses owed again are log 19,
D3hot log 15. -/
def Obligations.PackerStreams : Prop :=
  (∀ (s : State) (h code : Nat) (x : Tile) (w : Option (Nat × Nat)) (b : Blk), h < 64 → EncTurn s h → (stream s h).rep = [] → (stream s h).live = some ⟨code, .tile x w⟩ → (stream s h).held = [] → owedDrops s h code = 0 →
    (stream s h).blk = some b → b.rep = false → b.mode = 0 → pkMode s h = 0 → blkSize b 512 0 ≤ b.limit → flushDue s h b = false →
    x.slots.length = 7 →
    failsCheck s x = false → ∃ t y, exec (.packerTakeItem h false 0) s = .next t ∧ (stream t h).live = none ∧
    (stream t h).blk = some y ∧ y.nbits = b.nbits + 512 ∧ y.pay = b.pay + leNat (tileBytes x) * 2 ^ b.nbits ∧ y.hasTile = true ∧
    y.list = b.list ∧ y.refT = (if b.hasTile then b.refT else (t64 s).toNat) ∧
    fld t (PK_IN_CNT.COUNT h) = sat 32 (fld s (PK_IN_CNT.COUNT h)) 1 ∧ t.host.mem = s.host.mem) ∧
  (∀ (s : State) (h code : Nat) (x : Tile) (w : Option (Nat × Nat)) (b : Blk), h < 64 → EncTurn s h → (stream s h).rep = [] → (stream s h).live = some ⟨code, .tile x w⟩ → (stream s h).held = [] → owedDrops s h code = 0 →
    (stream s h).blk = some b → b.rep = false → b.mode ≠ 0 → pkMode s h = b.mode → flushDue s h b = false → failsCheck s x = false →
    (b.mode < 4 → mustEscape x = true → blkSize b 451 1 ≤ b.limit → ∃ t y, exec (.packerTakeItem h false 0) s = .next t ∧
      (stream t h).live = none ∧ (stream t h).blk = some y ∧ y.list = b.list ++ [x.hdr] ∧ y.pay = (codeEscape b x).pay ∧
      y.nbits = (codeEscape b x).nbits ∧ y.hasTile = true) ∧
    (b.mode = 4 → irregular x = true → blkSize b 3584 1 ≤ b.limit → ∃ t y, exec (.packerTakeItem h false 0) s = .next t ∧
      (stream t h).live = none ∧ (stream t h).blk = some y ∧ y.list = b.list ++ [x.hdr] ∧ y.raws = b.raws ++ [x] ∧ y.hasTile = true)) ∧
  (∀ (s : State) (h code : Nat) (x : Tile) (w : Option (Nat × Nat)), h < 64 → EncTurn s h → (stream s h).rep = [] → (stream s h).live = some ⟨code, .tile x w⟩ → (stream s h).blk = none → (stream s h).bufs = [] →
    running s (fld s (HI_RING_CFG.PAIR h)) = false → ∃ t, exec (.packerTakeItem h false 0) s = .next t ∧ t.host.mem = s.host.mem ∧
    (flag s (PK_CFG.DROP h) = false → (stream t h).live = (stream s h).live ∧ flag t (PK_STAT.BUF_WAIT h) = true) ∧
    (flag s (PK_CFG.DROP h) = true → (stream t h).live = none ∧ owedDrops t h code = owedDrops s h code + 1 + owed x ∧
      flag t (PK_STAT.DROPPED h) = true ∧ fld t (PK_DROP_CNT.COUNT h) = sat 32 (fld s (PK_DROP_CNT.COUNT h)) 1)) ∧
  (∀ (s : State) (h reason code seq count : Nat) (b : Blk), h < 64 → EncTurn s h → (stream s h).live = none → (stream s h).rep = [.gap reason code seq count] →
    (stream s h).blk = some b → b.rep = true → blkSize b 0 1 ≤ b.limit → flushDue s h b = false →
    ∃ t, exec (.packerTakeItem h true 0) s = .next t ∧
    (stream t h).rep = [] ∧ (stream t h).blk = some { b with list := b.list ++ [gapEntry reason code seq count] } ∧ t.bus = s.bus) ∧
  (∀ (s : State) (h : Nat) (rep : Bool) (f : Nat), ¬ EncTurn s h → exec (.packerTakeItem h rep f) s = .next s) ∧
  (∀ (s : State) (h addr n : Nat) (l : List Buf) (x : Buf) (b : Blk), h < 64 → exportOff s h = false → (stream s h).blk = some b →
    (stream s h).bufs = l ++ [x] → x.closed = false → b.mode < 4 → b.q < 16 → b.at_ + 1600 * max 1 (fld s (PK_CFG.FLUSH h)) ≤ s.now →
    addr = x.addr + b.off → n = up64 (64 + 8 * ((b.nbits + 63) / 64) + 8 * b.list.length) →
    ∃ t y, exec (.pkFlushExpiry h) s = .next t ∧ (stream t h).blk = none ∧ (stream t h).bufs = l ++ [y] ∧ y.used = b.off + n ∧
    y.blocks = x.blocks ++ [(b.seq, blkFlags b.rep b.corrupt b.rawMarked)] ∧ HostBytesKept s t [(addr, n)] ∧
    mreadBytes 0 t.host.mem (addr + 6) 2 = [0xC7, 0xB1] ∧
    mreadBytes 0 t.host.mem (addr + 8) 8 = leBytes (h * 2 ^ 48 + b.list.length % 2 ^ 16 * 2 ^ 32 + b.seq % 2 ^ 32) 8 ∧
    mreadBytes 0 t.host.mem (addr + 64) (8 * ((b.nbits + 63) / 64)) = leBytes b.pay (8 * ((b.nbits + 63) / 64)) ∧
    mreadBytes 0 t.host.mem (addr + 64 + 8 * ((b.nbits + 63) / 64)) (8 * b.list.length) = b.list.flatMap wordBytes ∧
    pair64 t (PK_OUT_LO.off h) (PK_OUT_HI.off h) = (pair64 s (PK_OUT_LO.off h) (PK_OUT_HI.off h) + n) % 2 ^ 64) ∧
  (∀ (s : State) (h : Nat), h < 64 → (stream s h).ratioAt + 1600000 ≤ s.now → ∃ t, exec (.pkRatioUpdate h) s = .next t ∧
    stream t h = { stream s h with inBytes := 0, outBytes := 0, ratioAt := s.now } ∧
    fld t (PK_RATIO.RATIO h) =
      (if (stream s h).outBytes = 0 then 0 else min (2 ^ 16 - 1) ((stream s h).inBytes * 256 / (stream s h).outBytes)) ∧
    RegsKept s t [PK_RATIO.off h]) ∧
  (∀ (s : State) (h addr k : Nat) (b : Buf), h < 64 → exportOff s h = false → (stream s h).bufs = [b] → b.closed = false → b.pending = 0 →
    (stream s h).blk = none → b.lastAt = some k → k + 160000 ≤ s.now → addr = entryAddr s h (devIdx s h) →
    ∃ t, exec (.bufferIdleTimeout h) s = .next t ∧ (stream t h).bufs = [] ∧ devIdx t h = (devIdx s h + 1) % 2 ^ 16 ∧
    mreadBytes 0 t.host.mem addr 32 = completionBytes { b with part := true } (t64 s) ∧ HostBytesKept s t [(addr, 32)]) ∧
  (∀ (s : State) (r : Nat), r < 64 → stopping s r = true → (fnHost s (ownHostRing s r)).d3hot = false → (ringKind s r = 1 → (hring s r).cmd = none) →
    (ringKind s r = 0 → (stream s r).asides = [] ∧ (stream s r).live = none) → ∃ t, exec (.ringStopped r) s = .next t ∧
    running t r = false ∧ stopping t r = false ∧ (hring t r).slotDue = some (devIdx t r) ∧
    (ringKind s r = 0 → stream t r = {}) ∧ (ringKind s r ≠ 0 → devIdx t r = devIdx s r ∧ t.host.mem = s.host.mem))

/-- R249: VLC(v). -/
def Obligations.VlcCode : Prop :=
  (∀ (p n : Nat) (v : Int), -(2 ^ 47) ≤ v → v < 2 ^ 47 → ∃ c w z, [0, 4, 8, 12, 16, 24, 32, 48][c]? = some w ∧
    z = ((BitVec.ofInt 48 v <<< 1) ^^^ ((BitVec.ofInt 48 v).sshiftRight 47)).toNat ∧ z < 2 ^ w ∧
    (∀ d y, d < c → [0, 4, 8, 12, 16, 24, 32, 48][d]? = some y → 2 ^ y ≤ z) ∧
    putVlc (p, n) v = (p + c * 2 ^ n + z * 2 ^ (n + 3), n + 3 + w)) ∧
  (((BitVec.ofInt 48 0 <<< 1) ^^^ ((BitVec.ofInt 48 0).sshiftRight 47)).toNat = 0 ∧
    ((BitVec.ofInt 48 (-1) <<< 1) ^^^ ((BitVec.ofInt 48 (-1)).sshiftRight 47)).toNat = 1 ∧
    ((BitVec.ofInt 48 1 <<< 1) ^^^ ((BitVec.ofInt 48 1).sshiftRight 47)).toNat = 2 ∧
    ((BitVec.ofInt 48 (-2) <<< 1) ^^^ ((BitVec.ofInt 48 (-2)).sshiftRight 47)).toNat = 3)

/-- R301, R303, R305 to R310, R312: the servo. The byte layout of PTP messages is the model's (log 21, PRESUMED). -/
def Obligations.ServoMessages : Prop :=
  (∀ (s : State) (fr : Frame) (p : PtpAt) (e : Nat), fromParent s fr 0 = some p → servoState s = 3 → s.tp.prov = none →
    (∀ d ∈ s.tp.dreq, d.m4 = none) → s.tp.lastEdge = some e → e < ingressEdge s fr → ∃ t, exec (.ptpSyncReceive fr) s = .next t ∧
    fld t TP_SYNC_CNT.COUNT = sat 32 (fld s TP_SYNC_CNT.COUNT) 1 ∧ t.tp.lastT2 = some (ingressT s fr) ∧ t.tp.syncAt = some s.now ∧
    (ptpTwoStep fr.bytes p = false →
      LockedStep (takeUsed s) t (ptpTime fr.bytes p + ptpCorr fr.bytes p) (ingressT s fr) (ingressEdge s fr - e)) ∧
    (ptpTwoStep fr.bytes p = true → t.tp.pend = some ⟨ptpSeq fr.bytes p, ingressT s fr, ptpCorr fr.bytes p, ingressEdge s fr,
      ingressEdge s fr - e⟩ ∧ t.tp.i = s.tp.i ∧ t.pl = s.pl ∧ t.tp.dreq = s.tp.dreq.map fun d =>
        if d.t2 < ingressT s fr ∧ ingressT s fr < d.t3 then { d with t2 := ingressT s fr, m1 := none } else d)) ∧
  (∀ (s : State) (fr : Frame) (p : PtpAt) (y : SyncPend), fromParent s fr 8 = some p → servoState s = 3 → s.tp.prov = none →
    (∀ d ∈ s.tp.dreq, d.m4 = none) → s.tp.pend = some y → y.seq = ptpSeq fr.bytes p → y.edges ≠ 0 →
    ∃ t, exec (.ptpFollowUpReceive fr) s = .next t ∧
    (∀ d a, delayD s = some d → latestAnchor s = some a → t.tp.recent.length = min 4 (s.tp.recent.length + 1)) ∧
    LockedStep s t (ptpTime fr.bytes p + y.corr + ptpCorr fr.bytes p) y.t2 y.edges) ∧
  (∀ (s : State) (fr : Frame) (p : PtpAt) (y : SyncPend) (d : DreqOut) (m4 : Int), fromParent s fr 8 = some p → servoState s = 3 →
    s.tp.pathQ = none → s.tp.samples = [] → s.tp.dreq = [d] → d.t2 = y.t2 → d.m1 = none → d.m4 = some m4 → s.tp.pend = some y →
    y.seq = ptpSeq fr.bytes p → ∃ t, exec (.ptpFollowUpReceive fr) s = .next t ∧ t.tp.dreq = [] ∧
    t.tp.samples = [((m4 - (ptpTime fr.bytes p + y.corr + ptpCorr fr.bytes p)) - (d.t3 - d.t2) * 40).tdiv 2]) ∧
  (∀ (s : State) (fr : Frame) (p : PtpAt) (d : DreqOut) (m1 : Int), fromParent s fr 9 = some p → d ∈ s.tp.dreq →
    (∀ x ∈ s.tp.dreq, x.seq = d.seq → x = d) → ptpSeq fr.bytes p = d.seq → ptpRequester fr.bytes p = portId s (slavePort s) →
    d.m4 = none → d.m1 = some m1 → s.tp.dev = [] → ∃ t, exec (.ptpDelayRespReceive fr) s = .next t ∧
    (∀ x ∈ t.tp.dreq, x.seq ≠ d.seq) ∧ t.tp.dreqLog = ptpLog fr.bytes p ∧
    t.tp.samples = ((((ptpTime fr.bytes p - ptpCorr fr.bytes p) - m1) - (d.t3 - d.t2) * 40).tdiv 2 :: s.tp.samples).take 64 ∧
    servoState t = servoState s) ∧
  (∀ (s : State) (fr : Frame) (p : PtpAt) (d : DreqOut), fromParent s fr 9 = some p → d ∈ s.tp.dreq →
    (∀ x ∈ s.tp.dreq, x.seq = d.seq → x = d) → ptpSeq fr.bytes p = d.seq → ptpRequester fr.bytes p = portId s (slavePort s) →
    d.m4 = none → d.m1 = none → ∃ t, exec (.ptpDelayRespReceive fr) s = .next t ∧ t.tp.samples = s.tp.samples ∧
    { d with m4 := some (ptpTime fr.bytes p - ptpCorr fr.bytes p) } ∈ t.tp.dreq) ∧
  (∀ (s : State) (fr : Frame) (p : PtpAt), forServo s fr = some p → ptpType fr.bytes p = 9 →
    (ptpRequester fr.bytes p = portId s (slavePort s) → ∀ d ∈ s.tp.dreq, d.seq ≠ ptpSeq fr.bytes p) →
    ∃ t, exec (.ptpDelayRespReceive fr) s = .next t ∧ fld t TP_DISC_CNT.COUNT = sat 32 (fld s TP_DISC_CNT.COUNT) 1 ∧ t.tp = s.tp ∧
    fld t (EP_RX_CNT.COUNT fr.port) = sat 32 (fld s (EP_RX_CNT.COUNT fr.port)) 1) ∧
  (∀ (s : State) (fr : Frame) (p : PtpAt), forServo s fr = some p → ptpType fr.bytes p = 11 → flag s TP_CFG.BMCA = true →
    ptpSource fr.bytes p ≠ portId s 0 → ptpSource fr.bytes p ≠ portId s 1 → beAt fr.bytes (p.off + 61) 2 < 255 →
    ∃ t, exec (.ptpAnnounceReceive fr) s = .next t ∧
    (s.tp.foreign = [] → t.tp.parent = s.tp.parent ∧ ∃ f, t.tp.foreign = [f] ∧ f.id = ptpSource fr.bytes p ∧ f.times = [s.now]) ∧
    (∀ g n, s.tp.foreign = [g] → g.id = ptpSource fr.bytes p → g.times = [n] → s.now ≤ n + 4 * logTicks (ptpLog fr.bytes p) →
      t.tp.parent = some (ptpSource fr.bytes p))) ∧
  (∀ (s : State) (n : Nat) (h : List Byte), servoOn s = true → 2 ≤ servoState s → s.tp.syncHead = some h →
    s.tp.dreqNext ≤ s.now → wireFree s (slavePort s) = true → (eport s (slavePort s)).fwd = [] → (eport s (slavePort s)).launch = [] →
    ∃ t o, exec (.delayReqSend n) s = .next t ∧ t.tp.ownReq = false ∧ t.free = s.free + 1 ∧ s.now ≤ t.tp.dreqNext ∧
    t.tp.dreqNext ≤ s.now + 2 * logTicks s.tp.dreqLog ∧ t.tp.dseq = (s.tp.dseq + 1) % 2 ^ 16 ∧
    (eport t (slavePort s)).sent = some (dreqFrame s (slavePort s) h s.tp.dseq o, egressT s (slavePort s) n) ∧
    fld t TP_DREQ_CNT.COUNT = sat 32 (fld s TP_DREQ_CNT.COUNT) 1 ∧
    fld t (EP_TX_CNT.COUNT (slavePort s)) = sat 32 (fld s (EP_TX_CNT.COUNT (slavePort s))) 1) ∧
  (∀ (s : State) (n : Nat) (h : List Byte), servoOn s = true → 2 ≤ servoState s → s.tp.syncHead = some h →
    (s.tp.dreqNext ≤ s.now → wireFree s (slavePort s) = false → ∃ t, exec (.delayReqSend n) s = .next t ∧ s.now ≤ t.tp.dreqNext ∧
      t.tp.dreqNext ≤ s.now + 2 * logTicks s.tp.dreqLog ∧
      t = { s with free := s.free + 1, tp := { s.tp with ownReq := true, dreqNext := t.tp.dreqNext } }) ∧
    (s.now < s.tp.dreqNext → exec (.delayReqSend n) s = .next s)) ∧
  (∀ (s : State) (n : Nat), s.tp.syncAt = some n → servoOn s = true → maySlip s = true →
    n + max 1 (usedFld s TP_QUAR.LOSS_N) * logTicks s.tp.syncLog ≤ s.now → ∃ t, exec .syncLossTimeout s = .next t ∧ servoState t = 6 ∧
    flag t TP_STAT.SYNC_LOST = true ∧ t.tp.anchors = s.tp.anchors ∧ t.pl = s.pl) ∧
  (∀ (s : State) (a : Access) (v : W32) (x : Anchor) (d m : Int) (k : Nat), Reached s a TP_CMD.off → v.getLsbD 31 = true →
    servoOn s = true → servoState s = 5 → s.tp.td = some d → latestAnchor s = some x →
    m = x.at_ d - medianLow (s.tp.quar.map (·.ok)) → 0 ≤ m → k = (fld s TP_ANCH_STAT.LATEST + 1) % 256 →
    ∃ t y, exec (.tpAnchor a v) s = .next t ∧ anchorAt t k = some y ∧ y.mt = m ∧ y.ta = BitVec.ofInt 104 d ∧ y.reason = 2 ∧
    y.adj = s.pl.adj ∧ fld t TP_ANCH_STAT.LATEST = k ∧ fld t TP_ANCHOR_CNT.COUNT = sat 32 (fld s TP_ANCHOR_CNT.COUNT) 1 ∧
    servoState t = (if mustHold s then 6 else 3) ∧ (∀ j, j ≠ k → anchorAt t j = anchorAt s j)) ∧
  (∀ (s : State) (a : Access) (v : W32), Reached s a TP_CMD.off → v.getLsbD 30 = true → servoOn s = true → s.tp.parent.isSome = true →
    ∃ t, exec (.tpRestart a v) s = .next t ∧ servoState t = 2 ∧ t.tp.acq = true ∧ t.tp.lockRun = 0 ∧ t.tp.freq = none ∧
    t.tp.anchors = s.tp.anchors ∧ t.tp.i = s.tp.i ∧ t.tp.samples = s.tp.samples ∧ t.pl = s.pl)

/-- R301, R302, R306, R314 to R319: ports.  The byte layout of PTP messages, the corrected field and the phase of the 2.56 ns grid are the
model's (log 21, PRESUMED). -/
def Obligations.PortsAndPps : Prop :=
  (∀ (s : State) (fr : Frame), portUp s fr.port = true → servoTakes s fr = false → forwardable s fr = false →
    ∃ t, exec (.ethFrameReceive fr) s = .next t ∧ fld t (EP_RX_CNT.COUNT fr.port) = sat 32 (fld s (EP_RX_CNT.COUNT fr.port)) 1 ∧
    OnlyRegs s t [EP_RX_CNT.off fr.port, EP_RX_ERR_CNT.off fr.port, EP_STAT.off fr.port, TP_DISC_CNT.off] ∧
    (∀ p, goodPtp s fr = some p → unsupported s fr.bytes p = true → fld t TP_DISC_CNT.COUNT = sat 32 (fld s TP_DISC_CNT.COUNT) 1) ∧
    (fr.fcsOk = false → flag t (EP_STAT.FCS_ERR fr.port) = true ∧
      fld t (EP_RX_ERR_CNT.COUNT fr.port) = sat 32 (fld s (EP_RX_ERR_CNT.COUNT fr.port)) 1)) ∧
  (∀ (s : State) (fr : Frame) (p : PtpAt), goodPtp s fr = some p → p.dstOk = true → flag s TP_CFG.TC_EN = true →
    ((eport s (1 - fr.port)).fwd.length < 32 → ∃ t, exec (.ptpForward fr) s = .next t ∧
      (eport t (1 - fr.port)).fwd = (eport s (1 - fr.port)).fwd ++ [⟨fr.bytes, ptpEvent fr.bytes p, ingressT s fr⟩]) ∧
    (32 ≤ (eport s (1 - fr.port)).fwd.length → ∃ t, exec (.ptpForward fr) s = .next t ∧ t.tp = s.tp ∧
      flag t (EP_STAT.FWD_DROP (1 - fr.port)) = true ∧
      fld t (EP_FWD_DROP_CNT.COUNT (1 - fr.port)) = sat 32 (fld s (EP_FWD_DROP_CNT.COUNT (1 - fr.port))) 1)) ∧
  (∀ (s : State) (p n : Nat) (f : Fwd), wireFree s p = true → (eport s p).fwd = [f] → (eport s p).launch = [] →
    s.tp.ownReq = false → ∃ t, exec (.frameTransmit p n) s = .next t ∧ (eport t p).fwd = [] ∧
    (eport t p).sent = some (if f.event then corrected f.bytes ((egressT s p n - f.tin) * 40) else f.bytes, egressT s p n) ∧
    fld t (EP_FWD_CNT.COUNT p) = sat 32 (fld s (EP_FWD_CNT.COUNT p)) 1 ∧
    fld t (EP_TX_CNT.COUNT p) = sat 32 (fld s (EP_TX_CNT.COUNT p)) 1) ∧
  (∀ (s : State) (c : Command) (p n : Nat) (bs : List Byte), CmdTaken s c 0x400 → p = bitsOf c.p1.toNat 16 16 →
    n = bitsOf c.p1.toNat 10 0 → 60 ≤ n → n ≤ 1518 → cmdPart s c = 0 → c.data = some bs → bs.length = n →
    (eport s p).launch.length < 256 → (n + 63) / 64 ≤ fld s (EP_LAUNCH_STAT.FREE p) →
    ∃ t, exec (.epFrameLaunch c) s = .next t ∧ CmdDone s t c 0 1 ∧ (eport t p).launch = (eport s p).launch ++ [⟨c.p0, c.tag, bs⟩] ∧
    fld t (EP_LAUNCH_STAT.QUEUED p) = (eport s p).launch.length + 1 ∧ HostBytesKept s t [(statusAt s c, 4)]) ∧
  (∀ (s : State) (c : Command) (p n : Nat), CmdTaken s c 0x400 → p = bitsOf c.p1.toNat 16 16 → n = bitsOf c.p1.toNat 10 0 → 60 ≤ n →
    n ≤ 1518 → cmdPart s c = 0 → (256 ≤ (eport s p).launch.length ∨ fld s (EP_LAUNCH_STAT.FREE p) < (n + 63) / 64) →
    ∃ t, exec (.epFrameLaunch c) s = .next t ∧ CmdDone s t c 0 6 ∧ t.tp = s.tp) ∧
  (∀ (s : State) (p w : Nat) (x : Int) (e : Launch) (r : List Launch), p < 2 → (eport s p).launch = e :: r → r.length < 256 →
    portUp s p = true → (eport s p).headAt = some (x, w) →
    (launchPassed s p e x w = false → Int.ofNat (s.now * 125) < headLaunch s p e w → exec (.frameLaunch p) s = .next s) ∧
    (launchPassed s p e x w = false → headLaunch s p e w ≤ Int.ofNat (s.now * 125) → ∃ t, exec (.frameLaunch p) s = .next t ∧
      (eport t p).launch = r ∧ (eport t p).sent = some (e.bytes, launchedT s p (headLaunch s p e w)) ∧
      (eport t p).busy = (headLaunch s p e w).toNat + (e.bytes.length + 24) * 64 ∧ fld t (EP_LAUNCH_STAT.QUEUED p) = r.length ∧
      fld t (EP_LAUNCH_CNT.COUNT p) = sat 32 (fld s (EP_LAUNCH_CNT.COUNT p)) 1) ∧
    (launchPassed s p e x w = true → ∃ t, exec (.frameLaunch p) s = .next t ∧ (eport t p).launch = r ∧
      (eport t p).sent = (eport s p).sent ∧ flag t (EP_STAT.LATE p) = true ∧
      fld t (EP_LATE_CNT.COUNT p) = sat 32 (fld s (EP_LATE_CNT.COUNT p)) 1)) ∧
  (∀ (s : State) (p : Nat) (e : Launch) (r : List Launch), p < 2 → (eport s p).launch = e :: r → flag s (EP_STAT.LINK p) = false →
    ∃ t, exec (.frameLaunch p) s = .next t ∧ (eport t p).launch = r ∧ (eport t p).sent = (eport s p).sent ∧
    fld t (EP_LINKDROP_CNT.COUNT p) = sat 32 (fld s (EP_LINKDROP_CNT.COUNT p)) 1) ∧
  (∀ (s : State) (p : Nat), p < 2 → flag s (EP_STAT.LINK p) = true → flag s (EP_CFG.EN p) = false →
    ∃ t, exec (.frameLaunch p) s = .next t ∧ eport t p = { eport s p with headAt := none } ∧ t.bus = s.bus) ∧
  (∀ (s : State) (n : Nat), servoOn s = true → s.tp.syncHead = none → (eport s (slavePort s)).fwd = [] →
    ∃ t, exec (.frameTransmit (slavePort s) n) s = .next t ∧ (eport t (slavePort s)).sent = (eport s (slavePort s)).sent ∧
    t.tp.ownReq = s.tp.ownReq ∧ t.bus = s.bus) ∧
  (∀ (s : State) (a : Access) (p : Nat) (v : W32), p < 2 → Reached s a (EP_CMD.off p) → v.getLsbD 31 = true →
    ∃ t, exec (.epFlush a p v) s = .next t ∧ (eport t p).launch = [] ∧ fld t (EP_LAUNCH_STAT.QUEUED p) = 0 ∧
    fld t (EP_LAUNCH_STAT.FREE p) = 1024 ∧
    fld t (EP_FLUSH_CNT.COUNT p) = sat 32 (fld s (EP_FLUSH_CNT.COUNT p)) (eport s p).launch.length) ∧
  (∀ (s : State) (a : Access) (p : Nat) (v : W32), p < 2 → Reached s a (EP_CMD.off p) → v.getLsbD 30 = true →
    ∃ t, exec (.epLinkReset a p v) s = .next t ∧ flag t (EP_STAT.LINK p) = false ∧
    (flag s (EP_STAT.LINK p) = true → flag t (EP_STAT.LINK_DOWN p) = true ∧
      (servoOn s = true → p = slavePort s → maySlip s = true → servoState t = 6))) ∧
  (∀ (s : State) (p : Nat) (up : Bool), p < 2 → ∃ t, exec (.ethLinkChange p up) s = .next t ∧ flag t (EP_STAT.LINK p) = up ∧
    (eport t p).launch = (eport s p).launch ∧ (flag s (EP_STAT.LINK p) = up → t = s)) ∧
  (∀ (s : State) (k : Int), flag s TP_PPS_CFG.OE = true → ppsIndex s = some k → s.tp.ppsSeen < k →
    (∀ n, s.tp.ppsAt = some n → n + ppsWidth s + 16000 ≤ s.now) →
    exec .ppsOutRise s = .next { s with tp := { s.tp with ppsSeen := k, ppsHigh := true, ppsAt := some s.now } }) ∧
  (∀ (s : State) (n : Nat), s.tp.ppsHigh = true → s.tp.ppsAt = some n → n + 16000 * max 1 (fld s TP_PPS_CFG.WIDTH) ≤ s.now →
    exec .ppsOutFall s = .next { s with tp := { s.tp with ppsHigh := false } }) ∧
  (∀ (s : State), s.pl.running = true → ∃ t, exec .ppsInEdge s = .next t ∧
    pair64 t TP_PPSIN_T_LO.off TP_PPSIN_T_HI.off = tNow s % 2 ^ 64 ∧
    fld t TP_PPSIN_STAT.SEQ = (fld s TP_PPSIN_STAT.SEQ + 1) % 2 ^ 8 ∧
    OnlyRegsAndNotices s t [TP_PPSIN_T_LO.off, TP_PPSIN_T_HI.off, TP_PPSIN_STAT.off])

/-- R273, R323, R324, R326 to R328: storing, starting and stopping.  The states under code 1, the values after a failed load and the STOP of
a pending start are log 22. -/
def Obligations.SegmentStore : Prop :=
  (∀ (s : State) (a : Access) (q : Nat) (v : W32) (x : Region), q < 4 → Reached s a (PG_STORE_CFG.off q) → v.getLsbD 31 = true →
    claimOf s q = none → x = ⟨bitsOf v.toNat 10 8, fld s (PG_STORE_BASE.VALUE q), fld s (PG_STORE_SIZE.VALUE q)⟩ → x.size ≤ 2 ^ 24 →
    regionOk s x = true → (∀ y ∈ barRegions s, regionsMeet s x y = false) → regionOwned s (ownSeq s q) x = true →
    ∃ t, exec (.pgStoreClaim a q v) s = .next t ∧ claimOf t q = some x ∧ flag t (PG_STAT.STORE_ON q) = true ∧
    flag t (PG_STORE_CFG.EN q) = true ∧ t.ddr.mem = s.ddr.mem) ∧
  (∀ (s : State) (a : Access) (q : Nat) (v : W32) (x : Region), q < 4 → Reached s a (PG_STORE_CFG.off q) → v.getLsbD 31 = false →
    claimOf s q = some x → ∃ t, exec (.pgStoreRelease a q v) s = .next t ∧
    (seqBusy s q = false → claimOf t q = none ∧ flag t (PG_STAT.STORE_ON q) = false) ∧ (seqBusy s q = true → t.ddr = s.ddr)) ∧
  (∀ (s : State) (c : Command) (q o n : Nat) (x : Region), CmdTaken s c 0x300 → q = p0f c 37 36 → o = p0f c 35 0 → n = c.p1.toNat →
    q < nSeqs s → ownSeq s q = cmdPart s c → claimOf s q = some x → o % 64 = 0 → n % 64 = 0 → n ≠ 0 → o + n ≤ x.size * 4096 →
    (x.bind < 4 ∨ n = 64) →
    (∀ bs, c.data = some bs → bs.length = n → ∃ t, exec (.pgSegLoad c) s = .next t ∧ CmdDone s t c 0 1 ∧
      (∀ i < n, mget 0 t.ddr.mem (storeAddr s x o + i) = bs.getD i 0) ∧ DdrBytesKept s t [(storeAddr s x o, n)] ∧
      HostBytesKept s t [(statusAt s c, 4)]) ∧
    (c.data = none → ∃ t, exec (.pgSegLoad c) s = .next t ∧ CmdDone s t c 0 8 ∧ DdrBytesKept s t [(storeAddr s x o, n)] ∧
      t.free = s.free + n / 64)) ∧
  (∀ (s : State) (c : Command) (q e n : Nat) (x : Region) (bs : List Byte) (w : Nat → W64), CmdTaken s c 0x301 → q = p0f c 1 0 →
    e = p0f c 25 16 → n = p0f c 41 32 + 1 → q < nSeqs s → ownSeq s q = cmdPart s c → claimOf s q = some x → e + n ≤ 1024 →
    c.data = some bs → (∀ k, w k = BitVec.ofNat 64 (leNat ((bs.drop (8 * k)).take 8))) →
    ((∀ k < n, entryBad x.size ⟨e + k, 0, w (2 * k), w (2 * k + 1)⟩ = false) → ∃ t, exec (.pgSeqLoad c) s = .next t ∧
      CmdDone s t c 0 1 ∧ seqr t q = { seqr s q with table := (seqr t q).table } ∧
      ∀ j, sget (fun _ => (0, 0)) (seqr t q).table j =
        if e ≤ j ∧ j < e + n then (w (2 * (j - e)), w (2 * (j - e) + 1)) else sget (fun _ => (0, 0)) (seqr s q).table j) ∧
    ((∃ k < n, entryBad x.size ⟨e + k, 0, w (2 * k), w (2 * k + 1)⟩ = true) → ∃ t, exec (.pgSeqLoad c) s = .next t ∧
      CmdDone s t c 0 3 ∧ t.play = s.play)) ∧
  (∀ (s : State) (a : Access) (q : Nat) (v : W32) (x : Region), q < 4 → Reached s a (PG_CMD.off q) → v.getLsbD 31 = true →
    seqBusy s q = false → claimOf s q = some x →
    (∀ e ∈ reach (seqr s q) 5121 [fld s (PG_CFG.START_ENTRY q)] [], entryBad x.size (readEntry (seqr s q) e 0) = false) →
    ∃ t, exec (.pgStart a q v) s = .next t ∧ flag t (PG_STAT.START_PEND q) = true ∧ flag t (PG_STAT.RUNNING q) = false ∧
    (seqr t q).path = [freshFetch (readEntry (seqr s q) (fld s (PG_CFG.START_ENTRY q)) 0)] ∧ (seqr t q).start = curWord s + 1 ∧
    (seqr t q).table = (seqr s q).table ∧ (seqr t q).latch = (seqr s q).latch ∧
    (seqr t q).atOnce = (startTime s q == 0 || passed64 (tNow s) (startTime s q)) ∧
    (startTime s q ≠ 0 → passed64 (tNow s) (startTime s q) = true → flag t (PG_STAT.START_LATE q) = true)) ∧
  (∀ (s : State) (a : Access) (q : Nat) (v : W32), q < 4 → Reached s a (PG_CMD.off q) → v.getLsbD 31 = true →
    (seqBusy s q = true ∨ claimOf s q = none) → ∃ t, exec (.pgStart a q v) s = .next t ∧ flag t (PG_STAT.REF q) = true ∧
    fld t (PG_STAT.REF_CODE q) = 1 ∧ t.play = s.play) ∧
  (∀ (s : State) (q : Nat) (F : Fetched) (r : List Fetched), q < 4 → flag s (PG_STAT.START_PEND q) = true → (seqr s q).path = F :: r →
    (seqr s q).start ≤ curWord s → ((seqr s q).atOnce = true ∨ passed64 (wordT s) (startTime s q) = true) →
    ∃ t, exec (.sequencerFirstSample q) s = .next t ∧ flag t (PG_STAT.START_PEND q) = false ∧ flag t (PG_STAT.RUNNING q) = true ∧
    (seqr t q).start = curWord s ∧ (seqr t q).firstEdge = some (4 * curWord s) ∧ (seqr t q).path = F :: r ∧
    fld t (PG_POS.ENTRY q) = F.inst.entry % 2 ^ 10 ∧ fld t (PG_POS.ITER q) = F.inst.iter % 2 ^ 20) ∧
  (∀ (s : State) (a : Access) (q : Nat) (v : W32), q < 4 → Reached s a (PG_CMD.off q) → v.getLsbD 30 = true →
    ∃ t, exec (.pgStop a q v) s = .next t ∧ claimOf t q = claimOf s q ∧
    (seqBusy s q = true → (seqr s q).stopAt = none →
      seqr t q = { seqr s q with stopAt := some (curWord s + 1) } ∧ seqBusy t q = true) ∧
    (seqBusy s q = false → (seqr t q).latch = [] ∧ (seqr t q).path = [] ∧ (seqr t q).table = (seqr s q).table ∧ seqBusy t q = false)) ∧
  (∀ (s : State) (q w : Nat), q < 4 → (seqr s q).stopAt = some w → w ≤ curWord s →
    flag (endStops s) (PG_STAT.RUNNING q) = false ∧ flag (endStops s) (PG_STAT.START_PEND q) = false ∧
    flag (endStops s) (PG_STAT.STARVING q) = false ∧ (seqr (endStops s) q).path = [] ∧ (seqr (endStops s) q).latch = [] ∧
    (seqr (endStops s) q).firstEdge = none ∧ (seqr (endStops s) q).stopAt = none ∧
    (seqr (endStops s) q).table = (seqr s q).table ∧ claimOf (endStops s) q = claimOf s q)

/-- R329 to R335: what a running sequencer does.  The granule of a refill read and the words of the jump latches are log 22, PG_CAP as the
time of the next refill is log 19, when a PJUMP is in order log 13. -/
def Obligations.SequencerPath : Prop :=
  (∀ (s : State) (a : Access) (q : Nat) (v : W32), q < 4 → Reached s a (PG_CMD.off q) → v.getLsbD 29 = true →
    ∃ t, exec (.pgClrreq a q v) s = .next t ∧ (seqr t q).latch = [] ∧ (seqr t q).clr = curWord s + 1 ∧
    (commitDue s q = false → seqr t q = { seqr s q with latch := [], clr := curWord s + 1 }) ∧ (commitDue s q = true → (seqr t q).fixed = true)) ∧
  (∀ (s : State) (a : Access) (q : Nat) (v : W32), q < 4 → Reached s a (PG_CMD.off q) → ∃ t, exec (.pgJump a q v) s = .next t ∧
    (isStandby s = true → t.play = s.play) ∧
    (isStandby s = false → (seqr s q).clr ≤ curWord s + 1 → ∀ j < 4, v.getLsbD j = true → latchWords (seqr s q) j = [] →
      latchWords (seqr t q) j = [curWord s + 1])) ∧
  (∀ (s : State) (q j e : Nat) (pre post : List JReq), q < 4 → isStandby s = false → s.play.jreqs = pre ++ ⟨q, j, e⟩ :: post →
    (∀ x ∈ pre, x.q ≠ q ∨ 4 * curWord s < x.edge) → e ≤ 4 * curWord s → (seqr s q).clr ≤ curWord s →
    latchWords (seqr s q) j = [] → ∃ t, exec (.jumpRequestArrival q) s = .next t ∧ t.play.jreqs = pre ++ post ∧
    latchWords (seqr t q) j = [curWord s]) ∧
  (∀ (s : State) (q j c e : Nat) (pre post : List SentDec), q < 4 → isStandby s = false → s.play.jreqs = [] →
    s.fab.decs = pre ++ ⟨c, e, .pjump q j⟩ :: post → (∀ d ∈ pre, ∀ i, d.d ≠ .pjump q i) → inOrder s ⟨c, e, .pjump q j⟩ = true →
    (seqr s q).clr ≤ curWord s → latchWords (seqr s q) j = [] → ∃ t, exec (.jumpRequestArrival q) s = .next t ∧ t.fab.decs = pre ++ post ∧
    latchWords (seqr t q) j = [curWord s]) ∧
  (∀ (s : State) (q j w : Nat) (F : Fetched) (r : List Fetched) (pre post : List JReq) (e : Nat), q < 4 → isStandby s = false →
    commitDue s q = false → flag s (PG_STAT.RUNNING q) = true → (seqr s q).path = F :: r → s.play.jreqs = pre ++ ⟨q, j, e⟩ :: post →
    (∀ x ∈ pre, x.q ≠ q ∨ 4 * curWord s < x.edge) → e ≤ 4 * curWord s → (seqr s q).clr ≤ curWord s → latchWords (seqr s q) j = [w] →
    ∃ t, exec (.jumpRequestArrival q) s = .next t ∧
    ((commitWord (seqr s q) F.inst ≤ w ↔ commitWord (seqr s q) F.inst ≤ curWord s) →
      ((seqr s q).start + 4 * F.inst.len ≤ w ↔ (seqr s q).start + 4 * F.inst.len ≤ curWord s) →
      latchWords (seqr t q) j = [min w (curWord s)] ∧ fld t (PG_DEFER_CNT.COUNT q) = fld s (PG_DEFER_CNT.COUNT q)) ∧
    (w < commitWord (seqr s q) F.inst → commitWord (seqr s q) F.inst ≤ curWord s → latchWords (seqr t q) j = [w, curWord s]) ∧
    (commitWord (seqr s q) F.inst ≤ curWord s → curWord s < (seqr s q).start + 4 * F.inst.len →
      (seqr s q).start + 4 * F.inst.len ≤ w → latchWords (seqr t q) j = [w, curWord s] ∧
      fld t (PG_DEFER_CNT.COUNT q) = sat 32 (fld s (PG_DEFER_CNT.COUNT q)) 1 ∧ flag t (PG_STAT.DEFERRED q) = true)) ∧
  (∀ (s : State) (q : Nat) (F : Fetched) (r : List Fetched), q < 4 → commitDue s q = true → isStandby s = false →
    (seqr s q).path = F :: r →
    ((∀ j < 4, latchWords (seqr s q) j = []) → ∃ t, exec (.commitPoint q) s = .next t ∧
      seqr t q = { seqr s q with fixed := true, ending := (follows F.inst).isNone } ∧ t.bus = s.bus) ∧
    (∀ j w, j < 4 → F.inst.valid j = true → latchWords (seqr s q) j = [w] → w < commitWord (seqr s q) F.inst →
      (∀ i < 4, i ≠ j → latchWords (seqr s q) i = []) → ∃ t N, exec (.commitPoint q) s = .next t ∧
      (seqr t q).fixed = true ∧ (seqr t q).path = [F, N] ∧ N.jump = some j ∧ latchWords (seqr t q) j = [] ∧
      fld t (PG_JUMP_CNT.COUNT q) = sat 32 (fld s (PG_JUMP_CNT.COUNT q)) 1 ∧
      ∀ H, sget (fun _ => none) (seqr s q).heads j = some H → N.inst = H.inst)) ∧
  (∀ (s : State) (q : Nat) (F : Fetched) (r : List Fetched), q < 4 → flag s (PG_STAT.RUNNING q) = true → (seqr s q).fixed = true →
    (seqr s q).path = F :: r → (seqr s q).start + 4 * F.inst.len ≤ curWord s →
    ((seqr s q).ending = true → ∃ t, exec (.segmentBoundary q) s = .next t ∧ flag t (PG_STAT.RUNNING q) = false ∧ (seqr t q).path = [] ∧
      (seqr t q).latch = []) ∧
    (∀ N r', r = N :: r' → (seqr s q).ending = false → 8 ≤ N.inst.len → N.jump = none → (seqr s q).starveFrom = none →
      ∃ t, exec (.segmentBoundary q) s = .next t ∧ (seqr t q).path = N :: r' ∧
      (seqr t q).start = (seqr s q).start + 4 * F.inst.len ∧ (seqr t q).fixed = false ∧ (seqr t q).starveFrom = none ∧
      fld t (PG_POS.ENTRY q) = N.inst.entry % 2 ^ 10 ∧ flag t (PG_STAT.RUNNING q) = true)) ∧
  (∀ (s : State) (q p : Nat) (F : Fetched) (r : List Fetched), q < 4 → flag s (PG_STAT.RUNNING q) = true → (seqr s q).path = F :: r →
    (seqr s q).starveFrom = none → p = (curWord s - (seqr s q).start) / 4 → p < F.inst.len → F.granule? p = none →
    ∃ t, exec (.granuleStarve q) s = .next t ∧ (seqr t q).starveFrom = some p ∧ flag t (PG_STAT.STARVING q) = true ∧
    flag t (PG_STAT.STARVED q) = true ∧ fld t (PG_STARVE_CNT.COUNT q) = sat 32 (fld s (PG_STARVE_CNT.COUNT q)) 1) ∧
  (∀ (s : State) (q o n : Nat) (x : Region) (F : Fetched), q < 4 → claimOf s q = some x → seqBusy s q = true → starveDue s q = false →
    (seqr s q).path = [F] → (seqr s q).starveFrom = none → F.first + F.got.length < F.inst.len → mainHeld s (seqr s q) < 1600 →
    o = (F.inst.off + (F.first + F.got.length)) * 128 →
    n = chanOf (storeAddr s x o) → trained s n = true → fld s (MC_SHARE.PG_CAP n) ≠ 0 → (chan s n).pgNext ≤ s.now * 2 ^ 16 →
    (∀ i < 8, wordErr s (storeAddr s x o + 8 * i) = 0 ∧ wordErr s (storeAddr s x (o + 64) + 8 * i) = 0) →
    ∃ t, exec (.refillRead q []) s = .next t ∧
    t = { setChan s n { chan s n with pgNext := s.now * 2 ^ 16 + 2 ^ 27 / fld s (MC_SHARE.PG_CAP n) } with
          play := { s.play with seqs := t.play.seqs } } ∧
    seqr t q = { seqr s q with path := [{ F with got := F.got ++
      [mreadBytes 0 s.ddr.mem (storeAddr s x o) 64 ++ mreadBytes 0 s.ddr.mem (storeAddr s x (o + 64)) 64] }] })

/-- R157, R196, R213, R332, R336: overrides and GATE pins.  The word of a host override and the order of requests are log 22, the list of
decisions in flight is log 13. -/
def Obligations.OverridesAndGatePins : Prop :=
  (∀ (s : State) (a : Access) (v : W32) (p : Nat), Reached s a PG_OVR_CMD.off → v.getLsbD 31 = true → p = bitsOf v.toNat 29 24 →
    ((pinPresent s p = true ∧ ownPin s p = a.func ∧ overrideOn s p = true) → ∃ t, exec (.pgOvrCmd a v) s = .next t ∧
      t.play = { s.play with ovrReqs := s.play.ovrReqs ++
        [⟨p, bitsOf v.toNat 21 20, max 1 (v.toNat % 2 ^ 16), 1, 16 * (curWord s + 1)⟩] }) ∧
    ((pinPresent s p = false ∨ ownPin s p ≠ a.func ∨ overrideOn s p = false) → ∃ t, exec (.pgOvrCmd a v) s = .next t ∧
      t.play = s.play ∧ fld t PG_OVR_REF_CNT.COUNT = sat 32 (fld s PG_OVR_REF_CNT.COUNT) 1)) ∧
  (∀ (s : State) (p act n src k : Nat), s.play.ovrReqs = [⟨p, act, n, src, k⟩] → src < 2 → k ≤ 4 * s.pl.edge + 3 →
    (∀ d ∈ s.fab.decs, ∀ x y, d.d ≠ .drive p x y) →
    ∃ t, exec (.overrideApply p) s = .next t ∧ t.play.ovrReqs = [] ∧
    (overrideOn s p = true → t.bus = s.bus ∧ pinOvr t p =
      (if act = 0 then some .low else if act = 1 then some .high else if act = 2 then none else some (.pulse k (max 1 n)))) ∧
    (overrideOn s p = false → pinOvr t p = pinOvr s p ∧ fld t PG_OVR_REF_CNT.COUNT = sat 32 (fld s PG_OVR_REF_CNT.COUNT) 1)) ∧
  (∀ (s : State) (p act n c e : Nat) (pre post : List SentDec), s.play.ovrReqs = [] →
    s.fab.decs = pre ++ ⟨c, e, .drive p act n⟩ :: post → (∀ d ∈ pre, ∀ x y, d.d ≠ .drive p x y) → overrideOn s p = true →
    s.pl.edge % 4 = 0 → c < eclk s → inOrder s ⟨c, e, .drive p act n⟩ = true → ∃ t, exec (.overrideApply p) s = .next t ∧
    t.fab = { s.fab with decs := pre ++ post } ∧ pinOvr t p =
      (if act = 0 then some .low else if act = 1 then some .high else if act = 2 then none
       else some (.pulse (16 * curWord s) (max 1 n))) ∧ ∀ x, x ≠ p → pinOvr t x = pinOvr s x) ∧
  (∀ (s : State) (p f n : Nat), pinOvr s p = some (.pulse f n) → f + n ≤ 4 * s.pl.edge →
    ∃ t, exec (.overridePulseEnd p) s = .next t ∧ pinOvr t p = none ∧ (∀ x, x ≠ p → pinOvr t x = pinOvr s x) ∧
    t = { s with play := { s.play with ovr := t.play.ovr, ovrWas := t.play.ovrWas } }) ∧
  (∀ (s : State) (n : Nat) (b : Bool), n < nGates s → s.inp.gatePins.testBit n ≠ b → s.pl.running = false →
    ∃ t, exec (.gatePinEdge n b) s = .next t ∧ t = { s with inp := { s.inp with gatePins := t.inp.gatePins } } ∧
    t.inp.gatePins.testBit n = b ∧ ∀ m, m ≠ n → t.inp.gatePins.testBit m = s.inp.gatePins.testBit m) ∧
  (∀ (s : State) (n : Nat) (b : Bool), n < nGates s → s.inp.gatePins.testBit n ≠ b → s.pl.running = true →
    ∃ t, exec (.gatePinEdge n b) s = .next t ∧ t.inp.gatePins.testBit n = b ∧
    (∀ m, m ≠ n → t.inp.gatePins.testBit m = s.inp.gatePins.testBit m) ∧
    (∀ g < nGroups s, (group t g).winEv = (if windowEvent s g n
      then (group s g).winEv ++ [⟨b, n, tNow s⟩] else (group s g).winEv)) ∧
    (b = false → t.play = s.play) ∧
    (b = true → ∃ l, t.play.jreqs = s.play.jreqs ++ l ∧ ∀ x, x ∈ l ↔ x.q < nSeqs s ∧ x.slot < 4 ∧ x.edge = s.pl.edge + 4 ∧
      (reg s (PG_GATEJ.off x.q)).getLsbD (8 * x.slot + 7) = true ∧
      (reg s (PG_GATEJ.off x.q)).toNat / 2 ^ (8 * x.slot) % 16 = n))

/-- R340 to R344: triggers and the host gate.  Late fires, a T before 0 and the number under which a trigger sends its message are read as
log 22 says. -/
def Obligations.TimeTriggers : Prop :=
  (∀ (s : State) (a : Access) (n : Nat) (v : W32), n < 32 → Reached s a (TT_CTRL.off n) → v.getLsbD 31 = true →
    (ttArmed s n = false → targetOk s (ownTrigger s n) n = true → ∃ t, exec (.ttArm a n v) s = .next t ∧ ttArmed t n = true ∧
      (trigger t n).fired = 0 ∧ (trigger t n).armedAt = s.pl.edge ∧ (trigger t n).late = passed64 (tNow s) (ttFirst s n) ∧
      ttNext t n = (if passed64 (tNow s) (ttFirst s n) = true ∧ ttPeriodic s n = true
        then (ttFirst s n + (tNow s + 2 ^ 64 - ttFirst s n) % 2 ^ 64 / ttPeriod s n * ttPeriod s n) % 2 ^ 64 else ttFirst s n)) ∧
    (ttArmed s n = true → ∃ t, exec (.ttArm a n v) s = .next t ∧ t.play = s.play ∧ flag t (TT_STAT.WR_IGN n) = true ∧
      ttNext t n = ttNext s n ∧ ttArmed t n = true) ∧
    (ttArmed s n = false → targetOk s (ownTrigger s n) n = false → ∃ t, exec (.ttArm a n v) s = .next t ∧ t.play = s.play ∧
      flag t (TT_STAT.REFUSED n) = true ∧ ttArmed t n = false)) ∧
  (∀ (s : State) (a : Access) (n : Nat) (v : W32), n < 32 → Reached s a (TT_CTRL.off n) → v.getLsbD 30 = true →
    ∃ t, exec (.ttDisarm a n v) s = .next t ∧ ttArmed t n = false ∧ ttNext t n = 0 ∧ (trigger t n).gate = none ∧
    (trigger t n).lastGate = false ∧ ((trigger s n).gate = none → t.lg = s.lg ∧ t.mus = s.mus) ∧
    ∀ g < nGroups s, (trigger s n).gate.isSome = true → windowEvent s g (0x10 + n) = true →
      (group t g).winEv = (group s g).winEv ++ [⟨false, 0x10 + n, tNext s⟩]) ∧
  (∀ (s : State) (n : Nat), (fireDue s n = false ∨ ∃ m < n, fireDue s m = true) → exec (.triggerFire n) s = .next s) ∧
  (∀ (s : State) (n : Nat) (x : Int), n < 32 → fireDue s n = true → (∀ m < n, fireDue s m = false) →
    x = Int.ofNat (tNow s) - Int.ofNat ((tNow s + 2 ^ 64 - ttNext s n % 2 ^ 64) % 2 ^ 64) →
    ∃ t, exec (.triggerFire n) s = .next t ∧ fld t (TT_FIRE_CNT.COUNT n) = sat 32 (fld s (TT_FIRE_CNT.COUNT n)) 1 ∧
    (trigger t n).fired = (trigger s n).fired + 1 ∧ (trigger t n).late = false ∧ ((trigger s n).late = true → flag t (TT_STAT.LATE n) = true) ∧
    (ttPeriodic s n = false → ttArmed t n = false ∧ flag t (TT_STAT.DONE n) = true) ∧
    (ttPeriodic s n = true → (ttCount s n = 0 ∨ (trigger s n).fired + 1 < ttCount s n) →
      ttArmed t n = true ∧ ttNext t n = ((x + Int.ofNat (ttPeriod s n)) % 2 ^ 64).toNat) ∧
    (ttPeriodic s n = true → ttCount s n ≠ 0 → ttCount s n ≤ (trigger s n).fired + 1 → (trigger s n).gate = none → ttTarget s n ≠ 4 →
      ttArmed t n = false ∧ flag t (TT_STAT.DONE n) = true) ∧
    (ttTarget s n = 1 → overrideOn s (ttSel s n % 64) = true → t.play.ovrReqs = s.play.ovrReqs ++
      [⟨ttSel s n % 64, 3, max 1 (ttArg s n % 2 ^ 16), 0, firstSampleAt s x⟩]) ∧
    (ttTarget s n = 1 → overrideOn s (ttSel s n % 64) = false → t.play.ovrReqs = s.play.ovrReqs ∧ flag t (TT_STAT.REFUSED n) = true) ∧
    (ttTarget s n = 2 → t.play.jreqs = s.play.jreqs ++ [⟨bitsOf (ttSel s n) 5 4, ttSel s n % 4, s.pl.edge + 4⟩]) ∧
    (ttTarget s n = 3 → ∃ y, t.bus.strobes = s.bus.strobes ++ [y] ∧ y.mask = ttArg s n % 2 ^ 16 ∧ y.src = 1 ∧ y.edge = s.pl.edge) ∧
    (ttTarget s n = 4 → ttPeriodic s n = false → (trigger t n).gate = some (if ttArg s n = 0 then none else some (x + Int.ofNat (ttArg s n)))) ∧
    (ttTarget s n = 4 → ∀ g < nGroups s, windowEvent s g (0x10 + n) = true → ∀ X : Int → Nat,
      X = (fun y => if y < 0 then (y % 2 ^ 64).toNat else y.toNat) → (group t g).winEv = (group s g).winEv ++
        (match (trigger s n).gate with
          | none => []
          | some none => [⟨false, 0x10 + n, X x⟩]
          | some (some c) => [⟨false, 0x10 + n, X (min c x)⟩]) ++ [⟨true, 0x10 + n, X x⟩]) ∧
    (∀ e, ttTarget s n = 5 → e = ttSel s n % 256 →
      (active (engine s e) = true → (cluster s (e / 16)).box.length < 16 → ∃ pre post, (cluster s (e / 16)).box = pre ++ post ∧
        (cluster t (e / 16)).box = pre ++ ⟨BitVec.ofNat 64 (0x7FF * 2 ^ 53 + n * 2 ^ 48 + (x % 2 ^ 48).toNat), 256 + n, e, eclk s⟩ :: post ∧
        ((∀ m ∈ (cluster s (e / 16)).box, m.cyc < eclk s ∨ (m.cyc = eclk s ∧ m.src ≤ 256 + n)) → post = [])) ∧
      (active (engine s e) = true → 16 ≤ (cluster s (e / 16)).box.length → (cluster t (e / 16)).box = (cluster s (e / 16)).box ∧
        flag t (TT_STAT.REFUSED n) = true) ∧
      (active (engine s e) = false → (cluster t (e / 16)).box = (cluster s (e / 16)).box ∧
        fld t (CC_MB_DISC_CNT.COUNT (e / 16)) = sat 16 (fld s (CC_MB_DISC_CNT.COUNT (e / 16))) 1)) ∧
    (∀ u, ttTarget s n = 6 → u = ttSel s n % 64 → muMode s u ≠ 0 → (trigger s n).gate = none →
      (mu t u).evs = (mu s u).evs ++ [if x.toNat < (mu s u).frontier then .arm (mu s u).frontier true else .arm x.toNat false] ∧
      (x.toNat < (mu s u).frontier → flag t (MU_STAT.LATE u) = true))) ∧
  (∀ (s : State) (n : Nat) (c : Int), n < 32 → (trigger s n).gate = some (some c) →
    (Int.ofNat (tNow s) < c → exec (.triggerGateClose n) s = .next s) ∧
    (c ≤ Int.ofNat (tNow s) → ∃ t, exec (.triggerGateClose n) s = .next t ∧
      (trigger t n).gate = none ∧ ((trigger s n).lastGate = true → ttArmed t n = false ∧ flag t (TT_STAT.DONE n) = true) ∧
      ((trigger s n).lastGate = false → ttArmed t n = ttArmed s n) ∧
      ∀ g < nGroups s, windowEvent s g (0x10 + n) = true → (group t g).winEv = (group s g).winEv ++
        [⟨false, 0x10 + n, if c < 0 then (c % 2 ^ 64).toNat else c.toNat⟩])) ∧
  (∀ (s : State) (a : Access) (v : W32), Reached s a TT_HOST_GATE.off → v.getLsbD 31 = true → v.getLsbD 30 = false →
    flag s TT_HOST_GATE.STATE = false → ∃ t, exec (.ttHostGateOpen a v) s = .next t ∧ flag t TT_HOST_GATE.STATE = true ∧
    ∀ g < nGroups s, windowEvent s g 0x40 = true → (group t g).winEv = (group s g).winEv ++ [⟨true, 0x40, tNext s⟩]) ∧
  (∀ (s : State) (a : Access) (v : W32), Reached s a TT_HOST_GATE.off → v.getLsbD 30 = true → v.getLsbD 31 = false →
    flag s TT_HOST_GATE.STATE = true → ∃ t, exec (.ttHostGateClose a v) s = .next t ∧ flag t TT_HOST_GATE.STATE = false ∧
    ∀ g < nGroups s, windowEvent s g 0x40 = true → (group t g).winEv = (group s g).winEv ++ [⟨false, 0x40, tNext s⟩]) ∧
  (∀ (s : State) (a : Access) (v : W32), Reached s a TT_HOST_GATE.off →
    (v.getLsbD 31 = true → flag s TT_HOST_GATE.STATE = true → ∃ t, exec (.ttHostGateOpen a v) s = .next t ∧
      flag t TT_HOST_GATE.STATE = true ∧ flag t TT_HOST_GATE.IGN = true ∧ t.lg = s.lg) ∧
    (v.getLsbD 30 = true → flag s TT_HOST_GATE.STATE = false → ∃ t, exec (.ttHostGateClose a v) s = .next t ∧
      flag t TT_HOST_GATE.STATE = false ∧ flag t TT_HOST_GATE.IGN = true ∧ t.lg = s.lg) ∧
    (v.getLsbD 31 = true → v.getLsbD 30 = true → ∀ c, c = Instr.ttHostGateOpen a v ∨ c = Instr.ttHostGateClose a v → ∃ t, exec c s = .next t ∧
      flag t TT_HOST_GATE.STATE = flag s TT_HOST_GATE.STATE ∧ flag t TT_HOST_GATE.IGN = true ∧ t.lg = s.lg))

/-- R384, R393 to R395: the fuse array.  Which refusal comes first where several apply is log 24. -/
def Obligations.FuseProgramming : Prop :=
  (∀ (s : State) (a : Access), reaches s a = true → a.func = 0 → rights s 0 = true → guardPair s 1 = none →
    ∃ t, exec (.arProgCmd a 1) s = .next t ∧ t.ar.array = s.ar.array ∧ t.ar.shadow = s.ar.shadow ∧
    (vppOk s = true → 4 ≤ fld s AR_PROG_ROW.ROW → fld s AR_PROG_ROW.ROW ≤ 53 → (fuseRow s 4).getLsbD 31 = false → s.ar.run = none →
      t.ar.run = some (fld s AR_PROG_ROW.ROW, reg s AR_PROG_DATA.off) ∧ flag t AR_STAT.PROG_BUSY = true) ∧
    (vppOk s = false → t.ar = s.ar ∧ fld t AR_PROG_RES.OUTCOME = 4) ∧
    (vppOk s = true → (fld s AR_PROG_ROW.ROW < 4 ∨ 53 < fld s AR_PROG_ROW.ROW) → t.ar = s.ar ∧ fld t AR_PROG_RES.OUTCOME = 5) ∧
    (vppOk s = true → 4 ≤ fld s AR_PROG_ROW.ROW → fld s AR_PROG_ROW.ROW ≤ 53 → (fuseRow s 4).getLsbD 31 = true →
      t.ar = s.ar ∧ fld t AR_PROG_RES.OUTCOME = 6) ∧
    (vppOk s = true → 4 ≤ fld s AR_PROG_ROW.ROW → fld s AR_PROG_ROW.ROW ≤ 53 → (fuseRow s 4).getLsbD 31 = false → s.ar.run.isSome = true →
      t.ar = s.ar ∧ fld t AR_PROG_RES.OUTCOME = 7)) ∧
  (∀ (s : State) (row : Nat) (d b : W32), s.ar.run = some (row, d) → s.now < s.ar.runAt + usTicks 20 * runBits s row d →
    exec (.fuseProgComplete b) s = .next s) ∧
  (∀ (s : State) (row : Nat) (d b : W32), s.ar.run = some (row, d) → s.ar.runAt + usTicks 20 * runBits s row d ≤ s.now →
    ones (d &&& b &&& ~~~fuseRow s row) ≤ runBits s row d → ∃ t, exec (.fuseProgComplete b) s = .next t ∧
    t.ar.run = none ∧ fuseRow t row = fuseRow s row ||| (d &&& b) ∧ (∀ r, r ≠ row → fuseRow t r = fuseRow s r) ∧
    t.ar.shadow = s.ar.shadow ∧ flag t AR_STAT.PROG_BUSY = false ∧ reg t AR_PROG_VERIFY.off = fuseRow t row ∧
    fld t AR_PROG_RES.OUTCOME = (if s.ar.stop then 3 else if d &&& fuseRow t row = d then 1 else 2) ∧
    RegsKept s t [AR_STAT.off, AR_PROG_VERIFY.off, AR_PROG_RES.off] ∧ FusesKept s t) ∧
  (∀ (s : State), ∃ t, exec (.fuseVppChange true) s = .next t ∧ t.ar.vppSince = some (s.ar.vppSince.getD s.now) ∧
    t.ar.run = s.ar.run ∧ t.ar.stop = s.ar.stop ∧ t.ar.array = s.ar.array ∧ t.bus = s.bus) ∧
  (∀ (s : State), ∃ t, exec (.fuseVppChange false) s = .next t ∧ t.ar.vppSince = none ∧ vppOk t = false ∧ t.ar.run = s.ar.run ∧
    (s.ar.run.isSome = true → t.ar.stop = true) ∧ t.ar.array = s.ar.array ∧ t.bus = s.bus)

/-- A step runs the front command with the queue's rest. The queue is the model's own (log 1), and so is what a step does on an
empty queue: one period of 625 ps passes (log 2). -/
def Obligations.StepRunsTheFront : Prop :=
  (∀ (s : State) (c : Instr) (rest : List Instr), s.pending = c :: rest → step s = exec c { s with pending := rest }) ∧
  (∀ (s : State), s.pending = [] → step s = .next (tick s)) ∧
  (∀ (s : State) (nbits w : Nat), decodeTableWord nbits w = none ∧ s.withFetchWord nbits w = s)

/-- What reset leaves: the register maps' reset values, and the model's own choices (logs 5, 6 and 32). -/
def Obligations.StateAfterReset : Prop :=
  State.wf State.reset ∧ State.reset.pending = [] ∧ State.reset.ddr.mem = [] ∧ State.reset.host.mem = [] ∧
  (∀ row, fuseRow State.reset row = 0 ∧ shadow State.reset row = 0) ∧
  (∀ o, o ≠ AR_STAT.off → o ≠ CA_STORE_STAT.off → reg State.reset o = regReset o) ∧
  flag State.reset AR_STAT.LOADED = true ∧ flag State.reset CA_STORE_STAT.WRITE_BUSY = true ∧
  (∀ n, lane State.reset n = {} ∧ group State.reset n = {} ∧ engine State.reset n = {} ∧ cluster State.reset n = {} ∧
    mu State.reset n = {} ∧ seqr State.reset n = {} ∧ trigger State.reset n = {} ∧ hring State.reset n = {})

/-- R384: programming changes a fuse only from 0 to 1, and nothing else changes one. Every command has an effect, and none touches
the queue (the queue is the model's own, log 1). -/
def Obligations.EveryStepKeepsTheFuses : Prop :=
  ∀ s : State, ∃ t, step s = .next t ∧ t.pending = s.pending.tail ∧ FusesKept s t

/-- The canonical form of the memories is kept by every step; what an unlisted address reads as is the model's choice (log 33). -/
def Obligations.EveryStepKeepsTheMemories : Prop :=
  ∀ s t : State, State.wf s → step s = .next t → State.wf t
end

