-- ==== Sys2Proof/Laws/Store.lean ====
section
/-! SUPPORT. Laws of the sparse tables and byte memories: a read after a write, and the canonical form. -/

namespace Sys2Proof.Laws

open Sys2Proof.Machine

variable {α : Type}

theorem sget_sdel_ne (d : Nat → α) {k i : Nat} (h : i ≠ k) (m : Store α) : sget d (sdel m k) i = sget d m i := by
  induction m with
  | nil => rfl
  | cons x r ih =>
    obtain ⟨j, w⟩ := x
    by_cases hj : j = k
    · subst hj
      have : sdel ((j, w) :: r) j = sdel r j := by simp [sdel]
      rw [this, ih]; simp [sget, Ne.symm h]
    · have : sdel ((j, w) :: r) k = (j, w) :: sdel r k := by simp [sdel, hj]
      rw [this]; simp only [sget, ih]

theorem sget_sdel_self (d : Nat → α) (k : Nat) (m : Store α) : sget d (sdel m k) k = d k := by
  induction m with
  | nil => rfl
  | cons x r ih =>
    obtain ⟨j, w⟩ := x
    by_cases hj : j = k
    · subst hj
      have : sdel ((j, w) :: r) j = sdel r j := by simp [sdel]
      rw [this, ih]
    · have : sdel ((j, w) :: r) k = (j, w) :: sdel r k := by simp [sdel, hj]
      rw [this]; simp [sget, hj, ih]

/-- Reading the key just written gives the value written. -/
@[simp] theorem sget_sset_self [DecidableEq α] (d : Nat → α) (m : Store α) (k : Nat) (v : α) : sget d (sset d m k v) k = v := by
  induction m with
  | nil => unfold sset; split <;> simp_all [sget]
  | cons x r ih =>
    obtain ⟨j, w⟩ := x
    unfold sset
    split
    · rename_i h
      split
      · rename_i hv; simp [sget, (Nat.ne_of_gt h), sget_sdel_self, hv]
      · simp [sget]
    · split
      · split
        · rename_i hv; rw [sget_sdel_self, hv]
        · simp [sget]
      · rename_i h; simp [sget, Ne.symm h, ih]

/-- A write leaves every other key alone. -/
theorem sget_sset_ne [DecidableEq α] (d : Nat → α) (m : Store α) {k i : Nat} (v : α) (h : i ≠ k) :
    sget d (sset d m k v) i = sget d m i := by
  induction m with
  | nil => unfold sset; split <;> simp_all [sget, eq_comm]
  | cons x r ih =>
    obtain ⟨j, w⟩ := x
    unfold sset
    split
    · split
      · simp [sget, sget_sdel_ne d h]
      · simp [sget, Ne.symm h]
    · split
      · rename_i hk
        split
        · rw [sget_sdel_ne d h]; simp [sget, ← hk, Ne.symm h]
        · simp [sget, ← hk, Ne.symm h]
      · simp only [sget, ih]

/-- A read after a write, by cases. -/
theorem sget_sset [DecidableEq α] (d : Nat → α) (m : Store α) (k i : Nat) (v : α) :
    sget d (sset d m k v) i = if i = k then v else sget d m i := by
  by_cases h : i = k
  · subst h; simp
  · simp [h, sget_sset_ne d m v h]

/-! ## The canonical form -/

theorem wfFrom_mono [DecidableEq α] (d : Nat → α) {a b : Nat} (h : a ≤ b) (m : Store α) (w : wfFrom d b m = true) : wfFrom d a m = true := by
  cases m with
  | nil => rfl
  | cons x r =>
    obtain ⟨j, v⟩ := x
    simp [wfFrom] at w ⊢
    exact ⟨⟨by omega, w.1.2⟩, w.2⟩

theorem wfFrom_sdel [DecidableEq α] (d : Nat → α) (k : Nat) (m : Store α) : ∀ lo, wfFrom d lo m = true → wfFrom d lo (sdel m k) = true := by
  induction m with
  | nil => intro lo _; rfl
  | cons x r ih =>
    intro lo w
    obtain ⟨j, v⟩ := x
    simp [wfFrom] at w
    by_cases hj : j = k
    · have : sdel ((j, v) :: r) k = sdel r k := by simp [sdel, hj]
      rw [this]
      exact wfFrom_mono d (by omega) _ (ih (j + 1) w.2)
    · have : sdel ((j, v) :: r) k = (j, v) :: sdel r k := by simp [sdel, hj]
      rw [this]; simp [wfFrom]
      exact ⟨w.1, ih _ w.2⟩

theorem wfFrom_sset [DecidableEq α] (d : Nat → α) (k : Nat) (v : α) (m : Store α) :
    ∀ lo, lo ≤ k → wfFrom d lo m = true → wfFrom d lo (sset d m k v) = true := by
  induction m with
  | nil => intro lo hl _; unfold sset; split <;> simp_all [wfFrom]
  | cons x r ih =>
    intro lo hl w
    obtain ⟨j, u⟩ := x
    have w' := w
    simp [wfFrom] at w
    unfold sset
    split
    · rename_i hk
      split
      · simp [wfFrom]; exact ⟨w.1, wfFrom_sdel d k r _ w.2⟩
      · rename_i hv
        simp [wfFrom, hl, hv, w.2, w.1.2]; omega
    · split
      · rename_i hk
        split
        · exact wfFrom_mono d (by omega) _ (wfFrom_sdel d k r _ w.2)
        · rename_i hv; subst hk; simp [wfFrom, hl, hv, w.2]
      · simp [wfFrom]; exact ⟨w.1, ih _ (by omega) w.2⟩

/-- A write keeps a table's canonical form. -/
theorem storeWf_sset [DecidableEq α] (d : Nat → α) (m : Store α) (k : Nat) (v : α) (h : storeWf d m = true) :
    storeWf d (sset d m k v) = true := wfFrom_sset d k v m 0 (Nat.zero_le _) h

/-- A filter by address keeps it too. -/
theorem wfFrom_filter [DecidableEq α] (d : Nat → α) (p : Nat × α → Bool) (m : Store α) :
    ∀ lo, wfFrom d lo m = true → wfFrom d lo (m.filter p) = true := by
  induction m with
  | nil => intro lo _; rfl
  | cons x r ih =>
    intro lo w
    obtain ⟨j, v⟩ := x
    simp [wfFrom] at w
    rw [List.filter_cons]
    split
    · simp [wfFrom]; exact ⟨w.1, ih _ w.2⟩
    · exact wfFrom_mono d (by omega) _ (ih _ w.2)

theorem storeWf_filter [DecidableEq α] (d : Nat → α) (p : Nat × α → Bool) (m : Store α) (h : storeWf d m = true) :
    storeWf d (m.filter p) = true := wfFrom_filter d p m 0 h

/-! ## Byte memories -/

/-- A byte read after a byte write. -/
theorem mget_mset (d : Byte) (m : Mem) (a b : Nat) (v : Byte) : mget d (mset d m a v) b = if b = a then v else mget d m b :=
  sget_sset _ _ _ _ _

/-- Writing one byte keeps the memory's canonical form. -/
theorem memory_wf_mset (d : Byte) (m : Mem) (a : Nat) (v : Byte) (h : Memory.wf d m = true) : Memory.wf d (mset d m a v) = true :=
  storeWf_sset _ _ _ _ h

/-- Writing bytes keeps it. -/
theorem memory_wf_mwriteBytes (d : Byte) (bs : List Byte) : ∀ (m : Mem) (a : Nat), Memory.wf d m = true →
    Memory.wf d (mwriteBytes d m a bs) = true := by
  induction bs with
  | nil => intro m a h; exact h
  | cons b r ih => intro m a h; exact ih _ _ (memory_wf_mset d m a b h)

/-- Dropping a part of the memory keeps it. -/
theorem memory_wf_filter (d : Byte) (m : Mem) (p : Nat × Byte → Bool) (h : Memory.wf d m = true) : Memory.wf d (m.filter p) = true :=
  storeWf_filter _ _ _ h

/-- Bytes outside a write are as before. -/
theorem mget_mwriteBytes_outside (d : Byte) (bs : List Byte) : ∀ (m : Mem) (a b : Nat), (b < a ∨ a + bs.length ≤ b) →
    mget d (mwriteBytes d m a bs) b = mget d m b := by
  induction bs with
  | nil => intro m a b _; rfl
  | cons x r ih =>
    intro m a b h
    simp only [List.length_cons] at h
    rw [mwriteBytes, ih _ _ _ (by omega), mget_mset, if_neg (by omega)]

/-- Bytes of a write read as written. -/
theorem mget_mwriteBytes_inside (d : Byte) (bs : List Byte) : ∀ (m : Mem) (a i : Nat) (h : i < bs.length),
    mget d (mwriteBytes d m a bs) (a + i) = bs[i] := by
  induction bs with
  | nil => intro m a i h; simp at h
  | cons x r ih =>
    intro m a i h
    cases i with
    | zero => simp [mwriteBytes, mget_mwriteBytes_outside, mget_mset]
    | succ n =>
      have : a + (n + 1) = (a + 1) + n := by omega
      rw [mwriteBytes, this, ih]; rfl

end Sys2Proof.Laws
end

