-- ==== Sys2Proof/Laws/Kept.lean ====
section
/-! SUPPORT. What no operation of the model touches or worsens, said once for each: here for the shared operations, the register bus,
Plinth, the stamp path and the Unveil. -/

namespace Sys2Proof.Laws

open Sys2Proof.Machine

/-- What no operation touches or worsens: the queue stays as it is, no blown fuse becomes whole (R384), and a memory in its
canonical form stays in it. -/
structure Kept (s t : State) : Prop where
  pending : t.pending = s.pending
  fuses : FusesKept s t
  ddr : Memory.wf 0 s.ddr.mem = true → Memory.wf 0 t.ddr.mem = true
  host : Memory.wf 0 s.host.mem = true → Memory.wf 0 t.host.mem = true

theorem Kept.refl (s : State) : Kept s s := ⟨rfl, fun _ => BitVec.and_self, id, id⟩

theorem Kept.upd {s t u : State} (h : Kept s t) (hp : u.pending = t.pending) (ha : u.ar.array = t.ar.array)
    (hd : u.ddr.mem = t.ddr.mem) (hh : u.host.mem = t.host.mem) : Kept s u := by
  refine ⟨hp.trans h.pending, ?_, by rw [hd]; exact h.ddr, by rw [hh]; exact h.host⟩
  intro row; have := h.fuses row; unfold fuseRow at *; rw [ha]; exact this

theorem Kept.mkUpd {s t : State} {n fr : Nat} {ft : Bool} {bus pl inp cal lg fab mus ar ddr host mon tp play pr mt} (h : Kept s t)
    (ha : ar.array = t.ar.array) (hd : ddr.mem = t.ddr.mem) (hh : host.mem = t.host.mem) :
    Kept s ⟨t.pending, n, fr, ft, bus, pl, inp, cal, lg, fab, mus, ar, ddr, host, mon, tp, play, pr, mt⟩ :=
  h.upd rfl ha hd hh

theorem Kept.ite {s a b : State} {c : Prop} [Decidable c] (ha : Kept s a) (hb : Kept s b) : Kept s (if c then a else b) := by
  split <;> assumption

theorem foldl_kept {s₀ s : State} {α : Type} {l : List α} {f : State → α → State} (h : Kept s₀ s)
    (hf : ∀ t x, Kept s₀ t → Kept s₀ (f t x)) : Kept s₀ (l.foldl f s) := by
  induction l generalizing s with
  | nil => exact h
  | cons x l ih => exact ih (hf s x h)

/-! ## Ops -/

theorem setReg_kept {s₀ : State} (s : State) (off : Nat) (v : W32) (hK : Kept s₀ s) : Kept s₀ (setReg s off v) := by
  unfold setReg
  repeat' first | with_reducible assumption | with_reducible apply Kept.ite | with_reducible apply foldl_kept | extract_lets
                  | split | (intros; with_reducible assumption) | intro _ _ _ | intro _ _ | dsimp +zetaDelta only
                  | with_reducible refine Kept.mkUpd ?_ rfl rfl rfl

theorem setFld_kept {s₀ : State} (s : State) (x : Fld) (v : Nat) (hK : Kept s₀ s) : Kept s₀ (setFld s x v) := by
  unfold setFld
  repeat' first | with_reducible assumption | with_reducible apply Kept.ite | with_reducible apply setReg_kept
                  | with_reducible apply foldl_kept | extract_lets | split | (intros; with_reducible assumption) | intro _ _ _
                  | intro _ _ | dsimp +zetaDelta only | with_reducible refine Kept.mkUpd ?_ rfl rfl rfl

theorem sts_kept {s₀ : State} (s : State) (x : Fld) (hK : Kept s₀ s) : Kept s₀ (sts s x) := by
  unfold sts
  repeat' first | with_reducible assumption | with_reducible apply Kept.ite | with_reducible apply setFld_kept
                  | with_reducible apply foldl_kept | extract_lets | split | (intros; with_reducible assumption) | intro _ _ _
                  | intro _ _ | dsimp +zetaDelta only | with_reducible refine Kept.mkUpd ?_ rfl rfl rfl

theorem stsBit_kept {s₀ : State} (s : State) (x : Fld) (i : Nat) (hK : Kept s₀ s) : Kept s₀ (stsBit s x i) := by
  unfold stsBit
  repeat' first | with_reducible assumption | with_reducible apply Kept.ite | with_reducible apply setFld_kept
                  | with_reducible apply foldl_kept | extract_lets | split | (intros; with_reducible assumption) | intro _ _ _
                  | intro _ _ | dsimp +zetaDelta only | with_reducible refine Kept.mkUpd ?_ rfl rfl rfl

theorem clrBit_kept {s₀ : State} (s : State) (x : Fld) (i : Nat) (hK : Kept s₀ s) : Kept s₀ (clrBit s x i) := by
  unfold clrBit
  repeat' first | with_reducible assumption | with_reducible apply Kept.ite | with_reducible apply setFld_kept
                  | with_reducible apply foldl_kept | extract_lets | split | (intros; with_reducible assumption) | intro _ _ _
                  | intro _ _ | dsimp +zetaDelta only | with_reducible refine Kept.mkUpd ?_ rfl rfl rfl

theorem setFlag_kept {s₀ : State} (s : State) (x : Fld) (b : Bool) (hK : Kept s₀ s) : Kept s₀ (setFlag s x b) := by
  unfold setFlag
  repeat' first | with_reducible assumption | with_reducible apply Kept.ite | with_reducible apply setFld_kept
                  | with_reducible apply foldl_kept | extract_lets | split | (intros; with_reducible assumption) | intro _ _ _
                  | intro _ _ | dsimp +zetaDelta only | with_reducible refine Kept.mkUpd ?_ rfl rfl rfl

theorem addCnt_kept {s₀ : State} (s : State) (x : Fld) (n : Nat) (hK : Kept s₀ s) : Kept s₀ (addCnt s x n) := by
  unfold addCnt
  repeat' first | with_reducible assumption | with_reducible apply Kept.ite | with_reducible apply setFld_kept
                  | with_reducible apply foldl_kept | extract_lets | split | (intros; with_reducible assumption) | intro _ _ _
                  | intro _ _ | dsimp +zetaDelta only | with_reducible refine Kept.mkUpd ?_ rfl rfl rfl

theorem inc_kept {s₀ : State} (s : State) (x : Fld) (hK : Kept s₀ s) : Kept s₀ (inc s x) := by
  unfold inc
  repeat' first | with_reducible assumption | with_reducible apply Kept.ite | with_reducible apply addCnt_kept
                  | with_reducible apply foldl_kept | extract_lets | split | (intros; with_reducible assumption) | intro _ _ _
                  | intro _ _ | dsimp +zetaDelta only | with_reducible refine Kept.mkUpd ?_ rfl rfl rfl

theorem bump_kept {s₀ : State} (s : State) (x : Fld) (hK : Kept s₀ s) : Kept s₀ (bump s x) := by
  unfold bump
  repeat' first | with_reducible assumption | with_reducible apply Kept.ite | with_reducible apply setFld_kept
                  | with_reducible apply foldl_kept | extract_lets | split | (intros; with_reducible assumption) | intro _ _ _
                  | intro _ _ | dsimp +zetaDelta only | with_reducible refine Kept.mkUpd ?_ rfl rfl rfl

theorem setPair64_kept {s₀ : State} (s : State) (lo : Nat) (hi : Nat) (v : Nat) (hK : Kept s₀ s) : Kept s₀ (setPair64 s lo hi v) := by
  unfold setPair64
  repeat' first | with_reducible assumption | with_reducible apply Kept.ite | with_reducible apply setReg_kept
                  | with_reducible apply foldl_kept | extract_lets | split | (intros; with_reducible assumption) | intro _ _ _
                  | intro _ _ | dsimp +zetaDelta only | with_reducible refine Kept.mkUpd ?_ rfl rfl rfl

theorem takeFree_kept {s₀ : State} (s : State) (hK : Kept s₀ s) : Kept s₀ (takeFree s).2 := by
  unfold takeFree
  repeat' first | with_reducible assumption | with_reducible apply foldl_kept | extract_lets | split
                  | (intros; with_reducible assumption) | intro _ _ _ | intro _ _ | dsimp +zetaDelta only
                  | with_reducible refine Kept.mkUpd ?_ rfl rfl rfl
theorem takeFree_keq {s₀ : State} {t₁ : State} {o₁ : Nat}  {s : State} (hE : (takeFree s) = (o₁, t₁)) (hK : Kept s₀ s) : Kept s₀ t₁ := by
  have := takeFree_kept s hK
  rw [hE] at this; exact this

theorem setFnHost_kept {s₀ : State} (s : State) (f : Nat) (x : FnHost) (hK : Kept s₀ s) : Kept s₀ (setFnHost s f x) := by
  unfold setFnHost
  repeat' first | with_reducible assumption | with_reducible apply Kept.ite | with_reducible apply foldl_kept | extract_lets
                  | split | (intros; with_reducible assumption) | intro _ _ _ | intro _ _ | dsimp +zetaDelta only
                  | with_reducible refine Kept.mkUpd ?_ rfl rfl rfl

theorem alarm_kept {s₀ : State} (s : State) (x : Fld) (hK : Kept s₀ s) : Kept s₀ (alarm s x) := by
  unfold alarm
  repeat' first | with_reducible assumption | with_reducible apply Kept.ite | with_reducible apply sts_kept
                  | with_reducible apply foldl_kept | extract_lets | split | (intros; with_reducible assumption) | intro _ _ _
                  | intro _ _ | dsimp +zetaDelta only | with_reducible refine Kept.mkUpd ?_ rfl rfl rfl

theorem queueOverflow_kept {s₀ : State} (s : State) (f : Nat) (hK : Kept s₀ s) : Kept s₀ (queueOverflow s f) := by
  unfold queueOverflow
  repeat' first | with_reducible assumption | with_reducible apply Kept.ite | with_reducible apply setFnHost_kept
                  | with_reducible apply foldl_kept | extract_lets | split | (intros; with_reducible assumption) | intro _ _ _
                  | intro _ _ | dsimp +zetaDelta only | with_reducible refine Kept.mkUpd ?_ rfl rfl rfl

theorem queueNotice_kept {s₀ : State} (s : State) (f : Nat) (n : Notice) (hK : Kept s₀ s) : Kept s₀ (queueNotice s f n) := by
  unfold queueNotice
  repeat' first | with_reducible assumption | with_reducible apply Kept.ite | with_reducible apply queueOverflow_kept
                  | with_reducible apply setFnHost_kept | with_reducible apply alarm_kept | with_reducible apply sts_kept
                  | with_reducible apply inc_kept | with_reducible apply foldl_kept | extract_lets | split
                  | (intros; with_reducible assumption) | intro _ _ _ | intro _ _ | dsimp +zetaDelta only
                  | with_reducible refine Kept.mkUpd ?_ rfl rfl rfl

theorem postAt_kept {s₀ : State} (s : State) (t : W64) (ty : Nat) (source : Nat) (aux : Nat) (data : BitVec 128) (hK : Kept s₀ s) :
    Kept s₀ (postAt s t ty source aux data) := by
  unfold postAt
  repeat' first | with_reducible assumption | with_reducible apply Kept.ite | with_reducible apply setFnHost_kept
                  | with_reducible apply queueNotice_kept | with_reducible apply foldl_kept | extract_lets | split
                  | (intros; with_reducible assumption) | intro _ _ _ | intro _ _ | dsimp +zetaDelta only
                  | with_reducible refine Kept.mkUpd ?_ rfl rfl rfl

theorem post_kept {s₀ : State} (s : State) (ty : Nat) (source : Nat) (aux : Nat) (data : Nat) (hK : Kept s₀ s) : Kept s₀ (post s ty
    source aux data) := by
  unfold post
  repeat' first | with_reducible assumption | with_reducible apply Kept.ite | with_reducible apply postAt_kept
                  | with_reducible apply foldl_kept | extract_lets | split | (intros; with_reducible assumption) | intro _ _ _
                  | intro _ _ | dsimp +zetaDelta only | with_reducible refine Kept.mkUpd ?_ rfl rfl rfl

theorem setLane_kept {s₀ : State} (s : State) (n : Nat) (x : Lane) (hK : Kept s₀ s) : Kept s₀ (setLane s n x) := by
  unfold setLane
  repeat' first | with_reducible assumption | with_reducible apply Kept.ite | with_reducible apply foldl_kept | extract_lets
                  | split | (intros; with_reducible assumption) | intro _ _ _ | intro _ _ | dsimp +zetaDelta only
                  | with_reducible refine Kept.mkUpd ?_ rfl rfl rfl

theorem setGroup_kept {s₀ : State} (s : State) (g : Nat) (x : Group) (hK : Kept s₀ s) : Kept s₀ (setGroup s g x) := by
  unfold setGroup
  repeat' first | with_reducible assumption | with_reducible apply Kept.ite | with_reducible apply foldl_kept | extract_lets
                  | split | (intros; with_reducible assumption) | intro _ _ _ | intro _ _ | dsimp +zetaDelta only
                  | with_reducible refine Kept.mkUpd ?_ rfl rfl rfl

theorem setCalGroup_kept {s₀ : State} (s : State) (g : Nat) (x : CalGroup) (hK : Kept s₀ s) : Kept s₀ (setCalGroup s g x) := by
  unfold setCalGroup
  repeat' first | with_reducible assumption | with_reducible apply Kept.ite | with_reducible apply foldl_kept | extract_lets
                  | split | (intros; with_reducible assumption) | intro _ _ _ | intro _ _ | dsimp +zetaDelta only
                  | with_reducible refine Kept.mkUpd ?_ rfl rfl rfl

theorem setSource_kept {s₀ : State} (s : State) (c : Nat) (x : Source) (hK : Kept s₀ s) : Kept s₀ (setSource s c x) := by
  unfold setSource
  repeat' first | with_reducible assumption | with_reducible apply Kept.ite | with_reducible apply foldl_kept | extract_lets
                  | split | (intros; with_reducible assumption) | intro _ _ _ | intro _ _ | dsimp +zetaDelta only
                  | with_reducible refine Kept.mkUpd ?_ rfl rfl rfl

theorem setCluster_kept {s₀ : State} (s : State) (c : Nat) (x : Cluster) (hK : Kept s₀ s) : Kept s₀ (setCluster s c x) := by
  unfold setCluster
  repeat' first | with_reducible assumption | with_reducible apply Kept.ite | with_reducible apply foldl_kept | extract_lets
                  | split | (intros; with_reducible assumption) | intro _ _ _ | intro _ _ | dsimp +zetaDelta only
                  | with_reducible refine Kept.mkUpd ?_ rfl rfl rfl

theorem setEngine_kept {s₀ : State} (s : State) (e : Nat) (x : Engine) (hK : Kept s₀ s) : Kept s₀ (setEngine s e x) := by
  unfold setEngine
  repeat' first | with_reducible assumption | with_reducible apply Kept.ite | with_reducible apply foldl_kept | extract_lets
                  | split | (intros; with_reducible assumption) | intro _ _ _ | intro _ _ | dsimp +zetaDelta only
                  | with_reducible refine Kept.mkUpd ?_ rfl rfl rfl

theorem setMu_kept {s₀ : State} (s : State) (u : Nat) (x : Mu) (hK : Kept s₀ s) : Kept s₀ (setMu s u x) := by
  unfold setMu
  repeat' first | with_reducible assumption | with_reducible apply Kept.ite | with_reducible apply foldl_kept | extract_lets
                  | split | (intros; with_reducible assumption) | intro _ _ _ | intro _ _ | dsimp +zetaDelta only
                  | with_reducible refine Kept.mkUpd ?_ rfl rfl rfl

theorem setBank_kept {s₀ : State} (s : State) (b : Nat) (x : MuBank) (hK : Kept s₀ s) : Kept s₀ (setBank s b x) := by
  unfold setBank
  repeat' first | with_reducible assumption | with_reducible apply Kept.ite | with_reducible apply foldl_kept | extract_lets
                  | split | (intros; with_reducible assumption) | intro _ _ _ | intro _ _ | dsimp +zetaDelta only
                  | with_reducible refine Kept.mkUpd ?_ rfl rfl rfl

theorem pairSend_kept {s₀ : State} (s : State) (e : PairEvent) (hK : Kept s₀ s) : Kept s₀ (pairSend s e) := by
  unfold pairSend
  repeat' first | with_reducible assumption | with_reducible apply Kept.ite | with_reducible apply foldl_kept | extract_lets
                  | split | (intros; with_reducible assumption) | intro _ _ _ | intro _ _ | dsimp +zetaDelta only
                  | with_reducible refine Kept.mkUpd ?_ rfl rfl rfl

theorem setCut_kept {s₀ : State} (s : State) (g : Nat) (x : Cut) (hK : Kept s₀ s) : Kept s₀ (setCut s g x) := by
  unfold setCut
  repeat' first | with_reducible assumption | with_reducible apply Kept.ite | with_reducible apply foldl_kept | extract_lets
                  | split | (intros; with_reducible assumption) | intro _ _ _ | intro _ _ | dsimp +zetaDelta only
                  | with_reducible refine Kept.mkUpd ?_ rfl rfl rfl

theorem noteCutTime_kept {s₀ : State} (s : State) (g : Nat) (t : Nat) (hK : Kept s₀ s) : Kept s₀ (noteCutTime s g t) := by
  unfold noteCutTime
  repeat' first | with_reducible assumption | with_reducible apply Kept.ite | with_reducible apply setCut_kept
                  | with_reducible apply foldl_kept | extract_lets | split | (intros; with_reducible assumption) | intro _ _ _
                  | intro _ _ | dsimp +zetaDelta only | with_reducible refine Kept.mkUpd ?_ rfl rfl rfl

theorem alignLost_kept {s₀ : State} (s : State) (hK : Kept s₀ s) : Kept s₀ (alignLost s) := by
  unfold alignLost
  repeat' first | with_reducible assumption | with_reducible apply Kept.ite | with_reducible apply alarm_kept
                  | with_reducible apply sts_kept | with_reducible apply setFlag_kept | with_reducible apply post_kept
                  | with_reducible apply foldl_kept | extract_lets | split | (intros; with_reducible assumption) | intro _ _ _
                  | intro _ _ | dsimp +zetaDelta only | with_reducible refine Kept.mkUpd ?_ rfl rfl rfl

theorem forEach_kept {s₀ : State} (xs : List Nat) (s : State) (f : State → Nat → State) (hK : Kept s₀ s) (hKf : ∀ t x1, Kept s₀ t →
    Kept s₀ (f t x1)) : Kept s₀ (forEach xs s f) := by
  unfold forEach
  repeat' first | with_reducible assumption | with_reducible apply hKf | with_reducible apply Kept.ite
                  | with_reducible apply foldl_kept | extract_lets | split | (intros; with_reducible assumption) | intro _ _ _
                  | intro _ _ | dsimp +zetaDelta only | with_reducible refine Kept.mkUpd ?_ rfl rfl rfl

/-! ## Records -/

theorem groupMark_kept {s₀ : State} (s : State) (g : Nat) (cls : Nat) (w : W64) (hK : Kept s₀ s) : Kept s₀ (groupMark s g cls w) := by
  unfold groupMark
  repeat' first | with_reducible assumption | with_reducible apply Kept.ite | with_reducible apply setGroup_kept
                  | with_reducible apply foldl_kept | extract_lets | split | (intros; with_reducible assumption) | intro _ _ _
                  | intro _ _ | dsimp +zetaDelta only | with_reducible refine Kept.mkUpd ?_ rfl rfl rfl

theorem setEmitted_kept {s₀ : State} (s : State) (hK : Kept s₀ s) : Kept s₀ (setEmitted s) := by
  unfold setEmitted
  repeat' first | with_reducible assumption | with_reducible apply Kept.ite | with_reducible apply setFlag_kept
                  | with_reducible apply foldl_kept | extract_lets | split | (intros; with_reducible assumption) | intro _ _ _
                  | intro _ _ | dsimp +zetaDelta only | with_reducible refine Kept.mkUpd ?_ rfl rfl rfl

/-! ## Bus -/

theorem guardFault_kept {s₀ : State} (s : State) (f : Nat) (cause : Nat) (blk : Nat) (off : Nat) (hK : Kept s₀ s) : Kept s₀
    (guardFault s f cause blk off) := by
  unfold guardFault
  repeat' first | with_reducible assumption | with_reducible apply Kept.ite | with_reducible apply setReg_kept
                  | with_reducible apply sts_kept | with_reducible apply inc_kept | with_reducible apply foldl_kept | extract_lets
                  | split | (intros; with_reducible assumption) | intro _ _ _ | intro _ _ | dsimp +zetaDelta only
                  | with_reducible refine Kept.mkUpd ?_ rfl rfl rfl

theorem setGuardPair_kept {s₀ : State} (s : State) (blk : Nat) (p : Option GuardPair) (hK : Kept s₀ s) : Kept s₀ (setGuardPair s blk
    p) := by
  unfold setGuardPair
  repeat' first | with_reducible assumption | with_reducible apply Kept.ite | with_reducible apply foldl_kept | extract_lets
                  | split | (intros; with_reducible assumption) | intro _ _ _ | intro _ _ | dsimp +zetaDelta only
                  | with_reducible refine Kept.mkUpd ?_ rfl rfl rfl

theorem breakPair_kept {s₀ : State} (s : State) (blk : Nat) (hK : Kept s₀ s) : Kept s₀ (breakPair s blk) := by
  unfold breakPair
  repeat' first | with_reducible assumption | with_reducible apply Kept.ite | with_reducible apply setGuardPair_kept
                  | with_reducible apply foldl_kept | extract_lets | split | (intros; with_reducible assumption) | intro _ _ _
                  | intro _ _ | dsimp +zetaDelta only | with_reducible refine Kept.mkUpd ?_ rfl rfl rfl

theorem noteStall_kept {s₀ : State} (s : State) (a : Access) (off : Nat) (hK : Kept s₀ s) : Kept s₀ (noteStall s a off) := by
  unfold noteStall
  repeat' first | with_reducible assumption | with_reducible apply Kept.ite | with_reducible apply setFld_kept
                  | with_reducible apply foldl_kept | extract_lets | split | (intros; with_reducible assumption) | intro _ _ _
                  | intro _ _ | dsimp +zetaDelta only | with_reducible refine Kept.mkUpd ?_ rfl rfl rfl

theorem ownFault_kept {s₀ : State} (s : State) (a : Access) (off : Nat) (hK : Kept s₀ s) : Kept s₀ (ownFault s a off) := by
  unfold ownFault
  repeat' first | with_reducible assumption | with_reducible apply Kept.ite | with_reducible apply setReg_kept
                  | with_reducible apply inc_kept | with_reducible apply foldl_kept | extract_lets | split
                  | (intros; with_reducible assumption) | intro _ _ _ | intro _ _ | dsimp +zetaDelta only
                  | with_reducible refine Kept.mkUpd ?_ rfl rfl rfl

theorem accept_kept {s₀ : State} (s : State) (a : Access) (off : Nat) (k : State → State) (hK : Kept s₀ s) (hKk : ∀ t, Kept s₀ t →
    Kept s₀ (k t)) : Kept s₀ (accept s a off k) := by
  unfold accept
  repeat' first | with_reducible assumption | with_reducible apply hKk | with_reducible apply Kept.ite
                  | with_reducible apply breakPair_kept | with_reducible apply noteStall_kept | with_reducible apply ownFault_kept
                  | with_reducible apply foldl_kept | extract_lets | split | (intros; with_reducible assumption) | intro _ _ _
                  | intro _ _ | dsimp +zetaDelta only | with_reducible refine Kept.mkUpd ?_ rfl rfl rfl

theorem setMaq_kept {s₀ : State} (s : State) (off : Nat) (v : W32) (hK : Kept s₀ s) : Kept s₀ (setMaq s off v) := by
  unfold setMaq
  repeat' first | with_reducible assumption | with_reducible apply Kept.ite | with_reducible apply foldl_kept | extract_lets
                  | split | (intros; with_reducible assumption) | intro _ _ _ | intro _ _ | dsimp +zetaDelta only
                  | with_reducible refine Kept.mkUpd ?_ rfl rfl rfl

theorem setCom_kept {s₀ : State} (s : State) (off : Nat) (v : W32) (hK : Kept s₀ s) : Kept s₀ (setCom s off v) := by
  unfold setCom
  repeat' first | with_reducible assumption | with_reducible apply Kept.ite | with_reducible apply foldl_kept | extract_lets
                  | split | (intros; with_reducible assumption) | intro _ _ _ | intro _ _ | dsimp +zetaDelta only
                  | with_reducible refine Kept.mkUpd ?_ rfl rfl rfl

theorem setLatch_kept {s₀ : State} (s : State) (off : Nat) (v : W32) (hK : Kept s₀ s) : Kept s₀ (setLatch s off v) := by
  unfold setLatch
  repeat' first | with_reducible assumption | with_reducible apply Kept.ite | with_reducible apply foldl_kept | extract_lets
                  | split | (intros; with_reducible assumption) | intro _ _ _ | intro _ _ | dsimp +zetaDelta only
                  | with_reducible refine Kept.mkUpd ?_ rfl rfl rfl

theorem writeFields_kept {s₀ : State} (s : State) (p : Nat) (off : Nat) (fs : List RField) (v : W32) (hK : Kept s₀ s) : Kept s₀
    (writeFields s p off fs v) := by
  unfold writeFields
  repeat' first | with_reducible assumption | with_reducible apply Kept.ite | with_reducible apply setReg_kept
                  | with_reducible apply pairSend_kept | with_reducible apply setMaq_kept | with_reducible apply foldl_kept
                  | extract_lets | split | (intros; with_reducible assumption) | intro _ _ _ | intro _ _ | dsimp +zetaDelta only
                  | with_reducible refine Kept.mkUpd ?_ rfl rfl rfl

theorem writeReg_kept {s₀ : State} (s : State) (p : Nat) (off : Nat) (v : W32) (hK : Kept s₀ s) : Kept s₀ (writeReg s p off v) := by
  unfold writeReg
  repeat' first | with_reducible assumption | with_reducible apply Kept.ite | with_reducible apply writeFields_kept
                  | with_reducible apply setLatch_kept | with_reducible apply foldl_kept | extract_lets | split
                  | (intros; with_reducible assumption) | intro _ _ _ | intro _ _ | dsimp +zetaDelta only
                  | with_reducible refine Kept.mkUpd ?_ rfl rfl rfl

theorem cmdWrite_kept {s₀ : State} (s : State) (a : Access) (off : Nat) (v : W32) (k : State → State) (hK : Kept s₀ s) (hKk : ∀ t,
    Kept s₀ t → Kept s₀ (k t)) : Kept s₀ (cmdWrite s a off v k) := by
  unfold cmdWrite
  repeat' first | with_reducible assumption | with_reducible apply hKk | with_reducible apply Kept.ite
                  | with_reducible apply accept_kept | with_reducible apply writeReg_kept | with_reducible apply foldl_kept
                  | extract_lets | split | (intros; with_reducible assumption) | intro _ _ _ | intro _ _ | dsimp +zetaDelta only
                  | with_reducible refine Kept.mkUpd ?_ rfl rfl rfl

/-! ## Plinth -/

theorem plinthStart_kept {s₀ : State} (s : State) (hK : Kept s₀ s) : Kept s₀ (plinthStart s) := by
  unfold plinthStart
  repeat' first | with_reducible assumption | with_reducible apply Kept.ite | with_reducible apply setFlag_kept
                  | with_reducible apply foldl_kept | extract_lets | split | (intros; with_reducible assumption) | intro _ _ _
                  | intro _ _ | dsimp +zetaDelta only | with_reducible refine Kept.mkUpd ?_ rfl rfl rfl

theorem takeAdj_kept {s₀ : State} (s : State) (v : BitVec 48) (tmin : Nat) (hK : Kept s₀ s) : Kept s₀ (takeAdj s v tmin) := by
  unfold takeAdj
  repeat' first | with_reducible assumption | with_reducible apply Kept.ite | with_reducible apply foldl_kept | extract_lets
                  | split | (intros; with_reducible assumption) | intro _ _ _ | intro _ _ | dsimp +zetaDelta only
                  | with_reducible refine Kept.mkUpd ?_ rfl rfl rfl

theorem requestAdj_kept {s₀ : State} (s : State) (v : BitVec 48) (hK : Kept s₀ s) : Kept s₀ (requestAdj s v) := by
  unfold requestAdj
  repeat' first | with_reducible assumption | with_reducible apply Kept.ite | with_reducible apply takeAdj_kept
                  | with_reducible apply pairSend_kept | with_reducible apply foldl_kept | extract_lets | split
                  | (intros; with_reducible assumption) | intro _ _ _ | intro _ _ | dsimp +zetaDelta only
                  | with_reducible refine Kept.mkUpd ?_ rfl rfl rfl

theorem plAdjSetWrite_kept {s₀ : State} (s : State) (a : Access) (v : W32) (hK : Kept s₀ s) : Kept s₀ (plAdjSetWrite s a v) := by
  unfold plAdjSetWrite
  repeat' first | with_reducible assumption | with_reducible apply Kept.ite | with_reducible apply cmdWrite_kept
                  | with_reducible apply requestAdj_kept | with_reducible apply foldl_kept | extract_lets | split
                  | (intros; with_reducible assumption) | intro _ _ _ | intro _ _ | dsimp +zetaDelta only
                  | with_reducible refine Kept.mkUpd ?_ rfl rfl rfl

theorem servoIssue_kept {s₀ : State} (s : State) (v : BitVec 48) (hK : Kept s₀ s) : Kept s₀ (servoIssue s v) := by
  unfold servoIssue
  repeat' first | with_reducible assumption | with_reducible apply Kept.ite | with_reducible apply requestAdj_kept
                  | with_reducible apply foldl_kept | extract_lets | split | (intros; with_reducible assumption) | intro _ _ _
                  | intro _ _ | dsimp +zetaDelta only | with_reducible refine Kept.mkUpd ?_ rfl rfl rfl

theorem noteClamp_kept {s₀ : State} (s : State) (v : BitVec 48) (hK : Kept s₀ s) : Kept s₀ (noteClamp s v) := by
  unfold noteClamp
  repeat' first | with_reducible assumption | with_reducible apply Kept.ite | with_reducible apply sts_kept
                  | with_reducible apply post_kept | with_reducible apply foldl_kept | extract_lets | split
                  | (intros; with_reducible assumption) | intro _ _ _ | intro _ _ | dsimp +zetaDelta only
                  | with_reducible refine Kept.mkUpd ?_ rfl rfl rfl

theorem applyAdj_kept {s₀ : State} (s : State) (v : BitVec 48) (hK : Kept s₀ s) : Kept s₀ (applyAdj s v) := by
  unfold applyAdj
  repeat' first | with_reducible assumption | with_reducible apply Kept.ite | with_reducible apply noteClamp_kept
                  | with_reducible apply setPair64_kept | with_reducible apply inc_kept | with_reducible apply setReg_kept
                  | with_reducible apply bump_kept | with_reducible apply setFld_kept | with_reducible apply foldl_kept
                  | extract_lets | split | (intros; with_reducible assumption) | intro _ _ _ | intro _ _ | dsimp +zetaDelta only
                  | with_reducible refine Kept.mkUpd ?_ rfl rfl rfl

theorem adjApply_kept {s₀ : State} (s : State) (hK : Kept s₀ s) : Kept s₀ (adjApply s) := by
  unfold adjApply
  repeat' first | with_reducible assumption | with_reducible apply Kept.ite | with_reducible apply applyAdj_kept
                  | with_reducible apply foldl_kept | extract_lets | split | (intros; with_reducible assumption) | intro _ _ _
                  | intro _ _ | dsimp +zetaDelta only | with_reducible refine Kept.mkUpd ?_ rfl rfl rfl

theorem epochBoundary_kept {s₀ : State} (s : State) (hK : Kept s₀ s) : Kept s₀ (epochBoundary s) := by
  unfold epochBoundary
  repeat' first | with_reducible assumption | with_reducible apply Kept.ite | with_reducible apply forEach_kept
                  | with_reducible apply groupMark_kept | with_reducible apply foldl_kept | extract_lets | split
                  | (intros; with_reducible assumption) | intro _ _ _ | intro _ _ | dsimp +zetaDelta only
                  | with_reducible refine Kept.mkUpd ?_ rfl rfl rfl

theorem plSnapGo_kept {s₀ : State} (s : State) (a : Access) (v : W32) (hK : Kept s₀ s) : Kept s₀ (plSnapGo s a v) := by
  unfold plSnapGo
  repeat' first | with_reducible assumption | with_reducible apply Kept.ite | with_reducible apply cmdWrite_kept
                  | with_reducible apply setFlag_kept | with_reducible apply foldl_kept | extract_lets | split
                  | (intros; with_reducible assumption) | intro _ _ _ | intro _ _ | dsimp +zetaDelta only
                  | with_reducible refine Kept.mkUpd ?_ rfl rfl rfl

theorem plSnapCancel_kept {s₀ : State} (s : State) (a : Access) (v : W32) (hK : Kept s₀ s) : Kept s₀ (plSnapCancel s a v) := by
  unfold plSnapCancel
  repeat' first | with_reducible assumption | with_reducible apply Kept.ite | with_reducible apply cmdWrite_kept
                  | with_reducible apply setFlag_kept | with_reducible apply foldl_kept | extract_lets | split
                  | (intros; with_reducible assumption) | intro _ _ _ | intro _ _ | dsimp +zetaDelta only
                  | with_reducible refine Kept.mkUpd ?_ rfl rfl rfl

theorem takeSnapshot_kept {s₀ : State} (s : State) (hK : Kept s₀ s) : Kept s₀ (takeSnapshot s) := by
  unfold takeSnapshot
  repeat' first | with_reducible assumption | with_reducible apply Kept.ite | with_reducible apply setReg_kept
                  | with_reducible apply setPair64_kept | with_reducible apply setFld_kept | with_reducible apply setFlag_kept
                  | with_reducible apply bump_kept | with_reducible apply foldl_kept | extract_lets | split
                  | (intros; with_reducible assumption) | intro _ _ _ | intro _ _ | dsimp +zetaDelta only
                  | with_reducible refine Kept.mkUpd ?_ rfl rfl rfl

theorem snapshotTake_kept {s₀ : State} (s : State) (pin : Bool) (hK : Kept s₀ s) : Kept s₀ (snapshotTake s pin) := by
  unfold snapshotTake
  repeat' first | with_reducible assumption | with_reducible apply Kept.ite | with_reducible apply takeSnapshot_kept
                  | with_reducible apply foldl_kept | extract_lets | split | (intros; with_reducible assumption) | intro _ _ _
                  | intro _ _ | dsimp +zetaDelta only | with_reducible refine Kept.mkUpd ?_ rfl rfl rfl

theorem originLoad_kept {s₀ : State} (s : State) (t : Nat) (f : Nat) (hK : Kept s₀ s) : Kept s₀ (originLoad s t f) := by
  unfold originLoad
  repeat' first | with_reducible assumption | with_reducible apply Kept.ite | with_reducible apply sts_kept
                  | with_reducible apply foldl_kept | extract_lets | split | (intros; with_reducible assumption) | intro _ _ _
                  | intro _ _ | dsimp +zetaDelta only | with_reducible refine Kept.mkUpd ?_ rfl rfl rfl

/-! ## Chisel -/

theorem openSettle_kept {s₀ : State} (s : State) (n : Nat) (hK : Kept s₀ s) : Kept s₀ (openSettle s n) := by
  unfold openSettle
  repeat' first | with_reducible assumption | with_reducible apply Kept.ite | with_reducible apply setLane_kept
                  | with_reducible apply foldl_kept | extract_lets | split | (intros; with_reducible assumption) | intro _ _ _
                  | intro _ _ | dsimp +zetaDelta only | with_reducible refine Kept.mkUpd ?_ rfl rfl rfl

theorem suppress_kept {s₀ : State} (s : State) (n : Nat) (byCmd : Bool) (hK : Kept s₀ s) : Kept s₀ (suppress s n byCmd) := by
  unfold suppress
  repeat' first | with_reducible assumption | with_reducible apply Kept.ite | with_reducible apply setLane_kept
                  | with_reducible apply foldl_kept | extract_lets | split | (intros; with_reducible assumption) | intro _ _ _
                  | intro _ _ | dsimp +zetaDelta only | with_reducible refine Kept.mkUpd ?_ rfl rfl rfl

theorem release_kept {s₀ : State} (s : State) (n : Nat) (hK : Kept s₀ s) : Kept s₀ (release s n) := by
  unfold release
  repeat' first | with_reducible assumption | with_reducible apply Kept.ite | with_reducible apply setLane_kept
                  | with_reducible apply setGroup_kept | with_reducible apply foldl_kept | extract_lets | split
                  | (intros; with_reducible assumption) | intro _ _ _ | intro _ _ | dsimp +zetaDelta only
                  | with_reducible refine Kept.mkUpd ?_ rfl rfl rfl

theorem settlingWindowEnd_kept {s₀ : State} (s : State) (n : Nat) (hK : Kept s₀ s) : Kept s₀ (settlingWindowEnd s n) := by
  unfold settlingWindowEnd
  repeat' first | with_reducible assumption | with_reducible apply Kept.ite | with_reducible apply setLane_kept
                  | with_reducible apply release_kept | with_reducible apply foldl_kept | extract_lets | split
                  | (intros; with_reducible assumption) | intro _ _ _ | intro _ _ | dsimp +zetaDelta only
                  | with_reducible refine Kept.mkUpd ?_ rfl rfl rfl

theorem countPileup_kept {s₀ : State} (s : State) (n : Nat) (k : Nat) (hK : Kept s₀ s) : Kept s₀ (countPileup s n k) := by
  unfold countPileup
  repeat' first | with_reducible assumption | with_reducible apply Kept.ite | with_reducible apply addCnt_kept
                  | with_reducible apply foldl_kept | extract_lets | split | (intros; with_reducible assumption) | intro _ _ _
                  | intro _ _ | dsimp +zetaDelta only | with_reducible refine Kept.mkUpd ?_ rfl rfl rfl

theorem locate_kept {s₀ : State} (s : State) (n : Nat) (falling : Bool) (r : Nat) (further : Nat) (hK : Kept s₀ s) : Kept s₀ (locate
    s n falling r further) := by
  unfold locate
  repeat' first | with_reducible assumption | with_reducible apply Kept.ite | with_reducible apply countPileup_kept
                  | with_reducible apply setLane_kept | with_reducible apply foldl_kept | extract_lets | split
                  | (intros; with_reducible assumption) | intro _ _ _ | intro _ _ | dsimp +zetaDelta only
                  | with_reducible refine Kept.mkUpd ?_ rfl rfl rfl

theorem noteObserved_kept {s₀ : State} (s : State) (n : Nat) (level : Bool) (k : Nat) (hK : Kept s₀ s) : Kept s₀ (noteObserved s n
    level k) := by
  unfold noteObserved
  repeat' first | with_reducible assumption | with_reducible apply Kept.ite | with_reducible apply foldl_kept | extract_lets
                  | split | (intros; with_reducible assumption) | intro _ _ _ | intro _ _ | dsimp +zetaDelta only
                  | with_reducible refine Kept.mkUpd ?_ rfl rfl rfl

theorem notePulse_kept {s₀ : State} (s : State) (n : Nat) (falling : Bool) (before : Bool) (taps : Taps) (hK : Kept s₀ s) : Kept s₀
    (notePulse s n falling before taps) := by
  unfold notePulse
  repeat' first | with_reducible assumption | with_reducible apply Kept.ite | with_reducible apply foldl_kept | extract_lets
                  | split | (intros; with_reducible assumption) | intro _ _ _ | intro _ _ | dsimp +zetaDelta only
                  | with_reducible refine Kept.mkUpd ?_ rfl rfl rfl

theorem comparatorTransition_kept {s₀ : State} (s : State) (n : Nat) (falling : Bool) (taps : Taps) (further : Nat) (hK : Kept s₀ s)
    : Kept s₀ (comparatorTransition s n falling taps further) := by
  unfold comparatorTransition
  repeat' first | with_reducible assumption | with_reducible apply Kept.ite | with_reducible apply notePulse_kept
                  | with_reducible apply noteObserved_kept | with_reducible apply setLane_kept | with_reducible apply locate_kept
                  | with_reducible apply foldl_kept | extract_lets | split | (intros; with_reducible assumption) | intro _ _ _
                  | intro _ _ | dsimp +zetaDelta only | with_reducible refine Kept.mkUpd ?_ rfl rfl rfl

theorem chainEnter_kept {s₀ : State} (s : State) (n : Nat) (x : ChainRec) (hK : Kept s₀ s) : Kept s₀ (chainEnter s n x) := by
  unfold chainEnter
  repeat' first | with_reducible assumption | with_reducible apply Kept.ite | with_reducible apply setLane_kept
                  | with_reducible apply sts_kept | with_reducible apply inc_kept | with_reducible apply stsBit_kept
                  | with_reducible apply foldl_kept | extract_lets | split | (intros; with_reducible assumption) | intro _ _ _
                  | intro _ _ | dsimp +zetaDelta only | with_reducible refine Kept.mkUpd ?_ rfl rfl rfl

theorem stampEmit_kept {s₀ : State} (s : State) (n : Nat) (hK : Kept s₀ s) : Kept s₀ (stampEmit s n) := by
  unfold stampEmit
  repeat' first | with_reducible assumption | with_reducible apply Kept.ite | with_reducible apply chainEnter_kept
                  | with_reducible apply setLane_kept | with_reducible apply foldl_kept | extract_lets | split
                  | (intros; with_reducible assumption) | intro _ _ _ | intro _ _ | dsimp +zetaDelta only
                  | with_reducible refine Kept.mkUpd ?_ rfl rfl rfl

theorem dllNotice_kept {s₀ : State} (s : State) (g : Nat) (ty : Nat) (hK : Kept s₀ s) : Kept s₀ (dllNotice s g ty) := by
  unfold dllNotice
  repeat' first | with_reducible assumption | with_reducible apply Kept.ite | with_reducible apply post_kept
                  | with_reducible apply foldl_kept | extract_lets | split | (intros; with_reducible assumption) | intro _ _ _
                  | intro _ _ | dsimp +zetaDelta only | with_reducible refine Kept.mkUpd ?_ rfl rfl rfl

theorem acquire_kept {s₀ : State} (s : State) (g : Nat) (hK : Kept s₀ s) : Kept s₀ (acquire s g) := by
  unfold acquire
  repeat' first | with_reducible assumption | with_reducible apply Kept.ite | with_reducible apply setGroup_kept
                  | with_reducible apply setFld_kept | with_reducible apply foldl_kept | extract_lets | split
                  | (intros; with_reducible assumption) | intro _ _ _ | intro _ _ | dsimp +zetaDelta only
                  | with_reducible refine Kept.mkUpd ?_ rfl rfl rfl

theorem stopLoop_kept {s₀ : State} (s : State) (g : Nat) (hK : Kept s₀ s) : Kept s₀ (stopLoop s g) := by
  unfold stopLoop
  repeat' first | with_reducible assumption | with_reducible apply Kept.ite | with_reducible apply setGroup_kept
                  | with_reducible apply foldl_kept | extract_lets | split | (intros; with_reducible assumption) | intro _ _ _
                  | intro _ _ | dsimp +zetaDelta only | with_reducible refine Kept.mkUpd ?_ rfl rfl rfl

theorem declareLoss_kept {s₀ : State} (s : State) (g : Nat) (hK : Kept s₀ s) : Kept s₀ (declareLoss s g) := by
  unfold declareLoss
  repeat' first | with_reducible assumption | with_reducible apply Kept.ite | with_reducible apply setFlag_kept
                  | with_reducible apply inc_kept | with_reducible apply sts_kept | with_reducible apply alarm_kept
                  | with_reducible apply setGroup_kept | with_reducible apply setCalGroup_kept
                  | with_reducible apply dllNotice_kept | with_reducible apply foldl_kept | extract_lets | split
                  | (intros; with_reducible assumption) | intro _ _ _ | intro _ _ | dsimp +zetaDelta only
                  | with_reducible refine Kept.mkUpd ?_ rfl rfl rfl

theorem endRun_kept {s₀ : State} (s : State) (g : Nat) (hK : Kept s₀ s) : Kept s₀ (endRun s g) := by
  unfold endRun
  repeat' first | with_reducible assumption | with_reducible apply Kept.ite | with_reducible apply setGroup_kept
                  | with_reducible apply foldl_kept | extract_lets | split | (intros; with_reducible assumption) | intro _ _ _
                  | intro _ _ | dsimp +zetaDelta only | with_reducible refine Kept.mkUpd ?_ rfl rfl rfl

theorem dllLockDeclare_kept {s₀ : State} (s : State) (g : Nat) (hK : Kept s₀ s) : Kept s₀ (dllLockDeclare s g) := by
  unfold dllLockDeclare
  repeat' first | with_reducible assumption | with_reducible apply Kept.ite | with_reducible apply setFlag_kept
                  | with_reducible apply sts_kept | with_reducible apply dllNotice_kept | with_reducible apply foldl_kept
                  | extract_lets | split | (intros; with_reducible assumption) | intro _ _ _ | intro _ _ | dsimp +zetaDelta only
                  | with_reducible refine Kept.mkUpd ?_ rfl rfl rfl

theorem dllLossDeclare_kept {s₀ : State} (s : State) (g : Nat) (c : DllCause) (hK : Kept s₀ s) : Kept s₀ (dllLossDeclare s g c) := by
  unfold dllLossDeclare
  repeat' first | with_reducible assumption | with_reducible apply Kept.ite | with_reducible apply acquire_kept
                  | with_reducible apply declareLoss_kept | with_reducible apply endRun_kept | with_reducible apply foldl_kept
                  | extract_lets | split | (intros; with_reducible assumption) | intro _ _ _ | intro _ _ | dsimp +zetaDelta only
                  | with_reducible refine Kept.mkUpd ?_ rfl rfl rfl

theorem dllCodeStep_kept {s₀ : State} (s : State) (g : Nat) (code : Nat) (err : BitVec 16) (hK : Kept s₀ s) : Kept s₀ (dllCodeStep s
    g code err) := by
  unfold dllCodeStep
  repeat' first | with_reducible assumption | with_reducible apply Kept.ite | with_reducible apply setFld_kept
                  | with_reducible apply setGroup_kept | with_reducible apply foldl_kept | extract_lets | split
                  | (intros; with_reducible assumption) | intro _ _ _ | intro _ _ | dsimp +zetaDelta only
                  | with_reducible refine Kept.mkUpd ?_ rfl rfl rfl

theorem lgDllRelock_kept {s₀ : State} (s : State) (a : Access) (g : Nat) (v : W32) (hK : Kept s₀ s) : Kept s₀ (lgDllRelock s a g v) := by
  unfold lgDllRelock
  repeat' first | with_reducible assumption | with_reducible apply Kept.ite | with_reducible apply cmdWrite_kept
                  | with_reducible apply declareLoss_kept | with_reducible apply setFlag_kept | with_reducible apply acquire_kept
                  | with_reducible apply foldl_kept | extract_lets | split | (intros; with_reducible assumption) | intro _ _ _
                  | intro _ _ | dsimp +zetaDelta only | with_reducible refine Kept.mkUpd ?_ rfl rfl rfl

theorem dllPllLoss_kept {s₀ : State} (s : State) (hK : Kept s₀ s) : Kept s₀ (dllPllLoss s) := by
  unfold dllPllLoss
  repeat' first | with_reducible assumption | with_reducible apply Kept.ite | with_reducible apply forEach_kept
                  | with_reducible apply stopLoop_kept | with_reducible apply declareLoss_kept | with_reducible apply foldl_kept
                  | extract_lets | split | (intros; with_reducible assumption) | intro _ _ _ | intro _ _ | dsimp +zetaDelta only
                  | with_reducible refine Kept.mkUpd ?_ rfl rfl rfl

theorem dllPllLock_kept {s₀ : State} (s : State) (hK : Kept s₀ s) : Kept s₀ (dllPllLock s) := by
  unfold dllPllLock
  repeat' first | with_reducible assumption | with_reducible apply Kept.ite | with_reducible apply forEach_kept
                  | with_reducible apply acquire_kept | with_reducible apply foldl_kept | extract_lets | split
                  | (intros; with_reducible assumption) | intro _ _ _ | intro _ _ | dsimp +zetaDelta only
                  | with_reducible refine Kept.mkUpd ?_ rfl rfl rfl

theorem mainPllLoss_kept {s₀ : State} (s : State) (hK : Kept s₀ s) : Kept s₀ (mainPllLoss s) := by
  unfold mainPllLoss
  repeat' first | with_reducible assumption | with_reducible apply Kept.ite | with_reducible apply setFlag_kept
                  | with_reducible apply inc_kept | with_reducible apply sts_kept | with_reducible apply post_kept
                  | with_reducible apply dllPllLoss_kept | with_reducible apply foldl_kept | extract_lets | split
                  | (intros; with_reducible assumption) | intro _ _ _ | intro _ _ | dsimp +zetaDelta only
                  | with_reducible refine Kept.mkUpd ?_ rfl rfl rfl

theorem mainPllRelock_kept {s₀ : State} (s : State) (hK : Kept s₀ s) : Kept s₀ (mainPllRelock s) := by
  unfold mainPllRelock
  repeat' first | with_reducible assumption | with_reducible apply Kept.ite | with_reducible apply setFlag_kept
                  | with_reducible apply post_kept | with_reducible apply dllPllLock_kept | with_reducible apply foldl_kept
                  | extract_lets | split | (intros; with_reducible assumption) | intro _ _ _ | intro _ _ | dsimp +zetaDelta only
                  | with_reducible refine Kept.mkUpd ?_ rfl rfl rfl

/-! ## Unveil -/

theorem noteStrobe_kept {s₀ : State} (s : State) (src : Nat) (mask : Nat) (P : Nat) (t : Nat) (hK : Kept s₀ s) : Kept s₀ (noteStrobe
    s src mask P t) := by
  unfold noteStrobe
  repeat' first | with_reducible assumption | with_reducible apply Kept.ite | with_reducible apply bump_kept
                  | with_reducible apply setPair64_kept | with_reducible apply setFld_kept | with_reducible apply foldl_kept
                  | extract_lets | split | (intros; with_reducible assumption) | intro _ _ _ | intro _ _ | dsimp +zetaDelta only
                  | with_reducible refine Kept.mkUpd ?_ rfl rfl rfl

theorem strobeAt_kept {s₀ : State} (s : State) (src : Nat) (func : Nat) (mask : Nat) (P : Nat) (t : Nat) (hK : Kept s₀ s) : Kept s₀
    (strobeAt s src func mask P t) := by
  unfold strobeAt
  repeat' first | with_reducible assumption | with_reducible apply Kept.ite | with_reducible apply noteStrobe_kept
                  | with_reducible apply pairSend_kept | with_reducible apply foldl_kept | extract_lets | split
                  | (intros; with_reducible assumption) | intro _ _ _ | intro _ _ | dsimp +zetaDelta only
                  | with_reducible refine Kept.mkUpd ?_ rfl rfl rfl

theorem strobe_kept {s₀ : State} (s : State) (src : Nat) (func : Nat) (mask : Nat) (hK : Kept s₀ s) : Kept s₀ (strobe s src func
    mask) := by
  unfold strobe
  repeat' first | with_reducible assumption | with_reducible apply Kept.ite | with_reducible apply strobeAt_kept
                  | with_reducible apply foldl_kept | extract_lets | split | (intros; with_reducible assumption) | intro _ _ _
                  | intro _ _ | dsimp +zetaDelta only | with_reducible refine Kept.mkUpd ?_ rfl rfl rfl

theorem mqUnveil_kept {s₀ : State} (s : State) (a : Access) (v : W32) (hK : Kept s₀ s) : Kept s₀ (mqUnveil s a v) := by
  unfold mqUnveil
  repeat' first | with_reducible assumption | with_reducible apply Kept.ite | with_reducible apply cmdWrite_kept
                  | with_reducible apply strobe_kept | with_reducible apply foldl_kept | extract_lets | split
                  | (intros; with_reducible assumption) | intro _ _ _ | intro _ _ | dsimp +zetaDelta only
                  | with_reducible refine Kept.mkUpd ?_ rfl rfl rfl

theorem unveilPinStrobe_kept {s₀ : State} (s : State) (hK : Kept s₀ s) : Kept s₀ (unveilPinStrobe s) := by
  unfold unveilPinStrobe
  repeat' first | with_reducible assumption | with_reducible apply Kept.ite | with_reducible apply strobe_kept
                  | with_reducible apply foldl_kept | extract_lets | split | (intros; with_reducible assumption) | intro _ _ _
                  | intro _ _ | dsimp +zetaDelta only | with_reducible refine Kept.mkUpd ?_ rfl rfl rfl

theorem latchReg_kept {s₀ : State} (s : State) (src : Nat) (func : Nat) (off : Nat) (hK : Kept s₀ s) : Kept s₀ (latchReg s src func
    off) := by
  unfold latchReg
  repeat' first | with_reducible assumption | with_reducible apply Kept.ite | with_reducible apply setCom_kept
                  | with_reducible apply foldl_kept | extract_lets | split | (intros; with_reducible assumption) | intro _ _ _
                  | intro _ _ | dsimp +zetaDelta only | with_reducible refine Kept.mkUpd ?_ rfl rfl rfl

theorem regroup_kept {s₀ : State} (s : State) (hK : Kept s₀ s) : Kept s₀ (regroup s) := by
  unfold regroup
  repeat' first | with_reducible assumption | with_reducible apply Kept.ite | with_reducible apply foldl_kept | extract_lets
                  | split | (intros; with_reducible assumption) | intro _ _ _ | intro _ _ | dsimp +zetaDelta only
                  | with_reducible refine Kept.mkUpd ?_ rfl rfl rfl

theorem noteGens_kept {s₀ : State} (s : State) (l : List Strobe) (hK : Kept s₀ s) : Kept s₀ (noteGens s l) := by
  unfold noteGens
  repeat' first | with_reducible assumption | with_reducible apply Kept.ite | with_reducible apply foldl_kept | extract_lets
                  | split | (intros; with_reducible assumption) | intro _ _ _ | intro _ _ | dsimp +zetaDelta only
                  | with_reducible refine Kept.mkUpd ?_ rfl rfl rfl

theorem unveilLatch_kept {s₀ : State} (s : State) (u : UBlock) (hK : Kept s₀ s) : Kept s₀ (unveilLatch s u) := by
  unfold unveilLatch
  repeat' first | with_reducible assumption | with_reducible apply Kept.ite | with_reducible apply latchReg_kept
                  | with_reducible apply noteGens_kept | with_reducible apply setFlag_kept | with_reducible apply sts_kept
                  | with_reducible apply inc_kept | with_reducible apply foldl_kept | extract_lets | split
                  | (intros; with_reducible assumption) | intro _ _ _ | intro _ _ | dsimp +zetaDelta only
                  | with_reducible refine Kept.mkUpd ?_ rfl rfl rfl

theorem applyReg_kept {s₀ : State} (s : State) (off : Nat) (hK : Kept s₀ s) : Kept s₀ (applyReg s off) := by
  unfold applyReg
  repeat' first | with_reducible assumption | with_reducible apply Kept.ite | with_reducible apply setReg_kept
                  | with_reducible apply foldl_kept | extract_lets | split | (intros; with_reducible assumption) | intro _ _ _
                  | intro _ _ | dsimp +zetaDelta only | with_reducible refine Kept.mkUpd ?_ rfl rfl rfl

theorem applyRegs_kept {s₀ : State} (s : State) (u : UBlock) (hK : Kept s₀ s) : Kept s₀ (applyRegs s u) := by
  unfold applyRegs
  repeat' first | with_reducible assumption | with_reducible apply Kept.ite | with_reducible apply applyReg_kept
                  | with_reducible apply foldl_kept | extract_lets | split | (intros; with_reducible assumption) | intro _ _ _
                  | intro _ _ | dsimp +zetaDelta only | with_reducible refine Kept.mkUpd ?_ rfl rfl rfl

theorem scanStart_kept {s₀ : State} (s : State) (hK : Kept s₀ s) : Kept s₀ (scanStart s) := by
  unfold scanStart
  repeat' first | with_reducible assumption | with_reducible apply Kept.ite | with_reducible apply foldl_kept | extract_lets
                  | split | (intros; with_reducible assumption) | intro _ _ _ | intro _ _ | dsimp +zetaDelta only
                  | with_reducible refine Kept.mkUpd ?_ rfl rfl rfl

theorem integrityScanEnd_kept {s₀ : State} (s : State) (hK : Kept s₀ s) : Kept s₀ (integrityScanEnd s) := by
  unfold integrityScanEnd
  repeat' first | with_reducible assumption | with_reducible apply Kept.ite | with_reducible apply bump_kept
                  | with_reducible apply setReg_kept | with_reducible apply setFlag_kept | with_reducible apply inc_kept
                  | with_reducible apply sts_kept | with_reducible apply post_kept | with_reducible apply alarm_kept
                  | with_reducible apply foldl_kept | extract_lets | split | (intros; with_reducible assumption) | intro _ _ _
                  | intro _ _ | dsimp +zetaDelta only | with_reducible refine Kept.mkUpd ?_ rfl rfl rfl

theorem scanRef_kept {s₀ : State} (s : State) (v : W32) (hK : Kept s₀ s) : Kept s₀ (scanRef s v) := by
  unfold scanRef
  repeat' first | with_reducible assumption | with_reducible apply Kept.ite | with_reducible apply setFlag_kept
                  | with_reducible apply setReg_kept | with_reducible apply foldl_kept | extract_lets | split
                  | (intros; with_reducible assumption) | intro _ _ _ | intro _ _ | dsimp +zetaDelta only
                  | with_reducible refine Kept.mkUpd ?_ rfl rfl rfl

end Sys2Proof.Laws
end

