-- ==== Sys2Proof/Laws/KeptInputs.lean ====
section
/-! SUPPORT. What no operation touches or worsens (`Kept`), for the monitor, the inputs, the queues, the host rings, calibration and
the tile assembler. -/

namespace Sys2Proof.Laws

open Sys2Proof.Machine

/-! ## Monitor -/

theorem setConv_kept {s₀ : State} (s : State) (c : Nat) (x : Conv) (hK : Kept s₀ s) : Kept s₀ (setConv s c x) := by
  unfold setConv
  repeat' first | with_reducible assumption | with_reducible apply Kept.ite | with_reducible apply foldl_kept | extract_lets
                  | split | (intros; with_reducible assumption) | intro _ _ _ | intro _ _ | dsimp +zetaDelta only
                  | with_reducible refine Kept.mkUpd ?_ rfl rfl rfl

theorem setAcc_kept {s₀ : State} (s : State) (n : Nat) (x : Acc) (hK : Kept s₀ s) : Kept s₀ (setAcc s n x) := by
  unfold setAcc
  repeat' first | with_reducible assumption | with_reducible apply Kept.ite | with_reducible apply foldl_kept | extract_lets
                  | split | (intros; with_reducible assumption) | intro _ _ _ | intro _ _ | dsimp +zetaDelta only
                  | with_reducible refine Kept.mkUpd ?_ rfl rfl rfl

theorem maNotice_kept {s₀ : State} (s : State) (c : Nat) (ty : Nat) (source : Nat) (aux : Nat) (data : Nat) (hK : Kept s₀ s) : Kept
    s₀ (maNotice s c ty source aux data) := by
  unfold maNotice
  repeat' first | with_reducible assumption | with_reducible apply Kept.ite | with_reducible apply post_kept
                  | with_reducible apply foldl_kept | extract_lets | split | (intros; with_reducible assumption) | intro _ _ _
                  | intro _ _ | dsimp +zetaDelta only | with_reducible refine Kept.mkUpd ?_ rfl rfl rfl

theorem pairStart_kept {s₀ : State} (s : State) (c : Nat) (hK : Kept s₀ s) : Kept s₀ (pairStart s c) := by
  unfold pairStart
  repeat' first | with_reducible assumption | with_reducible apply Kept.ite | with_reducible apply setConv_kept
                  | with_reducible apply foldl_kept | extract_lets | split | (intros; with_reducible assumption) | intro _ _ _
                  | intro _ _ | dsimp +zetaDelta only | with_reducible refine Kept.mkUpd ?_ rfl rfl rfl

theorem maBegin_kept {s₀ : State} (s : State) (c : Nat) (hK : Kept s₀ s) : Kept s₀ (maBegin s c) := by
  unfold maBegin
  repeat' first | with_reducible assumption | with_reducible apply Kept.ite | with_reducible apply pairStart_kept
                  | with_reducible apply setConv_kept | with_reducible apply sts_kept | with_reducible apply foldl_kept
                  | extract_lets | split | (intros; with_reducible assumption) | intro _ _ _ | intro _ _ | dsimp +zetaDelta only
                  | with_reducible refine Kept.mkUpd ?_ rfl rfl rfl

theorem accBlank_kept {s₀ : State} (s : State) (n : Nat) (k : Nat) (hK : Kept s₀ s) : Kept s₀ (accBlank s n k) := by
  unfold accBlank
  repeat' first | with_reducible assumption | with_reducible apply Kept.ite | with_reducible apply setAcc_kept
                  | with_reducible apply foldl_kept | extract_lets | split | (intros; with_reducible assumption) | intro _ _ _
                  | intro _ _ | dsimp +zetaDelta only | with_reducible refine Kept.mkUpd ?_ rfl rfl rfl

theorem accAdd_kept {s₀ : State} (s : State) (n : Nat) (v : Int) (src : Nat) (hK : Kept s₀ s) : Kept s₀ (accAdd s n v src) := by
  unfold accAdd
  repeat' first | with_reducible assumption | with_reducible apply Kept.ite | with_reducible apply sts_kept
                  | with_reducible apply setAcc_kept | with_reducible apply foldl_kept | extract_lets | split
                  | (intros; with_reducible assumption) | intro _ _ _ | intro _ _ | dsimp +zetaDelta only
                  | with_reducible refine Kept.mkUpd ?_ rfl rfl rfl

theorem accPublish_kept {s₀ : State} (s : State) (n : Nat) (hK : Kept s₀ s) : Kept s₀ (accPublish s n) := by
  unfold accPublish
  repeat' first | with_reducible assumption | with_reducible apply Kept.ite | with_reducible apply setReg_kept
                  | with_reducible apply bump_kept | with_reducible apply setFld_kept | with_reducible apply setFlag_kept
                  | with_reducible apply foldl_kept | extract_lets | split | (intros; with_reducible assumption) | intro _ _ _
                  | intro _ _ | dsimp +zetaDelta only | with_reducible refine Kept.mkUpd ?_ rfl rfl rfl

theorem accDeliver_kept {s₀ : State} (s : State) (n : Nat) (hK : Kept s₀ s) : Kept s₀ (accDeliver s n) := by
  unfold accDeliver
  repeat' first | with_reducible assumption | with_reducible apply Kept.ite | with_reducible apply foldl_kept | extract_lets
                  | split | (intros; with_reducible assumption) | intro _ _ _ | intro _ _ | dsimp +zetaDelta only
                  | with_reducible refine Kept.mkUpd ?_ rfl rfl rfl

theorem accRestart_kept {s₀ : State} (s : State) (n : Nat) (hK : Kept s₀ s) : Kept s₀ (accRestart s n) := by
  unfold accRestart
  repeat' first | with_reducible assumption | with_reducible apply Kept.ite | with_reducible apply setAcc_kept
                  | with_reducible apply foldl_kept | extract_lets | split | (intros; with_reducible assumption) | intro _ _ _
                  | intro _ _ | dsimp +zetaDelta only | with_reducible refine Kept.mkUpd ?_ rfl rfl rfl

theorem accComplete_kept {s₀ : State} (s : State) (n : Nat) (hK : Kept s₀ s) : Kept s₀ (accComplete s n) := by
  unfold accComplete
  repeat' first | with_reducible assumption | with_reducible apply Kept.ite | with_reducible apply accRestart_kept
                  | with_reducible apply accDeliver_kept | with_reducible apply accPublish_kept | with_reducible apply foldl_kept
                  | extract_lets | split | (intros; with_reducible assumption) | intro _ _ _ | intro _ _ | dsimp +zetaDelta only
                  | with_reducible refine Kept.mkUpd ?_ rfl rfl rfl

theorem accCheck_kept {s₀ : State} (s : State) (n : Nat) (hK : Kept s₀ s) : Kept s₀ (accCheck s n) := by
  unfold accCheck
  repeat' first | with_reducible assumption | with_reducible apply Kept.ite | with_reducible apply accComplete_kept
                  | with_reducible apply foldl_kept | extract_lets | split | (intros; with_reducible assumption) | intro _ _ _
                  | intro _ _ | dsimp +zetaDelta only | with_reducible refine Kept.mkUpd ?_ rfl rfl rfl

theorem setWinOut_kept {s₀ : State} (s : State) (w : Nat) (b : Bool) (hK : Kept s₀ s) : Kept s₀ (setWinOut s w b) := by
  unfold setWinOut
  repeat' first | with_reducible assumption | with_reducible apply Kept.ite | with_reducible apply foldl_kept | extract_lets
                  | split | (intros; with_reducible assumption) | intro _ _ _ | intro _ _ | dsimp +zetaDelta only
                  | with_reducible refine Kept.mkUpd ?_ rfl rfl rfl

theorem windowExit_kept {s₀ : State} (s : State) (c : Nat) (w : Nat) (v : Int) (hK : Kept s₀ s) : Kept s₀ (windowExit s c w v) := by
  unfold windowExit
  repeat' first | with_reducible assumption | with_reducible apply Kept.ite | with_reducible apply setWinOut_kept
                  | with_reducible apply stsBit_kept | with_reducible apply inc_kept | with_reducible apply alarm_kept
                  | with_reducible apply maNotice_kept | with_reducible apply foldl_kept | extract_lets | split
                  | (intros; with_reducible assumption) | intro _ _ _ | intro _ _ | dsimp +zetaDelta only
                  | with_reducible refine Kept.mkUpd ?_ rfl rfl rfl

theorem windowJudge_kept {s₀ : State} (s : State) (c : Nat) (w : Nat) (v : Int) (hK : Kept s₀ s) : Kept s₀ (windowJudge s c w v) := by
  unfold windowJudge
  repeat' first | with_reducible assumption | with_reducible apply Kept.ite | with_reducible apply setWinOut_kept
                  | with_reducible apply windowExit_kept | with_reducible apply foldl_kept | extract_lets | split
                  | (intros; with_reducible assumption) | intro _ _ _ | intro _ _ | dsimp +zetaDelta only
                  | with_reducible refine Kept.mkUpd ?_ rfl rfl rfl

theorem maDeliver_kept {s₀ : State} (s : State) (c : Nat) (v : Int) (hK : Kept s₀ s) : Kept s₀ (maDeliver s c v) := by
  unfold maDeliver
  repeat' first | with_reducible assumption | with_reducible apply Kept.ite | with_reducible apply sts_kept
                  | with_reducible apply accBlank_kept | with_reducible apply windowJudge_kept | with_reducible apply accAdd_kept
                  | with_reducible apply foldl_kept | extract_lets | split | (intros; with_reducible assumption) | intro _ _ _
                  | intro _ _ | dsimp +zetaDelta only | with_reducible refine Kept.mkUpd ?_ rfl rfl rfl

theorem crossCheck_kept {s₀ : State} (s : State) (c : Nat) (vo : Int) (vp : Int) (hK : Kept s₀ s) : Kept s₀ (crossCheck s c vo vp) := by
  unfold crossCheck
  repeat' first | with_reducible assumption | with_reducible apply Kept.ite | with_reducible apply alarm_kept
                  | with_reducible apply inc_kept | with_reducible apply sts_kept | with_reducible apply maNotice_kept
                  | with_reducible apply foldl_kept | extract_lets | split | (intros; with_reducible assumption) | intro _ _ _
                  | intro _ _ | dsimp +zetaDelta only | with_reducible refine Kept.mkUpd ?_ rfl rfl rfl

theorem maAdvance_kept {s₀ : State} (s : State) (c : Nat) (hK : Kept s₀ s) : Kept s₀ (maAdvance s c) := by
  unfold maAdvance
  repeat' first | with_reducible assumption | with_reducible apply Kept.ite | with_reducible apply setConv_kept
                  | with_reducible apply bump_kept | with_reducible apply setFld_kept | with_reducible apply applyRegs_kept
                  | with_reducible apply foldl_kept | extract_lets | split | (intros; with_reducible assumption) | intro _ _ _
                  | intro _ _ | dsimp +zetaDelta only | with_reducible refine Kept.mkUpd ?_ rfl rfl rfl

theorem maPartnerDone_kept {s₀ : State} (s : State) (c : Nat) (hK : Kept s₀ s) : Kept s₀ (maPartnerDone s c) := by
  unfold maPartnerDone
  repeat' first | with_reducible assumption | with_reducible apply Kept.ite | with_reducible apply setConv_kept
                  | with_reducible apply foldl_kept | extract_lets | split | (intros; with_reducible assumption) | intro _ _ _
                  | intro _ _ | dsimp +zetaDelta only | with_reducible refine Kept.mkUpd ?_ rfl rfl rfl

theorem maBeginFree_kept {s₀ : State} (s : State) (c : Nat) (hK : Kept s₀ s) : Kept s₀ (maBeginFree s c) := by
  unfold maBeginFree
  repeat' first | with_reducible assumption | with_reducible apply Kept.ite | with_reducible apply maBegin_kept
                  | with_reducible apply foldl_kept | extract_lets | split | (intros; with_reducible assumption) | intro _ _ _
                  | intro _ _ | dsimp +zetaDelta only | with_reducible refine Kept.mkUpd ?_ rfl rfl rfl

theorem maNext_kept {s₀ : State} (s : State) (e0 : Bool) (e1 : Bool) (first1 : Bool) (hK : Kept s₀ s) : Kept s₀ (maNext s e0 e1
    first1) := by
  unfold maNext
  repeat' first | with_reducible assumption | with_reducible apply Kept.ite | with_reducible apply maBeginFree_kept
                  | with_reducible apply foldl_kept | extract_lets | split | (intros; with_reducible assumption) | intro _ _ _
                  | intro _ _ | dsimp +zetaDelta only | with_reducible refine Kept.mkUpd ?_ rfl rfl rfl

theorem maExecutionEnd_kept {s₀ : State} (s : State) (x0 x1 : List Int) (hK : Kept s₀ s) : Kept s₀ (maExecutionEnd s x0 x1) := by
  unfold maExecutionEnd
  extract_lets raws ends v own pair gives tgts o0 o1 p0 p1 v0 v1 g0 g1 s1 s2 s3 s4 s5 s6
  have k1 : Kept s₀ s1 := Kept.ite (maDeliver_kept _ _ _ hK) hK
  have k2 : Kept s₀ s2 := Kept.ite (maDeliver_kept _ _ _ k1) k1
  have k3 : Kept s₀ s3 := Kept.ite (crossCheck_kept _ _ _ _ k2) (Kept.ite (crossCheck_kept _ _ _ _ k2) k2)
  have k4 : Kept s₀ s4 := foldl_kept k3 fun _ _ h => accCheck_kept _ _ h
  have k5 : Kept s₀ s5 := Kept.ite (maAdvance_kept _ _ k4) (Kept.ite (maPartnerDone_kept _ _ k4) k4)
  have k6 : Kept s₀ s6 := Kept.ite (maAdvance_kept _ _ k5) (Kept.ite (maPartnerDone_kept _ _ k5) k5)
  exact maNext_kept _ _ _ _ k6

theorem maStand_kept {s₀ : State} (s : State) (c : Nat) (hK : Kept s₀ s) : Kept s₀ (maStand s c) := by
  unfold maStand
  repeat' first | with_reducible assumption | with_reducible apply Kept.ite | with_reducible apply setConv_kept
                  | with_reducible apply foldl_kept | extract_lets | split | (intros; with_reducible assumption) | intro _ _ _
                  | intro _ _ | dsimp +zetaDelta only | with_reducible refine Kept.mkUpd ?_ rfl rfl rfl

theorem maHalt_kept {s₀ : State} (s : State) (c : Nat) (hK : Kept s₀ s) : Kept s₀ (maHalt s c) := by
  unfold maHalt
  repeat' first | with_reducible assumption | with_reducible apply Kept.ite | with_reducible apply maStand_kept
                  | with_reducible apply setConv_kept | with_reducible apply sts_kept | with_reducible apply maBegin_kept
                  | with_reducible apply maPartnerDone_kept | with_reducible apply foldl_kept | extract_lets | split
                  | (intros; with_reducible assumption) | intro _ _ _ | intro _ _ | dsimp +zetaDelta only
                  | with_reducible refine Kept.mkUpd ?_ rfl rfl rfl

theorem refOff_kept {s₀ : State} (s : State) (hK : Kept s₀ s) : Kept s₀ (refOff s) := by
  unfold refOff
  repeat' first | with_reducible assumption | with_reducible apply Kept.ite | with_reducible apply setFlag_kept
                  | with_reducible apply forEach_kept | with_reducible apply maStand_kept | with_reducible apply maNotice_kept
                  | with_reducible apply sts_kept | with_reducible apply foldl_kept | extract_lets | split
                  | (intros; with_reducible assumption) | intro _ _ _ | intro _ _ | dsimp +zetaDelta only
                  | with_reducible refine Kept.mkUpd ?_ rfl rfl rfl

theorem maRefEnable_kept {s₀ : State} (s : State) (a : Access) (v : W32) (hK : Kept s₀ s) : Kept s₀ (maRefEnable s a v) := by
  unfold maRefEnable
  repeat' first | with_reducible assumption | with_reducible apply Kept.ite | with_reducible apply cmdWrite_kept
                  | with_reducible apply refOff_kept | with_reducible apply foldl_kept | extract_lets | split
                  | (intros; with_reducible assumption) | intro _ _ _ | intro _ _ | dsimp +zetaDelta only
                  | with_reducible refine Kept.mkUpd ?_ rfl rfl rfl

theorem maRefReady_kept {s₀ : State} (s : State) (hK : Kept s₀ s) : Kept s₀ (maRefReady s) := by
  unfold maRefReady
  repeat' first | with_reducible assumption | with_reducible apply Kept.ite | with_reducible apply setFlag_kept
                  | with_reducible apply foldl_kept | extract_lets | split | (intros; with_reducible assumption) | intro _ _ _
                  | intro _ _ | dsimp +zetaDelta only | with_reducible refine Kept.mkUpd ?_ rfl rfl rfl

theorem maSelfcal_kept {s₀ : State} (s : State) (a : Access) (c : Nat) (v : W32) (hK : Kept s₀ s) : Kept s₀ (maSelfcal s a c v) := by
  unfold maSelfcal
  repeat' first | with_reducible assumption | with_reducible apply Kept.ite | with_reducible apply cmdWrite_kept
                  | with_reducible apply sts_kept | with_reducible apply setFlag_kept | with_reducible apply setConv_kept
                  | with_reducible apply foldl_kept | extract_lets | split | (intros; with_reducible assumption) | intro _ _ _
                  | intro _ _ | dsimp +zetaDelta only | with_reducible refine Kept.mkUpd ?_ rfl rfl rfl

theorem maSelfcalComplete_kept {s₀ : State} (s : State) (c : Nat) (ofs : BitVec 10) (gain : BitVec 16) (hK : Kept s₀ s) : Kept s₀
    (maSelfcalComplete s c ofs gain) := by
  unfold maSelfcalComplete
  repeat' first | with_reducible assumption | with_reducible apply Kept.ite | with_reducible apply setConv_kept
                  | with_reducible apply setFlag_kept | with_reducible apply setFld_kept | with_reducible apply maBegin_kept
                  | with_reducible apply maNotice_kept | with_reducible apply foldl_kept | extract_lets | split
                  | (intros; with_reducible assumption) | intro _ _ _ | intro _ _ | dsimp +zetaDelta only
                  | with_reducible refine Kept.mkUpd ?_ rfl rfl rfl

theorem maStart_kept {s₀ : State} (s : State) (a : Access) (c : Nat) (v : W32) (hK : Kept s₀ s) : Kept s₀ (maStart s a c v) := by
  unfold maStart
  repeat' first | with_reducible assumption | with_reducible apply Kept.ite | with_reducible apply cmdWrite_kept
                  | with_reducible apply maNotice_kept | with_reducible apply sts_kept | with_reducible apply maHalt_kept
                  | with_reducible apply setReg_kept | with_reducible apply maBegin_kept | with_reducible apply setConv_kept
                  | with_reducible apply foldl_kept | extract_lets | split | (intros; with_reducible assumption) | intro _ _ _
                  | intro _ _ | dsimp +zetaDelta only | with_reducible refine Kept.mkUpd ?_ rfl rfl rfl

theorem maStop_kept {s₀ : State} (s : State) (a : Access) (c : Nat) (v : W32) (hK : Kept s₀ s) : Kept s₀ (maStop s a c v) := by
  unfold maStop
  repeat' first | with_reducible assumption | with_reducible apply Kept.ite | with_reducible apply cmdWrite_kept
                  | with_reducible apply maHalt_kept | with_reducible apply foldl_kept | extract_lets | split
                  | (intros; with_reducible assumption) | intro _ _ _ | intro _ _ | dsimp +zetaDelta only
                  | with_reducible refine Kept.mkUpd ?_ rfl rfl rfl

theorem maAccSnap_kept {s₀ : State} (s : State) (a : Access) (n : Nat) (v : W32) (hK : Kept s₀ s) : Kept s₀ (maAccSnap s a n v) := by
  unfold maAccSnap
  repeat' first | with_reducible assumption | with_reducible apply Kept.ite | with_reducible apply cmdWrite_kept
                  | with_reducible apply accComplete_kept | with_reducible apply foldl_kept | extract_lets | split
                  | (intros; with_reducible assumption) | intro _ _ _ | intro _ _ | dsimp +zetaDelta only
                  | with_reducible refine Kept.mkUpd ?_ rfl rfl rfl

theorem maAccClr_kept {s₀ : State} (s : State) (a : Access) (n : Nat) (v : W32) (hK : Kept s₀ s) : Kept s₀ (maAccClr s a n v) := by
  unfold maAccClr
  repeat' first | with_reducible assumption | with_reducible apply Kept.ite | with_reducible apply cmdWrite_kept
                  | with_reducible apply accRestart_kept | with_reducible apply foldl_kept | extract_lets | split
                  | (intros; with_reducible assumption) | intro _ _ _ | intro _ _ | dsimp +zetaDelta only
                  | with_reducible refine Kept.mkUpd ?_ rfl rfl rfl

theorem maWinEnable_kept {s₀ : State} (s : State) (a : Access) (n : Nat) (v : W32) (hK : Kept s₀ s) : Kept s₀ (maWinEnable s a n v) := by
  unfold maWinEnable
  repeat' first | with_reducible assumption | with_reducible apply Kept.ite | with_reducible apply cmdWrite_kept
                  | with_reducible apply setWinOut_kept | with_reducible apply foldl_kept | extract_lets | split
                  | (intros; with_reducible assumption) | intro _ _ _ | intro _ _ | dsimp +zetaDelta only
                  | with_reducible refine Kept.mkUpd ?_ rfl rfl rfl

theorem borrow_kept {s₀ : State} (s : State) (hK : Kept s₀ s) : Kept s₀ (borrow s) := by
  unfold borrow
  repeat' first | with_reducible assumption | with_reducible apply Kept.ite | with_reducible apply inc_kept
                  | with_reducible apply setConv_kept | with_reducible apply maBegin_kept | with_reducible apply foldl_kept
                  | extract_lets | split | (intros; with_reducible assumption) | intro _ _ _ | intro _ _ | dsimp +zetaDelta only
                  | with_reducible refine Kept.mkUpd ?_ rfl rfl rfl

theorem unborrow_kept {s₀ : State} (s : State) (hK : Kept s₀ s) : Kept s₀ (unborrow s) := by
  unfold unborrow
  repeat' first | with_reducible assumption | with_reducible apply Kept.ite | with_reducible apply maBegin_kept
                  | with_reducible apply setConv_kept | with_reducible apply foldl_kept | extract_lets | split
                  | (intros; with_reducible assumption) | intro _ _ _ | intro _ _ | dsimp +zetaDelta only
                  | with_reducible refine Kept.mkUpd ?_ rfl rfl rfl

/-! ## Inputs -/

theorem settleIfNew_kept {s₀ : State} (old : State) (s : State) (n : Nat) (hK : Kept s₀ s) : Kept s₀ (settleIfNew old s n) := by
  unfold settleIfNew
  repeat' first | with_reducible assumption | with_reducible apply Kept.ite | with_reducible apply openSettle_kept
                  | with_reducible apply setLane_kept | with_reducible apply foldl_kept | extract_lets | split
                  | (intros; with_reducible assumption) | intro _ _ _ | intro _ _ | dsimp +zetaDelta only
                  | with_reducible refine Kept.mkUpd ?_ rfl rfl rfl

theorem settleInput_kept {s₀ : State} (old : State) (s : State) (i : Nat) (hK : Kept s₀ s) : Kept s₀ (settleInput old s i) := by
  unfold settleInput
  repeat' first | with_reducible assumption | with_reducible apply Kept.ite | with_reducible apply settleIfNew_kept
                  | with_reducible apply foldl_kept | extract_lets | split | (intros; with_reducible assumption) | intro _ _ _
                  | intro _ _ | dsimp +zetaDelta only | with_reducible refine Kept.mkUpd ?_ rfl rfl rfl

theorem setStoredTrim_kept {s₀ : State} (s : State) (n : Nat) (t : BitVec 6) (hK : Kept s₀ s) : Kept s₀ (setStoredTrim s n t) := by
  unfold setStoredTrim
  repeat' first | with_reducible assumption | with_reducible apply Kept.ite | with_reducible apply setFld_kept
                  | with_reducible apply foldl_kept | extract_lets | split | (intros; with_reducible assumption) | intro _ _ _
                  | intro _ _ | dsimp +zetaDelta only | with_reducible refine Kept.mkUpd ?_ rfl rfl rfl

theorem applyInput_kept {s₀ : State} (s : State) (i : Nat) (hK : Kept s₀ s) : Kept s₀ (applyInput s i) := by
  unfold applyInput
  repeat' first | with_reducible assumption | with_reducible apply Kept.ite | with_reducible apply applyReg_kept
                  | with_reducible apply settleInput_kept | with_reducible apply foldl_kept | extract_lets | split
                  | (intros; with_reducible assumption) | intro _ _ _ | intro _ _ | dsimp +zetaDelta only
                  | with_reducible refine Kept.mkUpd ?_ rfl rfl rfl

theorem cmdResult_kept {s₀ : State} (s : State) (outcome : Nat) (value : Nat) (togA : Nat) (togB : Nat) (hK : Kept s₀ s) : Kept s₀
    (cmdResult s outcome value togA togB) := by
  unfold cmdResult
  repeat' first | with_reducible assumption | with_reducible apply Kept.ite | with_reducible apply setFld_kept
                  | with_reducible apply foldl_kept | extract_lets | split | (intros; with_reducible assumption) | intro _ _ _
                  | intro _ _ | dsimp +zetaDelta only | with_reducible refine Kept.mkUpd ?_ rfl rfl rfl

theorem countNullRej_kept {s₀ : State} (s : State) (hK : Kept s₀ s) : Kept s₀ (countNullRej s) := by
  unfold countNullRej
  repeat' first | with_reducible assumption | with_reducible apply Kept.ite | with_reducible apply inc_kept
                  | with_reducible apply foldl_kept | extract_lets | split | (intros; with_reducible assumption) | intro _ _ _
                  | intro _ _ | dsimp +zetaDelta only | with_reducible refine Kept.mkUpd ?_ rfl rfl rfl

theorem cmdBegin_kept {s₀ : State} (s : State) (i : Nat) (ow : Bool) (hK : Kept s₀ s) : Kept s₀ (cmdBegin s i ow) :=
  Kept.upd (t := s) hK rfl rfl rfl rfl

theorem inGo_kept {s₀ : State} (s : State) (f : Nat) (ow : Bool) (hK : Kept s₀ s) : Kept s₀ (inGo s f ow) := by
  unfold inGo
  repeat' first | with_reducible assumption | with_reducible apply Kept.ite | with_reducible apply inc_kept
                  | with_reducible apply cmdResult_kept | with_reducible apply countNullRej_kept | with_reducible apply sts_kept
                  | with_reducible apply setFld_kept | with_reducible apply cmdBegin_kept | with_reducible apply foldl_kept
                  | extract_lets | split | (intros; with_reducible assumption) | intro _ _ _ | intro _ _ | dsimp +zetaDelta only
                  | with_reducible refine Kept.mkUpd ?_ rfl rfl rfl

theorem inNulling_kept {s₀ : State} (s : State) (a : Access) (v : W32) (hK : Kept s₀ s) : Kept s₀ (inNulling s a v) := by
  unfold inNulling
  repeat' first | with_reducible assumption | with_reducible apply Kept.ite | with_reducible apply cmdWrite_kept
                  | with_reducible apply inGo_kept | with_reducible apply foldl_kept | extract_lets | split
                  | (intros; with_reducible assumption) | intro _ _ _ | intro _ _ | dsimp +zetaDelta only
                  | with_reducible refine Kept.mkUpd ?_ rfl rfl rfl

theorem inOpenWire_kept {s₀ : State} (s : State) (a : Access) (v : W32) (hK : Kept s₀ s) : Kept s₀ (inOpenWire s a v) := by
  unfold inOpenWire
  repeat' first | with_reducible assumption | with_reducible apply Kept.ite | with_reducible apply cmdWrite_kept
                  | with_reducible apply inGo_kept | with_reducible apply foldl_kept | extract_lets | split
                  | (intros; with_reducible assumption) | intro _ _ _ | intro _ _ | dsimp +zetaDelta only
                  | with_reducible refine Kept.mkUpd ?_ rfl rfl rfl

theorem setCmd_kept {s₀ : State} (s : State) (c : InCmd) (hK : Kept s₀ s) : Kept s₀ (setCmd s c) := by
  unfold setCmd
  repeat' first | with_reducible assumption | with_reducible apply Kept.ite | with_reducible apply foldl_kept | extract_lets
                  | split | (intros; with_reducible assumption) | intro _ _ _ | intro _ _ | dsimp +zetaDelta only
                  | with_reducible refine Kept.mkUpd ?_ rfl rfl rfl

theorem startReading_kept {s₀ : State} (s : State) (c : InCmd) (p : InPhase) (hK : Kept s₀ s) : Kept s₀ (startReading s c p) := by
  unfold startReading
  repeat' first | with_reducible assumption | with_reducible apply Kept.ite | with_reducible apply borrow_kept
                  | with_reducible apply setCmd_kept | with_reducible apply foldl_kept | extract_lets | split
                  | (intros; with_reducible assumption) | intro _ _ _ | intro _ _ | dsimp +zetaDelta only
                  | with_reducible refine Kept.mkUpd ?_ rfl rfl rfl

theorem ma0BorrowStart_kept {s₀ : State} (s : State) (hK : Kept s₀ s) : Kept s₀ (ma0BorrowStart s) := by
  unfold ma0BorrowStart
  repeat' first | with_reducible assumption | with_reducible apply Kept.ite | with_reducible apply startReading_kept
                  | with_reducible apply foldl_kept | extract_lets | split | (intros; with_reducible assumption) | intro _ _ _
                  | intro _ _ | dsimp +zetaDelta only | with_reducible refine Kept.mkUpd ?_ rfl rfl rfl

theorem afterReading_kept {s₀ : State} (s : State) (c : InCmd) (m : BaselineReading) (hK : Kept s₀ s) : Kept s₀ (afterReading s c m) := by
  unfold afterReading
  repeat' first | with_reducible assumption | with_reducible apply Kept.ite | with_reducible apply suppress_kept
                  | with_reducible apply setCmd_kept | with_reducible apply foldl_kept | extract_lets | split
                  | (intros; with_reducible assumption) | intro _ _ _ | intro _ _ | dsimp +zetaDelta only
                  | with_reducible refine Kept.mkUpd ?_ rfl rfl rfl

theorem ma0BorrowEnd_kept {s₀ : State} (s : State) (m : BaselineReading) (hK : Kept s₀ s) : Kept s₀ (ma0BorrowEnd s m) := by
  unfold ma0BorrowEnd
  repeat' first | with_reducible assumption | with_reducible apply Kept.ite | with_reducible apply unborrow_kept
                  | with_reducible apply afterReading_kept | with_reducible apply foldl_kept | extract_lets | split
                  | (intros; with_reducible assumption) | intro _ _ _ | intro _ _ | dsimp +zetaDelta only
                  | with_reducible refine Kept.mkUpd ?_ rfl rfl rfl

theorem cmdEnd_kept {s₀ : State} (s : State) (i : Nat) (hK : Kept s₀ s) : Kept s₀ (cmdEnd s i) := by
  unfold cmdEnd
  repeat' first | with_reducible assumption | with_reducible apply Kept.ite | with_reducible apply setFlag_kept
                  | with_reducible apply setReg_kept | with_reducible apply settleInput_kept | with_reducible apply openSettle_kept
                  | with_reducible apply foldl_kept | extract_lets | split | (intros; with_reducible assumption) | intro _ _ _
                  | intro _ _ | dsimp +zetaDelta only | with_reducible refine Kept.mkUpd ?_ rfl rfl rfl

theorem nullingComplete_kept {s₀ : State} (s : State) (highA : List Nat) (highB : List Nat) (hK : Kept s₀ s) : Kept s₀
    (nullingComplete s highA highB) := by
  unfold nullingComplete
  repeat' first | with_reducible assumption | with_reducible apply Kept.ite | with_reducible apply setStoredTrim_kept
                  | with_reducible apply setFld_kept | with_reducible apply cmdEnd_kept | with_reducible apply cmdResult_kept
                  | with_reducible apply sts_kept | with_reducible apply countNullRej_kept | with_reducible apply foldl_kept
                  | extract_lets | split | (intros; with_reducible assumption) | intro _ _ _ | intro _ _ | dsimp +zetaDelta only
                  | with_reducible refine Kept.mkUpd ?_ rfl rfl rfl

theorem openWireComplete_kept {s₀ : State} (s : State) (hK : Kept s₀ s) : Kept s₀ (openWireComplete s) := by
  unfold openWireComplete
  repeat' first | with_reducible assumption | with_reducible apply Kept.ite | with_reducible apply setFld_kept
                  | with_reducible apply sts_kept | with_reducible apply cmdEnd_kept | with_reducible apply cmdResult_kept
                  | with_reducible apply foldl_kept | extract_lets | split | (intros; with_reducible assumption) | intro _ _ _
                  | intro _ _ | dsimp +zetaDelta only | with_reducible refine Kept.mkUpd ?_ rfl rfl rfl

/-! ## Queues -/

theorem setQueue_kept {s₀ : State} (s : State) (code : Nat) (q : List QEntry) (hK : Kept s₀ s) : Kept s₀ (setQueue s code q) := by
  unfold setQueue
  repeat' first | with_reducible assumption | with_reducible apply Kept.ite | with_reducible apply setGroup_kept
                  | with_reducible apply foldl_kept | extract_lets | split | (intros; with_reducible assumption) | intro _ _ _
                  | intro _ _ | dsimp +zetaDelta only | with_reducible refine Kept.mkUpd ?_ rfl rfl rfl

theorem setHold_kept {s₀ : State} (s : State) (p : Nat) (n : Nat) (hK : Kept s₀ s) : Kept s₀ (setHold s p n) := by
  unfold setHold
  repeat' first | with_reducible assumption | with_reducible apply Kept.ite | with_reducible apply foldl_kept | extract_lets
                  | split | (intros; with_reducible assumption) | intro _ _ _ | intro _ _ | dsimp +zetaDelta only
                  | with_reducible refine Kept.mkUpd ?_ rfl rfl rfl

theorem evalPin_kept {s₀ : State} (s : State) (p : Nat) (hK : Kept s₀ s) : Kept s₀ (evalPin s p) := by
  unfold evalPin
  repeat' first | with_reducible assumption | with_reducible apply Kept.ite | with_reducible apply setHold_kept
                  | with_reducible apply stsBit_kept | with_reducible apply clrBit_kept | with_reducible apply foldl_kept
                  | extract_lets | split | (intros; with_reducible assumption) | intro _ _ _ | intro _ _ | dsimp +zetaDelta only
                  | with_reducible refine Kept.mkUpd ?_ rfl rfl rfl

theorem evalPins_kept {s₀ : State} (s : State) (hK : Kept s₀ s) : Kept s₀ (evalPins s) := by
  unfold evalPins
  repeat' first | with_reducible assumption | with_reducible apply Kept.ite | with_reducible apply forEach_kept
                  | with_reducible apply evalPin_kept | with_reducible apply foldl_kept | extract_lets | split
                  | (intros; with_reducible assumption) | intro _ _ _ | intro _ _ | dsimp +zetaDelta only
                  | with_reducible refine Kept.mkUpd ?_ rfl rfl rfl

theorem evalGroupBusy_kept {s₀ : State} (s : State) (g : Nat) (hK : Kept s₀ s) : Kept s₀ (evalGroupBusy s g) := by
  unfold evalGroupBusy
  repeat' first | with_reducible assumption | with_reducible apply Kept.ite | with_reducible apply evalPins_kept
                  | with_reducible apply inc_kept | with_reducible apply sts_kept | with_reducible apply setFlag_kept
                  | with_reducible apply foldl_kept | extract_lets | split | (intros; with_reducible assumption) | intro _ _ _
                  | intro _ _ | dsimp +zetaDelta only | with_reducible refine Kept.mkUpd ?_ rfl rfl rfl

theorem evalNewWm_kept {s₀ : State} (s : State) (hK : Kept s₀ s) : Kept s₀ (evalNewWm s) := by
  unfold evalNewWm
  repeat' first | with_reducible assumption | with_reducible apply Kept.ite | with_reducible apply forEach_kept
                  | with_reducible apply evalGroupBusy_kept | with_reducible apply setGroup_kept | with_reducible apply foldl_kept
                  | extract_lets | split | (intros; with_reducible assumption) | intro _ _ _ | intro _ _ | dsimp +zetaDelta only
                  | with_reducible refine Kept.mkUpd ?_ rfl rfl rfl

theorem noteBusy_kept {s₀ : State} (s : State) (hK : Kept s₀ s) : Kept s₀ (noteBusy s) := by
  unfold noteBusy
  repeat' first | with_reducible assumption | with_reducible apply Kept.ite | with_reducible apply foldl_kept | extract_lets
                  | split | (intros; with_reducible assumption) | intro _ _ _ | intro _ _ | dsimp +zetaDelta only
                  | with_reducible refine Kept.mkUpd ?_ rfl rfl rfl

theorem tickHold_kept {s₀ : State} (s : State) (p : Nat) (hK : Kept s₀ s) : Kept s₀ (tickHold s p) := by
  unfold tickHold
  repeat' first | with_reducible assumption | with_reducible apply Kept.ite | with_reducible apply setHold_kept
                  | with_reducible apply foldl_kept | extract_lets | split | (intros; with_reducible assumption) | intro _ _ _
                  | intro _ _ | dsimp +zetaDelta only | with_reducible refine Kept.mkUpd ?_ rfl rfl rfl

theorem busyHoldExpiry_kept {s₀ : State} (s : State) (p : Nat) (hK : Kept s₀ s) : Kept s₀ (busyHoldExpiry s p) := by
  unfold busyHoldExpiry
  repeat' first | with_reducible assumption | with_reducible apply Kept.ite | with_reducible apply evalPin_kept
                  | with_reducible apply foldl_kept | extract_lets | split | (intros; with_reducible assumption) | intro _ _ _
                  | intro _ _ | dsimp +zetaDelta only | with_reducible refine Kept.mkUpd ?_ rfl rfl rfl

theorem noteOcc_kept {s₀ : State} (s : State) (code : Nat) (hK : Kept s₀ s) : Kept s₀ (noteOcc s code) := by
  unfold noteOcc
  repeat' first | with_reducible assumption | with_reducible apply Kept.ite | with_reducible apply setFld_kept
                  | with_reducible apply evalGroupBusy_kept | with_reducible apply foldl_kept | extract_lets | split
                  | (intros; with_reducible assumption) | intro _ _ _ | intro _ _ | dsimp +zetaDelta only
                  | with_reducible refine Kept.mkUpd ?_ rfl rfl rfl

theorem lgQPeakClr_kept {s₀ : State} (s : State) (a : Access) (g : Nat) (v : W32) (hK : Kept s₀ s) : Kept s₀ (lgQPeakClr s a g v) := by
  unfold lgQPeakClr
  repeat' first | with_reducible assumption | with_reducible apply Kept.ite | with_reducible apply cmdWrite_kept
                  | with_reducible apply setFld_kept | with_reducible apply foldl_kept | extract_lets | split
                  | (intros; with_reducible assumption) | intro _ _ _ | intro _ _ | dsimp +zetaDelta only
                  | with_reducible refine Kept.mkUpd ?_ rfl rfl rfl

theorem ccDqPeakClr_kept {s₀ : State} (s : State) (a : Access) (d : Nat) (v : W32) (hK : Kept s₀ s) : Kept s₀ (ccDqPeakClr s a d v) := by
  unfold ccDqPeakClr
  repeat' first | with_reducible assumption | with_reducible apply Kept.ite | with_reducible apply cmdWrite_kept
                  | with_reducible apply setFld_kept | with_reducible apply foldl_kept | extract_lets | split
                  | (intros; with_reducible assumption) | intro _ _ _ | intro _ _ | dsimp +zetaDelta only
                  | with_reducible refine Kept.mkUpd ?_ rfl rfl rfl

theorem uncount_kept {s₀ : State} (s : State) (g : Nat) (w : Option (Nat × Nat)) (hK : Kept s₀ s) : Kept s₀ (uncount s g w) := by
  unfold uncount
  repeat' first | with_reducible assumption | with_reducible apply Kept.ite | with_reducible apply setGroup_kept
                  | with_reducible apply foldl_kept | extract_lets | split | (intros; with_reducible assumption) | intro _ _ _
                  | intro _ _ | dsimp +zetaDelta only | with_reducible refine Kept.mkUpd ?_ rfl rfl rfl

theorem countDiscard_kept {s₀ : State} (s : State) (code : Nat) (t : Tile) (hK : Kept s₀ s) : Kept s₀ (countDiscard s code t) := by
  unfold countDiscard
  repeat' first | with_reducible assumption | with_reducible apply Kept.ite | with_reducible apply sts_kept
                  | with_reducible apply inc_kept | with_reducible apply setGroup_kept | with_reducible apply setCluster_kept
                  | with_reducible apply setBank_kept | with_reducible apply foldl_kept | extract_lets | split
                  | (intros; with_reducible assumption) | intro _ _ _ | intro _ _ | dsimp +zetaDelta only
                  | with_reducible refine Kept.mkUpd ?_ rfl rfl rfl

theorem makeRoom_ksome {s₀ s b : State} {code : Nat} (e : makeRoom s code = some b) (hK : Kept s₀ s) : Kept s₀ b := by
  unfold makeRoom at e
  split at e
  · cases e
  · cases e; exact countDiscard_kept _ _ _ (uncount_kept _ _ _ (setQueue_kept _ _ _ hK))

theorem appendEntry_kept {s₀ : State} (s : State) (code : Nat) (it : QItem) (ds : List Dest) (hK : Kept s₀ s) : Kept s₀ (appendEntry
    s code it ds) := by
  unfold appendEntry
  repeat' first | with_reducible assumption | with_reducible apply Kept.ite | with_reducible apply noteOcc_kept
                  | with_reducible apply setQueue_kept | with_reducible apply foldl_kept | extract_lets | split
                  | (intros; with_reducible assumption) | intro _ _ _ | intro _ _ | dsimp +zetaDelta only
                  | with_reducible refine Kept.mkUpd ?_ rfl rfl rfl

theorem countIn_kept {s₀ : State} (s : State) (g : Nat) (w : Option (Nat × Nat)) (hK : Kept s₀ s) : Kept s₀ (countIn s g w) := by
  unfold countIn
  repeat' first | with_reducible assumption | with_reducible apply Kept.ite | with_reducible apply setGroup_kept
                  | with_reducible apply foldl_kept | extract_lets | split | (intros; with_reducible assumption) | intro _ _ _
                  | intro _ _ | dsimp +zetaDelta only | with_reducible refine Kept.mkUpd ?_ rfl rfl rfl

theorem queueTile_kept {s₀ : State} (s : State) (code : Nat) (t : Tile) (w : Option (Nat × Nat)) (hK : Kept s₀ s) : Kept s₀
    (queueTile s code t w) := by
  unfold queueTile
  repeat' first | with_reducible assumption | with_reducible apply Kept.ite | with_reducible apply countDiscard_kept
                  | with_reducible apply appendEntry_kept | with_reducible apply countIn_kept
                  | with_reducible refine makeRoom_ksome (by with_reducible assumption) ?_ | with_reducible apply foldl_kept
                  | extract_lets | split | (intros; with_reducible assumption) | intro _ _ _ | intro _ _ | dsimp +zetaDelta only
                  | with_reducible refine Kept.mkUpd ?_ rfl rfl rfl

theorem queueWindow_kept {s₀ : State} (s : State) (g : Nat) (it : QItem) (hK : Kept s₀ s) : Kept s₀ (queueWindow s g it) := by
  unfold queueWindow
  repeat' first | with_reducible assumption | with_reducible apply Kept.ite | with_reducible apply setGroup_kept
                  | with_reducible apply appendEntry_kept | with_reducible apply countDiscard_kept
                  | with_reducible apply uncount_kept | with_reducible apply setQueue_kept | with_reducible apply foldl_kept
                  | extract_lets | split | (intros; with_reducible assumption) | intro _ _ _ | intro _ _ | dsimp +zetaDelta only
                  | with_reducible refine Kept.mkUpd ?_ rfl rfl rfl

theorem queueVetoDrop_kept {s₀ : State} (s : State) (g : Nat) (count : Nat) (seq : Nat) (hK : Kept s₀ s) : Kept s₀ (queueVetoDrop s g
    count seq) := by
  unfold queueVetoDrop
  repeat' first | with_reducible assumption | with_reducible apply Kept.ite | with_reducible apply appendEntry_kept
                  | with_reducible apply setGroup_kept | with_reducible apply foldl_kept | extract_lets | split
                  | (intros; with_reducible assumption) | intro _ _ _ | intro _ _ | dsimp +zetaDelta only
                  | with_reducible refine Kept.mkUpd ?_ rfl rfl rfl

theorem drainVeto_kept {s₀ : State} (s : State) (g : Nat) (l : List QItem) (hK : Kept s₀ s) : Kept s₀ (drainVeto s g l) := by
  induction l generalizing s with
  | nil => exact hK
  | cons x r ih =>
    unfold drainVeto
    split
    · rename_i heq; cases heq; exact ih _ (appendEntry_kept _ _ _ _ (setGroup_kept _ _ _ hK))
    · exact hK

theorem waitingWindowEntryWrite_kept {s₀ : State} (s : State) (g : Nat) (hK : Kept s₀ s) : Kept s₀ (waitingWindowEntryWrite s g) := by
  unfold waitingWindowEntryWrite
  repeat' first | with_reducible assumption | with_reducible apply Kept.ite | with_reducible apply setGroup_kept
                  | with_reducible apply drainVeto_kept | with_reducible apply appendEntry_kept | with_reducible apply foldl_kept
                  | extract_lets | split | (intros; with_reducible assumption) | intro _ _ _ | intro _ _ | dsimp +zetaDelta only
                  | with_reducible refine Kept.mkUpd ?_ rfl rfl rfl

theorem setReadPort_kept {s₀ : State} (s : State) (ws : List W64) (hK : Kept s₀ s) : Kept s₀ (setReadPort s ws) := by
  unfold setReadPort
  repeat' first | with_reducible assumption | with_reducible apply Kept.ite | with_reducible apply foldl_kept | extract_lets
                  | split | (intros; with_reducible assumption) | intro _ _ _ | intro _ _ | dsimp +zetaDelta only
                  | with_reducible refine Kept.mkUpd ?_ rfl rfl rfl

theorem rebindOne_kept {s₀ : State} (s : State) (code : Nat) (hK : Kept s₀ s) : Kept s₀ (rebindOne s code) := by
  unfold rebindOne
  repeat' first | with_reducible assumption | with_reducible apply Kept.ite | with_reducible apply noteOcc_kept
                  | with_reducible apply uncount_kept | with_reducible apply setQueue_kept | with_reducible apply foldl_kept
                  | extract_lets | split | (intros; with_reducible assumption) | intro _ _ _ | intro _ _ | dsimp +zetaDelta only
                  | with_reducible refine Kept.mkUpd ?_ rfl rfl rfl

theorem rebind_kept {s₀ : State} (s : State) (hK : Kept s₀ s) : Kept s₀ (rebind s) := by
  unfold rebind
  repeat' first | with_reducible assumption | with_reducible apply Kept.ite | with_reducible apply forEach_kept
                  | with_reducible apply rebindOne_kept | with_reducible apply sts_kept | with_reducible apply foldl_kept
                  | extract_lets | split | (intros; with_reducible assumption) | intro _ _ _ | intro _ _ | dsimp +zetaDelta only
                  | with_reducible refine Kept.mkUpd ?_ rfl rfl rfl

/-! ## HostRings -/

theorem setHring_kept {s₀ : State} (s : State) (r : Nat) (x : HRing) (hK : Kept s₀ s) : Kept s₀ (setHring s r x) := by
  unfold setHring
  repeat' first | with_reducible assumption | with_reducible apply Kept.ite | with_reducible apply foldl_kept | extract_lets
                  | split | (intros; with_reducible assumption) | intro _ _ _ | intro _ _ | dsimp +zetaDelta only
                  | with_reducible refine Kept.mkUpd ?_ rfl rfl rfl

theorem setStream_kept {s₀ : State} (s : State) (h : Nat) (x : Stream) (hK : Kept s₀ s) : Kept s₀ (setStream s h x) := by
  unfold setStream
  repeat' first | with_reducible assumption | with_reducible apply Kept.ite | with_reducible apply foldl_kept | extract_lets
                  | split | (intros; with_reducible assumption) | intro _ _ _ | intro _ _ | dsimp +zetaDelta only
                  | with_reducible refine Kept.mkUpd ?_ rfl rfl rfl

theorem hostWrite_kept {s₀ : State} (s : State) (addr : Nat) (bs : List Byte) (hK : Kept s₀ s) : Kept s₀ (hostWrite s addr bs) :=
  ⟨hK.pending, hK.fuses, hK.ddr, fun w => memory_wf_mwriteBytes _ _ _ _ (hK.host w)⟩

theorem entryWrite_kept {s₀ : State} (s : State) (r : Nat) (addr : Nat) (bs : List Byte) (hK : Kept s₀ s) : Kept s₀ (entryWrite s r
    addr bs) := by
  unfold entryWrite
  repeat' first | with_reducible assumption | with_reducible apply Kept.ite | with_reducible apply hostWrite_kept
                  | with_reducible apply setHring_kept | with_reducible apply foldl_kept | extract_lets | split
                  | (intros; with_reducible assumption) | intro _ _ _ | intro _ _ | dsimp +zetaDelta only
                  | with_reducible refine Kept.mkUpd ?_ rfl rfl rfl

theorem advanceDev_kept {s₀ : State} (s : State) (r : Nat) (irq : Bool) (hK : Kept s₀ s) : Kept s₀ (advanceDev s r irq) := by
  unfold advanceDev
  repeat' first | with_reducible assumption | with_reducible apply Kept.ite | with_reducible apply bump_kept
                  | with_reducible apply setFld_kept | with_reducible apply setHring_kept | with_reducible apply foldl_kept
                  | extract_lets | split | (intros; with_reducible assumption) | intro _ _ _ | intro _ _ | dsimp +zetaDelta only
                  | with_reducible refine Kept.mkUpd ?_ rfl rfl rfl

theorem stopNow_kept {s₀ : State} (s : State) (r : Nat) (hK : Kept s₀ s) : Kept s₀ (stopNow s r) := by
  unfold stopNow
  repeat' first | with_reducible assumption | with_reducible apply Kept.ite | with_reducible apply setFlag_kept
                  | with_reducible apply setStream_kept | with_reducible apply setHring_kept | with_reducible apply rebind_kept
                  | with_reducible apply foldl_kept | extract_lets | split | (intros; with_reducible assumption) | intro _ _ _
                  | intro _ _ | dsimp +zetaDelta only | with_reducible refine Kept.mkUpd ?_ rfl rfl rfl

theorem dmaError_kept {s₀ : State} (s : State) (r : Nat) (addr : Nat) (hK : Kept s₀ s) : Kept s₀ (dmaError s r addr) := by
  unfold dmaError
  repeat' first | with_reducible assumption | with_reducible apply Kept.ite | with_reducible apply post_kept
                  | with_reducible apply sts_kept | with_reducible apply stopNow_kept | with_reducible apply foldl_kept
                  | extract_lets | split | (intros; with_reducible assumption) | intro _ _ _ | intro _ _ | dsimp +zetaDelta only
                  | with_reducible refine Kept.mkUpd ?_ rfl rfl rfl

theorem hiRingStart_kept {s₀ : State} (s : State) (a : Access) (r : Nat) (v : W32) (hK : Kept s₀ s) : Kept s₀ (hiRingStart s a r v) := by
  unfold hiRingStart
  repeat' first | with_reducible assumption | with_reducible apply Kept.ite | with_reducible apply cmdWrite_kept
                  | with_reducible apply sts_kept | with_reducible apply setReg_kept | with_reducible apply setStream_kept
                  | with_reducible apply setHring_kept | with_reducible apply foldl_kept | extract_lets | split
                  | (intros; with_reducible assumption) | intro _ _ _ | intro _ _ | dsimp +zetaDelta only
                  | with_reducible refine Kept.mkUpd ?_ rfl rfl rfl

theorem hiRingStop_kept {s₀ : State} (s : State) (a : Access) (r : Nat) (v : W32) (hK : Kept s₀ s) : Kept s₀ (hiRingStop s a r v) := by
  unfold hiRingStop
  repeat' first | with_reducible assumption | with_reducible apply Kept.ite | with_reducible apply cmdWrite_kept
                  | with_reducible apply setFlag_kept | with_reducible apply rebind_kept | with_reducible apply foldl_kept
                  | extract_lets | split | (intros; with_reducible assumption) | intro _ _ _ | intro _ _ | dsimp +zetaDelta only
                  | with_reducible refine Kept.mkUpd ?_ rfl rfl rfl

theorem ringEnd_kept {s₀ : State} (s : State) (r : Nat) (hK : Kept s₀ s) : Kept s₀ (ringEnd s r) := by
  unfold ringEnd
  repeat' first | with_reducible assumption | with_reducible apply Kept.ite | with_reducible apply stopNow_kept
                  | with_reducible apply setHring_kept | with_reducible apply foldl_kept | extract_lets | split
                  | (intros; with_reducible assumption) | intro _ _ _ | intro _ _ | dsimp +zetaDelta only
                  | with_reducible refine Kept.mkUpd ?_ rfl rfl rfl

theorem completeCmd_kept {s₀ : State} (s : State) (c : Command) (outcome : Nat) (code : Nat) (hK : Kept s₀ s) : Kept s₀ (completeCmd
    s c outcome code) := by
  unfold completeCmd
  repeat' first | with_reducible assumption | with_reducible apply Kept.ite | with_reducible apply entryWrite_kept
                  | with_reducible apply setHring_kept | with_reducible apply advanceDev_kept | with_reducible apply foldl_kept
                  | extract_lets | split | (intros; with_reducible assumption) | intro _ _ _ | intro _ _ | dsimp +zetaDelta only
                  | with_reducible refine Kept.mkUpd ?_ rfl rfl rfl

theorem endCmd_kept {s₀ : State} (s : State) (c : Option Command) (outcome : Nat) (code : Nat) (hK : Kept s₀ s) : Kept s₀ (endCmd s c
    outcome code) := by
  unfold endCmd
  repeat' first | with_reducible assumption | with_reducible apply Kept.ite | with_reducible apply setHring_kept
                  | with_reducible apply completeCmd_kept | with_reducible apply foldl_kept | extract_lets | split
                  | (intros; with_reducible assumption) | intro _ _ _ | intro _ _ | dsimp +zetaDelta only
                  | with_reducible refine Kept.mkUpd ?_ rfl rfl rfl

theorem flushCmd_kept {s₀ : State} (s : State) (r : Nat) (hK : Kept s₀ s) : Kept s₀ (flushCmd s r) := by
  unfold flushCmd
  repeat' first | with_reducible assumption | with_reducible apply Kept.ite | with_reducible apply completeCmd_kept
                  | with_reducible apply foldl_kept | extract_lets | split | (intros; with_reducible assumption) | intro _ _ _
                  | intro _ _ | dsimp +zetaDelta only | with_reducible refine Kept.mkUpd ?_ rfl rfl rfl

theorem refuseCmdWith_kept {s₀ : State} (s : State) (c : Command) (outcome : Nat) (code : Nat) (hK : Kept s₀ s) : Kept s₀
    (refuseCmdWith s c outcome code) := by
  unfold refuseCmdWith
  repeat' first | with_reducible assumption | with_reducible apply Kept.ite | with_reducible apply post_kept
                  | with_reducible apply sts_kept | with_reducible apply completeCmd_kept | with_reducible apply foldl_kept
                  | extract_lets | split | (intros; with_reducible assumption) | intro _ _ _ | intro _ _ | dsimp +zetaDelta only
                  | with_reducible refine Kept.mkUpd ?_ rfl rfl rfl

theorem refuseCmd_kept {s₀ : State} (s : State) (c : Command) (code : Nat) (hK : Kept s₀ s) : Kept s₀ (refuseCmd s c code) := by
  unfold refuseCmd
  repeat' first | with_reducible assumption | with_reducible apply Kept.ite | with_reducible apply refuseCmdWith_kept
                  | with_reducible apply foldl_kept | extract_lets | split | (intros; with_reducible assumption) | intro _ _ _
                  | intro _ _ | dsimp +zetaDelta only | with_reducible refine Kept.mkUpd ?_ rfl rfl rfl

theorem dmaFailCmd_kept {s₀ : State} (s : State) (c : Command) (hK : Kept s₀ s) : Kept s₀ (dmaFailCmd s c) := by
  unfold dmaFailCmd
  repeat' first | with_reducible assumption | with_reducible apply Kept.ite | with_reducible apply completeCmd_kept
                  | with_reducible apply post_kept | with_reducible apply foldl_kept | extract_lets | split
                  | (intros; with_reducible assumption) | intro _ _ _ | intro _ _ | dsimp +zetaDelta only
                  | with_reducible refine Kept.mkUpd ?_ rfl rfl rfl

theorem runCmd_kept {s₀ : State} (s : State) (c : Command) (op : Nat) (k : State → State) (hK : Kept s₀ s) (hKk : ∀ t, Kept s₀ t →
    Kept s₀ (k t)) : Kept s₀ (runCmd s c op k) := by
  unfold runCmd
  repeat' first | with_reducible assumption | with_reducible apply hKk | with_reducible apply Kept.ite
                  | with_reducible apply refuseCmd_kept | with_reducible apply foldl_kept | extract_lets | split
                  | (intros; with_reducible assumption) | intro _ _ _ | intro _ _ | dsimp +zetaDelta only
                  | with_reducible refine Kept.mkUpd ?_ rfl rfl rfl

theorem holdCmd_kept {s₀ : State} (s : State) (c : Command) (hK : Kept s₀ s) : Kept s₀ (holdCmd s c) := by
  unfold holdCmd
  repeat' first | with_reducible assumption | with_reducible apply Kept.ite | with_reducible apply setHring_kept
                  | with_reducible apply foldl_kept | extract_lets | split | (intros; with_reducible assumption) | intro _ _ _
                  | intro _ _ | dsimp +zetaDelta only | with_reducible refine Kept.mkUpd ?_ rfl rfl rfl

theorem nop_kept {s₀ : State} (s : State) (c : Command) (hK : Kept s₀ s) : Kept s₀ (nop s c) := by
  unfold nop
  repeat' first | with_reducible assumption | with_reducible apply Kept.ite | with_reducible apply runCmd_kept
                  | with_reducible apply completeCmd_kept | with_reducible apply foldl_kept | extract_lets | split
                  | (intros; with_reducible assumption) | intro _ _ _ | intro _ _ | dsimp +zetaDelta only
                  | with_reducible refine Kept.mkUpd ?_ rfl rfl rfl

theorem unknownOpcode_kept {s₀ : State} (s : State) (c : Command) (hK : Kept s₀ s) : Kept s₀ (unknownOpcode s c) := by
  unfold unknownOpcode
  repeat' first | with_reducible assumption | with_reducible apply Kept.ite | with_reducible apply refuseCmd_kept
                  | with_reducible apply foldl_kept | extract_lets | split | (intros; with_reducible assumption) | intro _ _ _
                  | intro _ _ | dsimp +zetaDelta only | with_reducible refine Kept.mkUpd ?_ rfl rfl rfl

theorem indexError_kept {s₀ : State} (s : State) (r : Nat) (host : Nat) (hK : Kept s₀ s) : Kept s₀ (indexError s r host) := by
  unfold indexError
  repeat' first | with_reducible assumption | with_reducible apply Kept.ite | with_reducible apply post_kept
                  | with_reducible apply sts_kept | with_reducible apply stopNow_kept | with_reducible apply foldl_kept
                  | extract_lets | split | (intros; with_reducible assumption) | intro _ _ _ | intro _ _ | dsimp +zetaDelta only
                  | with_reducible refine Kept.mkUpd ?_ rfl rfl rfl

theorem takeIndex_kept {s₀ : State} (s : State) (r : Nat) (host : Nat) (fails : Bool) (bufs : List (List Byte)) (hK : Kept s₀ s) :
    Kept s₀ (takeIndex s r host fails bufs) := by
  unfold takeIndex
  repeat' first | with_reducible assumption | with_reducible apply Kept.ite | with_reducible apply indexError_kept
                  | with_reducible apply setFld_kept | with_reducible apply setHring_kept | with_reducible apply takeFree_kept
                  | with_reducible apply post_kept | with_reducible apply sts_kept | with_reducible apply stopNow_kept
                  | with_reducible refine takeFree_keq (by with_reducible assumption) ?_ | with_reducible apply foldl_kept
                  | extract_lets | split | (intros; with_reducible assumption) | intro _ _ _ | intro _ _ | dsimp +zetaDelta only
                  | with_reducible refine Kept.mkUpd ?_ rfl rfl rfl

theorem afterFetch_kept {s₀ : State} (s : State) (f : Nat) (changed : Bool) (hK : Kept s₀ s) : Kept s₀ (afterFetch s f changed) := by
  unfold afterFetch
  repeat' first | with_reducible assumption | with_reducible apply Kept.ite | with_reducible apply setFnHost_kept
                  | with_reducible apply foldl_kept | extract_lets | split | (intros; with_reducible assumption) | intro _ _ _
                  | intro _ _ | dsimp +zetaDelta only | with_reducible refine Kept.mkUpd ?_ rfl rfl rfl

theorem doorbellFetch_kept {s₀ : State} (s : State) (f : Nat) (ok : Bool) (slots : List (Nat × Nat)) (bad : List Nat) (bufs : List
    (Nat × List (List Byte))) (hK : Kept s₀ s) : Kept s₀ (doorbellFetch s f ok slots bad bufs) := by
  unfold doorbellFetch
  repeat' first | with_reducible assumption | with_reducible apply Kept.ite | with_reducible apply forEach_kept
                  | with_reducible apply takeIndex_kept | with_reducible apply afterFetch_kept | with_reducible apply sts_kept
                  | with_reducible apply dmaError_kept | with_reducible apply foldl_kept | extract_lets | split
                  | (intros; with_reducible assumption) | intro _ _ _ | intro _ _ | dsimp +zetaDelta only
                  | with_reducible refine Kept.mkUpd ?_ rfl rfl rfl

theorem hiKick_kept {s₀ : State} (s : State) (a : Access) (f : Nat) (v : W32) (hK : Kept s₀ s) : Kept s₀ (hiKick s a f v) := by
  unfold hiKick
  repeat' first | with_reducible assumption | with_reducible apply Kept.ite | with_reducible apply cmdWrite_kept
                  | with_reducible apply setFnHost_kept | with_reducible apply foldl_kept | extract_lets | split
                  | (intros; with_reducible assumption) | intro _ _ _ | intro _ _ | dsimp +zetaDelta only
                  | with_reducible refine Kept.mkUpd ?_ rfl rfl rfl

theorem setMsixVec_kept {s₀ : State} (s : State) (f : Nat) (v : Nat) (x : MsixVec) (hK : Kept s₀ s) : Kept s₀ (setMsixVec s f v x) := by
  unfold setMsixVec
  repeat' first | with_reducible assumption | with_reducible apply Kept.ite | with_reducible apply setFnHost_kept
                  | with_reducible apply foldl_kept | extract_lets | split | (intros; with_reducible assumption) | intro _ _ _
                  | intro _ _ | dsimp +zetaDelta only | with_reducible refine Kept.mkUpd ?_ rfl rfl rfl

theorem vectorMsg_kept {s₀ : State} (s : State) (f : Nat) (v : Nat) (hK : Kept s₀ s) : Kept s₀ (vectorMsg s f v) := by
  unfold vectorMsg
  repeat' first | with_reducible assumption | with_reducible apply Kept.ite | with_reducible apply setFnHost_kept
                  | with_reducible apply foldl_kept | extract_lets | split | (intros; with_reducible assumption) | intro _ _ _
                  | intro _ _ | dsimp +zetaDelta only | with_reducible refine Kept.mkUpd ?_ rfl rfl rfl

theorem raiseVector_kept {s₀ : State} (s : State) (f : Nat) (v : Nat) (hK : Kept s₀ s) : Kept s₀ (raiseVector s f v) := by
  unfold raiseVector
  repeat' first | with_reducible assumption | with_reducible apply Kept.ite | with_reducible apply setMsixVec_kept
                  | with_reducible apply vectorMsg_kept | with_reducible apply foldl_kept | extract_lets | split
                  | (intros; with_reducible assumption) | intro _ _ _ | intro _ _ | dsimp +zetaDelta only
                  | with_reducible refine Kept.mkUpd ?_ rfl rfl rfl

theorem releaseVectors_kept {s₀ : State} (s : State) (f : Nat) (hK : Kept s₀ s) : Kept s₀ (releaseVectors s f) := by
  unfold releaseVectors
  repeat' first | with_reducible assumption | with_reducible apply Kept.ite | with_reducible apply forEach_kept
                  | with_reducible apply vectorMsg_kept | with_reducible apply setMsixVec_kept | with_reducible apply foldl_kept
                  | extract_lets | split | (intros; with_reducible assumption) | intro _ _ _ | intro _ _ | dsimp +zetaDelta only
                  | with_reducible refine Kept.mkUpd ?_ rfl rfl rfl

theorem bar2Write_kept {s₀ : State} (s : State) (f : Nat) (off : Nat) (v : W32) (hK : Kept s₀ s) : Kept s₀ (bar2Write s f off v) := by
  unfold bar2Write
  repeat' first | with_reducible assumption | with_reducible apply Kept.ite | with_reducible apply setMsixVec_kept
                  | with_reducible apply releaseVectors_kept | with_reducible apply foldl_kept | extract_lets | split
                  | (intros; with_reducible assumption) | intro _ _ _ | intro _ _ | dsimp +zetaDelta only
                  | with_reducible refine Kept.mkUpd ?_ rfl rfl rfl

theorem sendMsi_kept {s₀ : State} (s : State) (r : Nat) (hK : Kept s₀ s) : Kept s₀ (sendMsi s r) := by
  unfold sendMsi
  repeat' first | with_reducible assumption | with_reducible apply Kept.ite | with_reducible apply raiseVector_kept
                  | with_reducible apply setHring_kept | with_reducible apply foldl_kept | extract_lets | split
                  | (intros; with_reducible assumption) | intro _ _ _ | intro _ _ | dsimp +zetaDelta only
                  | with_reducible refine Kept.mkUpd ?_ rfl rfl rfl

theorem msixRaise_kept {s₀ : State} (s : State) (r : Nat) (hK : Kept s₀ s) : Kept s₀ (msixRaise s r) := by
  unfold msixRaise
  repeat' first | with_reducible assumption | with_reducible apply Kept.ite | with_reducible apply setHring_kept
                  | with_reducible apply sendMsi_kept | with_reducible apply foldl_kept | extract_lets | split
                  | (intros; with_reducible assumption) | intro _ _ _ | intro _ _ | dsimp +zetaDelta only
                  | with_reducible refine Kept.mkUpd ?_ rfl rfl rfl

theorem interruptModExpiry_kept {s₀ : State} (s : State) (r : Nat) (hK : Kept s₀ s) : Kept s₀ (interruptModExpiry s r) := by
  unfold interruptModExpiry
  repeat' first | with_reducible assumption | with_reducible apply Kept.ite | with_reducible apply sendMsi_kept
                  | with_reducible apply foldl_kept | extract_lets | split | (intros; with_reducible assumption) | intro _ _ _
                  | intro _ _ | dsimp +zetaDelta only | with_reducible refine Kept.mkUpd ?_ rfl rfl rfl

theorem noticeWrite_kept {s₀ : State} (s : State) (f : Nat) (ok : Bool) (hK : Kept s₀ s) : Kept s₀ (noticeWrite s f ok) := by
  unfold noticeWrite
  repeat' first | with_reducible assumption | with_reducible apply Kept.ite | with_reducible apply queueOverflow_kept
                  | with_reducible apply sts_kept | with_reducible apply hostWrite_kept | with_reducible apply bump_kept
                  | with_reducible apply setFnHost_kept | with_reducible apply advanceDev_kept | with_reducible apply dmaError_kept
                  | with_reducible apply foldl_kept | extract_lets | split | (intros; with_reducible assumption) | intro _ _ _
                  | intro _ _ | dsimp +zetaDelta only | with_reducible refine Kept.mkUpd ?_ rfl rfl rfl

theorem functionLevelReset_kept {s₀ : State} (s : State) (f : Nat) (hK : Kept s₀ s) : Kept s₀ (functionLevelReset s f) := by
  unfold functionLevelReset
  repeat' first | with_reducible assumption | with_reducible apply Kept.ite | with_reducible apply forEach_kept
                  | with_reducible apply stopNow_kept | with_reducible apply setPair64_kept | with_reducible apply setFlag_kept
                  | with_reducible apply setFnHost_kept | with_reducible apply foldl_kept | extract_lets | split
                  | (intros; with_reducible assumption) | intro _ _ _ | intro _ _ | dsimp +zetaDelta only
                  | with_reducible refine Kept.mkUpd ?_ rfl rfl rfl

theorem toD0_kept {s₀ : State} (s : State) (f : Nat) (hK : Kept s₀ s) : Kept s₀ (toD0 s f) := by
  unfold toD0
  repeat' first | with_reducible assumption | with_reducible apply Kept.ite | with_reducible apply releaseVectors_kept
                  | with_reducible apply setFnHost_kept | with_reducible apply forEach_kept | with_reducible apply flushCmd_kept
                  | with_reducible apply foldl_kept | extract_lets | split | (intros; with_reducible assumption) | intro _ _ _
                  | intro _ _ | dsimp +zetaDelta only | with_reducible refine Kept.mkUpd ?_ rfl rfl rfl

theorem setDevControl_kept {s₀ : State} (s : State) (f : Nat) (v : W32) (hK : Kept s₀ s) : Kept s₀ (setDevControl s f v) := by
  unfold setDevControl
  repeat' first | with_reducible assumption | with_reducible apply Kept.ite | with_reducible apply setFnHost_kept
                  | with_reducible apply functionLevelReset_kept | with_reducible apply foldl_kept | extract_lets | split
                  | (intros; with_reducible assumption) | intro _ _ _ | intro _ _ | dsimp +zetaDelta only
                  | with_reducible refine Kept.mkUpd ?_ rfl rfl rfl

theorem cfgWrite_kept {s₀ : State} (s : State) (f : Nat) (off : Nat) (v : W32) (hK : Kept s₀ s) : Kept s₀ (cfgWrite s f off v) := by
  unfold cfgWrite
  repeat' first | with_reducible assumption | with_reducible apply Kept.ite | with_reducible apply setFnHost_kept
                  | with_reducible apply toD0_kept | with_reducible apply setDevControl_kept
                  | with_reducible apply releaseVectors_kept | with_reducible apply foldl_kept | extract_lets | split
                  | (intros; with_reducible assumption) | intro _ _ _ | intro _ _ | dsimp +zetaDelta only
                  | with_reducible refine Kept.mkUpd ?_ rfl rfl rfl

theorem setLink_kept {s₀ : State} (s : State) (width : Nat) (speed : Nat) (hK : Kept s₀ s) : Kept s₀ (setLink s width speed) := by
  unfold setLink
  repeat' first | with_reducible assumption | with_reducible apply Kept.ite | with_reducible apply setFld_kept
                  | with_reducible apply foldl_kept | extract_lets | split | (intros; with_reducible assumption) | intro _ _ _
                  | intro _ _ | dsimp +zetaDelta only | with_reducible refine Kept.mkUpd ?_ rfl rfl rfl

theorem hotResetFn_kept {s₀ : State} (s : State) (f : Nat) (hK : Kept s₀ s) : Kept s₀ (hotResetFn s f) := by
  unfold hotResetFn
  repeat' first | with_reducible assumption | with_reducible apply Kept.ite | with_reducible apply functionLevelReset_kept
                  | with_reducible apply setFnHost_kept | with_reducible apply foldl_kept | extract_lets | split
                  | (intros; with_reducible assumption) | intro _ _ _ | intro _ _ | dsimp +zetaDelta only
                  | with_reducible refine Kept.mkUpd ?_ rfl rfl rfl

theorem pcieHotReset_kept {s₀ : State} (s : State) (width : Nat) (speed : Nat) (hK : Kept s₀ s) : Kept s₀ (pcieHotReset s width
    speed) := by
  unfold pcieHotReset
  repeat' first | with_reducible assumption | with_reducible apply Kept.ite | with_reducible apply setLink_kept
                  | with_reducible apply forEach_kept | with_reducible apply hotResetFn_kept | with_reducible apply foldl_kept
                  | extract_lets | split | (intros; with_reducible assumption) | intro _ _ _ | intro _ _ | dsimp +zetaDelta only
                  | with_reducible refine Kept.mkUpd ?_ rfl rfl rfl

/-! ## Calibration -/

theorem putSet_kept {s₀ : State} (s : State) (n : Nat) (k : Nat) (w : List Nat) (nominal : Bool) (hK : Kept s₀ s) : Kept s₀ (putSet s
    n k w nominal) := by
  unfold putSet
  repeat' first | with_reducible assumption | with_reducible apply Kept.ite | with_reducible apply foldl_kept | extract_lets
                  | split | (intros; with_reducible assumption) | intro _ _ _ | intro _ _ | dsimp +zetaDelta only
                  | with_reducible refine Kept.mkUpd ?_ rfl rfl rfl

theorem laneRes_kept {s₀ : State} (s : State) (n : Nat) (chi : Nat) (set : Nat) (checks : Nat) (outcome : Nat) (hK : Kept s₀ s) :
    Kept s₀ (laneRes s n chi set checks outcome) := by
  unfold laneRes
  repeat' first | with_reducible assumption | with_reducible apply Kept.ite | with_reducible apply setReg_kept
                  | with_reducible apply foldl_kept | extract_lets | split | (intros; with_reducible assumption) | intro _ _ _
                  | intro _ _ | dsimp +zetaDelta only | with_reducible refine Kept.mkUpd ?_ rfl rfl rfl

theorem calNotice_kept {s₀ : State} (s : State) (ty : Nat) (source : Nat) (aux : Nat) (data : Nat) (hK : Kept s₀ s) : Kept s₀
    (calNotice s ty source aux data) := by
  unfold calNotice
  repeat' first | with_reducible assumption | with_reducible apply Kept.ite | with_reducible apply post_kept
                  | with_reducible apply foldl_kept | extract_lets | split | (intros; with_reducible assumption) | intro _ _ _
                  | intro _ _ | dsimp +zetaDelta only | with_reducible refine Kept.mkUpd ?_ rfl rfl rfl

theorem startBuild_kept {s₀ : State} (s : State) (g : Nat) (t : Int) (firstTable : Bool) (hK : Kept s₀ s) : Kept s₀ (startBuild s g t
    firstTable) := by
  unfold startBuild
  repeat' first | with_reducible assumption | with_reducible apply Kept.ite | with_reducible apply setCalGroup_kept
                  | with_reducible apply setFlag_kept | with_reducible apply foldl_kept | extract_lets | split
                  | (intros; with_reducible assumption) | intro _ _ _ | intro _ _ | dsimp +zetaDelta only
                  | with_reducible refine Kept.mkUpd ?_ rfl rfl rfl

theorem deliveryTrigger_kept {s₀ : State} (s : State) (g : Nat) (hK : Kept s₀ s) : Kept s₀ (deliveryTrigger s g) := by
  unfold deliveryTrigger
  repeat' first | with_reducible assumption | with_reducible apply Kept.ite | with_reducible apply startBuild_kept
                  | with_reducible apply foldl_kept | extract_lets | split | (intros; with_reducible assumption) | intro _ _ _
                  | intro _ _ | dsimp +zetaDelta only | with_reducible refine Kept.mkUpd ?_ rfl rfl rfl

theorem forcedTrigger_kept {s₀ : State} (s : State) (g : Nat) (hK : Kept s₀ s) : Kept s₀ (forcedTrigger s g) := by
  unfold forcedTrigger
  repeat' first | with_reducible assumption | with_reducible apply Kept.ite | with_reducible apply setCalGroup_kept
                  | with_reducible apply startBuild_kept | with_reducible apply foldl_kept | extract_lets | split
                  | (intros; with_reducible assumption) | intro _ _ _ | intro _ _ | dsimp +zetaDelta only
                  | with_reducible refine Kept.mkUpd ?_ rfl rfl rfl

theorem setActive_kept {s₀ : State} (s : State) (n : Nat) (w : List Nat) (hK : Kept s₀ s) : Kept s₀ (setActive s n w) := by
  unfold setActive
  repeat' first | with_reducible assumption | with_reducible apply Kept.ite | with_reducible apply foldl_kept | extract_lets
                  | split | (intros; with_reducible assumption) | intro _ _ _ | intro _ _ | dsimp +zetaDelta only
                  | with_reducible refine Kept.mkUpd ?_ rfl rfl rfl

theorem setActives_kept {s₀ : State} (s : State) (g : Nat) (ws : List (List Nat)) (hK : Kept s₀ s) : Kept s₀ (setActives s g ws) := by
  unfold setActives
  repeat' first | with_reducible assumption | with_reducible apply Kept.ite | with_reducible apply forEach_kept
                  | with_reducible apply setActive_kept | with_reducible apply foldl_kept | extract_lets | split
                  | (intros; with_reducible assumption) | intro _ _ _ | intro _ _ | dsimp +zetaDelta only
                  | with_reducible refine Kept.mkUpd ?_ rfl rfl rfl

theorem activate_kept {s₀ : State} (s : State) (g : Nat) (t : Int) (ws : List (List Nat)) (flagged : Bool) (hK : Kept s₀ s) : Kept s₀
    (activate s g t ws flagged) := by
  unfold activate
  repeat' first | with_reducible assumption | with_reducible apply Kept.ite | with_reducible apply setActives_kept
                  | with_reducible apply setFld_kept | with_reducible apply setFlag_kept | with_reducible apply setCalGroup_kept
                  | with_reducible apply foldl_kept | extract_lets | split | (intros; with_reducible assumption) | intro _ _ _
                  | intro _ _ | dsimp +zetaDelta only | with_reducible refine Kept.mkUpd ?_ rfl rfl rfl

theorem startStream_kept {s₀ : State} (s : State) (g : Nat) (hK : Kept s₀ s) : Kept s₀ (startStream s g) := by
  unfold startStream
  repeat' first | with_reducible assumption | with_reducible apply Kept.ite | with_reducible apply setGroup_kept
                  | with_reducible apply groupMark_kept | with_reducible apply foldl_kept | extract_lets | split
                  | (intros; with_reducible assumption) | intro _ _ _ | intro _ _ | dsimp +zetaDelta only
                  | with_reducible refine Kept.mkUpd ?_ rfl rfl rfl

theorem releaseLanes_kept {s₀ : State} (s : State) (g : Nat) (hK : Kept s₀ s) : Kept s₀ (releaseLanes s g) := by
  unfold releaseLanes
  repeat' first | with_reducible assumption | with_reducible apply Kept.ite | with_reducible apply startStream_kept
                  | with_reducible apply foldl_kept | extract_lets | split | (intros; with_reducible assumption) | intro _ _ _
                  | intro _ _ | dsimp +zetaDelta only | with_reducible refine Kept.mkUpd ?_ rfl rfl rfl

theorem firstS60_kept {s₀ : State} (s : State) (g : Nat) (hK : Kept s₀ s) : Kept s₀ (firstS60 s g) := by
  unfold firstS60
  repeat' first | with_reducible assumption | with_reducible apply Kept.ite | with_reducible apply releaseLanes_kept
                  | with_reducible apply activate_kept | with_reducible apply foldl_kept | extract_lets | split
                  | (intros; with_reducible assumption) | intro _ _ _ | intro _ _ | dsimp +zetaDelta only
                  | with_reducible refine Kept.mkUpd ?_ rfl rfl rfl

theorem firstTableOf_kept {s₀ : State} (s : State) (g : Nat) (hK : Kept s₀ s) : Kept s₀ (firstTableOf s g) := by
  unfold firstTableOf
  repeat' first | with_reducible assumption | with_reducible apply Kept.ite | with_reducible apply startBuild_kept
                  | with_reducible apply firstS60_kept | with_reducible apply setFlag_kept | with_reducible apply foldl_kept
                  | extract_lets | split | (intros; with_reducible assumption) | intro _ _ _ | intro _ _ | dsimp +zetaDelta only
                  | with_reducible refine Kept.mkUpd ?_ rfl rfl rfl

theorem restartStale_kept {s₀ : State} (s : State) (g : Nat) (hK : Kept s₀ s) : Kept s₀ (restartStale s g) := by
  unfold restartStale
  repeat' first | with_reducible assumption | with_reducible apply Kept.ite | with_reducible apply setCalGroup_kept
                  | with_reducible apply foldl_kept | extract_lets | split | (intros; with_reducible assumption) | intro _ _ _
                  | intro _ _ | dsimp +zetaDelta only | with_reducible refine Kept.mkUpd ?_ rfl rfl rfl

theorem deliverTo_kept {s₀ : State} (s : State) (g : Nat) (t : Int) (hK : Kept s₀ s) : Kept s₀ (deliverTo s g t) := by
  unfold deliverTo
  repeat' first | with_reducible assumption | with_reducible apply Kept.ite | with_reducible apply setFld_kept
                  | with_reducible apply setCalGroup_kept | with_reducible apply setFlag_kept
                  | with_reducible apply deliveryTrigger_kept | with_reducible apply restartStale_kept
                  | with_reducible apply foldl_kept | extract_lets | split | (intros; with_reducible assumption) | intro _ _ _
                  | intro _ _ | dsimp +zetaDelta only | with_reducible refine Kept.mkUpd ?_ rfl rfl rfl

theorem tempDelivery_kept {s₀ : State} (s : State) (hK : Kept s₀ s) : Kept s₀ (tempDelivery s) := by
  unfold tempDelivery
  repeat' first | with_reducible assumption | with_reducible apply Kept.ite | with_reducible apply forEach_kept
                  | with_reducible apply deliverTo_kept | with_reducible apply foldl_kept | extract_lets | split
                  | (intros; with_reducible assumption) | intro _ _ _ | intro _ _ | dsimp +zetaDelta only
                  | with_reducible refine Kept.mkUpd ?_ rfl rfl rfl

theorem tempStaleExpiry_kept {s₀ : State} (s : State) (g : Nat) (hK : Kept s₀ s) : Kept s₀ (tempStaleExpiry s g) := by
  unfold tempStaleExpiry
  repeat' first | with_reducible assumption | with_reducible apply Kept.ite | with_reducible apply setCalGroup_kept
                  | with_reducible apply calNotice_kept | with_reducible apply sts_kept | with_reducible apply foldl_kept
                  | extract_lets | split | (intros; with_reducible assumption) | intro _ _ _ | intro _ _ | dsimp +zetaDelta only
                  | with_reducible refine Kept.mkUpd ?_ rfl rfl rfl

theorem rejectBuild_kept {s₀ : State} (s : State) (g : Nat) (st : Staging) (hK : Kept s₀ s) : Kept s₀ (rejectBuild s g st) := by
  unfold rejectBuild
  repeat' first | with_reducible assumption | with_reducible apply Kept.ite | with_reducible apply forEach_kept
                  | with_reducible apply laneRes_kept | with_reducible apply calNotice_kept | with_reducible apply sts_kept
                  | with_reducible apply foldl_kept | extract_lets | split | (intros; with_reducible assumption) | intro _ _ _
                  | intro _ _ | dsimp +zetaDelta only | with_reducible refine Kept.mkUpd ?_ rfl rfl rfl

theorem tableBuildComplete_kept {s₀ : State} (s : State) (g : Nat) (hK : Kept s₀ s) : Kept s₀ (tableBuildComplete s g) := by
  unfold tableBuildComplete
  repeat' first | with_reducible assumption | with_reducible apply Kept.ite | with_reducible apply setCalGroup_kept
                  | with_reducible apply setFlag_kept | with_reducible apply releaseLanes_kept | with_reducible apply activate_kept
                  | with_reducible apply rejectBuild_kept | with_reducible apply firstS60_kept
                  | with_reducible apply forcedTrigger_kept | with_reducible apply deliveryTrigger_kept
                  | with_reducible apply foldl_kept | extract_lets | split | (intros; with_reducible assumption) | intro _ _ _
                  | intro _ _ | dsimp +zetaDelta only | with_reducible refine Kept.mkUpd ?_ rfl rfl rfl

theorem swapGroup_kept {s₀ : State} (s : State) (g : Nat) (t : Nat) (hK : Kept s₀ s) : Kept s₀ (swapGroup s g t) := by
  unfold swapGroup
  repeat' first | with_reducible assumption | with_reducible apply Kept.ite | with_reducible apply setCalGroup_kept
                  | with_reducible apply setFlag_kept | with_reducible apply inc_kept | with_reducible apply activate_kept
                  | with_reducible apply groupMark_kept | with_reducible apply foldl_kept | extract_lets | split
                  | (intros; with_reducible assumption) | intro _ _ _ | intro _ _ | dsimp +zetaDelta only
                  | with_reducible refine Kept.mkUpd ?_ rfl rfl rfl

theorem applyCaGroup_kept {s₀ : State} (s : State) (g : Nat) (hK : Kept s₀ s) : Kept s₀ (applyCaGroup s g) := by
  unfold applyCaGroup
  repeat' first | with_reducible assumption | with_reducible apply Kept.ite | with_reducible apply restartStale_kept
                  | with_reducible apply applyRegs_kept | with_reducible apply forcedTrigger_kept | with_reducible apply foldl_kept
                  | extract_lets | split | (intros; with_reducible assumption) | intro _ _ _ | intro _ _ | dsimp +zetaDelta only
                  | with_reducible refine Kept.mkUpd ?_ rfl rfl rfl

theorem calFrameBoundary_kept {s₀ : State} (s : State) (hK : Kept s₀ s) : Kept s₀ (calFrameBoundary s) := by
  unfold calFrameBoundary
  repeat' first | with_reducible assumption | with_reducible apply Kept.ite | with_reducible apply setPair64_kept
                  | with_reducible apply setFld_kept | with_reducible apply forEach_kept | with_reducible apply swapGroup_kept
                  | with_reducible apply applyRegs_kept | with_reducible apply applyCaGroup_kept
                  | with_reducible apply scanStart_kept | with_reducible apply foldl_kept | extract_lets | split
                  | (intros; with_reducible assumption) | intro _ _ _ | intro _ _ | dsimp +zetaDelta only
                  | with_reducible refine Kept.mkUpd ?_ rfl rfl rfl

theorem calMeasure_kept {s₀ : State} (s : State) (c : Command) (hK : Kept s₀ s) : Kept s₀ (calMeasure s c) := by
  unfold calMeasure
  repeat' first | with_reducible assumption | with_reducible apply Kept.ite | with_reducible apply runCmd_kept
                  | with_reducible apply forEach_kept | with_reducible apply laneRes_kept | with_reducible apply refuseCmd_kept
                  | with_reducible apply refuseCmdWith_kept | with_reducible apply completeCmd_kept
                  | with_reducible apply setCalGroup_kept | with_reducible apply holdCmd_kept | with_reducible apply suppress_kept
                  | with_reducible apply foldl_kept | extract_lets | split | (intros; with_reducible assumption) | intro _ _ _
                  | intro _ _ | dsimp +zetaDelta only | with_reducible refine Kept.mkUpd ?_ rfl rfl rfl

theorem judgeLane_kept {s₀ : State} (s : State) (m : Measure) (n : Nat) (h : Histogram) (hK : Kept s₀ s) : Kept s₀ (judgeLane s m n
    h).1 := by
  unfold judgeLane
  repeat' first | with_reducible assumption | with_reducible apply laneRes_kept | with_reducible apply putSet_kept
                  | with_reducible apply calNotice_kept | with_reducible apply foldl_kept | extract_lets | split
                  | (intros; with_reducible assumption) | intro _ _ _ | intro _ _ | dsimp +zetaDelta only
                  | with_reducible refine Kept.mkUpd ?_ rfl rfl rfl
theorem judgeLane_keq {s₀ : State} {t₁ : State} {o₁ : Bool}  {s : State} {m : Measure} {n : Nat} {h : Histogram} (hE : (judgeLane s m
    n h) = (t₁, o₁)) (hK : Kept s₀ s) : Kept s₀ t₁ := by
  have := judgeLane_kept s m n h hK
  rw [hE] at this; exact this

theorem judgeLanes_kept {s₀ : State} (m : Measure) (hs : List Histogram) (l : List Nat) (x : State × Nat) (hK : Kept s₀ x.1) :
    Kept s₀ (judgeLanes m hs l x).1 := by
  induction l generalizing x with
  | nil => exact hK
  | cons n r ih => exact ih _ (judgeLane_kept _ _ _ _ hK)
theorem judgeLanes_keq {s₀ b : State} {a : Nat} {m : Measure} {hs : List Histogram} {l : List Nat} {x : State × Nat}
    (e : judgeLanes m hs l x = (b, a)) (hK : Kept s₀ x.1) : Kept s₀ b := by
  have := judgeLanes_kept m hs l x hK
  rw [e] at this; exact this

theorem calMeasureComplete_kept {s₀ : State} (s : State) (g : Nat) (hs : List Histogram) (hK : Kept s₀ s) : Kept s₀
    (calMeasureComplete s g hs) := by
  unfold calMeasureComplete
  repeat' first | with_reducible assumption | with_reducible apply Kept.ite | with_reducible apply setCalGroup_kept
                  | with_reducible apply judgeLanes_kept | with_reducible apply forcedTrigger_kept
                  | with_reducible apply forEach_kept | with_reducible apply release_kept | with_reducible apply endCmd_kept
                  | with_reducible refine judgeLanes_keq (by with_reducible assumption) ?_ | with_reducible apply foldl_kept
                  | extract_lets | split | (intros; with_reducible assumption) | intro _ _ _ | intro _ _ | dsimp +zetaDelta only
                  | with_reducible refine Kept.mkUpd ?_ rfl rfl rfl

theorem calTableWrite_kept {s₀ : State} (s : State) (c : Command) (hK : Kept s₀ s) : Kept s₀ (calTableWrite s c) := by
  unfold calTableWrite
  repeat' first | with_reducible assumption | with_reducible apply Kept.ite | with_reducible apply runCmd_kept
                  | with_reducible apply refuseCmd_kept | with_reducible apply refuseCmdWith_kept
                  | with_reducible apply laneRes_kept | with_reducible apply dmaFailCmd_kept
                  | with_reducible apply completeCmd_kept | with_reducible apply forcedTrigger_kept
                  | with_reducible apply putSet_kept | with_reducible apply calNotice_kept | with_reducible apply foldl_kept
                  | extract_lets | split | (intros; with_reducible assumption) | intro _ _ _ | intro _ _ | dsimp +zetaDelta only
                  | with_reducible refine Kept.mkUpd ?_ rfl rfl rfl

theorem calTableRead_kept {s₀ : State} (s : State) (c : Command) (hK : Kept s₀ s) : Kept s₀ (calTableRead s c) := by
  unfold calTableRead
  repeat' first | with_reducible assumption | with_reducible apply Kept.ite | with_reducible apply runCmd_kept
                  | with_reducible apply refuseCmd_kept | with_reducible apply completeCmd_kept
                  | with_reducible apply hostWrite_kept | with_reducible apply foldl_kept | extract_lets | split
                  | (intros; with_reducible assumption) | intro _ _ _ | intro _ _ | dsimp +zetaDelta only
                  | with_reducible refine Kept.mkUpd ?_ rfl rfl rfl

theorem setSlot_kept {s₀ : State} (s : State) (i : Nat) (x : Slot) (hK : Kept s₀ s) : Kept s₀ (setSlot s i x) := by
  unfold setSlot
  repeat' first | with_reducible assumption | with_reducible apply Kept.ite | with_reducible apply foldl_kept | extract_lets
                  | split | (intros; with_reducible assumption) | intro _ _ _ | intro _ _ | dsimp +zetaDelta only
                  | with_reducible refine Kept.mkUpd ?_ rfl rfl rfl

theorem noteRead_kept {s₀ : State} (s : State) (f : FlashRead) (hK : Kept s₀ s) : Kept s₀ (noteRead s f) := by
  unfold noteRead
  repeat' first | with_reducible assumption | with_reducible apply Kept.ite | with_reducible apply foldl_kept | extract_lets
                  | split | (intros; with_reducible assumption) | intro _ _ _ | intro _ _ | dsimp +zetaDelta only
                  | with_reducible refine Kept.mkUpd ?_ rfl rfl rfl

theorem reportSlots_kept {s₀ : State} (s : State) (va : Bool) (vb : Bool) (hK : Kept s₀ s) : Kept s₀ (reportSlots s va vb) := by
  unfold reportSlots
  repeat' first | with_reducible assumption | with_reducible apply Kept.ite | with_reducible apply setFlag_kept
                  | with_reducible apply setFld_kept | with_reducible apply foldl_kept | extract_lets | split
                  | (intros; with_reducible assumption) | intro _ _ _ | intro _ _ | dsimp +zetaDelta only
                  | with_reducible refine Kept.mkUpd ?_ rfl rfl rfl

theorem reportActive_kept {s₀ : State} (s : State) (i : Nat) (valid : Bool) (hK : Kept s₀ s) : Kept s₀ (reportActive s i valid) := by
  unfold reportActive
  repeat' first | with_reducible assumption | with_reducible apply Kept.ite | with_reducible apply setFld_kept
                  | with_reducible apply foldl_kept | extract_lets | split | (intros; with_reducible assumption) | intro _ _ _
                  | intro _ _ | dsimp +zetaDelta only | with_reducible refine Kept.mkUpd ?_ rfl rfl rfl

theorem loadTrim_kept {s₀ : State} (s : State) (n : Nat) (t : BitVec 6) (hK : Kept s₀ s) : Kept s₀ (loadTrim s n t) := by
  unfold loadTrim
  repeat' first | with_reducible assumption | with_reducible apply Kept.ite | with_reducible apply settleIfNew_kept
                  | with_reducible apply setStoredTrim_kept | with_reducible apply foldl_kept | extract_lets | split
                  | (intros; with_reducible assumption) | intro _ _ _ | intro _ _ | dsimp +zetaDelta only
                  | with_reducible refine Kept.mkUpd ?_ rfl rfl rfl

theorem loadSlot_kept {s₀ : State} (s : State) (x : Slot) (hK : Kept s₀ s) : Kept s₀ (loadSlot s x) := by
  unfold loadSlot
  repeat' first | with_reducible assumption | with_reducible apply Kept.ite | with_reducible apply forEach_kept
                  | with_reducible apply putSet_kept | with_reducible apply loadTrim_kept | with_reducible apply foldl_kept
                  | extract_lets | split | (intros; with_reducible assumption) | intro _ _ _ | intro _ _ | dsimp +zetaDelta only
                  | with_reducible refine Kept.mkUpd ?_ rfl rfl rfl

theorem loadNominal_kept {s₀ : State} (s : State) (hK : Kept s₀ s) : Kept s₀ (loadNominal s) := by
  unfold loadNominal
  repeat' first | with_reducible assumption | with_reducible apply Kept.ite | with_reducible apply forEach_kept
                  | with_reducible apply loadTrim_kept | with_reducible apply foldl_kept | extract_lets | split
                  | (intros; with_reducible assumption) | intro _ _ _ | intro _ _ | dsimp +zetaDelta only
                  | with_reducible refine Kept.mkUpd ?_ rfl rfl rfl

theorem afterStartLoad_kept {s₀ : State} (s : State) (hK : Kept s₀ s) : Kept s₀ (afterStartLoad s) := by
  unfold afterStartLoad
  repeat' first | with_reducible assumption | with_reducible apply Kept.ite | with_reducible apply setFlag_kept
                  | with_reducible apply forEach_kept | with_reducible apply restartStale_kept
                  | with_reducible apply firstTableOf_kept | with_reducible apply foldl_kept | extract_lets | split
                  | (intros; with_reducible assumption) | intro _ _ _ | intro _ _ | dsimp +zetaDelta only
                  | with_reducible refine Kept.mkUpd ?_ rfl rfl rfl

theorem calStoreLoadComplete_kept {s₀ : State} (s : State) (f : FlashRead) (hK : Kept s₀ s) : Kept s₀ (calStoreLoadComplete s f) := by
  unfold calStoreLoadComplete
  repeat' first | with_reducible assumption | with_reducible apply Kept.ite | with_reducible apply setFlag_kept
                  | with_reducible apply endCmd_kept | with_reducible apply setFld_kept | with_reducible apply noteRead_kept
                  | with_reducible apply reportSlots_kept | with_reducible apply reportActive_kept
                  | with_reducible apply loadSlot_kept | with_reducible apply loadNominal_kept
                  | with_reducible apply calNotice_kept | with_reducible apply alarm_kept
                  | with_reducible apply afterStartLoad_kept | with_reducible apply foldl_kept | extract_lets | split
                  | (intros; with_reducible assumption) | intro _ _ _ | intro _ _ | dsimp +zetaDelta only
                  | with_reducible refine Kept.mkUpd ?_ rfl rfl rfl

theorem beginOp_kept {s₀ : State} (s : State) (op : StoreOp) (c : Option Command) (hK : Kept s₀ s) : Kept s₀ (beginOp s op c) := by
  unfold beginOp
  repeat' first | with_reducible assumption | with_reducible apply Kept.ite | with_reducible apply setFlag_kept
                  | with_reducible apply foldl_kept | extract_lets | split | (intros; with_reducible assumption) | intro _ _ _
                  | intro _ _ | dsimp +zetaDelta only | with_reducible refine Kept.mkUpd ?_ rfl rfl rfl

theorem calStoreWrite_kept {s₀ : State} (s : State) (c : Command) (hK : Kept s₀ s) : Kept s₀ (calStoreWrite s c) := by
  unfold calStoreWrite
  repeat' first | with_reducible assumption | with_reducible apply Kept.ite | with_reducible apply runCmd_kept
                  | with_reducible apply refuseCmdWith_kept | with_reducible apply setFld_kept
                  | with_reducible apply refuseCmd_kept | with_reducible apply takeFree_kept | with_reducible apply holdCmd_kept
                  | with_reducible apply beginOp_kept | with_reducible apply setSlot_kept
                  | with_reducible refine takeFree_keq (by with_reducible assumption) ?_ | with_reducible apply foldl_kept
                  | extract_lets | split | (intros; with_reducible assumption) | intro _ _ _ | intro _ _ | dsimp +zetaDelta only
                  | with_reducible refine Kept.mkUpd ?_ rfl rfl rfl

theorem endWrite_kept {s₀ : State} (s : State) (i : Nat) (seq : Nat) (outcome : Nat) (hK : Kept s₀ s) : Kept s₀ (endWrite s i seq
    outcome) := by
  unfold endWrite
  repeat' first | with_reducible assumption | with_reducible apply Kept.ite | with_reducible apply setFlag_kept
                  | with_reducible apply setFld_kept | with_reducible apply reportSlots_kept
                  | with_reducible apply reportActive_kept | with_reducible apply inc_kept | with_reducible apply endCmd_kept
                  | with_reducible apply calNotice_kept | with_reducible apply foldl_kept | extract_lets | split
                  | (intros; with_reducible assumption) | intro _ _ _ | intro _ _ | dsimp +zetaDelta only
                  | with_reducible refine Kept.mkUpd ?_ rfl rfl rfl

theorem calStoreWriteComplete_kept {s₀ : State} (s : State) (r : FlashWriteEnd) (hK : Kept s₀ s) : Kept s₀ (calStoreWriteComplete s
    r) := by
  unfold calStoreWriteComplete
  repeat' first | with_reducible assumption | with_reducible apply Kept.ite | with_reducible apply endWrite_kept
                  | with_reducible apply setSlot_kept | with_reducible apply foldl_kept | extract_lets | split
                  | (intros; with_reducible assumption) | intro _ _ _ | intro _ _ | dsimp +zetaDelta only
                  | with_reducible refine Kept.mkUpd ?_ rfl rfl rfl

theorem stopStoreWrite_kept {s₀ : State} (s : State) (hK : Kept s₀ s) : Kept s₀ (stopStoreWrite s) := by
  unfold stopStoreWrite
  repeat' first | with_reducible assumption | with_reducible apply Kept.ite | with_reducible apply foldl_kept | extract_lets
                  | split | (intros; with_reducible assumption) | intro _ _ _ | intro _ _ | dsimp +zetaDelta only
                  | with_reducible refine Kept.mkUpd ?_ rfl rfl rfl

theorem calStoreReload_kept {s₀ : State} (s : State) (c : Command) (hK : Kept s₀ s) : Kept s₀ (calStoreReload s c) := by
  unfold calStoreReload
  repeat' first | with_reducible assumption | with_reducible apply Kept.ite | with_reducible apply runCmd_kept
                  | with_reducible apply refuseCmd_kept | with_reducible apply setFld_kept | with_reducible apply holdCmd_kept
                  | with_reducible apply beginOp_kept | with_reducible apply foldl_kept | extract_lets | split
                  | (intros; with_reducible assumption) | intro _ _ _ | intro _ _ | dsimp +zetaDelta only
                  | with_reducible refine Kept.mkUpd ?_ rfl rfl rfl

theorem calFlashRead_kept {s₀ : State} (s : State) (c : Command) (responds : Bool) (hK : Kept s₀ s) : Kept s₀ (calFlashRead s c
    responds) := by
  unfold calFlashRead
  repeat' first | with_reducible assumption | with_reducible apply Kept.ite | with_reducible apply runCmd_kept
                  | with_reducible apply refuseCmd_kept | with_reducible apply completeCmd_kept
                  | with_reducible apply takeFree_kept | with_reducible apply hostWrite_kept
                  | with_reducible refine takeFree_keq (by with_reducible assumption) ?_ | with_reducible apply foldl_kept
                  | extract_lets | split | (intros; with_reducible assumption) | intro _ _ _ | intro _ _ | dsimp +zetaDelta only
                  | with_reducible refine Kept.mkUpd ?_ rfl rfl rfl

/-! ## Assembler -/

theorem issueTile_kept {s₀ : State} (s : State) (code : Nat) (t : Tile) (hK : Kept s₀ s) : Kept s₀ (issueTile s code t) := by
  unfold issueTile
  repeat' first | with_reducible assumption | with_reducible apply Kept.ite | with_reducible apply setSource_kept
                  | with_reducible apply foldl_kept | extract_lets | split | (intros; with_reducible assumption) | intro _ _ _
                  | intro _ _ | dsimp +zetaDelta only | with_reducible refine Kept.mkUpd ?_ rfl rfl rfl

theorem noteFirstSeq_kept {s₀ : State} (s : State) (g : Nat) (seq : Nat) (hK : Kept s₀ s) : Kept s₀ (noteFirstSeq s g seq) := by
  unfold noteFirstSeq
  repeat' first | with_reducible assumption | with_reducible apply Kept.ite | with_reducible apply setGroup_kept
                  | with_reducible apply foldl_kept | extract_lets | split | (intros; with_reducible assumption) | intro _ _ _
                  | intro _ _ | dsimp +zetaDelta only | with_reducible refine Kept.mkUpd ?_ rfl rfl rfl

theorem partLimit_kept {s₀ : State} (s : State) (g : Nat) (hK : Kept s₀ s) : Kept s₀ (partLimit s g) := by
  unfold partLimit
  repeat' first | with_reducible assumption | with_reducible apply Kept.ite | with_reducible apply setEmitted_kept
                  | with_reducible apply queueWindow_kept | with_reducible apply setGroup_kept | with_reducible apply foldl_kept
                  | extract_lets | split | (intros; with_reducible assumption) | intro _ _ _ | intro _ _ | dsimp +zetaDelta only
                  | with_reducible refine Kept.mkUpd ?_ rfl rfl rfl

theorem vetoTail_kept {s₀ : State} (s : State) (g : Nat) (t : Tile) (hK : Kept s₀ s) : Kept s₀ (vetoTail s g t) := by
  unfold vetoTail
  repeat' first | with_reducible assumption | with_reducible apply Kept.ite | with_reducible apply setGroup_kept
                  | with_reducible apply foldl_kept | extract_lets | split | (intros; with_reducible assumption) | intro _ _ _
                  | intro _ _ | dsimp +zetaDelta only | with_reducible refine Kept.mkUpd ?_ rfl rfl rfl

theorem dropTail_kept {s₀ : State} (s : State) (g : Nat) (t : Tile) (hK : Kept s₀ s) : Kept s₀ (dropTail s g t) := by
  unfold dropTail
  repeat' first | with_reducible assumption | with_reducible apply Kept.ite | with_reducible apply vetoTail_kept
                  | with_reducible apply countDiscard_kept | with_reducible apply noteOcc_kept
                  | with_reducible refine makeRoom_ksome (by with_reducible assumption) ?_ | with_reducible apply foldl_kept
                  | extract_lets | split | (intros; with_reducible assumption) | intro _ _ _ | intro _ _ | dsimp +zetaDelta only
                  | with_reducible refine Kept.mkUpd ?_ rfl rfl rfl

theorem sealOut_kept {s₀ : State} (s : State) (g : Nat) (t : Tile) (hK : Kept s₀ s) : Kept s₀ (sealOut s g t) := by
  unfold sealOut
  repeat' first | with_reducible assumption | with_reducible apply Kept.ite | with_reducible apply bump_kept
                  | with_reducible apply issueTile_kept | with_reducible apply setGroup_kept
                  | with_reducible apply noteFirstSeq_kept | with_reducible apply dropTail_kept
                  | with_reducible apply partLimit_kept | with_reducible apply queueTile_kept | with_reducible apply foldl_kept
                  | extract_lets | split | (intros; with_reducible assumption) | intro _ _ _ | intro _ _ | dsimp +zetaDelta only
                  | with_reducible refine Kept.mkUpd ?_ rfl rfl rfl

theorem waitSeal_kept {s₀ : State} (s : State) (g : Nat) (hK : Kept s₀ s) : Kept s₀ (waitSeal s g) := by
  unfold waitSeal
  repeat' first | with_reducible assumption | with_reducible apply Kept.ite | with_reducible apply inc_kept
                  | with_reducible apply setGroup_kept | with_reducible apply foldl_kept | extract_lets | split
                  | (intros; with_reducible assumption) | intro _ _ _ | intro _ _ | dsimp +zetaDelta only
                  | with_reducible refine Kept.mkUpd ?_ rfl rfl rfl

theorem sealOpen_kept {s₀ : State} (s : State) (g : Nat) (hK : Kept s₀ s) : Kept s₀ (sealOpen s g) := by
  unfold sealOpen
  repeat' first | with_reducible assumption | with_reducible apply Kept.ite | with_reducible apply waitSeal_kept
                  | with_reducible apply sealOut_kept | with_reducible apply setEmitted_kept | with_reducible apply setGroup_kept
                  | with_reducible apply foldl_kept | extract_lets | split | (intros; with_reducible assumption) | intro _ _ _
                  | intro _ _ | dsimp +zetaDelta only | with_reducible refine Kept.mkUpd ?_ rfl rfl rfl

theorem tileHoldTimeout_kept {s₀ : State} (s : State) (g : Nat) (hK : Kept s₀ s) : Kept s₀ (tileHoldTimeout s g) := by
  unfold tileHoldTimeout
  repeat' first | with_reducible assumption | with_reducible apply Kept.ite | with_reducible apply sealOpen_kept
                  | with_reducible apply foldl_kept | extract_lets | split | (intros; with_reducible assumption) | intro _ _ _
                  | intro _ _ | dsimp +zetaDelta only | with_reducible refine Kept.mkUpd ?_ rfl rfl rfl

theorem place_kept {s₀ : State} (s : State) (g : Nat) (w : W64) (t : Option Nat) (hK : Kept s₀ s) : Kept s₀ (place s g w t) := by
  unfold place
  repeat' first | with_reducible assumption | with_reducible apply Kept.ite | with_reducible apply setGroup_kept
                  | with_reducible apply sealOpen_kept | with_reducible apply foldl_kept | extract_lets | split
                  | (intros; with_reducible assumption) | intro _ _ _ | intro _ _ | dsimp +zetaDelta only
                  | with_reducible refine Kept.mkUpd ?_ rfl rfl rfl

theorem takeLane_kept {s₀ : State} (s : State) (g : Nat) (n : Nat) (hK : Kept s₀ s) : Kept s₀ (takeLane s g n) := by
  unfold takeLane
  repeat' first | with_reducible assumption | with_reducible apply Kept.ite | with_reducible apply setLane_kept
                  | with_reducible apply noteCutTime_kept | with_reducible apply place_kept | with_reducible apply setGroup_kept
                  | with_reducible apply foldl_kept | extract_lets | split | (intros; with_reducible assumption) | intro _ _ _
                  | intro _ _ | dsimp +zetaDelta only | with_reducible refine Kept.mkUpd ?_ rfl rfl rfl

theorem placeDue_kept {s₀ : State} (s : State) (g : Nat) (hK : Kept s₀ s) : Kept s₀ (placeDue s g) := by
  unfold placeDue
  repeat' first | with_reducible assumption | with_reducible apply Kept.ite | with_reducible apply place_kept
                  | with_reducible apply setGroup_kept | with_reducible apply setLane_kept | with_reducible apply takeLane_kept
                  | with_reducible apply foldl_kept | extract_lets | split | (intros; with_reducible assumption) | intro _ _ _
                  | intro _ _ | dsimp +zetaDelta only | with_reducible refine Kept.mkUpd ?_ rfl rfl rfl

theorem laneRecordTake_kept {s₀ : State} (s : State) (g : Nat) (hK : Kept s₀ s) : Kept s₀ (laneRecordTake s g) := by
  unfold laneRecordTake
  repeat' first | with_reducible assumption | with_reducible apply Kept.ite | with_reducible apply placeDue_kept
                  | with_reducible apply epochBoundary_kept | with_reducible apply foldl_kept | extract_lets | split
                  | (intros; with_reducible assumption) | intro _ _ _ | intro _ _ | dsimp +zetaDelta only
                  | with_reducible refine Kept.mkUpd ?_ rfl rfl rfl

theorem allowanceRise_kept {s₀ : State} (s : State) (g : Nat) (hK : Kept s₀ s) : Kept s₀ (allowanceRise s g) := by
  unfold allowanceRise
  repeat' first | with_reducible assumption | with_reducible apply Kept.ite | with_reducible apply setGroup_kept
                  | with_reducible apply foldl_kept | extract_lets | split | (intros; with_reducible assumption) | intro _ _ _
                  | intro _ _ | dsimp +zetaDelta only | with_reducible refine Kept.mkUpd ?_ rfl rfl rfl

theorem gateToGroups_kept {s₀ : State} (s : State) (id : Nat) (open_ : Bool) (t : Nat) (hK : Kept s₀ s) : Kept s₀ (gateToGroups s id
    open_ t) := by
  unfold gateToGroups
  repeat' first | with_reducible assumption | with_reducible apply Kept.ite | with_reducible apply forEach_kept
                  | with_reducible apply groupMark_kept | with_reducible apply setGroup_kept | with_reducible apply foldl_kept
                  | extract_lets | split | (intros; with_reducible assumption) | intro _ _ _ | intro _ _ | dsimp +zetaDelta only
                  | with_reducible refine Kept.mkUpd ?_ rfl rfl rfl

theorem closeWindow_kept {s₀ : State} (s : State) (g : Nat) (t : Nat) (hK : Kept s₀ s) : Kept s₀ (closeWindow s g t) := by
  unfold closeWindow
  repeat' first | with_reducible assumption | with_reducible apply Kept.ite | with_reducible apply setEmitted_kept
                  | with_reducible apply queueWindow_kept | with_reducible apply setGroup_kept | with_reducible apply setFlag_kept
                  | with_reducible apply queueVetoDrop_kept | with_reducible apply foldl_kept | extract_lets | split
                  | (intros; with_reducible assumption) | intro _ _ _ | intro _ _ | dsimp +zetaDelta only
                  | with_reducible refine Kept.mkUpd ?_ rfl rfl rfl

theorem openWindow_kept {s₀ : State} (s : State) (g : Nat) (id : Nat) (t : Nat) (hK : Kept s₀ s) : Kept s₀ (openWindow s g id t) := by
  unfold openWindow
  repeat' first | with_reducible assumption | with_reducible apply Kept.ite | with_reducible apply inc_kept
                  | with_reducible apply setGroup_kept | with_reducible apply setFlag_kept | with_reducible apply setFld_kept
                  | with_reducible apply queueWindow_kept | with_reducible apply foldl_kept | extract_lets | split
                  | (intros; with_reducible assumption) | intro _ _ _ | intro _ _ | dsimp +zetaDelta only
                  | with_reducible refine Kept.mkUpd ?_ rfl rfl rfl

theorem windowOpen_kept {s₀ : State} (s : State) (g : Nat) (hK : Kept s₀ s) : Kept s₀ (windowOpen s g) := by
  unfold windowOpen
  repeat' first | with_reducible assumption | with_reducible apply Kept.ite | with_reducible apply setGroup_kept
                  | with_reducible apply inc_kept | with_reducible apply openWindow_kept | with_reducible apply foldl_kept
                  | extract_lets | split | (intros; with_reducible assumption) | intro _ _ _ | intro _ _ | dsimp +zetaDelta only
                  | with_reducible refine Kept.mkUpd ?_ rfl rfl rfl

theorem windowClose_kept {s₀ : State} (s : State) (g : Nat) (hK : Kept s₀ s) : Kept s₀ (windowClose s g) := by
  unfold windowClose
  repeat' first | with_reducible assumption | with_reducible apply Kept.ite | with_reducible apply closeWindow_kept
                  | with_reducible apply setGroup_kept | with_reducible apply foldl_kept | extract_lets | split
                  | (intros; with_reducible assumption) | intro _ _ _ | intro _ _ | dsimp +zetaDelta only
                  | with_reducible refine Kept.mkUpd ?_ rfl rfl rfl

theorem windowDurExpiry_kept {s₀ : State} (s : State) (g : Nat) (hK : Kept s₀ s) : Kept s₀ (windowDurExpiry s g) := by
  unfold windowDurExpiry
  repeat' first | with_reducible assumption | with_reducible apply Kept.ite | with_reducible apply closeWindow_kept
                  | with_reducible apply foldl_kept | extract_lets | split | (intros; with_reducible assumption) | intro _ _ _
                  | intro _ _ | dsimp +zetaDelta only | with_reducible refine Kept.mkUpd ?_ rfl rfl rfl

theorem lgWinVeto_kept {s₀ : State} (s : State) (a : Access) (g : Nat) (v : W32) (hK : Kept s₀ s) : Kept s₀ (lgWinVeto s a g v) := by
  unfold lgWinVeto
  repeat' first | with_reducible assumption | with_reducible apply Kept.ite | with_reducible apply cmdWrite_kept
                  | with_reducible apply setFlag_kept | with_reducible apply setGroup_kept | with_reducible apply foldl_kept
                  | extract_lets | split | (intros; with_reducible assumption) | intro _ _ _ | intro _ _ | dsimp +zetaDelta only
                  | with_reducible refine Kept.mkUpd ?_ rfl rfl rfl

theorem applyVeto_kept {s₀ : State} (s : State) (g : Nat) (hK : Kept s₀ s) : Kept s₀ (applyVeto s g) := by
  unfold applyVeto
  repeat' first | with_reducible assumption | with_reducible apply Kept.ite | with_reducible apply inc_kept
                  | with_reducible apply setGroup_kept | with_reducible apply uncount_kept | with_reducible apply noteOcc_kept
                  | with_reducible apply setFlag_kept | with_reducible apply foldl_kept | extract_lets | split
                  | (intros; with_reducible assumption) | intro _ _ _ | intro _ _ | dsimp +zetaDelta only
                  | with_reducible refine Kept.mkUpd ?_ rfl rfl rfl

theorem vetoArrival_kept {s₀ : State} (s : State) (g : Nat) (hK : Kept s₀ s) : Kept s₀ (vetoArrival s g) := by
  unfold vetoArrival
  repeat' first | with_reducible assumption | with_reducible apply Kept.ite | with_reducible apply setGroup_kept
                  | with_reducible apply applyVeto_kept | with_reducible apply setFlag_kept | with_reducible apply foldl_kept
                  | extract_lets | split | (intros; with_reducible assumption) | intro _ _ _ | intro _ _ | dsimp +zetaDelta only
                  | with_reducible refine Kept.mkUpd ?_ rfl rfl rfl

theorem noteFill_kept {s₀ : State} (s : State) (g : Nat) (hK : Kept s₀ s) : Kept s₀ (noteFill s g) := by
  unfold noteFill
  repeat' first | with_reducible assumption | with_reducible apply Kept.ite | with_reducible apply setFld_kept
                  | with_reducible apply foldl_kept | extract_lets | split | (intros; with_reducible assumption) | intro _ _ _
                  | intro _ _ | dsimp +zetaDelta only | with_reducible refine Kept.mkUpd ?_ rfl rfl rfl

theorem formInjected_kept {s₀ : State} (s : State) (g : Nat) (hK : Kept s₀ s) : Kept s₀ (formInjected s g) := by
  unfold formInjected
  repeat' first | with_reducible assumption | with_reducible apply Kept.ite | with_reducible apply setGroup_kept
                  | with_reducible apply noteFill_kept | with_reducible apply foldl_kept | extract_lets | split
                  | (intros; with_reducible assumption) | intro _ _ _ | intro _ _ | dsimp +zetaDelta only
                  | with_reducible refine Kept.mkUpd ?_ rfl rfl rfl

theorem lgInjDataWrite_kept {s₀ : State} (s : State) (a : Access) (g : Nat) (v : W32) (hK : Kept s₀ s) : Kept s₀ (lgInjDataWrite s a
    g v) := by
  unfold lgInjDataWrite
  repeat' first | with_reducible assumption | with_reducible apply Kept.ite | with_reducible apply accept_kept
                  | with_reducible apply sts_kept | with_reducible apply inc_kept | with_reducible apply noteFill_kept
                  | with_reducible apply setGroup_kept | with_reducible apply formInjected_kept | with_reducible apply foldl_kept
                  | extract_lets | split | (intros; with_reducible assumption) | intro _ _ _ | intro _ _ | dsimp +zetaDelta only
                  | with_reducible refine Kept.mkUpd ?_ rfl rfl rfl

theorem lgInjFlush_kept {s₀ : State} (s : State) (a : Access) (g : Nat) (v : W32) (hK : Kept s₀ s) : Kept s₀ (lgInjFlush s a g v) := by
  unfold lgInjFlush
  repeat' first | with_reducible assumption | with_reducible apply Kept.ite | with_reducible apply cmdWrite_kept
                  | with_reducible apply formInjected_kept | with_reducible apply foldl_kept | extract_lets | split
                  | (intros; with_reducible assumption) | intro _ _ _ | intro _ _ | dsimp +zetaDelta only
                  | with_reducible refine Kept.mkUpd ?_ rfl rfl rfl

theorem injectedTileSeal_kept {s₀ : State} (s : State) (g : Nat) (hK : Kept s₀ s) : Kept s₀ (injectedTileSeal s g) := by
  unfold injectedTileSeal
  repeat' first | with_reducible assumption | with_reducible apply Kept.ite | with_reducible apply waitSeal_kept
                  | with_reducible apply sealOut_kept | with_reducible apply setGroup_kept | with_reducible apply formInjected_kept
                  | with_reducible apply foldl_kept | extract_lets | split | (intros; with_reducible assumption) | intro _ _ _
                  | intro _ _ | dsimp +zetaDelta only | with_reducible refine Kept.mkUpd ?_ rfl rfl rfl

theorem releaseGroup_kept {s₀ : State} (s : State) (g : Nat) (hK : Kept s₀ s) : Kept s₀ (releaseGroup s g) := by
  unfold releaseGroup
  repeat' first | with_reducible assumption | with_reducible apply Kept.ite | with_reducible apply sealOpen_kept
                  | with_reducible apply injectedTileSeal_kept | with_reducible apply setGroup_kept
                  | with_reducible apply foldl_kept | extract_lets | split | (intros; with_reducible assumption) | intro _ _ _
                  | intro _ _ | dsimp +zetaDelta only | with_reducible refine Kept.mkUpd ?_ rfl rfl rfl

theorem applyInLg_kept {s₀ : State} (s : State) (g : Nat) (hK : Kept s₀ s) : Kept s₀ (applyInLg s g) := by
  unfold applyInLg
  repeat' first | with_reducible assumption | with_reducible apply Kept.ite | with_reducible apply forEach_kept
                  | with_reducible apply applyInput_kept | with_reducible apply applyReg_kept | with_reducible apply setGroup_kept
                  | with_reducible apply sts_kept | with_reducible apply foldl_kept | extract_lets | split
                  | (intros; with_reducible assumption) | intro _ _ _ | intro _ _ | dsimp +zetaDelta only
                  | with_reducible refine Kept.mkUpd ?_ rfl rfl rfl

end Sys2Proof.Laws
end

