-- ==== Sys2Proof/Laws/KeptFabric.lean ====
section
/-! SUPPORT. What no operation touches or worsens (`Kept`), for the measurement units, the fabric and the Carver engines. -/

namespace Sys2Proof.Laws

open Sys2Proof.Machine

/-! ## Measure -/

theorem muNote_kept {s₀ : State} (s : State) (u : Nat) (hK : Kept s₀ s) : Kept s₀ (muNote s u) := by
  unfold muNote
  repeat' first | with_reducible assumption | with_reducible apply Kept.ite | with_reducible apply setFlag_kept
                  | with_reducible apply foldl_kept | extract_lets | split | (intros; with_reducible assumption) | intro _ _ _
                  | intro _ _ | dsimp +zetaDelta only | with_reducible refine Kept.mkUpd ?_ rfl rfl rfl

theorem muFlag_kept {s₀ : State} (s : State) (u : Nat) (bits : Nat) (hK : Kept s₀ s) : Kept s₀ (muFlag s u bits) := by
  unfold muFlag
  repeat' first | with_reducible assumption | with_reducible apply Kept.ite | with_reducible apply setMu_kept
                  | with_reducible apply foldl_kept | extract_lets | split | (intros; with_reducible assumption) | intro _ _ _
                  | intro _ _ | dsimp +zetaDelta only | with_reducible refine Kept.mkUpd ?_ rfl rfl rfl

theorem muDisc_kept {s₀ : State} (s : State) (u : Nat) (starts : Nat) (stops : Nat) (hK : Kept s₀ s) : Kept s₀ (muDisc s u starts
    stops) := by
  unfold muDisc
  repeat' first | with_reducible assumption | with_reducible apply Kept.ite | with_reducible apply addCnt_kept
                  | with_reducible apply muFlag_kept | with_reducible apply foldl_kept | extract_lets | split
                  | (intros; with_reducible assumption) | intro _ _ _ | intro _ _ | dsimp +zetaDelta only
                  | with_reducible refine Kept.mkUpd ?_ rfl rfl rfl

theorem pushPub_kept {s₀ : State} (s : State) (u : Nat) (p : Pub) (hK : Kept s₀ s) : Kept s₀ (pushPub s u p) := by
  unfold pushPub
  repeat' first | with_reducible assumption | with_reducible apply Kept.ite | with_reducible apply setMu_kept
                  | with_reducible apply foldl_kept | extract_lets | split | (intros; with_reducible assumption) | intro _ _ _
                  | intro _ _ | dsimp +zetaDelta only | with_reducible refine Kept.mkUpd ?_ rfl rfl rfl

theorem muOpen_kept {s₀ : State} (s : State) (u : Nat) (t : Nat) (late : Bool) (hK : Kept s₀ s) : Kept s₀ (muOpen s u t late) := by
  unfold muOpen
  repeat' first | with_reducible assumption | with_reducible apply Kept.ite | with_reducible apply sts_kept
                  | with_reducible apply inc_kept | with_reducible apply muNote_kept | with_reducible apply setMu_kept
                  | with_reducible apply foldl_kept | extract_lets | split | (intros; with_reducible assumption) | intro _ _ _
                  | intro _ _ | dsimp +zetaDelta only | with_reducible refine Kept.mkUpd ?_ rfl rfl rfl

theorem muClose_kept {s₀ : State} (s : State) (u : Nat) (t : Nat) (bits : Nat) (rearm : Bool) (hK : Kept s₀ s) : Kept s₀ (muClose s u
    t bits rearm) := by
  unfold muClose
  repeat' first | with_reducible assumption | with_reducible apply Kept.ite | with_reducible apply muFlag_kept
                  | with_reducible apply muDisc_kept | with_reducible apply takeFree_kept | with_reducible apply sts_kept
                  | with_reducible apply setMu_kept | with_reducible apply muNote_kept | with_reducible apply pushPub_kept
                  | with_reducible refine takeFree_keq (by with_reducible assumption) ?_ | with_reducible apply foldl_kept
                  | extract_lets | split | (intros; with_reducible assumption) | intro _ _ _ | intro _ _ | dsimp +zetaDelta only
                  | with_reducible refine Kept.mkUpd ?_ rfl rfl rfl

theorem muArmAt_kept {s₀ : State} (s : State) (u : Nat) (t : Nat) (late : Bool) (hK : Kept s₀ s) : Kept s₀ (muArmAt s u t late) := by
  unfold muArmAt
  repeat' first | with_reducible assumption | with_reducible apply Kept.ite | with_reducible apply muNote_kept
                  | with_reducible apply setMu_kept | with_reducible apply muClose_kept | with_reducible apply muOpen_kept
                  | with_reducible apply foldl_kept | extract_lets | split | (intros; with_reducible assumption) | intro _ _ _
                  | intro _ _ | dsimp +zetaDelta only | with_reducible refine Kept.mkUpd ?_ rfl rfl rfl

theorem muGateOpenAt_kept {s₀ : State} (s : State) (u : Nat) (t : Nat) (late : Bool) (hK : Kept s₀ s) : Kept s₀ (muGateOpenAt s u t
    late) := by
  unfold muGateOpenAt
  repeat' first | with_reducible assumption | with_reducible apply Kept.ite | with_reducible apply muOpen_kept
                  | with_reducible apply foldl_kept | extract_lets | split | (intros; with_reducible assumption) | intro _ _ _
                  | intro _ _ | dsimp +zetaDelta only | with_reducible refine Kept.mkUpd ?_ rfl rfl rfl

theorem muHostCloseAt_kept {s₀ : State} (s : State) (u : Nat) (t : Nat) (hK : Kept s₀ s) : Kept s₀ (muHostCloseAt s u t) := by
  unfold muHostCloseAt
  repeat' first | with_reducible assumption | with_reducible apply Kept.ite | with_reducible apply muClose_kept
                  | with_reducible apply muNote_kept | with_reducible apply setMu_kept | with_reducible apply foldl_kept
                  | extract_lets | split | (intros; with_reducible assumption) | intro _ _ _ | intro _ _ | dsimp +zetaDelta only
                  | with_reducible refine Kept.mkUpd ?_ rfl rfl rfl

theorem muDisarm_kept {s₀ : State} (s : State) (u : Nat) (hK : Kept s₀ s) : Kept s₀ (muDisarm s u) := by
  unfold muDisarm
  repeat' first | with_reducible assumption | with_reducible apply Kept.ite | with_reducible apply muClose_kept
                  | with_reducible apply muNote_kept | with_reducible apply setMu_kept | with_reducible apply foldl_kept
                  | extract_lets | split | (intros; with_reducible assumption) | intro _ _ _ | intro _ _ | dsimp +zetaDelta only
                  | with_reducible refine Kept.mkUpd ?_ rfl rfl rfl

theorem muLimit_kept {s₀ : State} (s : State) (u : Nat) (t : Nat) (hK : Kept s₀ s) : Kept s₀ (muLimit s u t) := by
  unfold muLimit
  repeat' first | with_reducible assumption | with_reducible apply Kept.ite | with_reducible apply muClose_kept
                  | with_reducible apply foldl_kept | extract_lets | split | (intros; with_reducible assumption) | intro _ _ _
                  | intro _ _ | dsimp +zetaDelta only | with_reducible refine Kept.mkUpd ?_ rfl rfl rfl

theorem setMeas_kept {s₀ : State} (s : State) (u : Nat) (m : Meas) (hK : Kept s₀ s) : Kept s₀ (setMeas s u m) := by
  unfold setMeas
  repeat' first | with_reducible assumption | with_reducible apply Kept.ite | with_reducible apply setMu_kept
                  | with_reducible apply foldl_kept | extract_lets | split | (intros; with_reducible assumption) | intro _ _ _
                  | intro _ _ | dsimp +zetaDelta only | with_reducible refine Kept.mkUpd ?_ rfl rfl rfl

theorem reportPair_kept {s₀ : State} (s : State) (u : Nat) (a : MuRec) (b : MuRec) (hK : Kept s₀ s) : Kept s₀ (reportPair s u a b) := by
  unfold reportPair
  repeat' first | with_reducible assumption | with_reducible apply Kept.ite | with_reducible apply pushPub_kept
                  | with_reducible apply setMeas_kept | with_reducible apply muLimit_kept | with_reducible apply foldl_kept
                  | extract_lets | split | (intros; with_reducible assumption) | intro _ _ _ | intro _ _ | dsimp +zetaDelta only
                  | with_reducible refine Kept.mkUpd ?_ rfl rfl rfl

theorem muStart_kept {s₀ : State} (s : State) (u : Nat) (m : Meas) (a : MuRec) (hK : Kept s₀ s) : Kept s₀ (muStart s u m a) := by
  unfold muStart
  repeat' first | with_reducible assumption | with_reducible apply Kept.ite | with_reducible apply reportPair_kept
                  | with_reducible apply setMeas_kept | with_reducible apply muDisc_kept | with_reducible apply foldl_kept
                  | extract_lets | split | (intros; with_reducible assumption) | intro _ _ _ | intro _ _ | dsimp +zetaDelta only
                  | with_reducible refine Kept.mkUpd ?_ rfl rfl rfl

theorem reportAll_kept {s₀ : State} (s : State) (u : Nat) (b : MuRec) (l : List MuRec) (hK : Kept s₀ s) : Kept s₀ (reportAll s u b l)
    := by
  induction l generalizing s with
  | nil => exact hK
  | cons a r ih =>
    unfold reportAll
    split
    · exact hK
    · exact ih _ (reportPair_kept _ _ _ _ (setMeas_kept _ _ _ hK))

theorem muStop_kept {s₀ : State} (s : State) (u : Nat) (m : Meas) (b : MuRec) (hK : Kept s₀ s) : Kept s₀ (muStop s u m b) := by
  unfold muStop
  repeat' first | with_reducible assumption | with_reducible apply Kept.ite | with_reducible apply reportPair_kept
                  | with_reducible apply setMeas_kept | with_reducible apply muDisc_kept | with_reducible apply reportAll_kept
                  | with_reducible apply foldl_kept | extract_lets | split | (intros; with_reducible assumption) | intro _ _ _
                  | intro _ _ | dsimp +zetaDelta only | with_reducible refine Kept.mkUpd ?_ rfl rfl rfl

theorem countStamp_kept {s₀ : State} (s : State) (u : Nat) (m : Meas) (x : MuRec) (hK : Kept s₀ s) : Kept s₀ (countStamp s u m x) := by
  unfold countStamp
  repeat' first | with_reducible assumption | with_reducible apply Kept.ite | with_reducible apply muClose_kept
                  | with_reducible apply muLimit_kept | with_reducible apply setMeas_kept | with_reducible apply foldl_kept
                  | extract_lets | split | (intros; with_reducible assumption) | intro _ _ _ | intro _ _ | dsimp +zetaDelta only
                  | with_reducible refine Kept.mkUpd ?_ rfl rfl rfl

theorem refStamp_kept {s₀ : State} (s : State) (u : Nat) (m : Meas) (x : MuRec) (hK : Kept s₀ s) : Kept s₀ (refStamp s u m x) := by
  unfold refStamp
  repeat' first | with_reducible assumption | with_reducible apply Kept.ite | with_reducible apply setMeas_kept
                  | with_reducible apply foldl_kept | extract_lets | split | (intros; with_reducible assumption) | intro _ _ _
                  | intro _ _ | dsimp +zetaDelta only | with_reducible refine Kept.mkUpd ?_ rfl rfl rfl

theorem phaseStamp_kept {s₀ : State} (s : State) (u : Nat) (m : Meas) (x : MuRec) (hK : Kept s₀ s) : Kept s₀ (phaseStamp s u m x) := by
  unfold phaseStamp
  repeat' first | with_reducible assumption | with_reducible apply Kept.ite | with_reducible apply muDisc_kept
                  | with_reducible apply muLimit_kept | with_reducible apply setMeas_kept | with_reducible apply foldl_kept
                  | extract_lets | split | (intros; with_reducible assumption) | intro _ _ _ | intro _ _ | dsimp +zetaDelta only
                  | with_reducible refine Kept.mkUpd ?_ rfl rfl rfl

theorem periodStamp_kept {s₀ : State} (s : State) (u : Nat) (m : Meas) (x : MuRec) (hK : Kept s₀ s) : Kept s₀ (periodStamp s u m x) := by
  unfold periodStamp
  repeat' first | with_reducible assumption | with_reducible apply Kept.ite | with_reducible apply setMeas_kept
                  | with_reducible apply muLimit_kept | with_reducible apply foldl_kept | extract_lets | split
                  | (intros; with_reducible assumption) | intro _ _ _ | intro _ _ | dsimp +zetaDelta only
                  | with_reducible refine Kept.mkUpd ?_ rfl rfl rfl

theorem muStamp_kept {s₀ : State} (s : State) (u : Nat) (x : MuRec) (hK : Kept s₀ s) : Kept s₀ (muStamp s u x) := by
  unfold muStamp
  repeat' first | with_reducible assumption | with_reducible apply Kept.ite | with_reducible apply muGateOpenAt_kept
                  | with_reducible apply muClose_kept | with_reducible apply muStop_kept | with_reducible apply muStart_kept
                  | with_reducible apply refStamp_kept | with_reducible apply phaseStamp_kept
                  | with_reducible apply periodStamp_kept | with_reducible apply countStamp_kept | with_reducible apply foldl_kept
                  | extract_lets | split | (intros; with_reducible assumption) | intro _ _ _ | intro _ _ | dsimp +zetaDelta only
                  | with_reducible refine Kept.mkUpd ?_ rfl rfl rfl

theorem muAdvance_kept {s₀ : State} (s : State) (u : Nat) (t : Nat) (hK : Kept s₀ s) : Kept s₀ (muAdvance s u t) := by
  unfold muAdvance
  repeat' first | with_reducible assumption | with_reducible apply Kept.ite | with_reducible apply setMu_kept
                  | with_reducible apply foldl_kept | extract_lets | split | (intros; with_reducible assumption) | intro _ _ _
                  | intro _ _ | dsimp +zetaDelta only | with_reducible refine Kept.mkUpd ?_ rfl rfl rfl

theorem muEvent_kept {s₀ : State} (s : State) (u : Nat) (y2 : MuEv) (hK : Kept s₀ s) : Kept s₀ (muEvent s u y2) := by
  unfold muEvent
  repeat' first | with_reducible assumption | with_reducible apply Kept.ite | with_reducible apply muArmAt_kept
                  | with_reducible apply muGateOpenAt_kept | with_reducible apply muClose_kept
                  | with_reducible apply muHostCloseAt_kept | with_reducible apply foldl_kept | extract_lets | split
                  | (intros; with_reducible assumption) | intro _ _ _ | intro _ _ | dsimp +zetaDelta only
                  | with_reducible refine Kept.mkUpd ?_ rfl rfl rfl

theorem muProcessInput_kept {s₀ : State} (s : State) (u : Nat) (hK : Kept s₀ s) : Kept s₀ (muProcessInput s u) := by
  unfold muProcessInput
  repeat' first | with_reducible assumption | with_reducible apply Kept.ite | with_reducible apply muEvent_kept
                  | with_reducible apply muAdvance_kept | with_reducible apply setMu_kept | with_reducible apply muStamp_kept
                  | with_reducible apply foldl_kept | extract_lets | split | (intros; with_reducible assumption) | intro _ _ _
                  | intro _ _ | dsimp +zetaDelta only | with_reducible refine Kept.mkUpd ?_ rfl rfl rfl

theorem muGateLenExpiry_kept {s₀ : State} (s : State) (u : Nat) (hK : Kept s₀ s) : Kept s₀ (muGateLenExpiry s u) := by
  unfold muGateLenExpiry
  repeat' first | with_reducible assumption | with_reducible apply Kept.ite | with_reducible apply muClose_kept
                  | with_reducible apply muAdvance_kept | with_reducible apply foldl_kept | extract_lets | split
                  | (intros; with_reducible assumption) | intro _ _ _ | intro _ _ | dsimp +zetaDelta only
                  | with_reducible refine Kept.mkUpd ?_ rfl rfl rfl

theorem muEndBy_kept {s₀ : State} (s : State) (u : Nat) (t : Nat) (hK : Kept s₀ s) : Kept s₀ (muEndBy s u t) := by
  unfold muEndBy
  repeat' first | with_reducible assumption | with_reducible apply Kept.ite | with_reducible apply muClose_kept
                  | with_reducible apply muAdvance_kept | with_reducible apply foldl_kept | extract_lets | split
                  | (intros; with_reducible assumption) | intro _ _ _ | intro _ _ | dsimp +zetaDelta only
                  | with_reducible refine Kept.mkUpd ?_ rfl rfl rfl

theorem muForceEv_kept {s₀ : State} (s : State) (u : Nat) (e : MuEv) (hK : Kept s₀ s) : Kept s₀ (muForceEv s u e) := by
  unfold muForceEv
  repeat' first | with_reducible assumption | with_reducible apply Kept.ite | with_reducible apply muEndBy_kept
                  | with_reducible apply setMu_kept | with_reducible apply muEvent_kept | with_reducible apply muAdvance_kept
                  | with_reducible apply foldl_kept | extract_lets | split | (intros; with_reducible assumption) | intro _ _ _
                  | intro _ _ | dsimp +zetaDelta only | with_reducible refine Kept.mkUpd ?_ rfl rfl rfl

theorem muForceGate_kept {s₀ : State} (s : State) (u : Nat) (x : MuRec) (hK : Kept s₀ s) : Kept s₀ (muForceGate s u x) := by
  unfold muForceGate
  repeat' first | with_reducible assumption | with_reducible apply Kept.ite | with_reducible apply muEndBy_kept
                  | with_reducible apply setMu_kept | with_reducible apply muStamp_kept | with_reducible apply muAdvance_kept
                  | with_reducible apply foldl_kept | extract_lets | split | (intros; with_reducible assumption) | intro _ _ _
                  | intro _ _ | dsimp +zetaDelta only | with_reducible refine Kept.mkUpd ?_ rfl rfl rfl

theorem muEvsBelow_kept {s₀ : State} (s : State) (u key n : Nat) (hK : Kept s₀ s) : Kept s₀ (muEvsBelow s u key n) := by
  induction n generalizing s with
  | zero => exact hK
  | succ n ih =>
    unfold muEvsBelow
    split
    · exact ih _ (Kept.ite (muForceGate_kept _ _ _ hK) (muForceEv_kept _ _ _ hK))
    · exact ih _ (muForceEv_kept _ _ _ hK)
    · exact ih _ (muForceGate_kept _ _ _ hK)
    · exact hK

theorem muTake_kept {s₀ : State} (s : State) (u : Nat) (x : MuRec) (hK : Kept s₀ s) : Kept s₀ (muTake s u x) := by
  unfold muTake
  extract_lets U mine
  clear_value mine
  split
  · exact setMu_kept _ _ _ hK
  · split
    · exact hK
    · exact muStamp_kept _ _ _ (muFlag_kept _ _ _ (muAdvance_kept _ _ _ (muEndBy_kept _ _ _ (muEvsBelow_kept _ _ _ _ (sts_kept _ _
        (muFlag_kept _ _ _ (setMu_kept _ _ _ hK)))))))

theorem muLoss_kept {s₀ : State} (s : State) (u : Nat) (w : W64) (hK : Kept s₀ s) : Kept s₀ (muLoss s u w) := by
  unfold muLoss
  repeat' first | with_reducible assumption | with_reducible apply Kept.ite | with_reducible apply setMeas_kept
                  | with_reducible apply foldl_kept | extract_lets | split | (intros; with_reducible assumption) | intro _ _ _
                  | intro _ _ | dsimp +zetaDelta only | with_reducible refine Kept.mkUpd ?_ rfl rfl rfl

theorem muRecord_kept {s₀ : State} (s : State) (u : Nat) (roles : List (Nat × Nat)) (w : W64) (hK : Kept s₀ s) : Kept s₀ (muRecord s
    u roles w) := by
  unfold muRecord
  repeat' first | with_reducible assumption | with_reducible apply Kept.ite | with_reducible apply muTake_kept
                  | with_reducible apply muLoss_kept | with_reducible apply foldl_kept | extract_lets | split
                  | (intros; with_reducible assumption) | intro _ _ _ | intro _ _ | dsimp +zetaDelta only
                  | with_reducible refine Kept.mkUpd ?_ rfl rfl rfl

theorem muTile_kept {s₀ : State} (s : State) (t : Tile) (u : Nat) (hK : Kept s₀ s) : Kept s₀ (muTile s t u) := by
  unfold muTile
  repeat' first | with_reducible assumption | with_reducible apply Kept.ite | with_reducible apply muFlag_kept
                  | with_reducible apply sts_kept | with_reducible apply inc_kept | with_reducible apply muRecord_kept
                  | with_reducible apply foldl_kept | extract_lets | split | (intros; with_reducible assumption) | intro _ _ _
                  | intro _ _ | dsimp +zetaDelta only | with_reducible refine Kept.mkUpd ?_ rfl rfl rfl

theorem muTileArrival_kept {s₀ : State} (s : State) (hK : Kept s₀ s) : Kept s₀ (muTileArrival s) := by
  unfold muTileArrival
  repeat' first | with_reducible assumption | with_reducible apply Kept.ite | with_reducible apply forEach_kept
                  | with_reducible apply muTile_kept | with_reducible apply foldl_kept | extract_lets | split
                  | (intros; with_reducible assumption) | intro _ _ _ | intro _ _ | dsimp +zetaDelta only
                  | with_reducible refine Kept.mkUpd ?_ rfl rfl rfl

theorem muPost_kept {s₀ : State} (s : State) (u : Nat) (e : MuEv) (hK : Kept s₀ s) : Kept s₀ (muPost s u e) := by
  unfold muPost
  repeat' first | with_reducible assumption | with_reducible apply Kept.ite | with_reducible apply setMu_kept
                  | with_reducible apply foldl_kept | extract_lets | split | (intros; with_reducible assumption) | intro _ _ _
                  | intro _ _ | dsimp +zetaDelta only | with_reducible refine Kept.mkUpd ?_ rfl rfl rfl

theorem muPostAt_kept {s₀ : State} (s : State) (u : Nat) (t : Nat) (e : Nat → Bool → MuEv) (hK : Kept s₀ s) : Kept s₀ (muPostAt s u t
    e) := by
  unfold muPostAt
  repeat' first | with_reducible assumption | with_reducible apply Kept.ite | with_reducible apply muPost_kept
                  | with_reducible apply sts_kept | with_reducible apply foldl_kept | extract_lets | split
                  | (intros; with_reducible assumption) | intro _ _ _ | intro _ _ | dsimp +zetaDelta only
                  | with_reducible refine Kept.mkUpd ?_ rfl rfl rfl

theorem gateToMus_kept {s₀ : State} (s : State) (id : Nat) (open_ : Bool) (t : Nat) (hK : Kept s₀ s) : Kept s₀ (gateToMus s id open_
    t) := by
  unfold gateToMus
  repeat' first | with_reducible assumption | with_reducible apply Kept.ite | with_reducible apply forEach_kept
                  | with_reducible apply muPostAt_kept | with_reducible apply foldl_kept | extract_lets | split
                  | (intros; with_reducible assumption) | intro _ _ _ | intro _ _ | dsimp +zetaDelta only
                  | with_reducible refine Kept.mkUpd ?_ rfl rfl rfl

theorem muArm_kept {s₀ : State} (s : State) (a : Access) (u : Nat) (v : W32) (hK : Kept s₀ s) : Kept s₀ (muArm s a u v) := by
  unfold muArm
  repeat' first | with_reducible assumption | with_reducible apply Kept.ite | with_reducible apply cmdWrite_kept
                  | with_reducible apply muPost_kept | with_reducible apply foldl_kept | extract_lets | split
                  | (intros; with_reducible assumption) | intro _ _ _ | intro _ _ | dsimp +zetaDelta only
                  | with_reducible refine Kept.mkUpd ?_ rfl rfl rfl

theorem muCloseCmd_kept {s₀ : State} (s : State) (a : Access) (u : Nat) (v : W32) (hK : Kept s₀ s) : Kept s₀ (muCloseCmd s a u v) := by
  unfold muCloseCmd
  repeat' first | with_reducible assumption | with_reducible apply Kept.ite | with_reducible apply cmdWrite_kept
                  | with_reducible apply muPost_kept | with_reducible apply foldl_kept | extract_lets | split
                  | (intros; with_reducible assumption) | intro _ _ _ | intro _ _ | dsimp +zetaDelta only
                  | with_reducible refine Kept.mkUpd ?_ rfl rfl rfl

theorem muDisarmCmd_kept {s₀ : State} (s : State) (a : Access) (u : Nat) (v : W32) (hK : Kept s₀ s) : Kept s₀ (muDisarmCmd s a u v) := by
  unfold muDisarmCmd
  repeat' first | with_reducible assumption | with_reducible apply Kept.ite | with_reducible apply cmdWrite_kept
                  | with_reducible apply muDisarm_kept | with_reducible apply foldl_kept | extract_lets | split
                  | (intros; with_reducible assumption) | intro _ _ _ | intro _ _ | dsimp +zetaDelta only
                  | with_reducible refine Kept.mkUpd ?_ rfl rfl rfl

theorem muarmArrival_kept {s₀ : State} (s : State) (u : Nat) (hK : Kept s₀ s) : Kept s₀ (muarmArrival s u) := by
  unfold muarmArrival
  repeat' first | with_reducible assumption | with_reducible apply Kept.ite | with_reducible apply muPostAt_kept
                  | with_reducible apply foldl_kept | extract_lets | split | (intros; with_reducible assumption) | intro _ _ _
                  | intro _ _ | dsimp +zetaDelta only | with_reducible refine Kept.mkUpd ?_ rfl rfl rfl

theorem applyMu_kept {s₀ : State} (s : State) (u : Nat) (hK : Kept s₀ s) : Kept s₀ (applyMu s u) := by
  unfold applyMu
  repeat' first | with_reducible assumption | with_reducible apply Kept.ite | with_reducible apply applyRegs_kept
                  | with_reducible apply muDisarm_kept | with_reducible apply setMu_kept | with_reducible apply foldl_kept
                  | extract_lets | split | (intros; with_reducible assumption) | intro _ _ _ | intro _ _ | dsimp +zetaDelta only
                  | with_reducible refine Kept.mkUpd ?_ rfl rfl rfl

theorem bankNote_kept {s₀ : State} (s : State) (b : Nat) (hK : Kept s₀ s) : Kept s₀ (bankNote s b) := by
  unfold bankNote
  repeat' first | with_reducible assumption | with_reducible apply Kept.ite | with_reducible apply setFld_kept
                  | with_reducible apply foldl_kept | extract_lets | split | (intros; with_reducible assumption) | intro _ _ _
                  | intro _ _ | dsimp +zetaDelta only | with_reducible refine Kept.mkUpd ?_ rfl rfl rfl

theorem bankSeal_kept {s₀ : State} (s : State) (b : Nat) (hK : Kept s₀ s) : Kept s₀ (bankSeal s b) := by
  unfold bankSeal
  repeat' first | with_reducible assumption | with_reducible apply Kept.ite | with_reducible apply inc_kept
                  | with_reducible apply setBank_kept | with_reducible apply bankNote_kept | with_reducible apply bump_kept
                  | with_reducible apply setEmitted_kept | with_reducible apply issueTile_kept | with_reducible apply foldl_kept
                  | extract_lets | split | (intros; with_reducible assumption) | intro _ _ _ | intro _ _ | dsimp +zetaDelta only
                  | with_reducible refine Kept.mkUpd ?_ rfl rfl rfl

theorem bankFull_kept {s₀ : State} (s : State) (b n : Nat) (hK : Kept s₀ s) : Kept s₀ (bankFull s b n) := by
  induction n generalizing s with
  | zero => exact hK
  | succ k ih => exact Kept.ite (ih _ (bankSeal_kept _ _ hK)) hK

theorem bankPut_kept {s₀ : State} (s : State) (b : Nat) (ws : List W64) (hK : Kept s₀ s) : Kept s₀ (bankPut s b ws) := by
  unfold bankPut
  repeat' first | with_reducible assumption | with_reducible apply Kept.ite | with_reducible apply setBank_kept
                  | with_reducible apply bankFull_kept | with_reducible apply bankNote_kept | with_reducible apply foldl_kept
                  | extract_lets | split | (intros; with_reducible assumption) | intro _ _ _ | intro _ _ | dsimp +zetaDelta only
                  | with_reducible refine Kept.mkUpd ?_ rfl rfl rfl

theorem bankEmit_kept {s₀ : State} (s : State) (b : Nat) (ws : List W64) (hK : Kept s₀ s) : Kept s₀ (bankEmit s b ws) := by
  unfold bankEmit
  repeat' first | with_reducible assumption | with_reducible apply Kept.ite | with_reducible apply addCnt_kept
                  | with_reducible apply setBank_kept | with_reducible apply bankPut_kept | with_reducible apply foldl_kept
                  | extract_lets | split | (intros; with_reducible assumption) | intro _ _ _ | intro _ _ | dsimp +zetaDelta only
                  | with_reducible refine Kept.mkUpd ?_ rfl rfl rfl

theorem bankMark_kept {s₀ : State} (s : State) (b : Nat) (w : W64) (hK : Kept s₀ s) : Kept s₀ (bankMark s b w) := by
  unfold bankMark
  repeat' first | with_reducible assumption | with_reducible apply Kept.ite | with_reducible apply bankPut_kept
                  | with_reducible apply setBank_kept | with_reducible apply foldl_kept | extract_lets | split
                  | (intros; with_reducible assumption) | intro _ _ _ | intro _ _ | dsimp +zetaDelta only
                  | with_reducible refine Kept.mkUpd ?_ rfl rfl rfl

theorem muBankHoldTimeout_kept {s₀ : State} (s : State) (b : Nat) (hK : Kept s₀ s) : Kept s₀ (muBankHoldTimeout s b) := by
  unfold muBankHoldTimeout
  repeat' first | with_reducible assumption | with_reducible apply Kept.ite | with_reducible apply bankSeal_kept
                  | with_reducible apply foldl_kept | extract_lets | split | (intros; with_reducible assumption) | intro _ _ _
                  | intro _ _ | dsimp +zetaDelta only | with_reducible refine Kept.mkUpd ?_ rfl rfl rfl

theorem releaseBank_kept {s₀ : State} (s : State) (b : Nat) (hK : Kept s₀ s) : Kept s₀ (releaseBank s b) := by
  unfold releaseBank
  repeat' first | with_reducible assumption | with_reducible apply Kept.ite | with_reducible apply bankFull_kept
                  | with_reducible apply bankSeal_kept | with_reducible apply foldl_kept | extract_lets | split
                  | (intros; with_reducible assumption) | intro _ _ _ | intro _ _ | dsimp +zetaDelta only
                  | with_reducible refine Kept.mkUpd ?_ rfl rfl rfl

theorem writeSlots_kept {s₀ : State} (s : State) (u : Nat) (seq : Nat) (sl : List Nat) (hK : Kept s₀ s) : Kept s₀ (writeSlots s u seq
    sl) := by
  unfold writeSlots
  repeat' first | with_reducible assumption | with_reducible apply Kept.ite | with_reducible apply forEach_kept
                  | with_reducible apply setReg_kept | with_reducible apply foldl_kept | extract_lets | split
                  | (intros; with_reducible assumption) | intro _ _ _ | intro _ _ | dsimp +zetaDelta only
                  | with_reducible refine Kept.mkUpd ?_ rfl rfl rfl

theorem muPublish_kept {s₀ : State} (s : State) (u : Nat) (hK : Kept s₀ s) : Kept s₀ (muPublish s u) := by
  unfold muPublish
  repeat' first | with_reducible assumption | with_reducible apply Kept.ite | with_reducible apply setMu_kept
                  | with_reducible apply inc_kept | with_reducible apply sts_kept | with_reducible apply writeSlots_kept
                  | with_reducible apply bankEmit_kept | with_reducible apply muNote_kept | with_reducible apply foldl_kept
                  | extract_lets | split | (intros; with_reducible assumption) | intro _ _ _ | intro _ _ | dsimp +zetaDelta only
                  | with_reducible refine Kept.mkUpd ?_ rfl rfl rfl

/-! ## Fabric -/

theorem copyT_kept {s₀ : State} (s : State) (c : Nat) (hK : Kept s₀ s) : Kept s₀ (copyT s c).2 := by
  unfold copyT
  repeat' first | with_reducible assumption | with_reducible apply takeFree_kept | with_reducible apply setCluster_kept
                  | with_reducible refine takeFree_keq (by with_reducible assumption) ?_ | with_reducible apply foldl_kept
                  | extract_lets | split | (intros; with_reducible assumption) | intro _ _ _ | intro _ _ | dsimp +zetaDelta only
                  | with_reducible refine Kept.mkUpd ?_ rfl rfl rfl
theorem copyT_keq {s₀ : State} {t₁ : State} {o₁ : Nat}  {s : State} {c : Nat} (hE : (copyT s c) = (o₁, t₁)) (hK : Kept s₀ s) : Kept
    s₀ t₁ := by
  have := copyT_kept s c hK
  rw [hE] at this; exact this

theorem clusterSeal_kept {s₀ : State} (s : State) (c : Nat) (hK : Kept s₀ s) : Kept s₀ (clusterSeal s c) := by
  unfold clusterSeal
  repeat' first | with_reducible assumption | with_reducible apply Kept.ite | with_reducible apply inc_kept
                  | with_reducible apply setCluster_kept | with_reducible apply bump_kept | with_reducible apply issueTile_kept
                  | with_reducible apply setEmitted_kept | with_reducible apply foldl_kept | extract_lets | split
                  | (intros; with_reducible assumption) | intro _ _ _ | intro _ _ | dsimp +zetaDelta only
                  | with_reducible refine Kept.mkUpd ?_ rfl rfl rfl

theorem clusterHoldTimeout_kept {s₀ : State} (s : State) (c : Nat) (hK : Kept s₀ s) : Kept s₀ (clusterHoldTimeout s c) := by
  unfold clusterHoldTimeout
  repeat' first | with_reducible assumption | with_reducible apply Kept.ite | with_reducible apply clusterSeal_kept
                  | with_reducible apply foldl_kept | extract_lets | split | (intros; with_reducible assumption) | intro _ _ _
                  | intro _ _ | dsimp +zetaDelta only | with_reducible refine Kept.mkUpd ?_ rfl rfl rfl

theorem clusterPlace_kept {s₀ : State} (s : State) (c : Nat) (w : W64) (hK : Kept s₀ s) : Kept s₀ (clusterPlace s c w) := by
  unfold clusterPlace
  repeat' first | with_reducible assumption | with_reducible apply Kept.ite | with_reducible apply setCluster_kept
                  | with_reducible apply clusterSeal_kept | with_reducible apply foldl_kept | extract_lets | split
                  | (intros; with_reducible assumption) | intro _ _ _ | intro _ _ | dsimp +zetaDelta only
                  | with_reducible refine Kept.mkUpd ?_ rfl rfl rfl

theorem placeResult_kept {s₀ : State} (s : State) (c : Nat) (e : Nat) (hK : Kept s₀ s) : Kept s₀ (placeResult s c e) := by
  unfold placeResult
  repeat' first | with_reducible assumption | with_reducible apply Kept.ite | with_reducible apply setCluster_kept
                  | with_reducible apply setEngine_kept | with_reducible apply clusterPlace_kept | with_reducible apply foldl_kept
                  | extract_lets | split | (intros; with_reducible assumption) | intro _ _ _ | intro _ _ | dsimp +zetaDelta only
                  | with_reducible refine Kept.mkUpd ?_ rfl rfl rfl

theorem placeWord_kept {s₀ : State} (s : State) (c : Nat) (w : W64) (hK : Kept s₀ s) : Kept s₀ (placeWord s c w) := by
  unfold placeWord
  repeat' first | with_reducible assumption | with_reducible apply Kept.ite | with_reducible apply setCluster_kept
                  | with_reducible apply clusterPlace_kept | with_reducible apply foldl_kept | extract_lets | split
                  | (intros; with_reducible assumption) | intro _ _ _ | intro _ _ | dsimp +zetaDelta only
                  | with_reducible refine Kept.mkUpd ?_ rfl rfl rfl

theorem resultTurn_kept {s₀ : State} (s : State) (c : Nat) (hK : Kept s₀ s) : Kept s₀ (resultTurn s c) := by
  unfold resultTurn
  repeat' first | with_reducible assumption | with_reducible apply Kept.ite | with_reducible apply placeWord_kept
                  | with_reducible apply setCluster_kept | with_reducible apply placeResult_kept
                  | with_reducible apply clusterPlace_kept | with_reducible apply foldl_kept | extract_lets | split
                  | (intros; with_reducible assumption) | intro _ _ _ | intro _ _ | dsimp +zetaDelta only
                  | with_reducible refine Kept.mkUpd ?_ rfl rfl rfl

theorem clusterResultTake_kept {s₀ : State} (s : State) (c : Nat) (hK : Kept s₀ s) : Kept s₀ (clusterResultTake s c) := by
  unfold clusterResultTake
  repeat' first | with_reducible assumption | with_reducible apply Kept.ite | with_reducible apply resultTurn_kept
                  | with_reducible apply foldl_kept | extract_lets | split | (intros; with_reducible assumption) | intro _ _ _
                  | intro _ _ | dsimp +zetaDelta only | with_reducible refine Kept.mkUpd ?_ rfl rfl rfl

theorem releaseCluster_kept {s₀ : State} (s : State) (c : Nat) (hK : Kept s₀ s) : Kept s₀ (releaseCluster s c) := by
  unfold releaseCluster
  repeat' first | with_reducible assumption | with_reducible apply Kept.ite | with_reducible apply clusterSeal_kept
                  | with_reducible apply setCluster_kept | with_reducible apply foldl_kept | extract_lets | split
                  | (intros; with_reducible assumption) | intro _ _ _ | intro _ _ | dsimp +zetaDelta only
                  | with_reducible refine Kept.mkUpd ?_ rfl rfl rfl

theorem clusterMark_kept {s₀ : State} (s : State) (c : Nat) (w : W64) (hK : Kept s₀ s) : Kept s₀ (clusterMark s c w) := by
  unfold clusterMark
  repeat' first | with_reducible assumption | with_reducible apply Kept.ite | with_reducible apply setCluster_kept
                  | with_reducible apply foldl_kept | extract_lets | split | (intros; with_reducible assumption) | intro _ _ _
                  | intro _ _ | dsimp +zetaDelta only | with_reducible refine Kept.mkUpd ?_ rfl rfl rfl

theorem anchorMark_kept {s₀ : State} (s : State) (w : W64) (hK : Kept s₀ s) : Kept s₀ (anchorMark s w) := by
  unfold anchorMark
  repeat' first | with_reducible assumption | with_reducible apply Kept.ite | with_reducible apply forEach_kept
                  | with_reducible apply groupMark_kept | with_reducible apply clusterMark_kept
                  | with_reducible apply bankMark_kept | with_reducible apply foldl_kept | extract_lets | split
                  | (intros; with_reducible assumption) | intro _ _ _ | intro _ _ | dsimp +zetaDelta only
                  | with_reducible refine Kept.mkUpd ?_ rfl rfl rfl

theorem releaseSource_kept {s₀ : State} (s : State) (code : Nat) (hK : Kept s₀ s) : Kept s₀ (releaseSource s code) := by
  unfold releaseSource
  repeat' first | with_reducible assumption | with_reducible apply Kept.ite | with_reducible apply releaseGroup_kept
                  | with_reducible apply releaseCluster_kept | with_reducible apply releaseBank_kept
                  | with_reducible apply foldl_kept | extract_lets | split | (intros; with_reducible assumption) | intro _ _ _
                  | intro _ _ | dsimp +zetaDelta only | with_reducible refine Kept.mkUpd ?_ rfl rfl rfl

theorem fabricCreditEarn_kept {s₀ : State} (s : State) (src : Nat) (hK : Kept s₀ s) : Kept s₀ (fabricCreditEarn s src) := by
  unfold fabricCreditEarn
  repeat' first | with_reducible assumption | with_reducible apply Kept.ite | with_reducible apply releaseSource_kept
                  | with_reducible apply setSource_kept | with_reducible apply foldl_kept | extract_lets | split
                  | (intros; with_reducible assumption) | intro _ _ _ | intro _ _ | dsimp +zetaDelta only
                  | with_reducible refine Kept.mkUpd ?_ rfl rfl rfl

theorem fabricEntry_kept {s₀ : State} (s : State) (src : Nat) (hK : Kept s₀ s) : Kept s₀ (fabricEntry s src) := by
  unfold fabricEntry
  repeat' first | with_reducible assumption | with_reducible apply Kept.ite | with_reducible apply setSource_kept
                  | with_reducible apply foldl_kept | extract_lets | split | (intros; with_reducible assumption) | intro _ _ _
                  | intro _ _ | dsimp +zetaDelta only | with_reducible refine Kept.mkUpd ?_ rfl rfl rfl

theorem noteWait_kept {s₀ : State} (s : State) (code : Nat) (w : Nat) (hK : Kept s₀ s) : Kept s₀ (noteWait s code w) := by
  unfold noteWait
  repeat' first | with_reducible assumption | with_reducible apply Kept.ite | with_reducible apply inc_kept
                  | with_reducible apply setFld_kept | with_reducible apply foldl_kept | extract_lets | split
                  | (intros; with_reducible assumption) | intro _ _ _ | intro _ _ | dsimp +zetaDelta only
                  | with_reducible refine Kept.mkUpd ?_ rfl rfl rfl

theorem grantOne_kept {s₀ : State} (s : State) (hK : Kept s₀ s) : Kept s₀ (grantOne s) := by
  unfold grantOne
  repeat' first | with_reducible assumption | with_reducible apply Kept.ite | with_reducible apply noteWait_kept
                  | with_reducible apply setSource_kept | with_reducible apply setPair64_kept
                  | with_reducible apply releaseSource_kept | with_reducible apply foldl_kept | extract_lets | split
                  | (intros; with_reducible assumption) | intro _ _ _ | intro _ _ | dsimp +zetaDelta only
                  | with_reducible refine Kept.mkUpd ?_ rfl rfl rfl

theorem fabricGrant_kept {s₀ : State} (s : State) (hK : Kept s₀ s) : Kept s₀ (fabricGrant s) := by
  unfold fabricGrant
  repeat' first | with_reducible assumption | with_reducible apply Kept.ite | with_reducible apply grantOne_kept
                  | with_reducible apply foldl_kept | extract_lets | split | (intros; with_reducible assumption) | intro _ _ _
                  | intro _ _ | dsimp +zetaDelta only | with_reducible refine Kept.mkUpd ?_ rfl rfl rfl

theorem clusterEvent_kept {s₀ : State} (s : State) (c : Nat) (st : Fld) (en : Fld) (cnt : Fld) (ty : Nat) (hK : Kept s₀ s) : Kept s₀
    (clusterEvent s c st en cnt ty) := by
  unfold clusterEvent
  repeat' first | with_reducible assumption | with_reducible apply Kept.ite | with_reducible apply sts_kept
                  | with_reducible apply post_kept | with_reducible apply foldl_kept | extract_lets | split
                  | (intros; with_reducible assumption) | intro _ _ _ | intro _ _ | dsimp +zetaDelta only
                  | with_reducible refine Kept.mkUpd ?_ rfl rfl rfl

theorem recomputeSets_kept {s₀ : State} (s : State) (c : Nat) (hK : Kept s₀ s) : Kept s₀ (recomputeSets s c) := by
  unfold recomputeSets
  repeat' first | with_reducible assumption | with_reducible apply Kept.ite | with_reducible apply setReg_kept
                  | with_reducible apply setFld_kept | with_reducible apply foldl_kept | extract_lets | split
                  | (intros; with_reducible assumption) | intro _ _ _ | intro _ _ | dsimp +zetaDelta only
                  | with_reducible refine Kept.mkUpd ?_ rfl rfl rfl

theorem portLost_kept {s₀ : State} (s : State) (e : Nat) (p : Nat) (n : Nat) (hK : Kept s₀ s) : Kept s₀ (portLost s e p n) := by
  unfold portLost
  repeat' first | with_reducible assumption | with_reducible apply Kept.ite | with_reducible apply setEngine_kept
                  | with_reducible apply stsBit_kept | with_reducible apply addCnt_kept | with_reducible apply foldl_kept
                  | extract_lets | split | (intros; with_reducible assumption) | intro _ _ _ | intro _ _ | dsimp +zetaDelta only
                  | with_reducible refine Kept.mkUpd ?_ rfl rfl rfl

theorem inputDrop_kept {s₀ : State} (s : State) (c : Nat) (code : Nat) (t : Tile) (hK : Kept s₀ s) : Kept s₀ (inputDrop s c code t) := by
  unfold inputDrop
  repeat' first | with_reducible assumption | with_reducible apply Kept.ite | with_reducible apply inc_kept
                  | with_reducible apply portLost_kept | with_reducible apply clusterEvent_kept | with_reducible apply foldl_kept
                  | extract_lets | split | (intros; with_reducible assumption) | intro _ _ _ | intro _ _ | dsimp +zetaDelta only
                  | with_reducible refine Kept.mkUpd ?_ rfl rfl rfl

theorem noteInput_kept {s₀ : State} (s : State) (c : Nat) (hK : Kept s₀ s) : Kept s₀ (noteInput s c) := by
  unfold noteInput
  repeat' first | with_reducible assumption | with_reducible apply Kept.ite | with_reducible apply setFld_kept
                  | with_reducible apply foldl_kept | extract_lets | split | (intros; with_reducible assumption) | intro _ _ _
                  | intro _ _ | dsimp +zetaDelta only | with_reducible refine Kept.mkUpd ?_ rfl rfl rfl

theorem clusterArrive_kept {s₀ : State} (s : State) (c : Nat) (code : Nat) (t : Tile) (hK : Kept s₀ s) : Kept s₀ (clusterArrive s c
    code t) := by
  unfold clusterArrive
  repeat' first | with_reducible assumption | with_reducible apply Kept.ite | with_reducible apply inputDrop_kept
                  | with_reducible apply noteInput_kept | with_reducible apply setCluster_kept | with_reducible apply sts_kept
                  | with_reducible apply inc_kept | with_reducible apply foldl_kept | extract_lets | split
                  | (intros; with_reducible assumption) | intro _ _ _ | intro _ _ | dsimp +zetaDelta only
                  | with_reducible refine Kept.mkUpd ?_ rfl rfl rfl

theorem fabricDelivery_kept {s₀ : State} (s : State) (hK : Kept s₀ s) : Kept s₀ (fabricDelivery s) := by
  unfold fabricDelivery
  repeat' first | with_reducible assumption | with_reducible apply Kept.ite | with_reducible apply forEach_kept
                  | with_reducible apply clusterArrive_kept | with_reducible apply queueTile_kept | with_reducible apply foldl_kept
                  | extract_lets | split | (intros; with_reducible assumption) | intro _ _ _ | intro _ _ | dsimp +zetaDelta only
                  | with_reducible refine Kept.mkUpd ?_ rfl rfl rfl

theorem portPush_kept {s₀ : State} (s : State) (e : Nat) (p : Nat) (w : W64) (hK : Kept s₀ s) : Kept s₀ (portPush s e p w) := by
  unfold portPush
  repeat' first | with_reducible assumption | with_reducible apply Kept.ite | with_reducible apply setEngine_kept
                  | with_reducible apply clusterEvent_kept | with_reducible apply portLost_kept | with_reducible apply foldl_kept
                  | extract_lets | split | (intros; with_reducible assumption) | intro _ _ _ | intro _ _ | dsimp +zetaDelta only
                  | with_reducible refine Kept.mkUpd ?_ rfl rfl rfl

theorem portTake_kept {s₀ : State} (s : State) (e : Nat) (p : Nat) (t : Tile) (hK : Kept s₀ s) : Kept s₀ (portTake s e p t) := by
  unfold portTake
  repeat' first | with_reducible assumption | with_reducible apply Kept.ite | with_reducible apply portPush_kept
                  | with_reducible apply foldl_kept | extract_lets | split | (intros; with_reducible assumption) | intro _ _ _
                  | intro _ _ | dsimp +zetaDelta only | with_reducible refine Kept.mkUpd ?_ rfl rfl rfl

theorem clusterUnpack_kept {s₀ : State} (s : State) (c : Nat) (hK : Kept s₀ s) : Kept s₀ (clusterUnpack s c) := by
  unfold clusterUnpack
  repeat' first | with_reducible assumption | with_reducible apply Kept.ite | with_reducible apply setCluster_kept
                  | with_reducible apply clusterEvent_kept | with_reducible apply inc_kept | with_reducible apply portTake_kept
                  | with_reducible apply foldl_kept | extract_lets | split | (intros; with_reducible assumption) | intro _ _ _
                  | intro _ _ | dsimp +zetaDelta only | with_reducible refine Kept.mkUpd ?_ rfl rfl rfl

theorem ccInPeakClr_kept {s₀ : State} (s : State) (a : Access) (c : Nat) (v : W32) (hK : Kept s₀ s) : Kept s₀ (ccInPeakClr s a c v) := by
  unfold ccInPeakClr
  repeat' first | with_reducible assumption | with_reducible apply Kept.ite | with_reducible apply cmdWrite_kept
                  | with_reducible apply setFld_kept | with_reducible apply foldl_kept | extract_lets | split
                  | (intros; with_reducible assumption) | intro _ _ _ | intro _ _ | dsimp +zetaDelta only
                  | with_reducible refine Kept.mkUpd ?_ rfl rfl rfl

theorem ccFabWaitMaxClr_kept {s₀ : State} (s : State) (a : Access) (v : W32) (hK : Kept s₀ s) : Kept s₀ (ccFabWaitMaxClr s a v) := by
  unfold ccFabWaitMaxClr
  repeat' first | with_reducible assumption | with_reducible apply Kept.ite | with_reducible apply cmdWrite_kept
                  | with_reducible apply setFld_kept | with_reducible apply foldl_kept | extract_lets | split
                  | (intros; with_reducible assumption) | intro _ _ _ | intro _ _ | dsimp +zetaDelta only
                  | with_reducible refine Kept.mkUpd ?_ rfl rfl rfl

theorem mailDiscard_kept {s₀ : State} (s : State) (c : Nat) (n : Nat) (hK : Kept s₀ s) : Kept s₀ (mailDiscard s c n) := by
  unfold mailDiscard
  repeat' first | with_reducible assumption | with_reducible apply Kept.ite | with_reducible apply clusterEvent_kept
                  | with_reducible apply addCnt_kept | with_reducible apply foldl_kept | extract_lets | split
                  | (intros; with_reducible assumption) | intro _ _ _ | intro _ _ | dsimp +zetaDelta only
                  | with_reducible refine Kept.mkUpd ?_ rfl rfl rfl

theorem mailPost_kept {s₀ : State} (s : State) (dst : Nat) (src : Nat) (cyc : Nat) (payload : W64) (hK : Kept s₀ s) : Kept s₀
    (mailPost s dst src cyc payload).1 := by
  unfold mailPost
  repeat' first | with_reducible assumption | with_reducible apply mailDiscard_kept | with_reducible apply setCluster_kept
                  | with_reducible apply foldl_kept | extract_lets | split | (intros; with_reducible assumption) | intro _ _ _
                  | intro _ _ | dsimp +zetaDelta only | with_reducible refine Kept.mkUpd ?_ rfl rfl rfl
theorem mailPost_keq {s₀ : State} {t₁ : State} {o₁ : Bool}  {s : State} {dst : Nat} {src : Nat} {cyc : Nat} {payload : W64} (hE :
    (mailPost s dst src cyc payload) = (t₁, o₁)) (hK : Kept s₀ s) : Kept s₀ t₁ := by
  have := mailPost_kept s dst src cyc payload hK
  rw [hE] at this; exact this

theorem setCring_kept {s₀ : State} (s : State) (r : Nat) (x : CRing) (hK : Kept s₀ s) : Kept s₀ (setCring s r x) := by
  unfold setCring
  repeat' first | with_reducible assumption | with_reducible apply Kept.ite | with_reducible apply foldl_kept | extract_lets
                  | split | (intros; with_reducible assumption) | intro _ _ _ | intro _ _ | dsimp +zetaDelta only
                  | with_reducible refine Kept.mkUpd ?_ rfl rfl rfl

theorem setDrops_kept {s₀ : State} (s : State) (r : Nat) (code : Nat) (n : Nat) (hK : Kept s₀ s) : Kept s₀ (setDrops s r code n) := by
  unfold setDrops
  repeat' first | with_reducible assumption | with_reducible apply Kept.ite | with_reducible apply setCring_kept
                  | with_reducible apply foldl_kept | extract_lets | split | (intros; with_reducible assumption) | intro _ _ _
                  | intro _ _ | dsimp +zetaDelta only | with_reducible refine Kept.mkUpd ?_ rfl rfl rfl

theorem countDrop_kept {s₀ : State} (s : State) (r : Nat) (code : Nat) (y3 : QItem) (hK : Kept s₀ s) : Kept s₀ (countDrop s r code
    y3) := by
  unfold countDrop
  repeat' first | with_reducible assumption | with_reducible apply Kept.ite | with_reducible apply setDrops_kept
                  | with_reducible apply inc_kept | with_reducible apply foldl_kept | extract_lets | split
                  | (intros; with_reducible assumption) | intro _ _ _ | intro _ _ | dsimp +zetaDelta only
                  | with_reducible refine Kept.mkUpd ?_ rfl rfl rfl

theorem handTo_kept {s₀ : State} (s : State) (d : Dest) (x : Inbound) (hK : Kept s₀ s) : Kept s₀ (handTo s d x) := by
  unfold handTo
  repeat' first | with_reducible assumption | with_reducible apply Kept.ite | with_reducible apply setCring_kept
                  | with_reducible apply countDrop_kept | with_reducible apply setStream_kept | with_reducible apply foldl_kept
                  | extract_lets | split | (intros; with_reducible assumption) | intro _ _ _ | intro _ _ | dsimp +zetaDelta only
                  | with_reducible refine Kept.mkUpd ?_ rfl rfl rfl

theorem groupQueueRead_kept {s₀ : State} (s : State) (q : Nat) (d : Dest) (hK : Kept s₀ s) : Kept s₀ (groupQueueRead s q d) := by
  unfold groupQueueRead
  repeat' first | with_reducible assumption | with_reducible apply Kept.ite | with_reducible apply setReadPort_kept
                  | with_reducible apply noteOcc_kept | with_reducible apply setQueue_kept | with_reducible apply handTo_kept
                  | with_reducible apply foldl_kept | extract_lets | split | (intros; with_reducible assumption) | intro _ _ _
                  | intro _ _ | dsimp +zetaDelta only | with_reducible refine Kept.mkUpd ?_ rfl rfl rfl

theorem clusterGateArrival_kept {s₀ : State} (s : State) (c : Nat) (hK : Kept s₀ s) : Kept s₀ (clusterGateArrival s c) := by
  unfold clusterGateArrival
  repeat' first | with_reducible assumption | with_reducible apply Kept.ite | with_reducible apply gateToMus_kept
                  | with_reducible apply gateToGroups_kept | with_reducible apply foldl_kept | extract_lets | split
                  | (intros; with_reducible assumption) | intro _ _ _ | intro _ _ | dsimp +zetaDelta only
                  | with_reducible refine Kept.mkUpd ?_ rfl rfl rfl

/-! ## Carver -/

theorem setGreg_kept {s₀ : State} (s : State) (e : Nat) (i : Nat) (v : W64) (hK : Kept s₀ s) : Kept s₀ (setGreg s e i v) := by
  unfold setGreg
  repeat' first | with_reducible assumption | with_reducible apply Kept.ite | with_reducible apply setEngine_kept
                  | with_reducible apply foldl_kept | extract_lets | split | (intros; with_reducible assumption) | intro _ _ _
                  | intro _ _ | dsimp +zetaDelta only | with_reducible refine Kept.mkUpd ?_ rfl rfl rfl

theorem issue_kept {s₀ : State} (s : State) (e : Nat) (opc : Nat) (k : Engine → W32 → State) (hK : Kept s₀ s) (hKk : ∀ x0 x1, Kept s₀
    (k x0 x1)) : Kept s₀ (issue s e opc k) := by
  unfold issue
  repeat' first | with_reducible assumption | with_reducible apply hKk | with_reducible apply Kept.ite
                  | with_reducible apply foldl_kept | extract_lets | split | (intros; with_reducible assumption) | intro _ _ _
                  | intro _ _ | dsimp +zetaDelta only | with_reducible refine Kept.mkUpd ?_ rfl rfl rfl

theorem retire_kept {s₀ : State} (s : State) (e : Nat) (n : Nat) (tgt : Option Nat) (hK : Kept s₀ s) : Kept s₀ (retire s e n tgt) := by
  unfold retire
  repeat' first | with_reducible assumption | with_reducible apply Kept.ite | with_reducible apply setEngine_kept
                  | with_reducible apply foldl_kept | extract_lets | split | (intros; with_reducible assumption) | intro _ _ _
                  | intro _ _ | dsimp +zetaDelta only | with_reducible refine Kept.mkUpd ?_ rfl rfl rfl

theorem seen_kept {s₀ : State} (s : State) (e : Nat) (hK : Kept s₀ s) : Kept s₀ (seen s e) := by
  unfold seen
  repeat' first | with_reducible assumption | with_reducible apply Kept.ite | with_reducible apply setEngine_kept
                  | with_reducible apply foldl_kept | extract_lets | split | (intros; with_reducible assumption) | intro _ _ _
                  | intro _ _ | dsimp +zetaDelta only | with_reducible refine Kept.mkUpd ?_ rfl rfl rfl

theorem write_kept {s₀ : State} (s : State) (e : Nat) (w : W32) (n : Nat) (v : W64) (hK : Kept s₀ s) : Kept s₀ (write s e w n v) := by
  unfold write
  repeat' first | with_reducible assumption | with_reducible apply Kept.ite | with_reducible apply retire_kept
                  | with_reducible apply setGreg_kept | with_reducible apply foldl_kept | extract_lets | split
                  | (intros; with_reducible assumption) | intro _ _ _ | intro _ _ | dsimp +zetaDelta only
                  | with_reducible refine Kept.mkUpd ?_ rfl rfl rfl

theorem eventRecord_kept {s₀ : State} (s : State) (e : Nat) (ev : Nat) (t : Nat) (hK : Kept s₀ s) : Kept s₀ (eventRecord s e ev t) := by
  unfold eventRecord
  repeat' first | with_reducible assumption | with_reducible apply Kept.ite | with_reducible apply setEngine_kept
                  | with_reducible apply foldl_kept | extract_lets | split | (intros; with_reducible assumption) | intro _ _ _
                  | intro _ _ | dsimp +zetaDelta only | with_reducible refine Kept.mkUpd ?_ rfl rfl rfl

theorem haltEngine_kept {s₀ : State} (s : State) (e : Nat) (cause : Nat) (code : Nat) (hK : Kept s₀ s) : Kept s₀ (haltEngine s e
    cause code) := by
  unfold haltEngine
  repeat' first | with_reducible assumption | with_reducible apply Kept.ite | with_reducible apply setEngine_kept
                  | with_reducible apply mailDiscard_kept | with_reducible apply setCluster_kept | with_reducible apply copyT_kept
                  | with_reducible apply setFld_kept | with_reducible apply sts_kept | with_reducible apply setPair64_kept
                  | with_reducible apply eventRecord_kept | with_reducible apply postAt_kept
                  | with_reducible apply recomputeSets_kept | with_reducible apply setFlag_kept
                  | with_reducible refine copyT_keq (by with_reducible assumption) ?_ | with_reducible apply foldl_kept
                  | extract_lets | split | (intros; with_reducible assumption) | intro _ _ _ | intro _ _ | dsimp +zetaDelta only
                  | with_reducible refine Kept.mkUpd ?_ rfl rfl rfl

theorem illegalInstruction_kept {s₀ : State} (s : State) (e : Nat) (hK : Kept s₀ s) : Kept s₀ (illegalInstruction s e) := by
  unfold illegalInstruction
  repeat' first | with_reducible assumption | with_reducible apply Kept.ite | with_reducible apply haltEngine_kept
                  | with_reducible apply foldl_kept | extract_lets | split | (intros; with_reducible assumption) | intro _ _ _
                  | intro _ _ | dsimp +zetaDelta only | with_reducible refine Kept.mkUpd ?_ rfl rfl rfl

theorem pcOverrun_kept {s₀ : State} (s : State) (e : Nat) (hK : Kept s₀ s) : Kept s₀ (pcOverrun s e) := by
  unfold pcOverrun
  repeat' first | with_reducible assumption | with_reducible apply Kept.ite | with_reducible apply haltEngine_kept
                  | with_reducible apply foldl_kept | extract_lets | split | (intros; with_reducible assumption) | intro _ _ _
                  | intro _ _ | dsimp +zetaDelta only | with_reducible refine Kept.mkUpd ?_ rfl rfl rfl

theorem iHalt_kept {s₀ : State} (s : State) (e : Nat) (hK : Kept s₀ s) : Kept s₀ (iHalt s e) := by
  unfold iHalt
  repeat' first | with_reducible assumption | with_reducible apply Kept.ite | with_reducible apply issue_kept
                  | with_reducible apply haltEngine_kept | with_reducible apply foldl_kept | extract_lets | split
                  | (intros; with_reducible assumption) | intro _ _ _ | intro _ _ | dsimp +zetaDelta only
                  | with_reducible refine Kept.mkUpd ?_ rfl rfl rfl

theorem alu_kept {s₀ : State} (s : State) (e : Nat) (fn : Nat) (n : Nat) (f : W64 → W64 → W64) (hK : Kept s₀ s) : Kept s₀ (alu s e fn
    n f) := by
  unfold alu
  repeat' first | with_reducible assumption | with_reducible apply Kept.ite | with_reducible apply issue_kept
                  | with_reducible apply write_kept | with_reducible apply foldl_kept | extract_lets | split
                  | (intros; with_reducible assumption) | intro _ _ _ | intro _ _ | dsimp +zetaDelta only
                  | with_reducible refine Kept.mkUpd ?_ rfl rfl rfl

theorem immOp_kept {s₀ : State} (s : State) (e : Nat) (opc : Nat) (f : W32 → W64 → W64) (hK : Kept s₀ s) : Kept s₀ (immOp s e opc f) := by
  unfold immOp
  repeat' first | with_reducible assumption | with_reducible apply Kept.ite | with_reducible apply issue_kept
                  | with_reducible apply write_kept | with_reducible apply foldl_kept | extract_lets | split
                  | (intros; with_reducible assumption) | intro _ _ _ | intro _ _ | dsimp +zetaDelta only
                  | with_reducible refine Kept.mkUpd ?_ rfl rfl rfl

theorem iMovh_kept {s₀ : State} (s : State) (e : Nat) (hK : Kept s₀ s) : Kept s₀ (iMovh s e) := by
  unfold iMovh
  repeat' first | with_reducible assumption | with_reducible apply Kept.ite | with_reducible apply issue_kept
                  | with_reducible apply write_kept | with_reducible apply foldl_kept | extract_lets | split
                  | (intros; with_reducible assumption) | intro _ _ _ | intro _ _ | dsimp +zetaDelta only
                  | with_reducible refine Kept.mkUpd ?_ rfl rfl rfl

theorem branch_kept {s₀ : State} (s : State) (e : Nat) (w : W32) (taken : Bool) (hK : Kept s₀ s) : Kept s₀ (branch s e w taken) := by
  unfold branch
  repeat' first | with_reducible assumption | with_reducible apply Kept.ite | with_reducible apply retire_kept
                  | with_reducible apply foldl_kept | extract_lets | split | (intros; with_reducible assumption) | intro _ _ _
                  | intro _ _ | dsimp +zetaDelta only | with_reducible refine Kept.mkUpd ?_ rfl rfl rfl

theorem iBr_kept {s₀ : State} (s : State) (e : Nat) (hK : Kept s₀ s) : Kept s₀ (iBr s e) := by
  unfold iBr
  repeat' first | with_reducible assumption | with_reducible apply Kept.ite | with_reducible apply issue_kept
                  | with_reducible apply branch_kept | with_reducible apply foldl_kept | extract_lets | split
                  | (intros; with_reducible assumption) | intro _ _ _ | intro _ _ | dsimp +zetaDelta only
                  | with_reducible refine Kept.mkUpd ?_ rfl rfl rfl

theorem iBbit_kept {s₀ : State} (s : State) (e : Nat) (hK : Kept s₀ s) : Kept s₀ (iBbit s e) := by
  unfold iBbit
  repeat' first | with_reducible assumption | with_reducible apply Kept.ite | with_reducible apply issue_kept
                  | with_reducible apply branch_kept | with_reducible apply foldl_kept | extract_lets | split
                  | (intros; with_reducible assumption) | intro _ _ _ | intro _ _ | dsimp +zetaDelta only
                  | with_reducible refine Kept.mkUpd ?_ rfl rfl rfl

theorem iCall_kept {s₀ : State} (s : State) (e : Nat) (hK : Kept s₀ s) : Kept s₀ (iCall s e) := by
  unfold iCall
  repeat' first | with_reducible assumption | with_reducible apply Kept.ite | with_reducible apply issue_kept
                  | with_reducible apply retire_kept | with_reducible apply setGreg_kept | with_reducible apply foldl_kept
                  | extract_lets | split | (intros; with_reducible assumption) | intro _ _ _ | intro _ _ | dsimp +zetaDelta only
                  | with_reducible refine Kept.mkUpd ?_ rfl rfl rfl

theorem memAccess_kept {s₀ : State} (s : State) (e : Nat) (n : Nat) (a : Nat) (k : State) (hK : Kept s₀ s) (hKk : Kept s₀ k) : Kept
    s₀ (memAccess s e n a k) := by
  unfold memAccess
  repeat' first | with_reducible assumption | with_reducible apply Kept.ite | with_reducible apply haltEngine_kept
                  | with_reducible apply foldl_kept | extract_lets | split | (intros; with_reducible assumption) | intro _ _ _
                  | intro _ _ | dsimp +zetaDelta only | with_reducible refine Kept.mkUpd ?_ rfl rfl rfl

theorem storeMem_kept {s₀ : State} (s : State) (e : Nat) (a : Nat) (n : Nat) (v : Nat) (hK : Kept s₀ s) : Kept s₀ (storeMem s e a n
    v) := by
  unfold storeMem
  repeat' first | with_reducible assumption | with_reducible apply Kept.ite | with_reducible apply setEngine_kept
                  | with_reducible apply foldl_kept | extract_lets | split | (intros; with_reducible assumption) | intro _ _ _
                  | intro _ _ | dsimp +zetaDelta only | with_reducible refine Kept.mkUpd ?_ rfl rfl rfl

theorem iLoad_kept {s₀ : State} (s : State) (e : Nat) (opc : Nat) (n : Nat) (hK : Kept s₀ s) : Kept s₀ (iLoad s e opc n) := by
  unfold iLoad
  repeat' first | with_reducible assumption | with_reducible apply Kept.ite | with_reducible apply issue_kept
                  | with_reducible apply memAccess_kept | with_reducible apply write_kept | with_reducible apply foldl_kept
                  | extract_lets | split | (intros; with_reducible assumption) | intro _ _ _ | intro _ _ | dsimp +zetaDelta only
                  | with_reducible refine Kept.mkUpd ?_ rfl rfl rfl

theorem iStore_kept {s₀ : State} (s : State) (e : Nat) (opc : Nat) (n : Nat) (hK : Kept s₀ s) : Kept s₀ (iStore s e opc n) := by
  unfold iStore
  repeat' first | with_reducible assumption | with_reducible apply Kept.ite | with_reducible apply issue_kept
                  | with_reducible apply memAccess_kept | with_reducible apply retire_kept | with_reducible apply storeMem_kept
                  | with_reducible apply foldl_kept | extract_lets | split | (intros; with_reducible assumption) | intro _ _ _
                  | intro _ _ | dsimp +zetaDelta only | with_reducible refine Kept.mkUpd ?_ rfl rfl rfl

theorem histAdd_kept {s₀ : State} (s : State) (e : Nat) (E : Engine) (w : W32) (a : Nat) (n : Nat) (hK : Kept s₀ s) : Kept s₀
    (histAdd s e E w a n) := by
  unfold histAdd
  repeat' first | with_reducible assumption | with_reducible apply Kept.ite | with_reducible apply sts_kept
                  | with_reducible apply write_kept | with_reducible apply storeMem_kept | with_reducible apply foldl_kept
                  | extract_lets | split | (intros; with_reducible assumption) | intro _ _ _ | intro _ _ | dsimp +zetaDelta only
                  | with_reducible refine Kept.mkUpd ?_ rfl rfl rfl

theorem iHinc_kept {s₀ : State} (s : State) (e : Nat) (hK : Kept s₀ s) : Kept s₀ (iHinc s e) := by
  unfold iHinc
  repeat' first | with_reducible assumption | with_reducible apply Kept.ite | with_reducible apply issue_kept
                  | with_reducible apply memAccess_kept | with_reducible apply histAdd_kept | with_reducible apply foldl_kept
                  | extract_lets | split | (intros; with_reducible assumption) | intro _ _ _ | intro _ _ | dsimp +zetaDelta only
                  | with_reducible refine Kept.mkUpd ?_ rfl rfl rfl

theorem iHadd_kept {s₀ : State} (s : State) (e : Nat) (hK : Kept s₀ s) : Kept s₀ (iHadd s e) := by
  unfold iHadd
  repeat' first | with_reducible assumption | with_reducible apply Kept.ite | with_reducible apply issue_kept
                  | with_reducible apply memAccess_kept | with_reducible apply histAdd_kept | with_reducible apply foldl_kept
                  | extract_lets | split | (intros; with_reducible assumption) | intro _ _ _ | intro _ _ | dsimp +zetaDelta only
                  | with_reducible refine Kept.mkUpd ?_ rfl rfl rfl

theorem popPort_kept {s₀ : State} (s : State) (e : Nat) (p : Nat) (n : Nat) (hK : Kept s₀ s) : Kept s₀ (popPort s e p n) := by
  unfold popPort
  repeat' first | with_reducible assumption | with_reducible apply Kept.ite | with_reducible apply addCnt_kept
                  | with_reducible apply setEngine_kept | with_reducible apply foldl_kept | extract_lets | split
                  | (intros; with_reducible assumption) | intro _ _ _ | intro _ _ | dsimp +zetaDelta only
                  | with_reducible refine Kept.mkUpd ?_ rfl rfl rfl

theorem doPop_kept {s₀ : State} (s : State) (e : Nat) (n : Nat) (w : W32) (x : W64) (hK : Kept s₀ s) : Kept s₀ (doPop s e n w x) := by
  unfold doPop
  repeat' first | with_reducible assumption | with_reducible apply Kept.ite | with_reducible apply write_kept
                  | with_reducible apply popPort_kept | with_reducible apply seen_kept | with_reducible apply foldl_kept
                  | extract_lets | split | (intros; with_reducible assumption) | intro _ _ _ | intro _ _ | dsimp +zetaDelta only
                  | with_reducible refine Kept.mkUpd ?_ rfl rfl rfl

theorem iPop_kept {s₀ : State} (s : State) (e : Nat) (hK : Kept s₀ s) : Kept s₀ (iPop s e) := by
  unfold iPop
  repeat' first | with_reducible assumption | with_reducible apply Kept.ite | with_reducible apply issue_kept
                  | with_reducible apply doPop_kept | with_reducible apply setEngine_kept | with_reducible apply foldl_kept
                  | extract_lets | split | (intros; with_reducible assumption) | intro _ _ _ | intro _ _ | dsimp +zetaDelta only
                  | with_reducible refine Kept.mkUpd ?_ rfl rfl rfl

theorem popWaitComplete_kept {s₀ : State} (s : State) (e : Nat) (waited : Nat) (hK : Kept s₀ s) : Kept s₀ (popWaitComplete s e
    waited) := by
  unfold popWaitComplete
  repeat' first | with_reducible assumption | with_reducible apply Kept.ite | with_reducible apply doPop_kept
                  | with_reducible apply setEngine_kept | with_reducible apply foldl_kept | extract_lets | split
                  | (intros; with_reducible assumption) | intro _ _ _ | intro _ _ | dsimp +zetaDelta only
                  | with_reducible refine Kept.mkUpd ?_ rfl rfl rfl

theorem iTrypop_kept {s₀ : State} (s : State) (e : Nat) (hK : Kept s₀ s) : Kept s₀ (iTrypop s e) := by
  unfold iTrypop
  repeat' first | with_reducible assumption | with_reducible apply Kept.ite | with_reducible apply issue_kept
                  | with_reducible apply doPop_kept | with_reducible apply write_kept | with_reducible apply foldl_kept
                  | extract_lets | split | (intros; with_reducible assumption) | intro _ _ _ | intro _ _ | dsimp +zetaDelta only
                  | with_reducible refine Kept.mkUpd ?_ rfl rfl rfl

theorem iPeek_kept {s₀ : State} (s : State) (e : Nat) (hK : Kept s₀ s) : Kept s₀ (iPeek s e) := by
  unfold iPeek
  repeat' first | with_reducible assumption | with_reducible apply Kept.ite | with_reducible apply issue_kept
                  | with_reducible apply seen_kept | with_reducible apply write_kept | with_reducible apply foldl_kept
                  | extract_lets | split | (intros; with_reducible assumption) | intro _ _ _ | intro _ _ | dsimp +zetaDelta only
                  | with_reducible refine Kept.mkUpd ?_ rfl rfl rfl

theorem iSkip_kept {s₀ : State} (s : State) (e : Nat) (hK : Kept s₀ s) : Kept s₀ (iSkip s e) := by
  unfold iSkip
  repeat' first | with_reducible assumption | with_reducible apply Kept.ite | with_reducible apply issue_kept
                  | with_reducible apply write_kept | with_reducible apply popPort_kept | with_reducible apply seen_kept
                  | with_reducible apply foldl_kept | extract_lets | split | (intros; with_reducible assumption) | intro _ _ _
                  | intro _ _ | dsimp +zetaDelta only | with_reducible refine Kept.mkUpd ?_ rfl rfl rfl

theorem waitCauses_kept {s₀ : State} (s : State) (e : Nat) (m : Nat) (ra : W64) (hK : Kept s₀ s) : Kept s₀ (waitCauses s e m ra).2 := by
  unfold waitCauses
  repeat' first | with_reducible assumption | with_reducible apply copyT_kept
                  | with_reducible refine copyT_keq (by with_reducible assumption) ?_ | with_reducible apply foldl_kept
                  | extract_lets | split | (intros; with_reducible assumption) | intro _ _ _ | intro _ _ | dsimp +zetaDelta only
                  | with_reducible refine Kept.mkUpd ?_ rfl rfl rfl
theorem waitCauses_keq {s₀ : State} {t₁ : State} {o₁ : Nat}  {s : State} {e : Nat} {m : Nat} {ra : W64} (hE : (waitCauses s e m ra) =
    (o₁, t₁)) (hK : Kept s₀ s) : Kept s₀ t₁ := by
  have := waitCauses_kept s e m ra hK
  rw [hE] at this; exact this

theorem endWait_kept {s₀ : State} (s : State) (e : Nat) (n : Nat) (w : W32) (c : Nat) (hK : Kept s₀ s) : Kept s₀ (endWait s e n w c) := by
  unfold endWait
  repeat' first | with_reducible assumption | with_reducible apply Kept.ite | with_reducible apply write_kept
                  | with_reducible apply seen_kept | with_reducible apply foldl_kept | extract_lets | split
                  | (intros; with_reducible assumption) | intro _ _ _ | intro _ _ | dsimp +zetaDelta only
                  | with_reducible refine Kept.mkUpd ?_ rfl rfl rfl

theorem iWait_kept {s₀ : State} (s : State) (e : Nat) (hK : Kept s₀ s) : Kept s₀ (iWait s e) := by
  unfold iWait
  repeat' first | with_reducible assumption | with_reducible apply Kept.ite | with_reducible apply issue_kept
                  | with_reducible apply waitCauses_kept | with_reducible apply setEngine_kept | with_reducible apply endWait_kept
                  | with_reducible refine waitCauses_keq (by with_reducible assumption) ?_ | with_reducible apply foldl_kept
                  | extract_lets | split | (intros; with_reducible assumption) | intro _ _ _ | intro _ _ | dsimp +zetaDelta only
                  | with_reducible refine Kept.mkUpd ?_ rfl rfl rfl

theorem waitComplete_kept {s₀ : State} (s : State) (e : Nat) (waited : Nat) (hK : Kept s₀ s) : Kept s₀ (waitComplete s e waited) := by
  unfold waitComplete
  repeat' first | with_reducible assumption | with_reducible apply Kept.ite | with_reducible apply waitCauses_kept
                  | with_reducible apply endWait_kept | with_reducible apply setEngine_kept
                  | with_reducible refine waitCauses_keq (by with_reducible assumption) ?_ | with_reducible apply foldl_kept
                  | extract_lets | split | (intros; with_reducible assumption) | intro _ _ _ | intro _ _ | dsimp +zetaDelta only
                  | with_reducible refine Kept.mkUpd ?_ rfl rfl rfl

theorem iRecv_kept {s₀ : State} (s : State) (e : Nat) (hK : Kept s₀ s) : Kept s₀ (iRecv s e) := by
  unfold iRecv
  repeat' first | with_reducible assumption | with_reducible apply Kept.ite | with_reducible apply issue_kept
                  | with_reducible apply retire_kept | with_reducible apply write_kept | with_reducible apply setCluster_kept
                  | with_reducible apply foldl_kept | extract_lets | split | (intros; with_reducible assumption) | intro _ _ _
                  | intro _ _ | dsimp +zetaDelta only | with_reducible refine Kept.mkUpd ?_ rfl rfl rfl

theorem iSend_kept {s₀ : State} (s : State) (e : Nat) (hK : Kept s₀ s) : Kept s₀ (iSend s e) := by
  unfold iSend
  repeat' first | with_reducible assumption | with_reducible apply Kept.ite | with_reducible apply issue_kept
                  | with_reducible apply mailPost_kept | with_reducible apply retire_kept | with_reducible apply sts_kept
                  | with_reducible refine mailPost_keq (by with_reducible assumption) ?_ | with_reducible apply foldl_kept
                  | extract_lets | split | (intros; with_reducible assumption) | intro _ _ _ | intro _ _ | dsimp +zetaDelta only
                  | with_reducible refine Kept.mkUpd ?_ rfl rfl rfl

theorem rdsValue_kept {s₀ : State} (s : State) (e : Nat) (sel : Nat) (hK : Kept s₀ s) : Kept s₀ (rdsValue s e sel).2 := by
  unfold rdsValue
  repeat' first | with_reducible assumption | with_reducible apply copyT_kept
                  | with_reducible refine copyT_keq (by with_reducible assumption) ?_ | with_reducible apply foldl_kept
                  | extract_lets | split | (intros; with_reducible assumption) | intro _ _ _ | intro _ _ | dsimp +zetaDelta only
                  | with_reducible refine Kept.mkUpd ?_ rfl rfl rfl
theorem rdsValue_keq {s₀ : State} {t₁ : State} {o₁ : W64}  {s : State} {e : Nat} {sel : Nat} (hE : (rdsValue s e sel) = (o₁, t₁)) (hK
    : Kept s₀ s) : Kept s₀ t₁ := by
  have := rdsValue_kept s e sel hK
  rw [hE] at this; exact this

theorem iRds_kept {s₀ : State} (s : State) (e : Nat) (hK : Kept s₀ s) : Kept s₀ (iRds s e) := by
  unfold iRds
  repeat' first | with_reducible assumption | with_reducible apply Kept.ite | with_reducible apply issue_kept
                  | with_reducible apply rdsValue_kept | with_reducible apply write_kept
                  | with_reducible refine rdsValue_keq (by with_reducible assumption) ?_ | with_reducible apply foldl_kept
                  | extract_lets | split | (intros; with_reducible assumption) | intro _ _ _ | intro _ _ | dsimp +zetaDelta only
                  | with_reducible refine Kept.mkUpd ?_ rfl rfl rfl

theorem emitRecord_kept {s₀ : State} (s : State) (e : Nat) (tag : Nat) (payload : Nat) (hK : Kept s₀ s) : Kept s₀ (emitRecord s e tag
    payload) := by
  unfold emitRecord
  repeat' first | with_reducible assumption | with_reducible apply Kept.ite | with_reducible apply inc_kept
                  | with_reducible apply setEngine_kept | with_reducible apply sts_kept | with_reducible apply foldl_kept
                  | extract_lets | split | (intros; with_reducible assumption) | intro _ _ _ | intro _ _ | dsimp +zetaDelta only
                  | with_reducible refine Kept.mkUpd ?_ rfl rfl rfl

theorem iEmit_kept {s₀ : State} (s : State) (e : Nat) (hK : Kept s₀ s) : Kept s₀ (iEmit s e) := by
  unfold iEmit
  repeat' first | with_reducible assumption | with_reducible apply Kept.ite | with_reducible apply issue_kept
                  | with_reducible apply retire_kept | with_reducible apply emitRecord_kept | with_reducible apply foldl_kept
                  | extract_lets | split | (intros; with_reducible assumption) | intro _ _ _ | intro _ _ | dsimp +zetaDelta only
                  | with_reducible refine Kept.mkUpd ?_ rfl rfl rfl

theorem iEmitt_kept {s₀ : State} (s : State) (e : Nat) (hK : Kept s₀ s) : Kept s₀ (iEmitt s e) := by
  unfold iEmitt
  repeat' first | with_reducible assumption | with_reducible apply Kept.ite | with_reducible apply issue_kept
                  | with_reducible apply retire_kept | with_reducible apply emitRecord_kept | with_reducible apply foldl_kept
                  | extract_lets | split | (intros; with_reducible assumption) | intro _ _ _ | intro _ _ | dsimp +zetaDelta only
                  | with_reducible refine Kept.mkUpd ?_ rfl rfl rfl

theorem noteLat_kept {s₀ : State} (s : State) (e : Nat) (hK : Kept s₀ s) : Kept s₀ (noteLat s e) := by
  unfold noteLat
  repeat' first | with_reducible assumption | with_reducible apply Kept.ite | with_reducible apply setFld_kept
                  | with_reducible apply foldl_kept | extract_lets | split | (intros; with_reducible assumption) | intro _ _ _
                  | intro _ _ | dsimp +zetaDelta only | with_reducible refine Kept.mkUpd ?_ rfl rfl rfl

theorem decision_kept {s₀ : State} (s : State) (e : Nat) (ok : Bool) (f : State → State) (hK : Kept s₀ s) (hKf : ∀ t, Kept s₀ t →
    Kept s₀ (f t)) : Kept s₀ (decision s e ok f) := by
  unfold decision
  repeat' first | with_reducible assumption | with_reducible apply hKf | with_reducible apply Kept.ite
                  | with_reducible apply noteLat_kept | with_reducible apply sts_kept | with_reducible apply inc_kept
                  | with_reducible apply retire_kept | with_reducible apply foldl_kept | extract_lets | split
                  | (intros; with_reducible assumption) | intro _ _ _ | intro _ _ | dsimp +zetaDelta only
                  | with_reducible refine Kept.mkUpd ?_ rfl rfl rfl

theorem sendDec_kept {s₀ : State} (e : Nat) (d : Decision) (s : State) (hK : Kept s₀ s) : Kept s₀ (sendDec e d s) := by
  unfold sendDec
  repeat' first | with_reducible assumption | with_reducible apply Kept.ite | with_reducible apply pairSend_kept
                  | with_reducible apply foldl_kept | extract_lets | split | (intros; with_reducible assumption) | intro _ _ _
                  | intro _ _ | dsimp +zetaDelta only | with_reducible refine Kept.mkUpd ?_ rfl rfl rfl

theorem noteOvr_kept {s₀ : State} (was : W64) (s : State) (hK : Kept s₀ s) : Kept s₀ (noteOvr was s) := by
  unfold noteOvr
  repeat' first | with_reducible assumption | with_reducible apply Kept.ite | with_reducible apply foldl_kept | extract_lets
                  | split | (intros; with_reducible assumption) | intro _ _ _ | intro _ _ | dsimp +zetaDelta only
                  | with_reducible refine Kept.mkUpd ?_ rfl rfl rfl

theorem iDrive_kept {s₀ : State} (s : State) (e : Nat) (hK : Kept s₀ s) : Kept s₀ (iDrive s e) := by
  unfold iDrive
  repeat' first | with_reducible assumption | with_reducible apply Kept.ite | with_reducible apply issue_kept
                  | with_reducible apply decision_kept | with_reducible apply sendDec_kept | with_reducible apply foldl_kept
                  | extract_lets | split | (intros; with_reducible assumption) | intro _ _ _ | intro _ _ | dsimp +zetaDelta only
                  | with_reducible refine Kept.mkUpd ?_ rfl rfl rfl

theorem iPjump_kept {s₀ : State} (s : State) (e : Nat) (hK : Kept s₀ s) : Kept s₀ (iPjump s e) := by
  unfold iPjump
  repeat' first | with_reducible assumption | with_reducible apply Kept.ite | with_reducible apply issue_kept
                  | with_reducible apply decision_kept | with_reducible apply sendDec_kept | with_reducible apply foldl_kept
                  | extract_lets | split | (intros; with_reducible assumption) | intro _ _ _ | intro _ _ | dsimp +zetaDelta only
                  | with_reducible refine Kept.mkUpd ?_ rfl rfl rfl

theorem iVeto_kept {s₀ : State} (s : State) (e : Nat) (hK : Kept s₀ s) : Kept s₀ (iVeto s e) := by
  unfold iVeto
  repeat' first | with_reducible assumption | with_reducible apply Kept.ite | with_reducible apply issue_kept
                  | with_reducible apply decision_kept | with_reducible apply sendDec_kept | with_reducible apply foldl_kept
                  | extract_lets | split | (intros; with_reducible assumption) | intro _ _ _ | intro _ _ | dsimp +zetaDelta only
                  | with_reducible refine Kept.mkUpd ?_ rfl rfl rfl

theorem iMark_kept {s₀ : State} (s : State) (e : Nat) (hK : Kept s₀ s) : Kept s₀ (iMark s e) := by
  unfold iMark
  repeat' first | with_reducible assumption | with_reducible apply Kept.ite | with_reducible apply issue_kept
                  | with_reducible apply decision_kept | with_reducible apply sendDec_kept | with_reducible apply foldl_kept
                  | extract_lets | split | (intros; with_reducible assumption) | intro _ _ _ | intro _ _ | dsimp +zetaDelta only
                  | with_reducible refine Kept.mkUpd ?_ rfl rfl rfl

theorem decisionTime_kept {s₀ : State} (s : State) (e : Nat) (fromRa : Bool) (ra : W64) (hK : Kept s₀ s) : Kept s₀ (decisionTime s e
    fromRa ra).2 := by
  unfold decisionTime
  repeat' first | with_reducible assumption | with_reducible apply copyT_kept
                  | with_reducible refine copyT_keq (by with_reducible assumption) ?_ | with_reducible apply foldl_kept
                  | extract_lets | split | (intros; with_reducible assumption) | intro _ _ _ | intro _ _ | dsimp +zetaDelta only
                  | with_reducible refine Kept.mkUpd ?_ rfl rfl rfl
theorem decisionTime_keq {s₀ : State} {t₁ : State} {o₁ : Nat}  {s : State} {e : Nat} {fromRa : Bool} {ra : W64} (hE : (decisionTime s
    e fromRa ra) = (o₁, t₁)) (hK : Kept s₀ s) : Kept s₀ t₁ := by
  have := decisionTime_kept s e fromRa ra hK
  rw [hE] at this; exact this

theorem iGate_kept {s₀ : State} (s : State) (e : Nat) (hK : Kept s₀ s) : Kept s₀ (iGate s e) := by
  unfold iGate
  repeat' first | with_reducible assumption | with_reducible apply Kept.ite | with_reducible apply issue_kept
                  | with_reducible apply decision_kept | with_reducible apply decisionTime_kept | with_reducible apply sts_kept
                  | with_reducible apply setCluster_kept | with_reducible apply sendDec_kept | with_reducible apply setFlag_kept
                  | with_reducible refine decisionTime_keq (by with_reducible assumption) ?_ | with_reducible apply foldl_kept
                  | extract_lets | split | (intros; with_reducible assumption) | intro _ _ _ | intro _ _ | dsimp +zetaDelta only
                  | with_reducible refine Kept.mkUpd ?_ rfl rfl rfl

theorem iMuarm_kept {s₀ : State} (s : State) (e : Nat) (hK : Kept s₀ s) : Kept s₀ (iMuarm s e) := by
  unfold iMuarm
  repeat' first | with_reducible assumption | with_reducible apply Kept.ite | with_reducible apply issue_kept
                  | with_reducible apply decision_kept | with_reducible apply decisionTime_kept | with_reducible apply sendDec_kept
                  | with_reducible refine decisionTime_keq (by with_reducible assumption) ?_ | with_reducible apply foldl_kept
                  | extract_lets | split | (intros; with_reducible assumption) | intro _ _ _ | intro _ _ | dsimp +zetaDelta only
                  | with_reducible refine Kept.mkUpd ?_ rfl rfl rfl

theorem iNote_kept {s₀ : State} (s : State) (e : Nat) (hK : Kept s₀ s) : Kept s₀ (iNote s e) := by
  unfold iNote
  repeat' first | with_reducible assumption | with_reducible apply Kept.ite | with_reducible apply issue_kept
                  | with_reducible apply decision_kept | with_reducible apply post_kept | with_reducible apply foldl_kept
                  | extract_lets | split | (intros; with_reducible assumption) | intro _ _ _ | intro _ _ | dsimp +zetaDelta only
                  | with_reducible refine Kept.mkUpd ?_ rfl rfl rfl

theorem cvDecLatMaxClr_kept {s₀ : State} (s : State) (a : Access) (e : Nat) (v : W32) (hK : Kept s₀ s) : Kept s₀ (cvDecLatMaxClr s a
    e v) := by
  unfold cvDecLatMaxClr
  repeat' first | with_reducible assumption | with_reducible apply Kept.ite | with_reducible apply cmdWrite_kept
                  | with_reducible apply setFld_kept | with_reducible apply foldl_kept | extract_lets | split
                  | (intros; with_reducible assumption) | intro _ _ _ | intro _ _ | dsimp +zetaDelta only
                  | with_reducible refine Kept.mkUpd ?_ rfl rfl rfl

theorem startAt_kept {s₀ : State} (s : State) (e : Nat) (pc : Nat) (clear : Bool) (hK : Kept s₀ s) : Kept s₀ (startAt s e pc clear) := by
  unfold startAt
  repeat' first | with_reducible assumption | with_reducible apply Kept.ite | with_reducible apply setEngine_kept
                  | with_reducible apply copyT_kept | with_reducible apply eventRecord_kept
                  | with_reducible apply recomputeSets_kept | with_reducible apply postAt_kept
                  | with_reducible refine copyT_keq (by with_reducible assumption) ?_ | with_reducible apply foldl_kept
                  | extract_lets | split | (intros; with_reducible assumption) | intro _ _ _ | intro _ _ | dsimp +zetaDelta only
                  | with_reducible refine Kept.mkUpd ?_ rfl rfl rfl

theorem startEngine_kept {s₀ : State} (s : State) (e : Nat) (hK : Kept s₀ s) : Kept s₀ (startEngine s e) := by
  unfold startEngine
  repeat' first | with_reducible assumption | with_reducible apply Kept.ite | with_reducible apply startAt_kept
                  | with_reducible apply foldl_kept | extract_lets | split | (intros; with_reducible assumption) | intro _ _ _
                  | intro _ _ | dsimp +zetaDelta only | with_reducible refine Kept.mkUpd ?_ rfl rfl rfl

theorem cvStart_kept {s₀ : State} (s : State) (a : Access) (e : Nat) (v : W32) (hK : Kept s₀ s) : Kept s₀ (cvStart s a e v) := by
  unfold cvStart
  repeat' first | with_reducible assumption | with_reducible apply Kept.ite | with_reducible apply cmdWrite_kept
                  | with_reducible apply startEngine_kept | with_reducible apply foldl_kept | extract_lets | split
                  | (intros; with_reducible assumption) | intro _ _ _ | intro _ _ | dsimp +zetaDelta only
                  | with_reducible refine Kept.mkUpd ?_ rfl rfl rfl

theorem cvHalt_kept {s₀ : State} (s : State) (a : Access) (e : Nat) (v : W32) (hK : Kept s₀ s) : Kept s₀ (cvHalt s a e v) := by
  unfold cvHalt
  repeat' first | with_reducible assumption | with_reducible apply Kept.ite | with_reducible apply cmdWrite_kept
                  | with_reducible apply haltEngine_kept | with_reducible apply foldl_kept | extract_lets | split
                  | (intros; with_reducible assumption) | intro _ _ _ | intro _ _ | dsimp +zetaDelta only
                  | with_reducible refine Kept.mkUpd ?_ rfl rfl rfl

theorem onEngine_kept {s₀ : State} (s : State) (c : Command) (e : Nat) (bad : Bool) (k : State) (hK : Kept s₀ s) (hKk : Kept s₀ k) :
    Kept s₀ (onEngine s c e bad k) := by
  unfold onEngine
  repeat' first | with_reducible assumption | with_reducible apply Kept.ite | with_reducible apply refuseCmd_kept
                  | with_reducible apply foldl_kept | extract_lets | split | (intros; with_reducible assumption) | intro _ _ _
                  | intro _ _ | dsimp +zetaDelta only | with_reducible refine Kept.mkUpd ?_ rfl rfl rfl

theorem cvLoadImem_kept {s₀ : State} (s : State) (c : Command) (hK : Kept s₀ s) : Kept s₀ (cvLoadImem s c) := by
  unfold cvLoadImem
  repeat' first | with_reducible assumption | with_reducible apply Kept.ite | with_reducible apply runCmd_kept
                  | with_reducible apply onEngine_kept | with_reducible apply refuseCmd_kept | with_reducible apply dmaFailCmd_kept
                  | with_reducible apply completeCmd_kept | with_reducible apply setEngine_kept | with_reducible apply foldl_kept
                  | extract_lets | split | (intros; with_reducible assumption) | intro _ _ _ | intro _ _ | dsimp +zetaDelta only
                  | with_reducible refine Kept.mkUpd ?_ rfl rfl rfl

theorem cvLoadLmem_kept {s₀ : State} (s : State) (c : Command) (hK : Kept s₀ s) : Kept s₀ (cvLoadLmem s c) := by
  unfold cvLoadLmem
  repeat' first | with_reducible assumption | with_reducible apply Kept.ite | with_reducible apply runCmd_kept
                  | with_reducible apply onEngine_kept | with_reducible apply refuseCmd_kept | with_reducible apply dmaFailCmd_kept
                  | with_reducible apply completeCmd_kept | with_reducible apply setEngine_kept | with_reducible apply foldl_kept
                  | extract_lets | split | (intros; with_reducible assumption) | intro _ _ _ | intro _ _ | dsimp +zetaDelta only
                  | with_reducible refine Kept.mkUpd ?_ rfl rfl rfl

theorem cvReadLmem_kept {s₀ : State} (s : State) (c : Command) (hK : Kept s₀ s) : Kept s₀ (cvReadLmem s c) := by
  unfold cvReadLmem
  repeat' first | with_reducible assumption | with_reducible apply Kept.ite | with_reducible apply runCmd_kept
                  | with_reducible apply onEngine_kept | with_reducible apply refuseCmd_kept
                  | with_reducible apply completeCmd_kept | with_reducible apply hostWrite_kept | with_reducible apply foldl_kept
                  | extract_lets | split | (intros; with_reducible assumption) | intro _ _ _ | intro _ _ | dsimp +zetaDelta only
                  | with_reducible refine Kept.mkUpd ?_ rfl rfl rfl

theorem cvSubscribe_kept {s₀ : State} (s : State) (c : Command) (hK : Kept s₀ s) : Kept s₀ (cvSubscribe s c) := by
  unfold cvSubscribe
  repeat' first | with_reducible assumption | with_reducible apply Kept.ite | with_reducible apply runCmd_kept
                  | with_reducible apply onEngine_kept | with_reducible apply dmaFailCmd_kept
                  | with_reducible apply completeCmd_kept | with_reducible apply recomputeSets_kept
                  | with_reducible apply setEngine_kept | with_reducible apply foldl_kept | extract_lets | split
                  | (intros; with_reducible assumption) | intro _ _ _ | intro _ _ | dsimp +zetaDelta only
                  | with_reducible refine Kept.mkUpd ?_ rfl rfl rfl

end Sys2Proof.Laws
end

