-- ==== Sys2Proof/Laws/KeptOutput.lean ====
section
/-! SUPPORT. What no operation touches or worsens (`Kept`), for the capture rings and the packer. -/

namespace Sys2Proof.Laws

open Sys2Proof.Machine

/-! ## Capture -/

theorem setWordErr_kept {s₀ : State} (s : State) (a : Nat) (e : Nat) (hK : Kept s₀ s) : Kept s₀ (setWordErr s a e) := by
  unfold setWordErr
  repeat' first | with_reducible assumption | with_reducible apply Kept.ite | with_reducible apply foldl_kept | extract_lets
                  | split | (intros; with_reducible assumption) | intro _ _ _ | intro _ _ | dsimp +zetaDelta only
                  | with_reducible refine Kept.mkUpd ?_ rfl rfl rfl

theorem ddrWrite_kept {s₀ : State} (s : State) (a : Nat) (bs : List Byte) (hK : Kept s₀ s) : Kept s₀ (ddrWrite s a bs) := by
  unfold ddrWrite
  exact foldl_kept ⟨hK.pending, hK.fuses, fun w => memory_wf_mwriteBytes _ _ _ _ (hK.ddr w), hK.host⟩
    fun _ _ h => setWordErr_kept _ _ _ h

theorem newErrs_kept {s₀ : State} (s : State) (a : Nat) (errs : List (Nat × Bool)) (hK : Kept s₀ s) : Kept s₀ (newErrs s a errs) := by
  unfold newErrs
  repeat' first | with_reducible assumption | with_reducible apply Kept.ite | with_reducible apply setWordErr_kept
                  | with_reducible apply foldl_kept | extract_lets | split | (intros; with_reducible assumption) | intro _ _ _
                  | intro _ _ | dsimp +zetaDelta only | with_reducible refine Kept.mkUpd ?_ rfl rfl rfl

theorem logErr_kept {s₀ : State} (s : State) (a : Nat) (src : Nat) (ue : Bool) (hK : Kept s₀ s) : Kept s₀ (logErr s a src ue) := by
  unfold logErr
  repeat' first | with_reducible assumption | with_reducible apply Kept.ite | with_reducible apply sts_kept
                  | with_reducible apply inc_kept | with_reducible apply setPair64_kept | with_reducible apply post_kept
                  | with_reducible apply alarm_kept | with_reducible apply foldl_kept | extract_lets | split
                  | (intros; with_reducible assumption) | intro _ _ _ | intro _ _ | dsimp +zetaDelta only
                  | with_reducible refine Kept.mkUpd ?_ rfl rfl rfl

theorem readWord_kept {s₀ : State} (s : State) (a : Nat) (src : Nat) (hK : Kept s₀ s) : Kept s₀ (readWord s a src).2.2 := by
  unfold readWord
  repeat' first | with_reducible assumption | with_reducible apply logErr_kept | with_reducible apply takeFree_kept
                  | with_reducible refine takeFree_keq (by with_reducible assumption) ?_ | with_reducible apply foldl_kept
                  | extract_lets | split | (intros; with_reducible assumption) | intro _ _ _ | intro _ _ | dsimp +zetaDelta only
                  | with_reducible refine Kept.mkUpd ?_ rfl rfl rfl
theorem readWord_keq {s₀ : State} {t₁ : State} {o₁ : W64} {o₂ : Bool}  {s : State} {a : Nat} {src : Nat} (hE : (readWord s a src) =
    (o₁, o₂, t₁)) (hK : Kept s₀ s) : Kept s₀ t₁ := by
  have := readWord_kept s a src hK
  rw [hE] at this; exact this

theorem readWords_kept {s₀ : State} (s : State) (a src n : Nat) (hK : Kept s₀ s) : Kept s₀ (readWords s a src n).2.2 := by
  induction n generalizing s a with
  | zero => exact hK
  | succ n ih => exact ih _ _ (readWord_kept _ _ _ hK)
theorem readWords_keq {s₀ b : State} {p : List W64} {q : Bool} {s : State} {a src n : Nat} (e : readWords s a src n = (p, q, b))
    (hK : Kept s₀ s) : Kept s₀ b := by
  have := readWords_kept s a src n hK
  rw [e] at this; exact this

theorem readBlock_kept {s₀ : State} (s : State) (a : Nat) (src : Nat) (errs : List (Nat × Bool)) (hK : Kept s₀ s) : Kept s₀
    (readBlock s a src errs).2.2 := by
  unfold readBlock
  repeat' first | with_reducible assumption | with_reducible apply readWords_kept | with_reducible apply newErrs_kept
                  | with_reducible refine readWords_keq (by with_reducible assumption) ?_ | with_reducible apply foldl_kept
                  | extract_lets | split | (intros; with_reducible assumption) | intro _ _ _ | intro _ _ | dsimp +zetaDelta only
                  | with_reducible refine Kept.mkUpd ?_ rfl rfl rfl
theorem readBlock_keq {s₀ : State} {t₁ : State} {o₁ : List W64} {o₂ : Bool}  {s : State} {a : Nat} {src : Nat} {errs : List (Nat ×
    Bool)} (hE : (readBlock s a src errs) = (o₁, o₂, t₁)) (hK : Kept s₀ s) : Kept s₀ t₁ := by
  have := readBlock_kept s a src errs hK
  rw [hE] at this; exact this

theorem setChan_kept {s₀ : State} (s : State) (n : Nat) (x : Chan) (hK : Kept s₀ s) : Kept s₀ (setChan s n x) := by
  unfold setChan
  repeat' first | with_reducible assumption | with_reducible apply Kept.ite | with_reducible apply foldl_kept | extract_lets
                  | split | (intros; with_reducible assumption) | intro _ _ _ | intro _ _ | dsimp +zetaDelta only
                  | with_reducible refine Kept.mkUpd ?_ rfl rfl rfl

theorem startTrain_kept {s₀ : State} (s : State) (n : Nat) (hK : Kept s₀ s) : Kept s₀ (startTrain s n) := by
  unfold startTrain
  repeat' first | with_reducible assumption | with_reducible apply Kept.ite | with_reducible apply setChan_kept
                  | with_reducible apply setFlag_kept | with_reducible apply foldl_kept | extract_lets | split
                  | (intros; with_reducible assumption) | intro _ _ _ | intro _ _ | dsimp +zetaDelta only
                  | with_reducible refine Kept.mkUpd ?_ rfl rfl rfl

theorem mcTrain_kept {s₀ : State} (s : State) (a : Access) (n : Nat) (v : W32) (hK : Kept s₀ s) : Kept s₀ (mcTrain s a n v) := by
  unfold mcTrain
  repeat' first | with_reducible assumption | with_reducible apply Kept.ite | with_reducible apply cmdWrite_kept
                  | with_reducible apply startTrain_kept | with_reducible apply foldl_kept | extract_lets | split
                  | (intros; with_reducible assumption) | intro _ _ _ | intro _ _ | dsimp +zetaDelta only
                  | with_reducible refine Kept.mkUpd ?_ rfl rfl rfl

theorem channelTrainComplete_kept {s₀ : State} (s : State) (n : Nat) (ok : Bool) (size : Nat) (hK : Kept s₀ s) : Kept s₀
    (channelTrainComplete s n ok size) := by
  unfold channelTrainComplete
  repeat' first | with_reducible assumption | with_reducible apply Kept.ite | with_reducible apply setFlag_kept
                  | with_reducible apply setFld_kept | with_reducible apply setChan_kept | with_reducible apply post_kept
                  | with_reducible apply sts_kept | with_reducible apply foldl_kept | extract_lets | split
                  | (intros; with_reducible assumption) | intro _ _ _ | intro _ _ | dsimp +zetaDelta only
                  | with_reducible refine Kept.mkUpd ?_ rfl rfl rfl

theorem mcRetire_kept {s₀ : State} (s : State) (a : Access) (n : Nat) (v : W32) (hK : Kept s₀ s) : Kept s₀ (mcRetire s a n v) := by
  refine cmdWrite_kept _ _ _ _ _ hK fun t ht => Kept.ite ht (Kept.ite (sts_kept _ _ ht) ?_)
  exact setFlag_kept _ _ _ (setFlag_kept _ _ _ (setFlag_kept _ _ _ (setFlag_kept _ _ _
    ⟨ht.pending, ht.fuses, fun w => memory_wf_filter _ _ _ (ht.ddr w), ht.host⟩)))

theorem scrubWord_kept {s₀ : State} (s : State) (a : Nat) (hK : Kept s₀ s) : Kept s₀ (scrubWord s a) := by
  unfold scrubWord
  repeat' first | with_reducible assumption | with_reducible apply Kept.ite | with_reducible apply setWordErr_kept
                  | with_reducible apply logErr_kept | with_reducible apply foldl_kept | extract_lets | split
                  | (intros; with_reducible assumption) | intro _ _ _ | intro _ _ | dsimp +zetaDelta only
                  | with_reducible refine Kept.mkUpd ?_ rfl rfl rfl

theorem scrubBlock_kept {s₀ : State} (s : State) (n : Nat) (blk : Nat) (errs : List (Nat × Bool)) (hK : Kept s₀ s) : Kept s₀
    (scrubBlock s n blk errs) := by
  unfold scrubBlock
  repeat' first | with_reducible assumption | with_reducible apply Kept.ite | with_reducible apply setChan_kept
                  | with_reducible apply scrubWord_kept | with_reducible apply newErrs_kept | with_reducible apply foldl_kept
                  | extract_lets | split | (intros; with_reducible assumption) | intro _ _ _ | intro _ _ | dsimp +zetaDelta only
                  | with_reducible refine Kept.mkUpd ?_ rfl rfl rfl

theorem ringCorrupt_kept {s₀ : State} (s : State) (r : Nat) (hK : Kept s₀ s) : Kept s₀ (ringCorrupt s r) := by
  unfold ringCorrupt
  repeat' first | with_reducible assumption | with_reducible apply Kept.ite | with_reducible apply sts_kept
                  | with_reducible apply inc_kept | with_reducible apply foldl_kept | extract_lets | split
                  | (intros; with_reducible assumption) | intro _ _ _ | intro _ _ | dsimp +zetaDelta only
                  | with_reducible refine Kept.mkUpd ?_ rfl rfl rfl

theorem countSlot_kept {s₀ : State} (s : State) (r : Nat) (k : Nat) (hK : Kept s₀ s) : Kept s₀ (countSlot s r k) := by
  unfold countSlot
  repeat' first | with_reducible assumption | with_reducible apply Kept.ite | with_reducible apply ringCorrupt_kept
                  | with_reducible apply setCring_kept | with_reducible apply foldl_kept | extract_lets | split
                  | (intros; with_reducible assumption) | intro _ _ _ | intro _ _ | dsimp +zetaDelta only
                  | with_reducible refine Kept.mkUpd ?_ rfl rfl rfl

theorem freshSlot_kept {s₀ : State} (s : State) (r : Nat) (k : Nat) (hK : Kept s₀ s) : Kept s₀ (freshSlot s r k) := by
  unfold freshSlot
  repeat' first | with_reducible assumption | with_reducible apply Kept.ite | with_reducible apply setCring_kept
                  | with_reducible apply foldl_kept | extract_lets | split | (intros; with_reducible assumption) | intro _ _ _
                  | intro _ _ | dsimp +zetaDelta only | with_reducible refine Kept.mkUpd ?_ rfl rfl rfl

theorem writerVerify_kept {s₀ : State} (s : State) (r : Nat) (k : Nat) (t : Tile) (hK : Kept s₀ s) : Kept s₀ (writerVerify s r k t).2
    := by
  unfold writerVerify
  repeat' first | with_reducible assumption | with_reducible apply freshSlot_kept | with_reducible apply countSlot_kept
                  | with_reducible apply foldl_kept | extract_lets | split | (intros; with_reducible assumption) | intro _ _ _
                  | intro _ _ | dsimp +zetaDelta only | with_reducible refine Kept.mkUpd ?_ rfl rfl rfl
theorem writerVerify_keq {s₀ : State} {t₁ : State} {o₁ : Tile}  {s : State} {r : Nat} {k : Nat} {t : Tile} (hE : (writerVerify s r k
    t) = (o₁, t₁)) (hK : Kept s₀ s) : Kept s₀ t₁ := by
  have := writerVerify_kept s r k t hK
  rw [hE] at this; exact this

theorem pushReplay_kept {s₀ : State} (s : State) (h : Nat) (x : List RItem) (hK : Kept s₀ s) : Kept s₀ (pushReplay s h x) := by
  unfold pushReplay
  repeat' first | with_reducible assumption | with_reducible apply Kept.ite | with_reducible apply setStream_kept
                  | with_reducible apply foldl_kept | extract_lets | split | (intros; with_reducible assumption) | intro _ _ _
                  | intro _ _ | dsimp +zetaDelta only | with_reducible refine Kept.mkUpd ?_ rfl rfl rfl

theorem replayItem_kept {s₀ : State} (s : State) (r : Nat) (R : Replay) (xs : List RItem) (hK : Kept s₀ s) : Kept s₀ (replayItem s r
    R xs) := by
  unfold replayItem
  repeat' first | with_reducible assumption | with_reducible apply Kept.ite | with_reducible apply setCring_kept
                  | with_reducible apply pushReplay_kept | with_reducible apply foldl_kept | extract_lets | split
                  | (intros; with_reducible assumption) | intro _ _ _ | intro _ _ | dsimp +zetaDelta only
                  | with_reducible refine Kept.mkUpd ?_ rfl rfl rfl

theorem ringPost_kept {s₀ : State} (s : State) (r : Nat) (ty : Nat) (aux : Nat) (data : Nat) (hK : Kept s₀ s) : Kept s₀ (ringPost s r
    ty aux data) := by
  unfold ringPost
  repeat' first | with_reducible assumption | with_reducible apply Kept.ite | with_reducible apply post_kept
                  | with_reducible apply foldl_kept | extract_lets | split | (intros; with_reducible assumption) | intro _ _ _
                  | intro _ _ | dsimp +zetaDelta only | with_reducible refine Kept.mkUpd ?_ rfl rfl rfl

theorem endReplay_kept {s₀ : State} (s : State) (r : Nat) (hK : Kept s₀ s) : Kept s₀ (endReplay s r) := by
  unfold endReplay
  repeat' first | with_reducible assumption | with_reducible apply Kept.ite | with_reducible apply pushReplay_kept
                  | with_reducible apply setCring_kept | with_reducible apply setFlag_kept | with_reducible apply ringPost_kept
                  | with_reducible apply foldl_kept | extract_lets | split | (intros; with_reducible assumption) | intro _ _ _
                  | intro _ _ | dsimp +zetaDelta only | with_reducible refine Kept.mkUpd ?_ rfl rfl rfl

theorem releaseMark_kept {s₀ : State} (s : State) (r : Nat) (hK : Kept s₀ s) : Kept s₀ (releaseMark s r) := by
  unfold releaseMark
  repeat' first | with_reducible assumption | with_reducible apply Kept.ite | with_reducible apply setFlag_kept
                  | with_reducible apply setCring_kept | with_reducible apply endReplay_kept | with_reducible apply evalPins_kept
                  | with_reducible apply foldl_kept | extract_lets | split | (intros; with_reducible assumption) | intro _ _ _
                  | intro _ _ | dsimp +zetaDelta only | with_reducible refine Kept.mkUpd ?_ rfl rfl rfl

theorem replayDone_kept {s₀ : State} (s : State) (r : Nat) (hK : Kept s₀ s) : Kept s₀ (replayDone s r) := by
  unfold replayDone
  repeat' first | with_reducible assumption | with_reducible apply Kept.ite | with_reducible apply endReplay_kept
                  | with_reducible apply releaseMark_kept | with_reducible apply foldl_kept | extract_lets | split
                  | (intros; with_reducible assumption) | intro _ _ _ | intro _ _ | dsimp +zetaDelta only
                  | with_reducible refine Kept.mkUpd ?_ rfl rfl rfl

theorem handItem_kept {s₀ : State} (s : State) (r : Nat) (h : Nat) (x : RItem) (hK : Kept s₀ s) : Kept s₀ (handItem s r h x) := by
  unfold handItem
  repeat' first | with_reducible assumption | with_reducible apply Kept.ite | with_reducible apply setCring_kept
                  | with_reducible apply pushReplay_kept | with_reducible apply foldl_kept | extract_lets | split
                  | (intros; with_reducible assumption) | intro _ _ _ | intro _ _ | dsimp +zetaDelta only
                  | with_reducible refine Kept.mkUpd ?_ rfl rfl rfl

theorem handFill_kept {s₀ : State} (s : State) (r : Nat) (code : Nat) (num : Nat) (part : Nat) (t : Option Tile) (hK : Kept s₀ s) :
    Kept s₀ (handFill s r code num part t) := by
  unfold handFill
  repeat' first | with_reducible assumption | with_reducible apply Kept.ite | with_reducible apply setCring_kept
                  | with_reducible apply handItem_kept | with_reducible apply foldl_kept | extract_lets | split
                  | (intros; with_reducible assumption) | intro _ _ _ | intro _ _ | dsimp +zetaDelta only
                  | with_reducible refine Kept.mkUpd ?_ rfl rfl rfl

theorem clearResvAt_kept {s₀ : State} (s : State) (r : Nat) (k : Nat) (hK : Kept s₀ s) : Kept s₀ (clearResvAt s r k) := by
  unfold clearResvAt
  repeat' first | with_reducible assumption | with_reducible apply Kept.ite | with_reducible apply handFill_kept
                  | with_reducible apply setCring_kept | with_reducible apply foldl_kept | extract_lets | split
                  | (intros; with_reducible assumption) | intro _ _ _ | intro _ _ | dsimp +zetaDelta only
                  | with_reducible refine Kept.mkUpd ?_ rfl rfl rfl

theorem overrunMark_kept {s₀ : State} (s : State) (r : Nat) (hK : Kept s₀ s) : Kept s₀ (overrunMark s r) := by
  unfold overrunMark
  repeat' first | with_reducible assumption | with_reducible apply Kept.ite | with_reducible apply setCring_kept
                  | with_reducible apply sts_kept | with_reducible apply inc_kept | with_reducible apply ringPost_kept
                  | with_reducible apply replayDone_kept | with_reducible apply foldl_kept | extract_lets | split
                  | (intros; with_reducible assumption) | intro _ _ _ | intro _ _ | dsimp +zetaDelta only
                  | with_reducible refine Kept.mkUpd ?_ rfl rfl rfl

theorem enterStall_kept {s₀ : State} (s : State) (r : Nat) (hK : Kept s₀ s) : Kept s₀ (enterStall s r) := by
  unfold enterStall
  repeat' first | with_reducible assumption | with_reducible apply Kept.ite | with_reducible apply evalPins_kept
                  | with_reducible apply setFlag_kept | with_reducible apply foldl_kept | extract_lets | split
                  | (intros; with_reducible assumption) | intro _ _ _ | intro _ _ | dsimp +zetaDelta only
                  | with_reducible refine Kept.mkUpd ?_ rfl rfl rfl

theorem writeSlot_kept {s₀ : State} (s : State) (r : Nat) (ws : List W64) (hK : Kept s₀ s) : Kept s₀ (writeSlot s r ws) := by
  unfold writeSlot
  repeat' first | with_reducible assumption | with_reducible apply Kept.ite | with_reducible apply clearResvAt_kept
                  | with_reducible apply ddrWrite_kept | with_reducible apply overrunMark_kept | with_reducible apply setCring_kept
                  | with_reducible apply foldl_kept | extract_lets | split | (intros; with_reducible assumption) | intro _ _ _
                  | intro _ _ | dsimp +zetaDelta only | with_reducible refine Kept.mkUpd ?_ rfl rfl rfl

theorem writeNote_kept {s₀ : State} (s : State) (r : Nat) (ws : List W64) (hK : Kept s₀ s) : Kept s₀ (writeNote s r ws) := by
  unfold writeNote
  repeat' first | with_reducible assumption | with_reducible apply Kept.ite | with_reducible apply writeSlot_kept
                  | with_reducible apply freshSlot_kept | with_reducible apply foldl_kept | extract_lets | split
                  | (intros; with_reducible assumption) | intro _ _ _ | intro _ _ | dsimp +zetaDelta only
                  | with_reducible refine Kept.mkUpd ?_ rfl rfl rfl

theorem stallEntry_kept {s₀ : State} (s : State) (r : Nat) (code : Nat) (x : QItem) (hK : Kept s₀ s) : Kept s₀ (stallEntry s r code
    x) := by
  unfold stallEntry
  repeat' first | with_reducible assumption | with_reducible apply Kept.ite | with_reducible apply countDrop_kept
                  | with_reducible apply enterStall_kept | with_reducible apply foldl_kept | extract_lets | split
                  | (intros; with_reducible assumption) | intro _ _ _ | intro _ _ | dsimp +zetaDelta only
                  | with_reducible refine Kept.mkUpd ?_ rfl rfl rfl

theorem ringTile_kept {s₀ : State} (s : State) (r : Nat) (t : Tile) (hK : Kept s₀ s) : Kept s₀ (ringTile s r t) := by
  unfold ringTile
  repeat' first | with_reducible assumption | with_reducible apply Kept.ite | with_reducible apply writerVerify_kept
                  | with_reducible apply writeSlot_kept | with_reducible refine writerVerify_keq (by with_reducible assumption) ?_
                  | with_reducible apply foldl_kept | extract_lets | split | (intros; with_reducible assumption) | intro _ _ _
                  | intro _ _ | dsimp +zetaDelta only | with_reducible refine Kept.mkUpd ?_ rfl rfl rfl

theorem ringDropNote_kept {s₀ : State} (s : State) (r : Nat) (code : Nat) (t : Tile) (hK : Kept s₀ s) : Kept s₀ (ringDropNote s r
    code t) := by
  unfold ringDropNote
  repeat' first | with_reducible assumption | with_reducible apply Kept.ite | with_reducible apply setDrops_kept
                  | with_reducible apply writeNote_kept | with_reducible apply foldl_kept | extract_lets | split
                  | (intros; with_reducible assumption) | intro _ _ _ | intro _ _ | dsimp +zetaDelta only
                  | with_reducible refine Kept.mkUpd ?_ rfl rfl rfl

theorem loseResv_kept {s₀ : State} (s : State) (r : Nat) (g : Nat) (hK : Kept s₀ s) : Kept s₀ (loseResv s r g) := by
  unfold loseResv
  repeat' first | with_reducible assumption | with_reducible apply Kept.ite | with_reducible apply handFill_kept
                  | with_reducible apply setCring_kept | with_reducible apply foldl_kept | extract_lets | split
                  | (intros; with_reducible assumption) | intro _ _ _ | intro _ _ | dsimp +zetaDelta only
                  | with_reducible refine Kept.mkUpd ?_ rfl rfl rfl

theorem ringReservation_kept {s₀ : State} (s : State) (r : Nat) (g : Nat) (num : Nat) (part : Nat) (hK : Kept s₀ s) : Kept s₀
    (ringReservation s r g num part) := by
  unfold ringReservation
  repeat' first | with_reducible assumption | with_reducible apply Kept.ite | with_reducible apply loseResv_kept
                  | with_reducible apply writeNote_kept | with_reducible apply setCring_kept | with_reducible apply foldl_kept
                  | extract_lets | split | (intros; with_reducible assumption) | intro _ _ _ | intro _ _ | dsimp +zetaDelta only
                  | with_reducible refine Kept.mkUpd ?_ rfl rfl rfl

theorem ringFill_kept {s₀ : State} (s : State) (r : Nat) (g : Nat) (num : Nat) (part : Nat) (t : Tile) (hK : Kept s₀ s) : Kept s₀
    (ringFill s r g num part t) := by
  unfold ringFill
  repeat' first | with_reducible assumption | with_reducible apply Kept.ite | with_reducible apply writerVerify_kept
                  | with_reducible apply ddrWrite_kept | with_reducible apply setCring_kept | with_reducible apply handFill_kept
                  | with_reducible apply inc_kept | with_reducible refine writerVerify_keq (by with_reducible assumption) ?_
                  | with_reducible apply foldl_kept | extract_lets | split | (intros; with_reducible assumption) | intro _ _ _
                  | intro _ _ | dsimp +zetaDelta only | with_reducible refine Kept.mkUpd ?_ rfl rfl rfl

theorem dropUnbound_kept {s₀ : State} (s : State) (r : Nat) (hK : Kept s₀ s) : Kept s₀ (dropUnbound s r) := by
  unfold dropUnbound
  repeat' first | with_reducible assumption | with_reducible apply Kept.ite | with_reducible apply loseResv_kept
                  | with_reducible apply foldl_kept | extract_lets | split | (intros; with_reducible assumption) | intro _ _ _
                  | intro _ _ | dsimp +zetaDelta only | with_reducible refine Kept.mkUpd ?_ rfl rfl rfl

theorem ringEntry_kept {s₀ : State} (s : State) (r : Nat) (x : Inbound) (rest : List Inbound) (hK : Kept s₀ s) : Kept s₀ (ringEntry s
    r x rest) := by
  unfold ringEntry
  repeat' first | with_reducible assumption | with_reducible apply Kept.ite | with_reducible apply setCring_kept
                  | with_reducible apply ringFill_kept | with_reducible apply stallEntry_kept
                  | with_reducible apply ringDropNote_kept | with_reducible apply ringTile_kept
                  | with_reducible apply ringReservation_kept | with_reducible apply writeNote_kept
                  | with_reducible apply foldl_kept | extract_lets | split | (intros; with_reducible assumption) | intro _ _ _
                  | intro _ _ | dsimp +zetaDelta only | with_reducible refine Kept.mkUpd ?_ rfl rfl rfl

theorem ringWrite_kept {s₀ : State} (s : State) (r : Nat) (hK : Kept s₀ s) : Kept s₀ (ringWrite s r) := by
  unfold ringWrite
  repeat' first | with_reducible assumption | with_reducible apply Kept.ite | with_reducible apply setCring_kept
                  | with_reducible apply dropUnbound_kept | with_reducible apply ringEntry_kept | with_reducible apply foldl_kept
                  | extract_lets | split | (intros; with_reducible assumption) | intro _ _ _ | intro _ _ | dsimp +zetaDelta only
                  | with_reducible refine Kept.mkUpd ?_ rfl rfl rfl

theorem rebindAll_kept {s₀ : State} (s : State) (hK : Kept s₀ s) : Kept s₀ (rebindAll s) := by
  unfold rebindAll
  repeat' first | with_reducible assumption | with_reducible apply Kept.ite | with_reducible apply forEach_kept
                  | with_reducible apply rebind_kept | with_reducible apply dropUnbound_kept | with_reducible apply foldl_kept
                  | extract_lets | split | (intros; with_reducible assumption) | intro _ _ _ | intro _ _ | dsimp +zetaDelta only
                  | with_reducible refine Kept.mkUpd ?_ rfl rfl rfl

theorem ringRefuse_kept {s₀ : State} (s : State) (r : Nat) (code : Nat) (hK : Kept s₀ s) : Kept s₀ (ringRefuse s r code) := by
  unfold ringRefuse
  repeat' first | with_reducible assumption | with_reducible apply Kept.ite | with_reducible apply setFld_kept
                  | with_reducible apply sts_kept | with_reducible apply foldl_kept | extract_lets | split
                  | (intros; with_reducible assumption) | intro _ _ _ | intro _ _ | dsimp +zetaDelta only
                  | with_reducible refine Kept.mkUpd ?_ rfl rfl rfl

theorem crStart_kept {s₀ : State} (s : State) (a : Access) (r : Nat) (v : W32) (hK : Kept s₀ s) : Kept s₀ (crStart s a r v) := by
  unfold crStart
  repeat' first | with_reducible assumption | with_reducible apply Kept.ite | with_reducible apply cmdWrite_kept
                  | with_reducible apply ringRefuse_kept | with_reducible apply releaseMark_kept
                  | with_reducible apply handFill_kept | with_reducible apply setCring_kept | with_reducible apply setFlag_kept
                  | with_reducible apply setFld_kept | with_reducible apply rebindAll_kept | with_reducible apply foldl_kept
                  | extract_lets | split | (intros; with_reducible assumption) | intro _ _ _ | intro _ _ | dsimp +zetaDelta only
                  | with_reducible refine Kept.mkUpd ?_ rfl rfl rfl

theorem crStop_kept {s₀ : State} (s : State) (a : Access) (r : Nat) (v : W32) (hK : Kept s₀ s) : Kept s₀ (crStop s a r v) := by
  unfold crStop
  repeat' first | with_reducible assumption | with_reducible apply Kept.ite | with_reducible apply cmdWrite_kept
                  | with_reducible apply rebindAll_kept | with_reducible apply setFlag_kept | with_reducible apply foldl_kept
                  | extract_lets | split | (intros; with_reducible assumption) | intro _ _ _ | intro _ _ | dsimp +zetaDelta only
                  | with_reducible refine Kept.mkUpd ?_ rfl rfl rfl

theorem ringT_kept {s₀ : State} (s : State) (hK : Kept s₀ s) : Kept s₀ (ringT s).2 := by
  unfold ringT
  repeat' first | with_reducible assumption | with_reducible apply takeFree_kept
                  | with_reducible refine takeFree_keq (by with_reducible assumption) ?_ | with_reducible apply foldl_kept
                  | extract_lets | split | (intros; with_reducible assumption) | intro _ _ _ | intro _ _ | dsimp +zetaDelta only
                  | with_reducible refine Kept.mkUpd ?_ rfl rfl rfl
theorem ringT_keq {s₀ : State} {t₁ : State} {o₁ : W64}  {s : State} (hE : (ringT s) = (o₁, t₁)) (hK : Kept s₀ s) : Kept s₀ t₁ := by
  have := ringT_kept s hK
  rw [hE] at this; exact this

theorem markRequest_kept {s₀ : State} (s : State) (r : Nat) (t : W64) (hK : Kept s₀ s) : Kept s₀ (markRequest s r t) := by
  unfold markRequest
  repeat' first | with_reducible assumption | with_reducible apply Kept.ite | with_reducible apply setCring_kept
                  | with_reducible apply setFlag_kept | with_reducible apply postAt_kept | with_reducible apply ringPost_kept
                  | with_reducible apply inc_kept | with_reducible apply foldl_kept | extract_lets | split
                  | (intros; with_reducible assumption) | intro _ _ _ | intro _ _ | dsimp +zetaDelta only
                  | with_reducible refine Kept.mkUpd ?_ rfl rfl rfl

theorem crMark_kept {s₀ : State} (s : State) (a : Access) (r : Nat) (v : W32) (hK : Kept s₀ s) : Kept s₀ (crMark s a r v) := by
  unfold crMark
  repeat' first | with_reducible assumption | with_reducible apply Kept.ite | with_reducible apply cmdWrite_kept
                  | with_reducible apply ringT_kept | with_reducible apply markRequest_kept
                  | with_reducible refine ringT_keq (by with_reducible assumption) ?_ | with_reducible apply foldl_kept
                  | extract_lets | split | (intros; with_reducible assumption) | intro _ _ _ | intro _ _ | dsimp +zetaDelta only
                  | with_reducible refine Kept.mkUpd ?_ rfl rfl rfl

theorem markArrival_kept {s₀ : State} (s : State) (r : Nat) (hK : Kept s₀ s) : Kept s₀ (markArrival s r) := by
  unfold markArrival
  repeat' first | with_reducible assumption | with_reducible apply Kept.ite | with_reducible apply ringT_kept
                  | with_reducible refine ringT_keq (by with_reducible assumption) ?_ | with_reducible apply foldl_kept
                  | extract_lets | split | (intros; with_reducible assumption) | intro _ _ _ | intro _ _ | dsimp +zetaDelta only
                  | with_reducible refine Kept.mkUpd ?_ rfl rfl rfl

theorem applyMarks_kept {s₀ : State} (s : State) (hK : Kept s₀ s) : Kept s₀ (applyMarks s) := by
  unfold applyMarks
  repeat' first | with_reducible assumption | with_reducible apply Kept.ite | with_reducible apply markRequest_kept
                  | with_reducible apply foldl_kept | extract_lets | split | (intros; with_reducible assumption) | intro _ _ _
                  | intro _ _ | dsimp +zetaDelta only | with_reducible refine Kept.mkUpd ?_ rfl rfl rfl

theorem crRelease_kept {s₀ : State} (s : State) (a : Access) (r : Nat) (v : W32) (hK : Kept s₀ s) : Kept s₀ (crRelease s a r v) := by
  unfold crRelease
  repeat' first | with_reducible assumption | with_reducible apply Kept.ite | with_reducible apply cmdWrite_kept
                  | with_reducible apply releaseMark_kept | with_reducible apply foldl_kept | extract_lets | split
                  | (intros; with_reducible assumption) | intro _ _ _ | intro _ _ | dsimp +zetaDelta only
                  | with_reducible refine Kept.mkUpd ?_ rfl rfl rfl

theorem startReplay_kept {s₀ : State} (s : State) (r : Nat) (hK : Kept s₀ s) : Kept s₀ (startReplay s r) := by
  unfold startReplay
  repeat' first | with_reducible assumption | with_reducible apply Kept.ite | with_reducible apply ringRefuse_kept
                  | with_reducible apply setCring_kept | with_reducible apply setFlag_kept | with_reducible apply replayDone_kept
                  | with_reducible apply foldl_kept | extract_lets | split | (intros; with_reducible assumption) | intro _ _ _
                  | intro _ _ | dsimp +zetaDelta only | with_reducible refine Kept.mkUpd ?_ rfl rfl rfl

theorem spliceWritten_kept {s₀ : State} (s : State) (r : Nat) (hK : Kept s₀ s) : Kept s₀ (spliceWritten s r) := by
  unfold spliceWritten
  repeat' first | with_reducible assumption | with_reducible apply Kept.ite | with_reducible apply setCring_kept
                  | with_reducible apply startReplay_kept | with_reducible apply foldl_kept | extract_lets | split
                  | (intros; with_reducible assumption) | intro _ _ _ | intro _ _ | dsimp +zetaDelta only
                  | with_reducible refine Kept.mkUpd ?_ rfl rfl rfl

theorem crReplay_kept {s₀ : State} (s : State) (a : Access) (r : Nat) (v : W32) (hK : Kept s₀ s) : Kept s₀ (crReplay s a r v) := by
  unfold crReplay
  repeat' first | with_reducible assumption | with_reducible apply Kept.ite | with_reducible apply cmdWrite_kept
                  | with_reducible apply startReplay_kept | with_reducible apply foldl_kept | extract_lets | split
                  | (intros; with_reducible assumption) | intro _ _ _ | intro _ _ | dsimp +zetaDelta only
                  | with_reducible refine Kept.mkUpd ?_ rfl rfl rfl

theorem slotItem_kept {s₀ : State} (s : State) (r : Nat) (k : Nat) (R : Replay) (ws : List W64) (ue : Bool) (hK : Kept s₀ s) : Kept
    s₀ (slotItem s r k R ws ue).2 := by
  unfold slotItem
  repeat' first | with_reducible assumption | with_reducible apply setCring_kept | with_reducible apply countSlot_kept
                  | with_reducible apply foldl_kept | extract_lets | split | (intros; with_reducible assumption) | intro _ _ _
                  | intro _ _ | dsimp +zetaDelta only | with_reducible refine Kept.mkUpd ?_ rfl rfl rfl
theorem slotItem_keq {s₀ : State} {t₁ : State} {o₁ : List RItem}  {s : State} {r : Nat} {k : Nat} {R : Replay} {ws : List W64} {ue :
    Bool} (hE : (slotItem s r k R ws ue) = (o₁, t₁)) (hK : Kept s₀ s) : Kept s₀ t₁ := by
  have := slotItem_kept s r k R ws ue hK
  rw [hE] at this; exact this

theorem replaySlotRead_kept {s₀ : State} (s : State) (r : Nat) (errs : List (Nat × Bool)) (hK : Kept s₀ s) : Kept s₀ (replaySlotRead
    s r errs) := by
  unfold replaySlotRead
  repeat' first | with_reducible assumption | with_reducible apply Kept.ite | with_reducible apply setStream_kept
                  | with_reducible apply readBlock_kept | with_reducible apply slotItem_kept | with_reducible apply replayItem_kept
                  | with_reducible apply replayDone_kept | with_reducible refine readBlock_keq (by with_reducible assumption) ?_
                  | with_reducible refine slotItem_keq (by with_reducible assumption) ?_ | with_reducible apply foldl_kept
                  | extract_lets | split | (intros; with_reducible assumption) | intro _ _ _ | intro _ _ | dsimp +zetaDelta only
                  | with_reducible refine Kept.mkUpd ?_ rfl rfl rfl

theorem crMigrate_kept {s₀ : State} (s : State) (a : Access) (r : Nat) (v : W32) (hK : Kept s₀ s) : Kept s₀ (crMigrate s a r v) := by
  unfold crMigrate
  repeat' first | with_reducible assumption | with_reducible apply Kept.ite | with_reducible apply cmdWrite_kept
                  | with_reducible apply ringRefuse_kept | with_reducible apply setCring_kept | with_reducible apply setFlag_kept
                  | with_reducible apply foldl_kept | extract_lets | split | (intros; with_reducible assumption) | intro _ _ _
                  | intro _ _ | dsimp +zetaDelta only | with_reducible refine Kept.mkUpd ?_ rfl rfl rfl

theorem endMigration_kept {s₀ : State} (s : State) (r : Nat) (m : Migration) (hK : Kept s₀ s) : Kept s₀ (endMigration s r m) := by
  unfold endMigration
  repeat' first | with_reducible assumption | with_reducible apply Kept.ite | with_reducible apply setCring_kept
                  | with_reducible apply setFld_kept | with_reducible apply setFlag_kept | with_reducible apply ringPost_kept
                  | with_reducible apply foldl_kept | extract_lets | split | (intros; with_reducible assumption) | intro _ _ _
                  | intro _ _ | dsimp +zetaDelta only | with_reducible refine Kept.mkUpd ?_ rfl rfl rfl

theorem migrationCopy_kept {s₀ : State} (s : State) (r : Nat) (errs : List (Nat × Bool)) (hK : Kept s₀ s) : Kept s₀ (migrationCopy s
    r errs) := by
  unfold migrationCopy
  repeat' first | with_reducible assumption | with_reducible apply Kept.ite | with_reducible apply readBlock_kept
                  | with_reducible apply countSlot_kept | with_reducible apply ddrWrite_kept
                  | with_reducible apply endMigration_kept | with_reducible apply setCring_kept
                  | with_reducible refine readBlock_keq (by with_reducible assumption) ?_ | with_reducible apply foldl_kept
                  | extract_lets | split | (intros; with_reducible assumption) | intro _ _ _ | intro _ _ | dsimp +zetaDelta only
                  | with_reducible refine Kept.mkUpd ?_ rfl rfl rfl

theorem applyCr_kept {s₀ : State} (s : State) (r : Nat) (hK : Kept s₀ s) : Kept s₀ (applyCr s r) := by
  unfold applyCr
  repeat' first | with_reducible assumption | with_reducible apply Kept.ite | with_reducible apply applyRegs_kept
                  | with_reducible apply evalPins_kept | with_reducible apply setFlag_kept | with_reducible apply rebindAll_kept
                  | with_reducible apply foldl_kept | extract_lets | split | (intros; with_reducible assumption) | intro _ _ _
                  | intro _ _ | dsimp +zetaDelta only | with_reducible refine Kept.mkUpd ?_ rfl rfl rfl

/-! ## Packer -/

theorem settleCut_kept {s₀ : State} (s : State) (g : Nat) (hK : Kept s₀ s) : Kept s₀ (settleCut s g) := by
  unfold settleCut
  repeat' first | with_reducible assumption | with_reducible apply Kept.ite | with_reducible apply setCut_kept
                  | with_reducible apply foldl_kept | extract_lets | split | (intros; with_reducible assumption) | intro _ _ _
                  | intro _ _ | dsimp +zetaDelta only | with_reducible refine Kept.mkUpd ?_ rfl rfl rfl

theorem noteDone_kept {s₀ : State} (s : State) (g : Nat) (seq : Nat) (hK : Kept s₀ s) : Kept s₀ (noteDone s g seq) := by
  unfold noteDone
  repeat' first | with_reducible assumption | with_reducible apply Kept.ite | with_reducible apply setCut_kept
                  | with_reducible apply foldl_kept | extract_lets | split | (intros; with_reducible assumption) | intro _ _ _
                  | intro _ _ | dsimp +zetaDelta only | with_reducible refine Kept.mkUpd ?_ rfl rfl rfl

theorem settleCuts_kept {s₀ : State} (s : State) (hK : Kept s₀ s) : Kept s₀ (settleCuts s) := by
  unfold settleCuts
  repeat' first | with_reducible assumption | with_reducible apply Kept.ite | with_reducible apply forEach_kept
                  | with_reducible apply settleCut_kept | with_reducible apply foldl_kept | extract_lets | split
                  | (intros; with_reducible assumption) | intro _ _ _ | intro _ _ | dsimp +zetaDelta only
                  | with_reducible refine Kept.mkUpd ?_ rfl rfl rfl

theorem completeBufs_kept {s₀ : State} (s : State) (h n : Nat) (hK : Kept s₀ s) : Kept s₀ (completeBufs s h n) := by
  induction n generalizing s with
  | zero => exact hK
  | succ n ih =>
    unfold completeBufs
    extract_lets S
    split
    · exact hK
    · refine Kept.ite (ih _ (settleCuts_kept _ (advanceDev_kept _ _ _ (setStream_kept _ _ _
        (foldl_kept (entryWrite_kept _ _ _ _ hK) fun t x ht => ?_))))) hK
      split
      · exact noteDone_kept _ _ _ ht
      · exact ht

theorem completeAll_kept {s₀ : State} (s : State) (h : Nat) (hK : Kept s₀ s) : Kept s₀ (completeAll s h) := by
  unfold completeAll
  repeat' first | with_reducible assumption | with_reducible apply Kept.ite | with_reducible apply completeBufs_kept
                  | with_reducible apply foldl_kept | extract_lets | split | (intros; with_reducible assumption) | intro _ _ _
                  | intro _ _ | dsimp +zetaDelta only | with_reducible refine Kept.mkUpd ?_ rfl rfl rfl

theorem closeBuf_kept {s₀ : State} (s : State) (h : Nat) (part : Bool) (hK : Kept s₀ s) : Kept s₀ (closeBuf s h part) := by
  unfold closeBuf
  repeat' first | with_reducible assumption | with_reducible apply Kept.ite | with_reducible apply completeAll_kept
                  | with_reducible apply setStream_kept | with_reducible apply foldl_kept | extract_lets | split
                  | (intros; with_reducible assumption) | intro _ _ _ | intro _ _ | dsimp +zetaDelta only
                  | with_reducible refine Kept.mkUpd ?_ rfl rfl rfl

theorem takeBuf_kept {s₀ : State} (s : State) (h : Nat) (addr : Nat) (tag : W32) (hK : Kept s₀ s) : Kept s₀ (takeBuf s h addr tag) := by
  unfold takeBuf
  repeat' first | with_reducible assumption | with_reducible apply Kept.ite | with_reducible apply setHring_kept
                  | with_reducible apply advanceDev_kept | with_reducible apply setStream_kept | with_reducible apply foldl_kept
                  | extract_lets | split | (intros; with_reducible assumption) | intro _ _ _ | intro _ _ | dsimp +zetaDelta only
                  | with_reducible refine Kept.mkUpd ?_ rfl rfl rfl

theorem ensureBuf_ksome {s₀ s b : State} {h : Nat} (e : ensureBuf s h = some b) (hK : Kept s₀ s) : Kept s₀ b := by
  unfold ensureBuf at e
  split at e
  · split at e
    · cases e; exact hK
    · obtain ⟨x, _, rfl⟩ := Option.map_eq_some_iff.mp e
      exact takeBuf_kept _ _ _ _ (closeBuf_kept _ _ _ hK)
  · obtain ⟨x, _, rfl⟩ := Option.map_eq_some_iff.mp e
    exact takeBuf_kept _ _ _ _ hK

theorem putBlock_kept {s₀ : State} (s : State) (h : Nat) (addr : Nat) (bs : List Byte) (hK : Kept s₀ s) : Kept s₀ (putBlock s h addr
    bs) := by
  unfold putBlock
  repeat' first | with_reducible assumption | with_reducible apply Kept.ite | with_reducible apply hostWrite_kept
                  | with_reducible apply setPair64_kept | with_reducible apply setStream_kept | with_reducible apply foldl_kept
                  | extract_lets | split | (intros; with_reducible assumption) | intro _ _ _ | intro _ _ | dsimp +zetaDelta only
                  | with_reducible refine Kept.mkUpd ?_ rfl rfl rfl

theorem modBlk_kept {s₀ : State} (s : State) (h : Nat) (f : Blk → Blk) (hK : Kept s₀ s) : Kept s₀ (modBlk s h f) := by
  unfold modBlk
  repeat' first | with_reducible assumption | with_reducible apply Kept.ite | with_reducible apply setStream_kept
                  | with_reducible apply foldl_kept | extract_lets | split | (intros; with_reducible assumption) | intro _ _ _
                  | intro _ _ | dsimp +zetaDelta only | with_reducible refine Kept.mkUpd ?_ rfl rfl rfl

theorem closeBlk_kept {s₀ : State} (s : State) (h : Nat) (hK : Kept s₀ s) : Kept s₀ (closeBlk s h) := by
  unfold closeBlk
  repeat' first | with_reducible assumption | with_reducible apply Kept.ite | with_reducible apply putBlock_kept
                  | with_reducible apply setStream_kept | with_reducible apply foldl_kept | extract_lets | split
                  | (intros; with_reducible assumption) | intro _ _ _ | intro _ _ | dsimp +zetaDelta only
                  | with_reducible refine Kept.mkUpd ?_ rfl rfl rfl

theorem nextSeq_kept {s₀ : State} (s : State) (h : Nat) (hK : Kept s₀ s) : Kept s₀ (nextSeq s h).2 := by
  unfold nextSeq
  repeat' first | with_reducible assumption | with_reducible apply bump_kept | with_reducible apply foldl_kept | extract_lets
                  | split | (intros; with_reducible assumption) | intro _ _ _ | intro _ _ | dsimp +zetaDelta only
                  | with_reducible refine Kept.mkUpd ?_ rfl rfl rfl
theorem nextSeq_keq {s₀ : State} {t₁ : State} {o₁ : Nat}  {s : State} {h : Nat} (hE : (nextSeq s h) = (o₁, t₁)) (hK : Kept s₀ s) :
    Kept s₀ t₁ := by
  have := nextSeq_kept s h hK
  rw [hE] at this; exact this

theorem shutBlk_kept {s₀ : State} (s : State) (h : Nat) (hK : Kept s₀ s) : Kept s₀ (shutBlk s h) := by
  unfold shutBlk
  repeat' first | with_reducible assumption | with_reducible apply Kept.ite | with_reducible apply modBlk_kept
                  | with_reducible apply closeBlk_kept | with_reducible apply foldl_kept | extract_lets | split
                  | (intros; with_reducible assumption) | intro _ _ _ | intro _ _ | dsimp +zetaDelta only
                  | with_reducible refine Kept.mkUpd ?_ rfl rfl rfl

theorem openBlk_ksome {s₀ s b : State} {h : Nat} {rep : Bool} (e : openBlk s h rep = some b) (hK : Kept s₀ s) : Kept s₀ b := by
  obtain ⟨x, hx, rfl⟩ := Option.map_eq_some_iff.mp e
  exact setStream_kept _ _ _ (bump_kept _ _ (ensureBuf_ksome hx hK))

theorem room_kept {s₀ : State} (s : State) (h : Nat) (rep : Bool) (bits : Nat) (n : Nat) (hK : Kept s₀ s) : Kept s₀ (room s h rep
    bits n).2 := by
  unfold room
  repeat' first | with_reducible assumption | with_reducible apply closeBlk_kept
                  | with_reducible refine openBlk_ksome (by with_reducible assumption) ?_ | with_reducible apply foldl_kept
                  | extract_lets | split | (intros; with_reducible assumption) | intro _ _ _ | intro _ _ | dsimp +zetaDelta only
                  | with_reducible refine Kept.mkUpd ?_ rfl rfl rfl
theorem room_keq {s₀ : State} {t₁ : State} {o₁ : Nat}  {s : State} {h : Nat} {rep : Bool} {bits : Nat} {n : Nat} (hE : (room s h rep
    bits n) = (o₁, t₁)) (hK : Kept s₀ s) : Kept s₀ t₁ := by
  have := room_kept s h rep bits n hK
  rw [hE] at this; exact this

theorem noBuf_kept {s₀ : State} (s : State) (h : Nat) (hK : Kept s₀ s) : Kept s₀ (noBuf s h) := by
  unfold noBuf
  repeat' first | with_reducible assumption | with_reducible apply Kept.ite | with_reducible apply sts_kept
                  | with_reducible apply inc_kept | with_reducible apply setStream_kept | with_reducible apply foldl_kept
                  | extract_lets | split | (intros; with_reducible assumption) | intro _ _ _ | intro _ _ | dsimp +zetaDelta only
                  | with_reducible refine Kept.mkUpd ?_ rfl rfl rfl

theorem listEntry_kept {s₀ : State} (s : State) (h : Nat) (w : W64) (hK : Kept s₀ s) : Kept s₀ (listEntry s h w) := by
  unfold listEntry
  repeat' first | with_reducible assumption | with_reducible apply Kept.ite | with_reducible apply modBlk_kept
                  | with_reducible apply foldl_kept | extract_lets | split | (intros; with_reducible assumption) | intro _ _ _
                  | intro _ _ | dsimp +zetaDelta only | with_reducible refine Kept.mkUpd ?_ rfl rfl rfl

theorem pkPost_kept {s₀ : State} (s : State) (h : Nat) (ty : Nat) (code : Nat) (seq : Nat) (hK : Kept s₀ s) : Kept s₀ (pkPost s h ty
    code seq) := by
  unfold pkPost
  repeat' first | with_reducible assumption | with_reducible apply Kept.ite | with_reducible apply post_kept
                  | with_reducible apply foldl_kept | extract_lets | split | (intros; with_reducible assumption) | intro _ _ _
                  | intro _ _ | dsimp +zetaDelta only | with_reducible refine Kept.mkUpd ?_ rfl rfl rfl

theorem noteFail_kept {s₀ : State} (s : State) (h : Nat) (t : Tile) (raw : Bool) (hK : Kept s₀ s) : Kept s₀ (noteFail s h t raw) := by
  unfold noteFail
  repeat' first | with_reducible assumption | with_reducible apply Kept.ite | with_reducible apply sts_kept
                  | with_reducible apply inc_kept | with_reducible apply pkPost_kept | with_reducible apply foldl_kept
                  | extract_lets | split | (intros; with_reducible assumption) | intro _ _ _ | intro _ _ | dsimp +zetaDelta only
                  | with_reducible refine Kept.mkUpd ?_ rfl rfl rfl

theorem countIn64_kept {s₀ : State} (s : State) (h : Nat) (hK : Kept s₀ s) : Kept s₀ (countIn64 s h) := by
  unfold countIn64
  repeat' first | with_reducible assumption | with_reducible apply Kept.ite | with_reducible apply inc_kept
                  | with_reducible apply setStream_kept | with_reducible apply foldl_kept | extract_lets | split
                  | (intros; with_reducible assumption) | intro _ _ _ | intro _ _ | dsimp +zetaDelta only
                  | with_reducible refine Kept.mkUpd ?_ rfl rfl rfl

theorem putTile_kept {s₀ : State} (s : State) (h : Nat) (t : Tile) (flip : Nat) (hK : Kept s₀ s) : Kept s₀ (putTile s h t flip) := by
  unfold putTile
  repeat' first | with_reducible assumption | with_reducible apply Kept.ite | with_reducible apply modBlk_kept
                  | with_reducible apply noteFail_kept | with_reducible apply sts_kept | with_reducible apply inc_kept
                  | with_reducible apply pkPost_kept | with_reducible apply foldl_kept | extract_lets | split
                  | (intros; with_reducible assumption) | intro _ _ _ | intro _ _ | dsimp +zetaDelta only
                  | with_reducible refine Kept.mkUpd ?_ rfl rfl rfl

theorem setOwed_kept {s₀ : State} (s : State) (h : Nat) (code : Nat) (n : Nat) (hK : Kept s₀ s) : Kept s₀ (setOwed s h code n) := by
  unfold setOwed
  repeat' first | with_reducible assumption | with_reducible apply Kept.ite | with_reducible apply setStream_kept
                  | with_reducible apply foldl_kept | extract_lets | split | (intros; with_reducible assumption) | intro _ _ _
                  | intro _ _ | dsimp +zetaDelta only | with_reducible refine Kept.mkUpd ?_ rfl rfl rfl

theorem dropLive_kept {s₀ : State} (s : State) (h : Nat) (code : Nat) (t : Tile) (hK : Kept s₀ s) : Kept s₀ (dropLive s h code t) := by
  unfold dropLive
  repeat' first | with_reducible assumption | with_reducible apply Kept.ite | with_reducible apply sts_kept
                  | with_reducible apply inc_kept | with_reducible apply countIn64_kept | with_reducible apply setOwed_kept
                  | with_reducible apply foldl_kept | extract_lets | split | (intros; with_reducible assumption) | intro _ _ _
                  | intro _ _ | dsimp +zetaDelta only | with_reducible refine Kept.mkUpd ?_ rfl rfl rfl

theorem noteLive_kept {s₀ : State} (s : State) (h : Nat) (rep : Bool) (code : Nat) (seq : Nat) (hK : Kept s₀ s) : Kept s₀ (noteLive s
    h rep code seq) := by
  unfold noteLive
  repeat' first | with_reducible assumption | with_reducible apply Kept.ite | with_reducible apply modBlk_kept
                  | with_reducible apply foldl_kept | extract_lets | split | (intros; with_reducible assumption) | intro _ _ _
                  | intro _ _ | dsimp +zetaDelta only | with_reducible refine Kept.mkUpd ?_ rfl rfl rfl

theorem placeHeld_kept {s₀ : State} (h code : Nat) (l : List (Nat × W64)) (s : State) (hK : Kept s₀ s) :
    Kept s₀ (placeHeld h code l s).2 := by
  induction l generalizing s with
  | nil => exact hK
  | cons x r ih =>
    unfold placeHeld
    split
    · exact ih _ hK
    · split
      · rename_i t e
        exact ih _ (listEntry_kept _ _ _ (setStream_kept _ _ _ (room_keq e hK)))
      · rename_i n t _ e
        exact room_keq e hK
theorem placeHeld_keq {s₀ b : State} {h code n : Nat} {l : List (Nat × W64)} {s : State} (e : placeHeld h code l s = (n, b))
    (hK : Kept s₀ s) : Kept s₀ b := by
  have := placeHeld_kept h code l s hK
  rw [e] at this; exact this

theorem heldFirst_kept {s₀ : State} (s : State) (h : Nat) (rep : Bool) (code : Nat) (hK : Kept s₀ s) : Kept s₀ (heldFirst s h rep
    code).2 := by
  unfold heldFirst
  repeat' first | with_reducible assumption | with_reducible apply placeHeld_kept
                  | with_reducible refine placeHeld_keq (by with_reducible assumption) ?_ | with_reducible apply foldl_kept
                  | extract_lets | split | (intros; with_reducible assumption) | intro _ _ _ | intro _ _ | dsimp +zetaDelta only
                  | with_reducible refine Kept.mkUpd ?_ rfl rfl rfl
theorem heldFirst_keq {s₀ : State} {t₁ : State} {o₁ : Nat}  {s : State} {h : Nat} {rep : Bool} {code : Nat} (hE : (heldFirst s h rep
    code) = (o₁, t₁)) (hK : Kept s₀ s) : Kept s₀ t₁ := by
  have := heldFirst_kept s h rep code hK
  rw [hE] at this; exact this

theorem roomAfterHeld_kept {s₀ : State} (s : State) (h : Nat) (rep : Bool) (code : Nat) (bits : Nat) (n : Nat) (hK : Kept s₀ s) :
    Kept s₀ (roomAfterHeld s h rep code bits n).2 := by
  unfold roomAfterHeld
  repeat' first | with_reducible assumption | with_reducible apply heldFirst_kept | with_reducible apply room_kept
                  | with_reducible refine heldFirst_keq (by with_reducible assumption) ?_
                  | with_reducible refine room_keq (by with_reducible assumption) ?_ | with_reducible apply foldl_kept
                  | extract_lets | split | (intros; with_reducible assumption) | intro _ _ _ | intro _ _ | dsimp +zetaDelta only
                  | with_reducible refine Kept.mkUpd ?_ rfl rfl rfl
theorem roomAfterHeld_keq {s₀ : State} {t₁ : State} {o₁ : Nat}  {s : State} {h : Nat} {rep : Bool} {code : Nat} {bits : Nat} {n :
    Nat} (hE : (roomAfterHeld s h rep code bits n) = (o₁, t₁)) (hK : Kept s₀ s) : Kept s₀ t₁ := by
  have := roomAfterHeld_kept s h rep code bits n hK
  rw [hE] at this; exact this

theorem takeTile_kept {s₀ : State} (s : State) (h : Nat) (rep : Bool) (code : Nat) (t : Tile) (flip : Nat) (hK : Kept s₀ s) : Kept s₀
    (takeTile s h rep code t flip).2 := by
  unfold takeTile
  repeat' first | with_reducible assumption | with_reducible apply roomAfterHeld_kept | with_reducible apply listEntry_kept
                  | with_reducible apply setOwed_kept | with_reducible apply noteLive_kept | with_reducible apply putTile_kept
                  | with_reducible apply countIn64_kept | with_reducible apply noBuf_kept | with_reducible apply dropLive_kept
                  | with_reducible refine roomAfterHeld_keq (by with_reducible assumption) ?_ | with_reducible apply foldl_kept
                  | extract_lets | split | (intros; with_reducible assumption) | intro _ _ _ | intro _ _ | dsimp +zetaDelta only
                  | with_reducible refine Kept.mkUpd ?_ rfl rfl rfl
theorem takeTile_keq {s₀ : State} {t₁ : State} {o₁ : Bool}  {s : State} {h : Nat} {rep : Bool} {code : Nat} {t : Tile} {flip : Nat}
    (hE : (takeTile s h rep code t flip) = (o₁, t₁)) (hK : Kept s₀ s) : Kept s₀ t₁ := by
  have := takeTile_kept s h rep code t flip hK
  rw [hE] at this; exact this

theorem takeGap_kept {s₀ : State} (s : State) (h : Nat) (rep : Bool) (code : Nat) (w : W64) (hK : Kept s₀ s) : Kept s₀ (takeGap s h
    rep code w).2 := by
  unfold takeGap
  repeat' first | with_reducible assumption | with_reducible apply roomAfterHeld_kept | with_reducible apply noteLive_kept
                  | with_reducible apply listEntry_kept | with_reducible apply noBuf_kept | with_reducible apply setStream_kept
                  | with_reducible refine roomAfterHeld_keq (by with_reducible assumption) ?_ | with_reducible apply foldl_kept
                  | extract_lets | split | (intros; with_reducible assumption) | intro _ _ _ | intro _ _ | dsimp +zetaDelta only
                  | with_reducible refine Kept.mkUpd ?_ rfl rfl rfl
theorem takeGap_keq {s₀ : State} {t₁ : State} {o₁ : Bool}  {s : State} {h : Nat} {rep : Bool} {code : Nat} {w : W64} (hE : (takeGap s
    h rep code w) = (o₁, t₁)) (hK : Kept s₀ s) : Kept s₀ t₁ := by
  have := takeGap_kept s h rep code w hK
  rw [hE] at this; exact this

theorem placeAside_ksome {s₀ s b : State} {h : Nat} {rep : Bool} {code num part : Nat} {a : Aside}
    (e : placeAside s h rep code num part = some (a, b)) (hK : Kept s₀ s) : Kept s₀ b := by
  obtain ⟨x, hx, hy⟩ := Option.map_eq_some_iff.mp e
  have := congrArg Prod.snd hy
  cases this
  exact setStream_kept _ _ _ (bump_kept _ _ (ensureBuf_ksome hx hK))

theorem writeAside_kept {s₀ : State} (s : State) (h : Nat) (a : Aside) (t : Option Tile) (hK : Kept s₀ s) : Kept s₀ (writeAside s h a
    t) := by
  unfold writeAside
  repeat' first | with_reducible assumption | with_reducible apply Kept.ite | with_reducible apply noteFail_kept
                  | with_reducible apply countIn64_kept | with_reducible apply putBlock_kept
                  | with_reducible apply completeAll_kept | with_reducible apply setStream_kept | with_reducible apply foldl_kept
                  | extract_lets | split | (intros; with_reducible assumption) | intro _ _ _ | intro _ _ | dsimp +zetaDelta only
                  | with_reducible refine Kept.mkUpd ?_ rfl rfl rfl

theorem windowNow_kept {s₀ : State} (s : State) (h : Nat) (rep : Bool) (code : Nat) (num : Nat) (part : Nat) (t : Tile) (hK : Kept s₀
    s) : Kept s₀ (windowNow s h rep code num part t).2 := by
  unfold windowNow
  repeat' first | with_reducible assumption | with_reducible apply closeBlk_kept | with_reducible apply writeAside_kept
                  | with_reducible apply noBuf_kept | with_reducible apply dropLive_kept
                  | with_reducible refine placeAside_ksome (by with_reducible assumption) ?_ | with_reducible apply foldl_kept
                  | extract_lets | split | (intros; with_reducible assumption) | intro _ _ _ | intro _ _ | dsimp +zetaDelta only
                  | with_reducible refine Kept.mkUpd ?_ rfl rfl rfl
theorem windowNow_keq {s₀ : State} {t₁ : State} {o₁ : Bool}  {s : State} {h : Nat} {rep : Bool} {code : Nat} {num : Nat} {part : Nat}
    {t : Tile} (hE : (windowNow s h rep code num part t) = (o₁, t₁)) (hK : Kept s₀ s) : Kept s₀ t₁ := by
  have := windowNow_kept s h rep code num part t hK
  rw [hE] at this; exact this

theorem takeReservation_kept {s₀ : State} (s : State) (h : Nat) (rep : Bool) (code : Nat) (num : Nat) (part : Nat) (hK : Kept s₀ s) :
    Kept s₀ (takeReservation s h rep code num part).2 := by
  unfold takeReservation
  repeat' first | with_reducible assumption | with_reducible apply closeBlk_kept | with_reducible apply setStream_kept
                  | with_reducible apply noBuf_kept | with_reducible refine placeAside_ksome (by with_reducible assumption) ?_
                  | with_reducible apply foldl_kept | extract_lets | split | (intros; with_reducible assumption) | intro _ _ _
                  | intro _ _ | dsimp +zetaDelta only | with_reducible refine Kept.mkUpd ?_ rfl rfl rfl
theorem takeReservation_keq {s₀ : State} {t₁ : State} {o₁ : Bool}  {s : State} {h : Nat} {rep : Bool} {code : Nat} {num : Nat} {part
    : Nat} (hE : (takeReservation s h rep code num part) = (o₁, t₁)) (hK : Kept s₀ s) : Kept s₀ t₁ := by
  have := takeReservation_kept s h rep code num part hK
  rw [hE] at this; exact this

theorem takeFill_kept {s₀ : State} (s : State) (h : Nat) (rep : Bool) (code : Nat) (num : Nat) (part : Nat) (t : Option Tile) (hK :
    Kept s₀ s) : Kept s₀ (takeFill s h rep code num part t).2 := by
  unfold takeFill
  repeat' first | with_reducible assumption | with_reducible apply writeAside_kept | with_reducible apply setStream_kept
                  | with_reducible apply dropLive_kept | with_reducible apply windowNow_kept
                  | with_reducible refine windowNow_keq (by with_reducible assumption) ?_ | with_reducible apply foldl_kept
                  | extract_lets | split | (intros; with_reducible assumption) | intro _ _ _ | intro _ _ | dsimp +zetaDelta only
                  | with_reducible refine Kept.mkUpd ?_ rfl rfl rfl
theorem takeFill_keq {s₀ : State} {t₁ : State} {o₁ : Bool}  {s : State} {h : Nat} {rep : Bool} {code : Nat} {num : Nat} {part : Nat}
    {t : Option Tile} (hE : (takeFill s h rep code num part t) = (o₁, t₁)) (hK : Kept s₀ s) : Kept s₀ t₁ := by
  have := takeFill_kept s h rep code num part t hK
  rw [hE] at this; exact this

theorem takeLive_kept {s₀ : State} (s : State) (h : Nat) (x : Inbound) (flip : Nat) (hK : Kept s₀ s) :
    Kept s₀ (takeLive s h x flip).2 := by
  unfold takeLive
  split
  rename_i ok t e
  have k : Kept s₀ t := by
    split at e
    · exact takeTile_keq e hK
    · exact takeReservation_keq e hK
    · exact takeFill_keq e hK
    · exact takeGap_keq e hK
  exact Kept.ite (setStream_kept _ _ _ k) k
theorem takeLive_keq {s₀ b : State} {s : State} {h : Nat} {x : Inbound} {flip : Nat} {ok : Bool} (e : takeLive s h x flip = (ok, b))
    (hK : Kept s₀ s) : Kept s₀ b := by
  have := takeLive_kept s h x flip hK
  rw [e] at this; exact this

theorem takeReplay_kept {s₀ : State} (s : State) (h : Nat) (x : RItem) (flip : Nat) (hK : Kept s₀ s) : Kept s₀ (takeReplay s h x
    flip).2 := by
  unfold takeReplay
  repeat' first | with_reducible assumption | with_reducible apply takeGap_kept | with_reducible apply windowNow_kept
                  | with_reducible apply takeTile_kept | with_reducible apply takeReservation_kept
                  | with_reducible apply takeFill_kept | with_reducible refine takeGap_keq (by with_reducible assumption) ?_
                  | with_reducible refine windowNow_keq (by with_reducible assumption) ?_
                  | with_reducible refine takeTile_keq (by with_reducible assumption) ?_
                  | with_reducible refine takeReservation_keq (by with_reducible assumption) ?_
                  | with_reducible refine takeFill_keq (by with_reducible assumption) ?_ | with_reducible apply foldl_kept
                  | extract_lets | split | (intros; with_reducible assumption) | intro _ _ _ | intro _ _ | dsimp +zetaDelta only
                  | with_reducible refine Kept.mkUpd ?_ rfl rfl rfl
theorem takeReplay_keq {s₀ : State} {t₁ : State} {o₁ : Bool}  {s : State} {h : Nat} {x : RItem} {flip : Nat} (hE : (takeReplay s h x
    flip) = (o₁, t₁)) (hK : Kept s₀ s) : Kept s₀ t₁ := by
  have := takeReplay_kept s h x flip hK
  rw [hE] at this; exact this

theorem takeItem_kept {s₀ : State} (s : State) (h : Nat) (rep : Bool) (flip : Nat) (hK : Kept s₀ s) :
    Kept s₀ (takeItem s h rep flip).2 := by
  unfold takeItem
  extract_lets S
  split
  · split
    · split
      · exact hK
      · exact takeReplay_kept _ _ _ _ (setStream_kept _ _ _ hK)
    · split
      · exact hK
      · split
        · exact hK
        · split
          rename_i ok t e
          exact Kept.ite (setStream_kept _ _ _ (takeReplay_keq e hK)) (takeReplay_keq e hK)
  · split
    · exact hK
    · split
      · exact takeLive_kept _ _ _ _ hK
      · exact hK
theorem takeItem_keq {s₀ b : State} {s : State} {h : Nat} {rep ok : Bool} {flip : Nat} (e : takeItem s h rep flip = (ok, b))
    (hK : Kept s₀ s) : Kept s₀ b := by
  have := takeItem_kept s h rep flip hK
  rw [e] at this; exact this

theorem setEncoder_kept {s₀ : State} (s : State) (k : Nat) (x : Encoder) (hK : Kept s₀ s) : Kept s₀ (setEncoder s k x) := by
  unfold setEncoder
  repeat' first | with_reducible assumption | with_reducible apply Kept.ite | with_reducible apply foldl_kept | extract_lets
                  | split | (intros; with_reducible assumption) | intro _ _ _ | intro _ _ | dsimp +zetaDelta only
                  | with_reducible refine Kept.mkUpd ?_ rfl rfl rfl

theorem packerTakeItem_kept {s₀ : State} (s : State) (h : Nat) (rep : Bool) (flip : Nat) (hK : Kept s₀ s) : Kept s₀ (packerTakeItem s
    h rep flip) := by
  unfold packerTakeItem
  repeat' first | with_reducible assumption | with_reducible apply Kept.ite | with_reducible apply takeItem_kept
                  | with_reducible apply setEncoder_kept | with_reducible refine takeItem_keq (by with_reducible assumption) ?_
                  | with_reducible apply foldl_kept | extract_lets | split | (intros; with_reducible assumption) | intro _ _ _
                  | intro _ _ | dsimp +zetaDelta only | with_reducible refine Kept.mkUpd ?_ rfl rfl rfl

theorem pkFlushExpiry_kept {s₀ : State} (s : State) (h : Nat) (hK : Kept s₀ s) : Kept s₀ (pkFlushExpiry s h) := by
  unfold pkFlushExpiry
  repeat' first | with_reducible assumption | with_reducible apply Kept.ite | with_reducible apply closeBlk_kept
                  | with_reducible apply foldl_kept | extract_lets | split | (intros; with_reducible assumption) | intro _ _ _
                  | intro _ _ | dsimp +zetaDelta only | with_reducible refine Kept.mkUpd ?_ rfl rfl rfl

theorem pkRatioUpdate_kept {s₀ : State} (s : State) (h : Nat) (hK : Kept s₀ s) : Kept s₀ (pkRatioUpdate s h) := by
  unfold pkRatioUpdate
  repeat' first | with_reducible assumption | with_reducible apply Kept.ite | with_reducible apply setFld_kept
                  | with_reducible apply setStream_kept | with_reducible apply foldl_kept | extract_lets | split
                  | (intros; with_reducible assumption) | intro _ _ _ | intro _ _ | dsimp +zetaDelta only
                  | with_reducible refine Kept.mkUpd ?_ rfl rfl rfl

theorem bufferIdleTimeout_kept {s₀ : State} (s : State) (h : Nat) (hK : Kept s₀ s) : Kept s₀ (bufferIdleTimeout s h) := by
  unfold bufferIdleTimeout
  repeat' first | with_reducible assumption | with_reducible apply Kept.ite | with_reducible apply closeBuf_kept
                  | with_reducible apply foldl_kept | extract_lets | split | (intros; with_reducible assumption) | intro _ _ _
                  | intro _ _ | dsimp +zetaDelta only | with_reducible refine Kept.mkUpd ?_ rfl rfl rfl

theorem loseAsides_kept {s₀ : State} (s : State) (h : Nat) (gone : Aside → Bool) (hK : Kept s₀ s) : Kept s₀ (loseAsides s h gone) := by
  unfold loseAsides
  repeat' first | with_reducible assumption | with_reducible apply Kept.ite | with_reducible apply takeFill_kept
                  | with_reducible refine takeFill_keq (by with_reducible assumption) ?_ | with_reducible apply foldl_kept
                  | extract_lets | split | (intros; with_reducible assumption) | intro _ _ _ | intro _ _ | dsimp +zetaDelta only
                  | with_reducible refine Kept.mkUpd ?_ rfl rfl rfl

theorem ringStopped_kept {s₀ : State} (s : State) (r : Nat) (hK : Kept s₀ s) : Kept s₀ (ringStopped s r) := by
  unfold ringStopped
  repeat' first | with_reducible assumption | with_reducible apply Kept.ite | with_reducible apply takeItem_kept
                  | with_reducible apply loseAsides_kept | with_reducible apply closeBlk_kept | with_reducible apply ringEnd_kept
                  | with_reducible apply closeBuf_kept | with_reducible refine takeItem_keq (by with_reducible assumption) ?_
                  | with_reducible apply foldl_kept | extract_lets | split | (intros; with_reducible assumption) | intro _ _ _
                  | intro _ _ | dsimp +zetaDelta only | with_reducible refine Kept.mkUpd ?_ rfl rfl rfl

theorem loseStrayAsides_kept {s₀ : State} (s : State) (hK : Kept s₀ s) : Kept s₀ (loseStrayAsides s) := by
  unfold loseStrayAsides
  repeat' first | with_reducible assumption | with_reducible apply Kept.ite | with_reducible apply forEach_kept
                  | with_reducible apply loseAsides_kept | with_reducible apply foldl_kept | extract_lets | split
                  | (intros; with_reducible assumption) | intro _ _ _ | intro _ _ | dsimp +zetaDelta only
                  | with_reducible refine Kept.mkUpd ?_ rfl rfl rfl

theorem applyPk_kept {s₀ : State} (s : State) (h : Nat) (hK : Kept s₀ s) : Kept s₀ (applyPk s h) := by
  unfold applyPk
  repeat' first | with_reducible assumption | with_reducible apply Kept.ite | with_reducible apply applyRegs_kept
                  | with_reducible apply loseStrayAsides_kept | with_reducible apply rebindAll_kept
                  | with_reducible apply shutBlk_kept | with_reducible apply foldl_kept | extract_lets | split
                  | (intros; with_reducible assumption) | intro _ _ _ | intro _ _ | dsimp +zetaDelta only
                  | with_reducible refine Kept.mkUpd ?_ rfl rfl rfl

theorem undoEntries_ksome {s₀ b : State} {at_ : Nat} {l : List (Nat × List Byte)} {s : State} {r : Nat}
    (e : undoEntries at_ l s r = some b) (hK : Kept s₀ s) : Kept s₀ b := by
  induction l generalizing s with
  | nil => cases e
  | cons x l ih =>
    unfold undoEntries at e
    have k := setFld_kept _ (HI_RING_IDX.DEV r) (devIdx s r + 2 ^ 16 - 1) (hostWrite_kept s x.1 x.2 hK)
    split at e
    · cases e; exact k
    · exact ih e k
theorem completionSlotWrite_kept {s₀ : State} (s : State) (r : Nat) (fail : Option Nat) (hK : Kept s₀ s) :
    Kept s₀ (completionSlotWrite s r fail) := by
  unfold completionSlotWrite
  extract_lets x f at_
  split
  · exact hK
  · extract_lets soon
    split
    · exact hK
    · split
      · rename_i y t a e
        obtain ⟨b, -, hb⟩ := Option.bind_eq_some_iff.mp e
        refine dmaError_kept _ _ _ ?_
        split at hb
        · cases hb; exact sts_kept _ _ hK
        · obtain ⟨z, hz, hy⟩ := Option.map_eq_some_iff.mp hb
          cases hy; exact undoEntries_ksome hz hK
      · refine Kept.ite (loseStrayAsides_kept _ (rebind_kept _ ?_)) ?_ <;>
          exact setHring_kept _ _ _ (Kept.ite (setFlag_kept _ _ _ (hostWrite_kept _ _ _ hK)) (hostWrite_kept _ _ _ hK))

end Sys2Proof.Laws
end

