-- ==== Sys2Proof/Laws/KeptTime.lean ====
section
/-! SUPPORT. What no operation touches or worsens (`Kept`), for network time, the ports, playback and the triggers. -/

namespace Sys2Proof.Laws

open Sys2Proof.Machine

/-! ## NetTime -/

theorem setTp_kept {s₀ : State} (s : State) (x : NetTime) (hK : Kept s₀ s) : Kept s₀ (setTp s x) := by
  unfold setTp
  repeat' first | with_reducible assumption | with_reducible apply Kept.ite | with_reducible apply foldl_kept | extract_lets
                  | split | (intros; with_reducible assumption) | intro _ _ _ | intro _ _ | dsimp +zetaDelta only
                  | with_reducible refine Kept.mkUpd ?_ rfl rfl rfl

theorem tpPost_kept {s₀ : State} (s : State) (ty : Nat) (source : Nat) (aux : Nat) (data : Nat) (hK : Kept s₀ s) : Kept s₀ (tpPost s
    ty source aux data) := by
  unfold tpPost
  repeat' first | with_reducible assumption | with_reducible apply Kept.ite | with_reducible apply post_kept
                  | with_reducible apply foldl_kept | extract_lets | split | (intros; with_reducible assumption) | intro _ _ _
                  | intro _ _ | dsimp +zetaDelta only | with_reducible refine Kept.mkUpd ?_ rfl rfl rfl

theorem rxCount_kept {s₀ : State} (s : State) (fr : Frame) (hK : Kept s₀ s) : Kept s₀ (rxCount s fr) := by
  unfold rxCount
  repeat' first | with_reducible assumption | with_reducible apply Kept.ite | with_reducible apply inc_kept
                  | with_reducible apply sts_kept | with_reducible apply foldl_kept | extract_lets | split
                  | (intros; with_reducible assumption) | intro _ _ _ | intro _ _ | dsimp +zetaDelta only
                  | with_reducible refine Kept.mkUpd ?_ rfl rfl rfl

theorem discard_kept {s₀ : State} (s : State) (fr : Frame) (hK : Kept s₀ s) : Kept s₀ (Sys2Proof.Machine.discard s fr) :=
  inc_kept _ _ (Kept.ite hK (rxCount_kept _ _ hK))

theorem takeUsed_kept {s₀ : State} (s : State) (hK : Kept s₀ s) : Kept s₀ (takeUsed s) := by
  unfold takeUsed
  repeat' first | with_reducible assumption | with_reducible apply Kept.ite | with_reducible apply setTp_kept
                  | with_reducible apply foldl_kept | extract_lets | split | (intros; with_reducible assumption) | intro _ _ _
                  | intro _ _ | dsimp +zetaDelta only | with_reducible refine Kept.mkUpd ?_ rfl rfl rfl

theorem showDelay_kept {s₀ : State} (s : State) (hK : Kept s₀ s) : Kept s₀ (showDelay s) := by
  unfold showDelay
  repeat' first | with_reducible assumption | with_reducible apply Kept.ite | with_reducible apply setFld_kept
                  | with_reducible apply foldl_kept | extract_lets | split | (intros; with_reducible assumption) | intro _ _ _
                  | intro _ _ | dsimp +zetaDelta only | with_reducible refine Kept.mkUpd ?_ rfl rfl rfl

theorem setServo_kept {s₀ : State} (s : State) (st : Nat) (hK : Kept s₀ s) : Kept s₀ (setServo s st) := by
  unfold setServo
  repeat' first | with_reducible assumption | with_reducible apply Kept.ite | with_reducible apply tpPost_kept
                  | with_reducible apply setFld_kept | with_reducible apply foldl_kept | extract_lets | split
                  | (intros; with_reducible assumption) | intro _ _ _ | intro _ _ | dsimp +zetaDelta only
                  | with_reducible refine Kept.mkUpd ?_ rfl rfl rfl

theorem servoAcquire_kept {s₀ : State} (s : State) (hK : Kept s₀ s) : Kept s₀ (servoAcquire s) := by
  unfold servoAcquire
  repeat' first | with_reducible assumption | with_reducible apply Kept.ite | with_reducible apply setServo_kept
                  | with_reducible apply setTp_kept | with_reducible apply foldl_kept | extract_lets | split
                  | (intros; with_reducible assumption) | intro _ _ _ | intro _ _ | dsimp +zetaDelta only
                  | with_reducible refine Kept.mkUpd ?_ rfl rfl rfl

theorem holdover_kept {s₀ : State} (s : State) (lost : Bool) (hK : Kept s₀ s) : Kept s₀ (holdover s lost) := by
  unfold holdover
  repeat' first | with_reducible assumption | with_reducible apply Kept.ite | with_reducible apply sts_kept
                  | with_reducible apply setServo_kept | with_reducible apply setTp_kept | with_reducible apply foldl_kept
                  | extract_lets | split | (intros; with_reducible assumption) | intro _ _ _ | intro _ _ | dsimp +zetaDelta only
                  | with_reducible refine Kept.mkUpd ?_ rfl rfl rfl

theorem rateSrcCheck_kept {s₀ : State} (s : State) (hK : Kept s₀ s) : Kept s₀ (rateSrcCheck s) := by
  unfold rateSrcCheck
  repeat' first | with_reducible assumption | with_reducible apply Kept.ite | with_reducible apply holdover_kept
                  | with_reducible apply foldl_kept | extract_lets | split | (intros; with_reducible assumption) | intro _ _ _
                  | intro _ _ | dsimp +zetaDelta only | with_reducible refine Kept.mkUpd ?_ rfl rfl rfl

theorem ppsRestart_kept {s₀ : State} (s : State) (hK : Kept s₀ s) : Kept s₀ (ppsRestart s) := by
  unfold ppsRestart
  repeat' first | with_reducible assumption | with_reducible apply Kept.ite | with_reducible apply setTp_kept
                  | with_reducible apply foldl_kept | extract_lets | split | (intros; with_reducible assumption) | intro _ _ _
                  | intro _ _ | dsimp +zetaDelta only | with_reducible refine Kept.mkUpd ?_ rfl rfl rfl

theorem putAnchor_kept {s₀ : State} (s : State) (k : Nat) (a : Anchor) (hK : Kept s₀ s) : Kept s₀ (putAnchor s k a) := by
  unfold putAnchor
  repeat' first | with_reducible assumption | with_reducible apply Kept.ite | with_reducible apply setTp_kept
                  | with_reducible apply setFld_kept | with_reducible apply bump_kept | with_reducible apply setFlag_kept
                  | with_reducible apply inc_kept | with_reducible apply anchorMark_kept | with_reducible apply postAt_kept
                  | with_reducible apply ppsRestart_kept | with_reducible apply foldl_kept | extract_lets | split
                  | (intros; with_reducible assumption) | intro _ _ _ | intro _ _ | dsimp +zetaDelta only
                  | with_reducible refine Kept.mkUpd ?_ rfl rfl rfl

theorem issueAnchor_kept {s₀ : State} (s : State) (ta : Int) (mt : Int) (reason : Nat) (hK : Kept s₀ s) : Kept s₀ (issueAnchor s ta
    mt reason) := by
  unfold issueAnchor
  repeat' first | with_reducible assumption | with_reducible apply Kept.ite | with_reducible apply putAnchor_kept
                  | with_reducible apply pairSend_kept | with_reducible apply foldl_kept | extract_lets | split
                  | (intros; with_reducible assumption) | intro _ _ _ | intro _ _ | dsimp +zetaDelta only
                  | with_reducible refine Kept.mkUpd ?_ rfl rfl rfl

theorem issueRate_kept {s₀ : State} (s : State) (ok : Int) (n : Nat) (hK : Kept s₀ s) : Kept s₀ (issueRate s ok n) := by
  unfold issueRate
  repeat' first | with_reducible assumption | with_reducible apply Kept.ite | with_reducible apply servoIssue_kept
                  | with_reducible apply setTp_kept | with_reducible apply foldl_kept | extract_lets | split
                  | (intros; with_reducible assumption) | intro _ _ _ | intro _ _ | dsimp +zetaDelta only
                  | with_reducible refine Kept.mkUpd ?_ rfl rfl rfl

theorem frequency_kept {s₀ : State} (s : State) (y : SyncDone) (hK : Kept s₀ s) : Kept s₀ (frequency s y) := by
  unfold frequency
  repeat' first | with_reducible assumption | with_reducible apply Kept.ite | with_reducible apply setTp_kept
                  | with_reducible apply foldl_kept | extract_lets | split | (intros; with_reducible assumption) | intro _ _ _
                  | intro _ _ | dsimp +zetaDelta only | with_reducible refine Kept.mkUpd ?_ rfl rfl rfl

theorem enterQuarantine_kept {s₀ : State} (s : State) (td : Option Int) (q : List QOff) (path : Option (List Int)) (hK : Kept s₀ s) :
    Kept s₀ (enterQuarantine s td q path) := by
  unfold enterQuarantine
  repeat' first | with_reducible assumption | with_reducible apply Kept.ite | with_reducible apply setServo_kept
                  | with_reducible apply setTp_kept | with_reducible apply foldl_kept | extract_lets | split
                  | (intros; with_reducible assumption) | intro _ _ _ | intro _ _ | dsimp +zetaDelta only
                  | with_reducible refine Kept.mkUpd ?_ rfl rfl rfl

theorem leaveQuarantine_kept {s₀ : State} (s : State) (hK : Kept s₀ s) : Kept s₀ (leaveQuarantine s) := by
  unfold leaveQuarantine
  repeat' first | with_reducible assumption | with_reducible apply Kept.ite | with_reducible apply setServo_kept
                  | with_reducible apply setTp_kept | with_reducible apply foldl_kept | extract_lets | split
                  | (intros; with_reducible assumption) | intro _ _ _ | intro _ _ | dsimp +zetaDelta only
                  | with_reducible refine Kept.mkUpd ?_ rfl rfl rfl

theorem confirm_kept {s₀ : State} (s : State) (reason : Nat) (hK : Kept s₀ s) : Kept s₀ (confirm s reason) := by
  unfold confirm
  repeat' first | with_reducible assumption | with_reducible apply Kept.ite | with_reducible apply leaveQuarantine_kept
                  | with_reducible apply issueAnchor_kept | with_reducible apply foldl_kept | extract_lets | split
                  | (intros; with_reducible assumption) | intro _ _ _ | intro _ _ | dsimp +zetaDelta only
                  | with_reducible refine Kept.mkUpd ?_ rfl rfl rfl

theorem reseed_kept {s₀ : State} (s : State) (hK : Kept s₀ s) : Kept s₀ (reseed s) := by
  unfold reseed
  repeat' first | with_reducible assumption | with_reducible apply Kept.ite | with_reducible apply showDelay_kept
                  | with_reducible apply setTp_kept | with_reducible apply foldl_kept | extract_lets | split
                  | (intros; with_reducible assumption) | intro _ _ _ | intro _ _ | dsimp +zetaDelta only
                  | with_reducible refine Kept.mkUpd ?_ rfl rfl rfl

theorem backToAcquiring_kept {s₀ : State} (s : State) (transient : Bool) (hK : Kept s₀ s) : Kept s₀ (backToAcquiring s transient) := by
  unfold backToAcquiring
  repeat' first | with_reducible assumption | with_reducible apply Kept.ite | with_reducible apply setServo_kept
                  | with_reducible apply setTp_kept | with_reducible apply foldl_kept | extract_lets | split
                  | (intros; with_reducible assumption) | intro _ _ _ | intro _ _ | dsimp +zetaDelta only
                  | with_reducible refine Kept.mkUpd ?_ rfl rfl rfl

theorem quarantineEnd_kept {s₀ : State} (s : State) (hK : Kept s₀ s) : Kept s₀ (quarantineEnd s) := by
  unfold quarantineEnd
  repeat' first | with_reducible assumption | with_reducible apply Kept.ite | with_reducible apply reseed_kept
                  | with_reducible apply backToAcquiring_kept | with_reducible apply leaveQuarantine_kept
                  | with_reducible apply confirm_kept | with_reducible apply setServo_kept | with_reducible apply foldl_kept
                  | extract_lets | split | (intros; with_reducible assumption) | intro _ _ _ | intro _ _ | dsimp +zetaDelta only
                  | with_reducible refine Kept.mkUpd ?_ rfl rfl rfl

theorem quarantineAdd_kept {s₀ : State} (s : State) (t2 : Int) (q : QOff) (hK : Kept s₀ s) : Kept s₀ (quarantineAdd s t2 q) := by
  unfold quarantineAdd
  repeat' first | with_reducible assumption | with_reducible apply Kept.ite | with_reducible apply setTp_kept
                  | with_reducible apply quarantineEnd_kept | with_reducible apply foldl_kept | extract_lets | split
                  | (intros; with_reducible assumption) | intro _ _ _ | intro _ _ | dsimp +zetaDelta only
                  | with_reducible refine Kept.mkUpd ?_ rfl rfl rfl

theorem discontinuity_kept {s₀ : State} (s : State) (t2 : Int) (q : QOff) (hK : Kept s₀ s) : Kept s₀ (discontinuity s t2 q) := by
  unfold discontinuity
  repeat' first | with_reducible assumption | with_reducible apply Kept.ite | with_reducible apply inc_kept
                  | with_reducible apply sts_kept | with_reducible apply tpPost_kept | with_reducible apply quarantineAdd_kept
                  | with_reducible apply enterQuarantine_kept | with_reducible apply foldl_kept | extract_lets | split
                  | (intros; with_reducible assumption) | intro _ _ _ | intro _ _ | dsimp +zetaDelta only
                  | with_reducible refine Kept.mkUpd ?_ rfl rfl rfl

theorem delayStep_kept {s₀ : State} (s : State) (d : Int) (hK : Kept s₀ s) : Kept s₀ (delayStep s d) := by
  unfold delayStep
  repeat' first | with_reducible assumption | with_reducible apply Kept.ite | with_reducible apply setTp_kept
                  | with_reducible apply setFld_kept | with_reducible apply inc_kept | with_reducible apply showDelay_kept
                  | with_reducible apply tpPost_kept | with_reducible apply sts_kept | with_reducible apply enterQuarantine_kept
                  | with_reducible apply foldl_kept | extract_lets | split | (intros; with_reducible assumption) | intro _ _ _
                  | intro _ _ | dsimp +zetaDelta only | with_reducible refine Kept.mkUpd ?_ rfl rfl rfl

theorem deviation_kept {s₀ : State} (s : State) (dj : Int) (d : Int) (hK : Kept s₀ s) : Kept s₀ (deviation s dj d) := by
  unfold deviation
  repeat' first | with_reducible assumption | with_reducible apply Kept.ite | with_reducible apply setTp_kept
                  | with_reducible apply delayStep_kept | with_reducible apply foldl_kept | extract_lets | split
                  | (intros; with_reducible assumption) | intro _ _ _ | intro _ _ | dsimp +zetaDelta only
                  | with_reducible refine Kept.mkUpd ?_ rfl rfl rfl

theorem delaySample_kept {s₀ : State} (s : State) (dj : Int) (hK : Kept s₀ s) : Kept s₀ (delaySample s dj) := by
  unfold delaySample
  repeat' first | with_reducible assumption | with_reducible apply Kept.ite | with_reducible apply setTp_kept
                  | with_reducible apply showDelay_kept | with_reducible apply deviation_kept | with_reducible apply foldl_kept
                  | extract_lets | split | (intros; with_reducible assumption) | intro _ _ _ | intro _ _ | dsimp +zetaDelta only
                  | with_reducible refine Kept.mkUpd ?_ rfl rfl rfl

theorem declareLock_kept {s₀ : State} (s : State) (t2 : Int) (mta : Int) (hK : Kept s₀ s) : Kept s₀ (declareLock s t2 mta) := by
  unfold declareLock
  repeat' first | with_reducible assumption | with_reducible apply Kept.ite | with_reducible apply issueAnchor_kept
                  | with_reducible apply setServo_kept | with_reducible apply setTp_kept | with_reducible apply foldl_kept
                  | extract_lets | split | (intros; with_reducible assumption) | intro _ _ _ | intro _ _ | dsimp +zetaDelta only
                  | with_reducible refine Kept.mkUpd ?_ rfl rfl rfl

theorem acquiring_kept {s₀ : State} (s : State) (t2 : Int) (mta : Int) (ok : Int) (n : Nat) (hK : Kept s₀ s) : Kept s₀ (acquiring s
    t2 mta ok n) := by
  unfold acquiring
  repeat' first | with_reducible assumption | with_reducible apply Kept.ite | with_reducible apply setTp_kept
                  | with_reducible apply issueRate_kept | with_reducible apply declareLock_kept | with_reducible apply foldl_kept
                  | extract_lets | split | (intros; with_reducible assumption) | intro _ _ _ | intro _ _ | dsimp +zetaDelta only
                  | with_reducible refine Kept.mkUpd ?_ rfl rfl rfl

theorem lockedSync_kept {s₀ : State} (s : State) (t2 : Int) (q : QOff) (n : Nat) (hK : Kept s₀ s) : Kept s₀ (lockedSync s t2 q n) := by
  unfold lockedSync
  repeat' first | with_reducible assumption | with_reducible apply Kept.ite | with_reducible apply discontinuity_kept
                  | with_reducible apply issueRate_kept | with_reducible apply foldl_kept | extract_lets | split
                  | (intros; with_reducible assumption) | intro _ _ _ | intro _ _ | dsimp +zetaDelta only
                  | with_reducible refine Kept.mkUpd ?_ rfl rfl rfl

theorem holdoverSync_kept {s₀ : State} (s : State) (t2 : Int) (q : QOff) (n : Nat) (hK : Kept s₀ s) : Kept s₀ (holdoverSync s t2 q n)
    := by
  unfold holdoverSync
  repeat' first | with_reducible assumption | with_reducible apply Kept.ite | with_reducible apply discontinuity_kept
                  | with_reducible apply issueRate_kept | with_reducible apply setServo_kept | with_reducible apply foldl_kept
                  | extract_lets | split | (intros; with_reducible assumption) | intro _ _ _ | intro _ _ | dsimp +zetaDelta only
                  | with_reducible refine Kept.mkUpd ?_ rfl rfl rfl

theorem quarantineSync_kept {s₀ : State} (s : State) (t2 : Int) (q : QOff) (hK : Kept s₀ s) : Kept s₀ (quarantineSync s t2 q) := by
  unfold quarantineSync
  repeat' first | with_reducible assumption | with_reducible apply Kept.ite | with_reducible apply discontinuity_kept
                  | with_reducible apply quarantineAdd_kept | with_reducible apply foldl_kept | extract_lets | split
                  | (intros; with_reducible assumption) | intro _ _ _ | intro _ _ | dsimp +zetaDelta only
                  | with_reducible refine Kept.mkUpd ?_ rfl rfl rfl

theorem noteOffset_kept {s₀ : State} (s : State) (ok : Int) (hK : Kept s₀ s) : Kept s₀ (noteOffset s ok) := by
  unfold noteOffset
  repeat' first | with_reducible assumption | with_reducible apply Kept.ite | with_reducible apply setTp_kept
                  | with_reducible apply foldl_kept | extract_lets | split | (intros; with_reducible assumption) | intro _ _ _
                  | intro _ _ | dsimp +zetaDelta only | with_reducible refine Kept.mkUpd ?_ rfl rfl rfl

theorem syncKnown_kept {s₀ : State} (s : State) (y : SyncDone) (hK : Kept s₀ s) : Kept s₀ (syncKnown s y) := by
  unfold syncKnown
  repeat' first | with_reducible assumption | with_reducible apply Kept.ite | with_reducible apply delaySample_kept
                  | with_reducible apply setTp_kept | with_reducible apply foldl_kept | extract_lets | split
                  | (intros; with_reducible assumption) | intro _ _ _ | intro _ _ | dsimp +zetaDelta only
                  | with_reducible refine Kept.mkUpd ?_ rfl rfl rfl

theorem judgeSync_kept {s₀ : State} (s : State) (y : SyncDone) (n : Nat) (hK : Kept s₀ s) : Kept s₀ (judgeSync s y n) := by
  unfold judgeSync
  repeat' first | with_reducible assumption | with_reducible apply Kept.ite | with_reducible apply syncKnown_kept
                  | with_reducible apply frequency_kept | with_reducible apply setTp_kept | with_reducible apply noteOffset_kept
                  | with_reducible apply setFld_kept | with_reducible apply acquiring_kept | with_reducible apply lockedSync_kept
                  | with_reducible apply quarantineSync_kept | with_reducible apply holdoverSync_kept
                  | with_reducible apply foldl_kept | extract_lets | split | (intros; with_reducible assumption) | intro _ _ _
                  | intro _ _ | dsimp +zetaDelta only | with_reducible refine Kept.mkUpd ?_ rfl rfl rfl

theorem setEport_kept {s₀ : State} (s : State) (p : Nat) (x : EPort) (hK : Kept s₀ s) : Kept s₀ (setEport s p x) := by
  unfold setEport
  repeat' first | with_reducible assumption | with_reducible apply Kept.ite | with_reducible apply setTp_kept
                  | with_reducible apply foldl_kept | extract_lets | split | (intros; with_reducible assumption) | intro _ _ _
                  | intro _ _ | dsimp +zetaDelta only | with_reducible refine Kept.mkUpd ?_ rfl rfl rfl

theorem acceptSync_kept {s₀ : State} (s : State) (fr : Frame) (p : PtpAt) (hK : Kept s₀ s) : Kept s₀ (acceptSync s fr p) := by
  unfold acceptSync
  repeat' first | with_reducible assumption | with_reducible apply Kept.ite | with_reducible apply takeUsed_kept
                  | with_reducible apply inc_kept | with_reducible apply rxCount_kept | with_reducible apply setServo_kept
                  | with_reducible apply setTp_kept | with_reducible apply judgeSync_kept | with_reducible apply foldl_kept
                  | extract_lets | split | (intros; with_reducible assumption) | intro _ _ _ | intro _ _ | dsimp +zetaDelta only
                  | with_reducible refine Kept.mkUpd ?_ rfl rfl rfl

theorem ptpSyncReceive_kept {s₀ : State} (s : State) (fr : Frame) (hK : Kept s₀ s) : Kept s₀ (ptpSyncReceive s fr) := by
  unfold ptpSyncReceive
  repeat' first | with_reducible assumption | with_reducible apply Kept.ite | with_reducible apply acceptSync_kept
                  | with_reducible apply discard_kept | with_reducible apply foldl_kept | extract_lets | split
                  | (intros; with_reducible assumption) | intro _ _ _ | intro _ _ | dsimp +zetaDelta only
                  | with_reducible refine Kept.mkUpd ?_ rfl rfl rfl

theorem ptpFollowUpReceive_kept {s₀ : State} (s : State) (fr : Frame) (hK : Kept s₀ s) : Kept s₀ (ptpFollowUpReceive s fr) := by
  unfold ptpFollowUpReceive
  repeat' first | with_reducible assumption | with_reducible apply Kept.ite | with_reducible apply rxCount_kept
                  | with_reducible apply judgeSync_kept | with_reducible apply setTp_kept | with_reducible apply discard_kept
                  | with_reducible apply foldl_kept | extract_lets | split | (intros; with_reducible assumption) | intro _ _ _
                  | intro _ _ | dsimp +zetaDelta only | with_reducible refine Kept.mkUpd ?_ rfl rfl rfl

theorem takeResp_kept {s₀ : State} (s : State) (fr : Frame) (p : PtpAt) (d : DreqOut) (hK : Kept s₀ s) : Kept s₀ (takeResp s fr p d) := by
  unfold takeResp
  repeat' first | with_reducible assumption | with_reducible apply Kept.ite | with_reducible apply setTp_kept
                  | with_reducible apply rxCount_kept | with_reducible apply delaySample_kept | with_reducible apply foldl_kept
                  | extract_lets | split | (intros; with_reducible assumption) | intro _ _ _ | intro _ _ | dsimp +zetaDelta only
                  | with_reducible refine Kept.mkUpd ?_ rfl rfl rfl

theorem ptpDelayRespReceive_kept {s₀ : State} (s : State) (fr : Frame) (hK : Kept s₀ s) : Kept s₀ (ptpDelayRespReceive s fr) := by
  unfold ptpDelayRespReceive
  repeat' first | with_reducible assumption | with_reducible apply Kept.ite | with_reducible apply discard_kept
                  | with_reducible apply inc_kept | with_reducible apply rxCount_kept | with_reducible apply takeResp_kept
                  | with_reducible apply foldl_kept | extract_lets | split | (intros; with_reducible assumption) | intro _ _ _
                  | intro _ _ | dsimp +zetaDelta only | with_reducible refine Kept.mkUpd ?_ rfl rfl rfl

theorem showParent_kept {s₀ : State} (s : State) (id : List Byte) (hK : Kept s₀ s) : Kept s₀ (showParent s id) := by
  unfold showParent
  repeat' first | with_reducible assumption | with_reducible apply Kept.ite | with_reducible apply setFld_kept
                  | with_reducible apply foldl_kept | extract_lets | split | (intros; with_reducible assumption) | intro _ _ _
                  | intro _ _ | dsimp +zetaDelta only | with_reducible refine Kept.mkUpd ?_ rfl rfl rfl

theorem sourceChanged_kept {s₀ : State} (s : State) (hK : Kept s₀ s) : Kept s₀ (sourceChanged s) := by
  unfold sourceChanged
  repeat' first | with_reducible assumption | with_reducible apply Kept.ite | with_reducible apply setTp_kept
                  | with_reducible apply enterQuarantine_kept | with_reducible apply servoAcquire_kept
                  | with_reducible apply foldl_kept | extract_lets | split | (intros; with_reducible assumption) | intro _ _ _
                  | intro _ _ | dsimp +zetaDelta only | with_reducible refine Kept.mkUpd ?_ rfl rfl rfl

theorem setParent_kept {s₀ : State} (s : State) (id : List Byte) (hK : Kept s₀ s) : Kept s₀ (setParent s id) := by
  unfold setParent
  repeat' first | with_reducible assumption | with_reducible apply Kept.ite | with_reducible apply showParent_kept
                  | with_reducible apply setTp_kept | with_reducible apply sourceChanged_kept | with_reducible apply tpPost_kept
                  | with_reducible apply sts_kept | with_reducible apply foldl_kept | extract_lets | split
                  | (intros; with_reducible assumption) | intro _ _ _ | intro _ _ | dsimp +zetaDelta only
                  | with_reducible refine Kept.mkUpd ?_ rfl rfl rfl

theorem ptpAnnounceReceive_kept {s₀ : State} (s : State) (fr : Frame) (hK : Kept s₀ s) : Kept s₀ (ptpAnnounceReceive s fr) := by
  unfold ptpAnnounceReceive
  repeat' first | with_reducible assumption | with_reducible apply Kept.ite | with_reducible apply rxCount_kept
                  | with_reducible apply setTp_kept | with_reducible apply setParent_kept | with_reducible apply discard_kept
                  | with_reducible apply foldl_kept | extract_lets | split | (intros; with_reducible assumption) | intro _ _ _
                  | intro _ _ | dsimp +zetaDelta only | with_reducible refine Kept.mkUpd ?_ rfl rfl rfl

theorem syncLossTimeout_kept {s₀ : State} (s : State) (hK : Kept s₀ s) : Kept s₀ (syncLossTimeout s) := by
  unfold syncLossTimeout
  repeat' first | with_reducible assumption | with_reducible apply Kept.ite | with_reducible apply holdover_kept
                  | with_reducible apply foldl_kept | extract_lets | split | (intros; with_reducible assumption) | intro _ _ _
                  | intro _ _ | dsimp +zetaDelta only | with_reducible refine Kept.mkUpd ?_ rfl rfl rfl

theorem tpAnchor_kept {s₀ : State} (s : State) (a : Access) (v : W32) (hK : Kept s₀ s) : Kept s₀ (tpAnchor s a v) := by
  unfold tpAnchor
  repeat' first | with_reducible assumption | with_reducible apply Kept.ite | with_reducible apply cmdWrite_kept
                  | with_reducible apply confirm_kept | with_reducible apply foldl_kept | extract_lets | split
                  | (intros; with_reducible assumption) | intro _ _ _ | intro _ _ | dsimp +zetaDelta only
                  | with_reducible refine Kept.mkUpd ?_ rfl rfl rfl

theorem tpRestart_kept {s₀ : State} (s : State) (a : Access) (v : W32) (hK : Kept s₀ s) : Kept s₀ (tpRestart s a v) := by
  unfold tpRestart
  repeat' first | with_reducible assumption | with_reducible apply Kept.ite | with_reducible apply cmdWrite_kept
                  | with_reducible apply servoAcquire_kept | with_reducible apply foldl_kept | extract_lets | split
                  | (intros; with_reducible assumption) | intro _ _ _ | intro _ _ | dsimp +zetaDelta only
                  | with_reducible refine Kept.mkUpd ?_ rfl rfl rfl

theorem servoStart_kept {s₀ : State} (s : State) (hK : Kept s₀ s) : Kept s₀ (servoStart s) := by
  unfold servoStart
  repeat' first | with_reducible assumption | with_reducible apply Kept.ite | with_reducible apply setServo_kept
                  | with_reducible apply setTp_kept | with_reducible apply setParent_kept | with_reducible apply foldl_kept
                  | extract_lets | split | (intros; with_reducible assumption) | intro _ _ _ | intro _ _ | dsimp +zetaDelta only
                  | with_reducible refine Kept.mkUpd ?_ rfl rfl rfl

theorem servoStop_kept {s₀ : State} (s : State) (hK : Kept s₀ s) : Kept s₀ (servoStop s) := by
  unfold servoStop
  repeat' first | with_reducible assumption | with_reducible apply Kept.ite | with_reducible apply setServo_kept
                  | with_reducible apply showParent_kept | with_reducible apply setTp_kept | with_reducible apply foldl_kept
                  | extract_lets | split | (intros; with_reducible assumption) | intro _ _ _ | intro _ _ | dsimp +zetaDelta only
                  | with_reducible refine Kept.mkUpd ?_ rfl rfl rfl

theorem noteRxDelay_kept {s₀ : State} (old : State) (s : State) (p : Nat) (hK : Kept s₀ s) : Kept s₀ (noteRxDelay old s p) := by
  unfold noteRxDelay
  repeat' first | with_reducible assumption | with_reducible apply Kept.ite | with_reducible apply setEport_kept
                  | with_reducible apply foldl_kept | extract_lets | split | (intros; with_reducible assumption) | intro _ _ _
                  | intro _ _ | dsimp +zetaDelta only | with_reducible refine Kept.mkUpd ?_ rfl rfl rfl

theorem noteTxDelay_kept {s₀ : State} (old : State) (s : State) (p : Nat) (hK : Kept s₀ s) : Kept s₀ (noteTxDelay old s p) := by
  unfold noteTxDelay
  repeat' first | with_reducible assumption | with_reducible apply Kept.ite | with_reducible apply setEport_kept
                  | with_reducible apply setTp_kept | with_reducible apply foldl_kept | extract_lets | split
                  | (intros; with_reducible assumption) | intro _ _ _ | intro _ _ | dsimp +zetaDelta only
                  | with_reducible refine Kept.mkUpd ?_ rfl rfl rfl

theorem netConfig_kept {s₀ : State} (old : State) (s : State) (hK : Kept s₀ s) : Kept s₀ (netConfig old s) := by
  unfold netConfig
  repeat' first | with_reducible assumption | with_reducible apply Kept.ite | with_reducible apply noteTxDelay_kept
                  | with_reducible apply noteRxDelay_kept | with_reducible apply ppsRestart_kept | with_reducible apply setTp_kept
                  | with_reducible apply servoStart_kept | with_reducible apply servoStop_kept
                  | with_reducible apply sourceChanged_kept | with_reducible apply setParent_kept | with_reducible apply foldl_kept
                  | extract_lets | split | (intros; with_reducible assumption) | intro _ _ _ | intro _ _ | dsimp +zetaDelta only
                  | with_reducible refine Kept.mkUpd ?_ rfl rfl rfl

theorem plCtrlWrite_kept {s₀ : State} (s : State) (a : Access) (v : W32) (hK : Kept s₀ s) : Kept s₀ (plCtrlWrite s a v) := by
  unfold plCtrlWrite
  repeat' first | with_reducible assumption | with_reducible apply Kept.ite | with_reducible apply cmdWrite_kept
                  | with_reducible apply rateSrcCheck_kept | with_reducible apply requestAdj_kept
                  | with_reducible apply forEach_kept | with_reducible apply releaseLanes_kept | with_reducible apply foldl_kept
                  | extract_lets | split | (intros; with_reducible assumption) | intro _ _ _ | intro _ _ | dsimp +zetaDelta only
                  | with_reducible refine Kept.mkUpd ?_ rfl rfl rfl

/-! ## Ports -/

theorem ethFrameReceive_kept {s₀ : State} (s : State) (fr : Frame) (hK : Kept s₀ s) : Kept s₀ (ethFrameReceive s fr) := by
  unfold ethFrameReceive
  repeat' first | with_reducible assumption | with_reducible apply Kept.ite | with_reducible apply rxCount_kept
                  | with_reducible apply inc_kept | with_reducible apply foldl_kept | extract_lets | split
                  | (intros; with_reducible assumption) | intro _ _ _ | intro _ _ | dsimp +zetaDelta only
                  | with_reducible refine Kept.mkUpd ?_ rfl rfl rfl

theorem ptpForward_kept {s₀ : State} (s : State) (fr : Frame) (hK : Kept s₀ s) : Kept s₀ (ptpForward s fr) := by
  unfold ptpForward
  repeat' first | with_reducible assumption | with_reducible apply Kept.ite | with_reducible apply rxCount_kept
                  | with_reducible apply inc_kept | with_reducible apply sts_kept | with_reducible apply tpPost_kept
                  | with_reducible apply setEport_kept | with_reducible apply foldl_kept | extract_lets | split
                  | (intros; with_reducible assumption) | intro _ _ _ | intro _ _ | dsimp +zetaDelta only
                  | with_reducible refine Kept.mkUpd ?_ rfl rfl rfl

theorem headGets_kept {s₀ : State} (s : State) (p : Nat) (w : Nat) (hK : Kept s₀ s) : Kept s₀ (headGets s p w) := by
  unfold headGets
  repeat' first | with_reducible assumption | with_reducible apply Kept.ite | with_reducible apply setEport_kept
                  | with_reducible apply foldl_kept | extract_lets | split | (intros; with_reducible assumption) | intro _ _ _
                  | intro _ _ | dsimp +zetaDelta only | with_reducible refine Kept.mkUpd ?_ rfl rfl rfl

theorem headReady_kept {s₀ : State} (s : State) (p : Nat) (hK : Kept s₀ s) : Kept s₀ (headReady s p) := by
  unfold headReady
  repeat' first | with_reducible assumption | with_reducible apply Kept.ite | with_reducible apply setEport_kept
                  | with_reducible apply headGets_kept | with_reducible apply foldl_kept | extract_lets | split
                  | (intros; with_reducible assumption) | intro _ _ _ | intro _ _ | dsimp +zetaDelta only
                  | with_reducible refine Kept.mkUpd ?_ rfl rfl rfl

theorem sendFrame_kept {s₀ : State} (s : State) (p : Nat) (bs : List Byte) (t : Int) (start : Nat) (x : SentAs) (hK : Kept s₀ s) :
    Kept s₀ (sendFrame s p bs t start x) := by
  unfold sendFrame
  repeat' first | with_reducible assumption | with_reducible apply Kept.ite | with_reducible apply inc_kept
                  | with_reducible apply setEport_kept | with_reducible apply foldl_kept | extract_lets | split
                  | (intros; with_reducible assumption) | intro _ _ _ | intro _ _ | dsimp +zetaDelta only
                  | with_reducible refine Kept.mkUpd ?_ rfl rfl rfl

theorem sendDreq_kept {s₀ : State} (s : State) (p : Nat) (ahead : Nat) (hK : Kept s₀ s) : Kept s₀ (sendDreq s p ahead) := by
  unfold sendDreq
  repeat' first | with_reducible assumption | with_reducible apply Kept.ite | with_reducible apply sendFrame_kept
                  | with_reducible apply inc_kept | with_reducible apply setTp_kept | with_reducible apply foldl_kept
                  | extract_lets | split | (intros; with_reducible assumption) | intro _ _ _ | intro _ _ | dsimp +zetaDelta only
                  | with_reducible refine Kept.mkUpd ?_ rfl rfl rfl

theorem sendFwd_kept {s₀ : State} (s : State) (p : Nat) (ahead : Nat) (f : Fwd) (hK : Kept s₀ s) : Kept s₀ (sendFwd s p ahead f) := by
  unfold sendFwd
  repeat' first | with_reducible assumption | with_reducible apply Kept.ite | with_reducible apply setEport_kept
                  | with_reducible apply sendFrame_kept | with_reducible apply inc_kept | with_reducible apply foldl_kept
                  | extract_lets | split | (intros; with_reducible assumption) | intro _ _ _ | intro _ _ | dsimp +zetaDelta only
                  | with_reducible refine Kept.mkUpd ?_ rfl rfl rfl

theorem frameTransmit_kept {s₀ : State} (s : State) (p : Nat) (ahead : Nat) (hK : Kept s₀ s) : Kept s₀ (frameTransmit s p ahead) := by
  unfold frameTransmit
  repeat' first | with_reducible assumption | with_reducible apply Kept.ite | with_reducible apply headReady_kept
                  | with_reducible apply sendFwd_kept | with_reducible apply sendDreq_kept | with_reducible apply foldl_kept
                  | extract_lets | split | (intros; with_reducible assumption) | intro _ _ _ | intro _ _ | dsimp +zetaDelta only
                  | with_reducible refine Kept.mkUpd ?_ rfl rfl rfl

theorem nextDreq_kept {s₀ : State} (s : State) (hK : Kept s₀ s) : Kept s₀ (nextDreq s) := by
  unfold nextDreq
  repeat' first | with_reducible assumption | with_reducible apply Kept.ite | with_reducible apply takeFree_kept
                  | with_reducible apply setTp_kept | with_reducible refine takeFree_keq (by with_reducible assumption) ?_
                  | with_reducible apply foldl_kept | extract_lets | split | (intros; with_reducible assumption) | intro _ _ _
                  | intro _ _ | dsimp +zetaDelta only | with_reducible refine Kept.mkUpd ?_ rfl rfl rfl

theorem delayReqSend_kept {s₀ : State} (s : State) (ahead : Nat) (hK : Kept s₀ s) : Kept s₀ (delayReqSend s ahead) := by
  unfold delayReqSend
  repeat' first | with_reducible assumption | with_reducible apply Kept.ite | with_reducible apply nextDreq_kept
                  | with_reducible apply setTp_kept | with_reducible apply sendDreq_kept | with_reducible apply foldl_kept
                  | extract_lets | split | (intros; with_reducible assumption) | intro _ _ _ | intro _ _ | dsimp +zetaDelta only
                  | with_reducible refine Kept.mkUpd ?_ rfl rfl rfl

theorem setLaunch_kept {s₀ : State} (s : State) (p : Nat) (l : List Launch) (h : Option (Int × Nat)) (hK : Kept s₀ s) : Kept s₀
    (setLaunch s p l h) := by
  unfold setLaunch
  repeat' first | with_reducible assumption | with_reducible apply Kept.ite | with_reducible apply setEport_kept
                  | with_reducible apply setFld_kept | with_reducible apply foldl_kept | extract_lets | split
                  | (intros; with_reducible assumption) | intro _ _ _ | intro _ _ | dsimp +zetaDelta only
                  | with_reducible refine Kept.mkUpd ?_ rfl rfl rfl

theorem epFrameLaunch_kept {s₀ : State} (s : State) (c : Command) (hK : Kept s₀ s) : Kept s₀ (epFrameLaunch s c) := by
  unfold epFrameLaunch
  repeat' first | with_reducible assumption | with_reducible apply Kept.ite | with_reducible apply runCmd_kept
                  | with_reducible apply refuseCmd_kept | with_reducible apply dmaFailCmd_kept | with_reducible apply headGets_kept
                  | with_reducible apply setLaunch_kept | with_reducible apply completeCmd_kept | with_reducible apply foldl_kept
                  | extract_lets | split | (intros; with_reducible assumption) | intro _ _ _ | intro _ _ | dsimp +zetaDelta only
                  | with_reducible refine Kept.mkUpd ?_ rfl rfl rfl

theorem frameLaunch_kept {s₀ : State} (s : State) (p : Nat) (hK : Kept s₀ s) : Kept s₀ (frameLaunch s p) := by
  unfold frameLaunch
  repeat' first | with_reducible assumption | with_reducible apply Kept.ite | with_reducible apply headReady_kept
                  | with_reducible apply sts_kept | with_reducible apply inc_kept | with_reducible apply setLaunch_kept
                  | with_reducible apply tpPost_kept | with_reducible apply sendFrame_kept | with_reducible apply headGets_kept
                  | with_reducible apply foldl_kept | extract_lets | split | (intros; with_reducible assumption) | intro _ _ _
                  | intro _ _ | dsimp +zetaDelta only | with_reducible refine Kept.mkUpd ?_ rfl rfl rfl

theorem epFlush_kept {s₀ : State} (s : State) (a : Access) (p : Nat) (v : W32) (hK : Kept s₀ s) : Kept s₀ (epFlush s a p v) := by
  unfold epFlush
  repeat' first | with_reducible assumption | with_reducible apply Kept.ite | with_reducible apply cmdWrite_kept
                  | with_reducible apply setLaunch_kept | with_reducible apply addCnt_kept | with_reducible apply foldl_kept
                  | extract_lets | split | (intros; with_reducible assumption) | intro _ _ _ | intro _ _ | dsimp +zetaDelta only
                  | with_reducible refine Kept.mkUpd ?_ rfl rfl rfl

theorem linkChange_kept {s₀ : State} (s : State) (p : Nat) (up : Bool) (hK : Kept s₀ s) : Kept s₀ (linkChange s p up) := by
  unfold linkChange
  repeat' first | with_reducible assumption | with_reducible apply Kept.ite | with_reducible apply setFlag_kept
                  | with_reducible apply sts_kept | with_reducible apply tpPost_kept | with_reducible apply headReady_kept
                  | with_reducible apply holdover_kept | with_reducible apply foldl_kept | extract_lets | split
                  | (intros; with_reducible assumption) | intro _ _ _ | intro _ _ | dsimp +zetaDelta only
                  | with_reducible refine Kept.mkUpd ?_ rfl rfl rfl

theorem epLinkReset_kept {s₀ : State} (s : State) (a : Access) (p : Nat) (v : W32) (hK : Kept s₀ s) : Kept s₀ (epLinkReset s a p v) := by
  unfold epLinkReset
  repeat' first | with_reducible assumption | with_reducible apply Kept.ite | with_reducible apply cmdWrite_kept
                  | with_reducible apply linkChange_kept | with_reducible apply setFlag_kept | with_reducible apply foldl_kept
                  | extract_lets | split | (intros; with_reducible assumption) | intro _ _ _ | intro _ _ | dsimp +zetaDelta only
                  | with_reducible refine Kept.mkUpd ?_ rfl rfl rfl

theorem ppsOutRise_kept {s₀ : State} (s : State) (hK : Kept s₀ s) : Kept s₀ (ppsOutRise s) := by
  unfold ppsOutRise
  repeat' first | with_reducible assumption | with_reducible apply Kept.ite | with_reducible apply setTp_kept
                  | with_reducible apply inc_kept | with_reducible apply foldl_kept | extract_lets | split
                  | (intros; with_reducible assumption) | intro _ _ _ | intro _ _ | dsimp +zetaDelta only
                  | with_reducible refine Kept.mkUpd ?_ rfl rfl rfl

theorem ppsOutFall_kept {s₀ : State} (s : State) (hK : Kept s₀ s) : Kept s₀ (ppsOutFall s) := by
  unfold ppsOutFall
  repeat' first | with_reducible assumption | with_reducible apply Kept.ite | with_reducible apply setTp_kept
                  | with_reducible apply foldl_kept | extract_lets | split | (intros; with_reducible assumption) | intro _ _ _
                  | intro _ _ | dsimp +zetaDelta only | with_reducible refine Kept.mkUpd ?_ rfl rfl rfl

theorem ppsInEdge_kept {s₀ : State} (s : State) (hK : Kept s₀ s) : Kept s₀ (ppsInEdge s) := by
  unfold ppsInEdge
  repeat' first | with_reducible assumption | with_reducible apply Kept.ite | with_reducible apply bump_kept
                  | with_reducible apply setPair64_kept | with_reducible apply tpPost_kept | with_reducible apply foldl_kept
                  | extract_lets | split | (intros; with_reducible assumption) | intro _ _ _ | intro _ _ | dsimp +zetaDelta only
                  | with_reducible refine Kept.mkUpd ?_ rfl rfl rfl

/-! ## Playback -/

theorem setSeqr_kept {s₀ : State} (s : State) (q : Nat) (x : Sequencer) (hK : Kept s₀ s) : Kept s₀ (setSeqr s q x) := by
  unfold setSeqr
  repeat' first | with_reducible assumption | with_reducible apply Kept.ite | with_reducible apply foldl_kept | extract_lets
                  | split | (intros; with_reducible assumption) | intro _ _ _ | intro _ _ | dsimp +zetaDelta only
                  | with_reducible refine Kept.mkUpd ?_ rfl rfl rfl

theorem pgPost_kept {s₀ : State} (s : State) (q : Nat) (ty : Nat) (aux : Nat) (data : Nat) (hK : Kept s₀ s) : Kept s₀ (pgPost s q ty
    aux data) := by
  unfold pgPost
  repeat' first | with_reducible assumption | with_reducible apply Kept.ite | with_reducible apply post_kept
                  | with_reducible apply foldl_kept | extract_lets | split | (intros; with_reducible assumption) | intro _ _ _
                  | intro _ _ | dsimp +zetaDelta only | with_reducible refine Kept.mkUpd ?_ rfl rfl rfl

theorem storeRefuse_kept {s₀ : State} (s : State) (q : Nat) (code : Nat) (hK : Kept s₀ s) : Kept s₀ (storeRefuse s q code) := by
  unfold storeRefuse
  repeat' first | with_reducible assumption | with_reducible apply Kept.ite | with_reducible apply setFld_kept
                  | with_reducible apply sts_kept | with_reducible apply foldl_kept | extract_lets | split
                  | (intros; with_reducible assumption) | intro _ _ _ | intro _ _ | dsimp +zetaDelta only
                  | with_reducible refine Kept.mkUpd ?_ rfl rfl rfl

theorem setClaim_kept {s₀ : State} (s : State) (q : Nat) (x : Option Region) (hK : Kept s₀ s) : Kept s₀ (setClaim s q x) := by
  unfold setClaim
  repeat' first | with_reducible assumption | with_reducible apply Kept.ite | with_reducible apply foldl_kept | extract_lets
                  | split | (intros; with_reducible assumption) | intro _ _ _ | intro _ _ | dsimp +zetaDelta only
                  | with_reducible refine Kept.mkUpd ?_ rfl rfl rfl

theorem pgStoreClaim_kept {s₀ : State} (s : State) (a : Access) (q : Nat) (v : W32) (hK : Kept s₀ s) : Kept s₀ (pgStoreClaim s a q v)
    := by
  unfold pgStoreClaim
  repeat' first | with_reducible assumption | with_reducible apply Kept.ite | with_reducible apply accept_kept
                  | with_reducible apply setFld_kept | with_reducible apply storeRefuse_kept | with_reducible apply setFlag_kept
                  | with_reducible apply setClaim_kept | with_reducible apply foldl_kept | extract_lets | split
                  | (intros; with_reducible assumption) | intro _ _ _ | intro _ _ | dsimp +zetaDelta only
                  | with_reducible refine Kept.mkUpd ?_ rfl rfl rfl

theorem pgStoreRelease_kept {s₀ : State} (s : State) (a : Access) (q : Nat) (v : W32) (hK : Kept s₀ s) : Kept s₀ (pgStoreRelease s a
    q v) := by
  unfold pgStoreRelease
  repeat' first | with_reducible assumption | with_reducible apply Kept.ite | with_reducible apply accept_kept
                  | with_reducible apply setFld_kept | with_reducible apply setFlag_kept | with_reducible apply setClaim_kept
                  | with_reducible apply foldl_kept | extract_lets | split | (intros; with_reducible assumption) | intro _ _ _
                  | intro _ _ | dsimp +zetaDelta only | with_reducible refine Kept.mkUpd ?_ rfl rfl rfl

theorem storeBlocks_kept {s₀ : State} (x : Region) (n : Nat) (s : State) (o : Nat) (bs : List Byte) (hK : Kept s₀ s) :
    Kept s₀ (storeBlocks x n s o bs) := by
  induction n generalizing s o bs with
  | zero => exact hK
  | succ n ih => exact ih _ _ _ (ddrWrite_kept _ _ _ hK)

theorem freeBlocks_kept {s₀ : State} (n : Nat) (s : State) (hK : Kept s₀ s) : Kept s₀ (freeBlocks n s).2 := by
  induction n generalizing s with
  | zero => exact hK
  | succ n ih => exact ih _ (takeFree_kept _ hK)
theorem freeBlocks_keq {s₀ b : State} {n : Nat} {s : State} {a : List Byte} (e : freeBlocks n s = (a, b)) (hK : Kept s₀ s) : Kept s₀
    b := by
  have := freeBlocks_kept n s hK
  rw [e] at this; exact this

theorem pgSegLoad_kept {s₀ : State} (s : State) (c : Command) (hK : Kept s₀ s) : Kept s₀ (pgSegLoad s c) := by
  unfold pgSegLoad
  repeat' first | with_reducible assumption | with_reducible apply Kept.ite | with_reducible apply runCmd_kept
                  | with_reducible apply refuseCmd_kept | with_reducible apply completeCmd_kept
                  | with_reducible apply storeBlocks_kept | with_reducible apply freeBlocks_kept
                  | with_reducible apply dmaFailCmd_kept | with_reducible refine freeBlocks_keq (by with_reducible assumption) ?_
                  | with_reducible apply foldl_kept | extract_lets | split | (intros; with_reducible assumption) | intro _ _ _
                  | intro _ _ | dsimp +zetaDelta only | with_reducible refine Kept.mkUpd ?_ rfl rfl rfl

theorem pgSeqLoad_kept {s₀ : State} (s : State) (c : Command) (hK : Kept s₀ s) : Kept s₀ (pgSeqLoad s c) := by
  unfold pgSeqLoad
  repeat' first | with_reducible assumption | with_reducible apply Kept.ite | with_reducible apply runCmd_kept
                  | with_reducible apply refuseCmd_kept | with_reducible apply dmaFailCmd_kept
                  | with_reducible apply completeCmd_kept | with_reducible apply setSeqr_kept | with_reducible apply foldl_kept
                  | extract_lets | split | (intros; with_reducible assumption) | intro _ _ _ | intro _ _ | dsimp +zetaDelta only
                  | with_reducible refine Kept.mkUpd ?_ rfl rfl rfl

theorem readGranule_kept {s₀ : State} (s : State) (x : Region) (i : Inst) (p : Nat) (errs : List (Nat × Bool)) (hK : Kept s₀ s) :
    Kept s₀ (readGranule s x i p errs).2 := by
  unfold readGranule
  extract_lets o
  rcases hq : readBlock s (storeAddr s x o) 3 (errs.filter fun e => e.1 < 8) with ⟨w, b, t⟩
  rcases hr : readBlock t (storeAddr t x (o + 64)) 3 ((errs.filter fun e => 8 ≤ e.1).map fun e => (e.1 - 8, e.2)) with ⟨w', b', t'⟩
  simp only [hr]
  exact readBlock_keq hr (readBlock_keq hq hK)
theorem readGranule_keq {s₀ t₁ : State} {o₁ : List Byte} {s : State} {x : Region} {i : Inst} {p : Nat} {errs : List (Nat × Bool)}
    (hE : readGranule s x i p errs = (o₁, t₁)) (hK : Kept s₀ s) : Kept s₀ t₁ := by
  have := readGranule_kept s x i p errs hK
  rw [hE] at this; exact this

theorem refillMain_kept {s₀ : State} (s : State) (q : Nat) (x : Region) (errs : List (Nat × Bool)) (hK : Kept s₀ s) : Kept s₀
    (refillMain s q x errs) := by
  unfold refillMain
  repeat' first | with_reducible assumption | with_reducible apply Kept.ite | with_reducible apply readGranule_kept
                  | with_reducible apply setSeqr_kept | with_reducible refine readGranule_keq (by with_reducible assumption) ?_
                  | with_reducible apply foldl_kept | extract_lets | split | (intros; with_reducible assumption) | intro _ _ _
                  | intro _ _ | dsimp +zetaDelta only | with_reducible refine Kept.mkUpd ?_ rfl rfl rfl

theorem refillHead_kept {s₀ : State} (s : State) (q : Nat) (x : Region) (j : Nat) (errs : List (Nat × Bool)) (hK : Kept s₀ s) : Kept
    s₀ (refillHead s q x j errs) := by
  unfold refillHead
  repeat' first | with_reducible assumption | with_reducible apply Kept.ite | with_reducible apply readGranule_kept
                  | with_reducible apply setSeqr_kept | with_reducible refine readGranule_keq (by with_reducible assumption) ?_
                  | with_reducible apply foldl_kept | extract_lets | split | (intros; with_reducible assumption) | intro _ _ _
                  | intro _ _ | dsimp +zetaDelta only | with_reducible refine Kept.mkUpd ?_ rfl rfl rfl

theorem refillRead_kept {s₀ : State} (s : State) (q : Nat) (errs : List (Nat × Bool)) (hK : Kept s₀ s) : Kept s₀ (refillRead s q
    errs) := by
  unfold refillRead
  repeat' first | with_reducible assumption | with_reducible apply Kept.ite | with_reducible apply refillMain_kept
                  | with_reducible apply refillHead_kept | with_reducible apply foldl_kept | extract_lets | split
                  | (intros; with_reducible assumption) | intro _ _ _ | intro _ _ | dsimp +zetaDelta only
                  | with_reducible refine Kept.mkUpd ?_ rfl rfl rfl

theorem startRefuse_kept {s₀ : State} (s : State) (q : Nat) (code : Nat) (hK : Kept s₀ s) : Kept s₀ (startRefuse s q code) := by
  unfold startRefuse
  repeat' first | with_reducible assumption | with_reducible apply Kept.ite | with_reducible apply setFld_kept
                  | with_reducible apply sts_kept | with_reducible apply foldl_kept | extract_lets | split
                  | (intros; with_reducible assumption) | intro _ _ _ | intro _ _ | dsimp +zetaDelta only
                  | with_reducible refine Kept.mkUpd ?_ rfl rfl rfl

theorem beginStart_kept {s₀ : State} (s : State) (q : Nat) (hK : Kept s₀ s) : Kept s₀ (beginStart s q) := by
  unfold beginStart
  repeat' first | with_reducible assumption | with_reducible apply Kept.ite | with_reducible apply setSeqr_kept
                  | with_reducible apply setFlag_kept | with_reducible apply sts_kept | with_reducible apply foldl_kept
                  | extract_lets | split | (intros; with_reducible assumption) | intro _ _ _ | intro _ _ | dsimp +zetaDelta only
                  | with_reducible refine Kept.mkUpd ?_ rfl rfl rfl

theorem pgStart_kept {s₀ : State} (s : State) (a : Access) (q : Nat) (v : W32) (hK : Kept s₀ s) : Kept s₀ (pgStart s a q v) := by
  unfold pgStart
  repeat' first | with_reducible assumption | with_reducible apply Kept.ite | with_reducible apply cmdWrite_kept
                  | with_reducible apply startRefuse_kept | with_reducible apply beginStart_kept | with_reducible apply foldl_kept
                  | extract_lets | split | (intros; with_reducible assumption) | intro _ _ _ | intro _ _ | dsimp +zetaDelta only
                  | with_reducible refine Kept.mkUpd ?_ rfl rfl rfl

theorem showPos_kept {s₀ : State} (s : State) (q : Nat) (i : Inst) (hK : Kept s₀ s) : Kept s₀ (showPos s q i) := by
  unfold showPos
  repeat' first | with_reducible assumption | with_reducible apply Kept.ite | with_reducible apply setFld_kept
                  | with_reducible apply foldl_kept | extract_lets | split | (intros; with_reducible assumption) | intro _ _ _
                  | intro _ _ | dsimp +zetaDelta only | with_reducible refine Kept.mkUpd ?_ rfl rfl rfl

theorem sequencerFirstSample_kept {s₀ : State} (s : State) (q : Nat) (hK : Kept s₀ s) : Kept s₀ (sequencerFirstSample s q) := by
  unfold sequencerFirstSample
  repeat' first | with_reducible assumption | with_reducible apply Kept.ite | with_reducible apply setSeqr_kept
                  | with_reducible apply showPos_kept | with_reducible apply setFlag_kept | with_reducible apply foldl_kept
                  | extract_lets | split | (intros; with_reducible assumption) | intro _ _ _ | intro _ _ | dsimp +zetaDelta only
                  | with_reducible refine Kept.mkUpd ?_ rfl rfl rfl

theorem countUnplayed_kept {s₀ : State} (s : State) (q : Nat) (k : Nat) (hK : Kept s₀ s) : Kept s₀ (countUnplayed s q k) := by
  unfold countUnplayed
  repeat' first | with_reducible assumption | with_reducible apply Kept.ite | with_reducible apply setSeqr_kept
                  | with_reducible apply addCnt_kept | with_reducible apply foldl_kept | extract_lets | split
                  | (intros; with_reducible assumption) | intro _ _ _ | intro _ _ | dsimp +zetaDelta only
                  | with_reducible refine Kept.mkUpd ?_ rfl rfl rfl

theorem seqStop_kept {s₀ : State} (s : State) (q : Nat) (w : Nat) (aux : Nat) (hK : Kept s₀ s) : Kept s₀ (seqStop s q w aux) := by
  unfold seqStop
  repeat' first | with_reducible assumption | with_reducible apply Kept.ite | with_reducible apply countUnplayed_kept
                  | with_reducible apply setPair64_kept | with_reducible apply setSeqr_kept | with_reducible apply setFlag_kept
                  | with_reducible apply pgPost_kept | with_reducible apply foldl_kept | extract_lets | split
                  | (intros; with_reducible assumption) | intro _ _ _ | intro _ _ | dsimp +zetaDelta only
                  | with_reducible refine Kept.mkUpd ?_ rfl rfl rfl

theorem pgStop_kept {s₀ : State} (s : State) (a : Access) (q : Nat) (v : W32) (hK : Kept s₀ s) : Kept s₀ (pgStop s a q v) := by
  unfold pgStop
  repeat' first | with_reducible assumption | with_reducible apply Kept.ite | with_reducible apply cmdWrite_kept
                  | with_reducible apply setSeqr_kept | with_reducible apply seqStop_kept | with_reducible apply foldl_kept
                  | extract_lets | split | (intros; with_reducible assumption) | intro _ _ _ | intro _ _ | dsimp +zetaDelta only
                  | with_reducible refine Kept.mkUpd ?_ rfl rfl rfl

theorem endStops_kept {s₀ : State} (s : State) (hK : Kept s₀ s) : Kept s₀ (endStops s) := by
  unfold endStops
  repeat' first | with_reducible assumption | with_reducible apply Kept.ite | with_reducible apply forEach_kept
                  | with_reducible apply seqStop_kept | with_reducible apply foldl_kept | extract_lets | split
                  | (intros; with_reducible assumption) | intro _ _ _ | intro _ _ | dsimp +zetaDelta only
                  | with_reducible refine Kept.mkUpd ?_ rfl rfl rfl

theorem takeLatches_kept {s₀ : State} (s : State) (q : Nat) (c : Nat) (taken : List Nat) (jump : Option Nat) (hK : Kept s₀ s) : Kept
    s₀ (takeLatches s q c taken jump) := by
  unfold takeLatches
  repeat' first | with_reducible assumption | with_reducible apply Kept.ite | with_reducible apply setSeqr_kept
                  | with_reducible apply sts_kept | with_reducible apply addCnt_kept | with_reducible apply foldl_kept
                  | extract_lets | split | (intros; with_reducible assumption) | intro _ _ _ | intro _ _ | dsimp +zetaDelta only
                  | with_reducible refine Kept.mkUpd ?_ rfl rfl rfl

theorem commitPoint_kept {s₀ : State} (s : State) (q : Nat) (hK : Kept s₀ s) : Kept s₀ (commitPoint s q) := by
  unfold commitPoint
  repeat' first | with_reducible assumption | with_reducible apply Kept.ite | with_reducible apply takeLatches_kept
                  | with_reducible apply setSeqr_kept | with_reducible apply pairSend_kept | with_reducible apply inc_kept
                  | with_reducible apply foldl_kept | extract_lets | split | (intros; with_reducible assumption) | intro _ _ _
                  | intro _ _ | dsimp +zetaDelta only | with_reducible refine Kept.mkUpd ?_ rfl rfl rfl

theorem setJump_kept {s₀ : State} (s : State) (q : Nat) (j : Nat) (w : Nat) (hK : Kept s₀ s) : Kept s₀ (setJump s q j w) := by
  unfold setJump
  repeat' first | with_reducible assumption | with_reducible apply Kept.ite | with_reducible apply commitPoint_kept
                  | with_reducible apply setSeqr_kept | with_reducible apply pgPost_kept | with_reducible apply sts_kept
                  | with_reducible apply inc_kept | with_reducible apply foldl_kept | extract_lets | split
                  | (intros; with_reducible assumption) | intro _ _ _ | intro _ _ | dsimp +zetaDelta only
                  | with_reducible refine Kept.mkUpd ?_ rfl rfl rfl

theorem pgJump_kept {s₀ : State} (s : State) (a : Access) (q : Nat) (v : W32) (hK : Kept s₀ s) : Kept s₀ (pgJump s a q v) := by
  unfold pgJump
  repeat' first | with_reducible assumption | with_reducible apply Kept.ite | with_reducible apply cmdWrite_kept
                  | with_reducible apply forEach_kept | with_reducible apply setJump_kept | with_reducible apply foldl_kept
                  | extract_lets | split | (intros; with_reducible assumption) | intro _ _ _ | intro _ _ | dsimp +zetaDelta only
                  | with_reducible refine Kept.mkUpd ?_ rfl rfl rfl

theorem pgClrreq_kept {s₀ : State} (s : State) (a : Access) (q : Nat) (v : W32) (hK : Kept s₀ s) : Kept s₀ (pgClrreq s a q v) := by
  unfold pgClrreq
  repeat' first | with_reducible assumption | with_reducible apply Kept.ite | with_reducible apply cmdWrite_kept
                  | with_reducible apply commitPoint_kept | with_reducible apply setSeqr_kept | with_reducible apply foldl_kept
                  | extract_lets | split | (intros; with_reducible assumption) | intro _ _ _ | intro _ _ | dsimp +zetaDelta only
                  | with_reducible refine Kept.mkUpd ?_ rfl rfl rfl

theorem jumpRequestArrival_kept {s₀ : State} (s : State) (q : Nat) (hK : Kept s₀ s) : Kept s₀ (jumpRequestArrival s q) := by
  unfold jumpRequestArrival
  repeat' first | with_reducible assumption | with_reducible apply Kept.ite | with_reducible apply setJump_kept
                  | with_reducible apply foldl_kept | extract_lets | split | (intros; with_reducible assumption) | intro _ _ _
                  | intro _ _ | dsimp +zetaDelta only | with_reducible refine Kept.mkUpd ?_ rfl rfl rfl

theorem beginInstance_kept {s₀ : State} (s : State) (q : Nat) (w : Nat) (F : Fetched) (N : Fetched) (hK : Kept s₀ s) : Kept s₀
    (beginInstance s q w F N) := by
  unfold beginInstance
  repeat' first | with_reducible assumption | with_reducible apply Kept.ite | with_reducible apply showPos_kept
                  | with_reducible apply setSeqr_kept | with_reducible apply applyRegs_kept | with_reducible apply pgPost_kept
                  | with_reducible apply setFlag_kept | with_reducible apply foldl_kept | extract_lets | split
                  | (intros; with_reducible assumption) | intro _ _ _ | intro _ _ | dsimp +zetaDelta only
                  | with_reducible refine Kept.mkUpd ?_ rfl rfl rfl

theorem segmentBoundary_kept {s₀ : State} (s : State) (q : Nat) (hK : Kept s₀ s) : Kept s₀ (segmentBoundary s q) := by
  unfold segmentBoundary
  repeat' first | with_reducible assumption | with_reducible apply Kept.ite | with_reducible apply seqStop_kept
                  | with_reducible apply beginInstance_kept | with_reducible apply countUnplayed_kept
                  | with_reducible apply foldl_kept | extract_lets | split | (intros; with_reducible assumption) | intro _ _ _
                  | intro _ _ | dsimp +zetaDelta only | with_reducible refine Kept.mkUpd ?_ rfl rfl rfl

theorem starve_kept {s₀ : State} (s : State) (q : Nat) (p : Nat) (hK : Kept s₀ s) : Kept s₀ (starve s q p) := by
  unfold starve
  repeat' first | with_reducible assumption | with_reducible apply Kept.ite | with_reducible apply setSeqr_kept
                  | with_reducible apply inc_kept | with_reducible apply sts_kept | with_reducible apply setFlag_kept
                  | with_reducible apply pgPost_kept | with_reducible apply foldl_kept | extract_lets | split
                  | (intros; with_reducible assumption) | intro _ _ _ | intro _ _ | dsimp +zetaDelta only
                  | with_reducible refine Kept.mkUpd ?_ rfl rfl rfl

theorem granuleStarve_kept {s₀ : State} (s : State) (q : Nat) (hK : Kept s₀ s) : Kept s₀ (granuleStarve s q) := by
  unfold granuleStarve
  repeat' first | with_reducible assumption | with_reducible apply Kept.ite | with_reducible apply starve_kept
                  | with_reducible apply foldl_kept | extract_lets | split | (intros; with_reducible assumption) | intro _ _ _
                  | intro _ _ | dsimp +zetaDelta only | with_reducible refine Kept.mkUpd ?_ rfl rfl rfl

theorem rePosition_kept {s₀ : State} (s : State) (q : Nat) (e : Nat) (w : Nat) (w1 : Nat) (i1 : Inst) (hK : Kept s₀ s) : Kept s₀
    (rePosition s q e w w1 i1) := by
  unfold rePosition
  repeat' first | with_reducible assumption | with_reducible apply Kept.ite | with_reducible apply setFlag_kept
                  | with_reducible apply showPos_kept | with_reducible apply setSeqr_kept | with_reducible apply starve_kept
                  | with_reducible apply foldl_kept | extract_lets | split | (intros; with_reducible assumption) | intro _ _ _
                  | intro _ _ | dsimp +zetaDelta only | with_reducible refine Kept.mkUpd ?_ rfl rfl rfl

theorem takeOutcome_kept {s₀ : State} (s : State) (q : Nat) (w : Nat) (j : Option Nat) (hK : Kept s₀ s) : Kept s₀ (takeOutcome s q w
    j) := by
  unfold takeOutcome
  repeat' first | with_reducible assumption | with_reducible apply Kept.ite | with_reducible apply setSeqr_kept
                  | with_reducible apply rePosition_kept | with_reducible apply seqStop_kept | with_reducible apply foldl_kept
                  | extract_lets | split | (intros; with_reducible assumption) | intro _ _ _ | intro _ _ | dsimp +zetaDelta only
                  | with_reducible refine Kept.mkUpd ?_ rfl rfl rfl

theorem setOvr_kept {s₀ : State} (s : State) (p : Nat) (x : Option Override) (sample : Nat) (hK : Kept s₀ s) : Kept s₀ (setOvr s p x
    sample) := by
  unfold setOvr
  repeat' first | with_reducible assumption | with_reducible apply Kept.ite | with_reducible apply foldl_kept | extract_lets
                  | split | (intros; with_reducible assumption) | intro _ _ _ | intro _ _ | dsimp +zetaDelta only
                  | with_reducible refine Kept.mkUpd ?_ rfl rfl rfl

theorem doOverride_kept {s₀ : State} (s : State) (p : Nat) (act : Nat) (n : Nat) (sample : Nat) (hK : Kept s₀ s) : Kept s₀
    (doOverride s p act n sample) := by
  unfold doOverride
  repeat' first | with_reducible assumption | with_reducible apply Kept.ite | with_reducible apply inc_kept
                  | with_reducible apply setOvr_kept | with_reducible apply foldl_kept | extract_lets | split
                  | (intros; with_reducible assumption) | intro _ _ _ | intro _ _ | dsimp +zetaDelta only
                  | with_reducible refine Kept.mkUpd ?_ rfl rfl rfl

theorem takeOvr_kept {s₀ : State} (s : State) (p : Nat) (x : OvrReq) (hK : Kept s₀ s) : Kept s₀ (takeOvr s p x) := by
  unfold takeOvr
  repeat' first | with_reducible assumption | with_reducible apply Kept.ite | with_reducible apply doOverride_kept
                  | with_reducible apply foldl_kept | extract_lets | split | (intros; with_reducible assumption) | intro _ _ _
                  | intro _ _ | dsimp +zetaDelta only | with_reducible refine Kept.mkUpd ?_ rfl rfl rfl

theorem overrideApply_kept {s₀ : State} (s : State) (p : Nat) (hK : Kept s₀ s) : Kept s₀ (overrideApply s p) := by
  unfold overrideApply
  repeat' first | with_reducible assumption | with_reducible apply Kept.ite | with_reducible apply takeOvr_kept
                  | with_reducible apply foldl_kept | extract_lets | split | (intros; with_reducible assumption) | intro _ _ _
                  | intro _ _ | dsimp +zetaDelta only | with_reducible refine Kept.mkUpd ?_ rfl rfl rfl

theorem overridePulseEnd_kept {s₀ : State} (s : State) (p : Nat) (hK : Kept s₀ s) : Kept s₀ (overridePulseEnd s p) := by
  unfold overridePulseEnd
  repeat' first | with_reducible assumption | with_reducible apply Kept.ite | with_reducible apply setOvr_kept
                  | with_reducible apply foldl_kept | extract_lets | split | (intros; with_reducible assumption) | intro _ _ _
                  | intro _ _ | dsimp +zetaDelta only | with_reducible refine Kept.mkUpd ?_ rfl rfl rfl

theorem pgOvrCmd_kept {s₀ : State} (s : State) (a : Access) (v : W32) (hK : Kept s₀ s) : Kept s₀ (pgOvrCmd s a v) := by
  unfold pgOvrCmd
  repeat' first | with_reducible assumption | with_reducible apply Kept.ite | with_reducible apply cmdWrite_kept
                  | with_reducible apply inc_kept | with_reducible apply foldl_kept | extract_lets | split
                  | (intros; with_reducible assumption) | intro _ _ _ | intro _ _ | dsimp +zetaDelta only
                  | with_reducible refine Kept.mkUpd ?_ rfl rfl rfl

theorem endDisabled_kept {s₀ : State} (s : State) (hK : Kept s₀ s) : Kept s₀ (endDisabled s) := by
  unfold endDisabled
  repeat' first | with_reducible assumption | with_reducible apply Kept.ite | with_reducible apply forEach_kept
                  | with_reducible apply setOvr_kept | with_reducible apply foldl_kept | extract_lets | split
                  | (intros; with_reducible assumption) | intro _ _ _ | intro _ _ | dsimp +zetaDelta only
                  | with_reducible refine Kept.mkUpd ?_ rfl rfl rfl

/-! ## Channels -/

theorem serve3_kept {s₀ : State} (s : State) (n : Nat) (k : Class3) (hK : Kept s₀ s) : Kept s₀ (serve3 s n k) := by
  unfold serve3
  repeat' first | with_reducible assumption | with_reducible apply Kept.ite | with_reducible apply setChan_kept
                  | with_reducible apply foldl_kept | extract_lets | split | (intros; with_reducible assumption) | intro _ _ _
                  | intro _ _ | dsimp +zetaDelta only | with_reducible refine Kept.mkUpd ?_ rfl rfl rfl

theorem arbitrate_kept {s₀ : State} (s : State) (r : Nat) (k : Class3) (f : State → State) (hK : Kept s₀ s) (hKf : ∀ t, Kept s₀ t →
    Kept s₀ (f t)) : Kept s₀ (arbitrate s r k f) := by
  unfold arbitrate
  repeat' first | with_reducible assumption | with_reducible apply hKf | with_reducible apply Kept.ite
                  | with_reducible apply forEach_kept | with_reducible apply serve3_kept | with_reducible apply foldl_kept
                  | extract_lets | split | (intros; with_reducible assumption) | intro _ _ _ | intro _ _ | dsimp +zetaDelta only
                  | with_reducible refine Kept.mkUpd ?_ rfl rfl rfl

theorem ringWriteServed_kept {s₀ : State} (s : State) (r : Nat) (hK : Kept s₀ s) : Kept s₀ (ringWriteServed s r) := by
  unfold ringWriteServed
  repeat' first | with_reducible assumption | with_reducible apply Kept.ite | with_reducible apply arbitrate_kept
                  | with_reducible apply ringWrite_kept | with_reducible apply spliceWritten_kept | with_reducible apply foldl_kept
                  | extract_lets | split | (intros; with_reducible assumption) | intro _ _ _ | intro _ _ | dsimp +zetaDelta only
                  | with_reducible refine Kept.mkUpd ?_ rfl rfl rfl

theorem replayReadServed_kept {s₀ : State} (s : State) (r : Nat) (errs : List (Nat × Bool)) (hK : Kept s₀ s) : Kept s₀
    (replayReadServed s r errs) := by
  unfold replayReadServed
  repeat' first | with_reducible assumption | with_reducible apply Kept.ite | with_reducible apply arbitrate_kept
                  | with_reducible apply replaySlotRead_kept | with_reducible apply foldl_kept | extract_lets | split
                  | (intros; with_reducible assumption) | intro _ _ _ | intro _ _ | dsimp +zetaDelta only
                  | with_reducible refine Kept.mkUpd ?_ rfl rfl rfl

theorem copyServed_kept {s₀ : State} (s : State) (r : Nat) (errs : List (Nat × Bool)) (hK : Kept s₀ s) : Kept s₀ (copyServed s r
    errs) := by
  unfold copyServed
  repeat' first | with_reducible assumption | with_reducible apply Kept.ite | with_reducible apply arbitrate_kept
                  | with_reducible apply migrationCopy_kept | with_reducible apply foldl_kept | extract_lets | split
                  | (intros; with_reducible assumption) | intro _ _ _ | intro _ _ | dsimp +zetaDelta only
                  | with_reducible refine Kept.mkUpd ?_ rfl rfl rfl

theorem refillServed_kept {s₀ : State} (s : State) (q : Nat) (errs : List (Nat × Bool)) (hK : Kept s₀ s) : Kept s₀ (refillServed s q
    errs) := by
  unfold refillServed
  repeat' first | with_reducible assumption | with_reducible apply Kept.ite | with_reducible apply refillRead_kept
                  | with_reducible apply setChan_kept | with_reducible apply foldl_kept | extract_lets | split
                  | (intros; with_reducible assumption) | intro _ _ _ | intro _ _ | dsimp +zetaDelta only
                  | with_reducible refine Kept.mkUpd ?_ rfl rfl rfl

theorem scrubRead_kept {s₀ : State} (s : State) (n : Nat) (blk : Nat) (errs : List (Nat × Bool)) (hK : Kept s₀ s) : Kept s₀
    (scrubRead s n blk errs) := by
  unfold scrubRead
  repeat' first | with_reducible assumption | with_reducible apply Kept.ite | with_reducible apply scrubBlock_kept
                  | with_reducible apply foldl_kept | extract_lets | split | (intros; with_reducible assumption) | intro _ _ _
                  | intro _ _ | dsimp +zetaDelta only | with_reducible refine Kept.mkUpd ?_ rfl rfl rfl

/-! ## Triggers -/

theorem setTrigger_kept {s₀ : State} (s : State) (t : Nat) (x : Trigger) (hK : Kept s₀ s) : Kept s₀ (setTrigger s t x) := by
  unfold setTrigger
  repeat' first | with_reducible assumption | with_reducible apply Kept.ite | with_reducible apply foldl_kept | extract_lets
                  | split | (intros; with_reducible assumption) | intro _ _ _ | intro _ _ | dsimp +zetaDelta only
                  | with_reducible refine Kept.mkUpd ?_ rfl rfl rfl

theorem gateEvent_kept {s₀ : State} (s : State) (id : Nat) (open_ : Bool) (t : Nat) (hK : Kept s₀ s) : Kept s₀ (gateEvent s id open_
    t) := by
  unfold gateEvent
  repeat' first | with_reducible assumption | with_reducible apply Kept.ite | with_reducible apply gateToMus_kept
                  | with_reducible apply gateToGroups_kept | with_reducible apply foldl_kept | extract_lets | split
                  | (intros; with_reducible assumption) | intro _ _ _ | intro _ _ | dsimp +zetaDelta only
                  | with_reducible refine Kept.mkUpd ?_ rfl rfl rfl

theorem gateAt_kept {s₀ : State} (s : State) (id : Nat) (open_ : Bool) (x : Int) (hK : Kept s₀ s) : Kept s₀ (gateAt s id open_ x) := by
  unfold gateAt
  repeat' first | with_reducible assumption | with_reducible apply Kept.ite | with_reducible apply gateToMus_kept
                  | with_reducible apply gateToGroups_kept | with_reducible apply foldl_kept | extract_lets | split
                  | (intros; with_reducible assumption) | intro _ _ _ | intro _ _ | dsimp +zetaDelta only
                  | with_reducible refine Kept.mkUpd ?_ rfl rfl rfl

theorem setNext_kept {s₀ : State} (s : State) (t : Nat) (x : Nat) (hK : Kept s₀ s) : Kept s₀ (setNext s t x) := by
  unfold setNext
  repeat' first | with_reducible assumption | with_reducible apply Kept.ite | with_reducible apply setPair64_kept
                  | with_reducible apply foldl_kept | extract_lets | split | (intros; with_reducible assumption) | intro _ _ _
                  | intro _ _ | dsimp +zetaDelta only | with_reducible refine Kept.mkUpd ?_ rfl rfl rfl

theorem ttArm_kept {s₀ : State} (s : State) (a : Access) (n : Nat) (v : W32) (hK : Kept s₀ s) : Kept s₀ (ttArm s a n v) := by
  refine accept_kept _ _ _ _ hK fun u hu => Kept.ite hu (Kept.ite (sts_kept _ _ hu) (Kept.ite (sts_kept _ _ hu) ?_))
  rcases firstFire u n (tNow u) with ⟨x, late⟩
  exact setNext_kept _ _ _ (setFlag_kept _ _ _ (setTrigger_kept _ _ _ hu))

theorem disarm_kept {s₀ : State} (s : State) (t : Nat) (hK : Kept s₀ s) : Kept s₀ (disarm s t) := by
  unfold disarm
  repeat' first | with_reducible assumption | with_reducible apply Kept.ite | with_reducible apply setNext_kept
                  | with_reducible apply setFlag_kept | with_reducible apply foldl_kept | extract_lets | split
                  | (intros; with_reducible assumption) | intro _ _ _ | intro _ _ | dsimp +zetaDelta only
                  | with_reducible refine Kept.mkUpd ?_ rfl rfl rfl

theorem closeTrigGate_kept {s₀ : State} (s : State) (t : Nat) (x : Int) (hK : Kept s₀ s) : Kept s₀ (closeTrigGate s t x) := by
  unfold closeTrigGate
  repeat' first | with_reducible assumption | with_reducible apply Kept.ite | with_reducible apply gateAt_kept
                  | with_reducible apply setTrigger_kept | with_reducible apply foldl_kept | extract_lets | split
                  | (intros; with_reducible assumption) | intro _ _ _ | intro _ _ | dsimp +zetaDelta only
                  | with_reducible refine Kept.mkUpd ?_ rfl rfl rfl

theorem ttDisarm_kept {s₀ : State} (s : State) (a : Access) (t : Nat) (v : W32) (hK : Kept s₀ s) : Kept s₀ (ttDisarm s a t v) := by
  unfold ttDisarm
  repeat' first | with_reducible assumption | with_reducible apply Kept.ite | with_reducible apply accept_kept
                  | with_reducible apply closeTrigGate_kept | with_reducible apply disarm_kept
                  | with_reducible apply setTrigger_kept | with_reducible apply foldl_kept | extract_lets | split
                  | (intros; with_reducible assumption) | intro _ _ _ | intro _ _ | dsimp +zetaDelta only
                  | with_reducible refine Kept.mkUpd ?_ rfl rfl rfl

theorem ttPost_kept {s₀ : State} (s : State) (t : Nat) (ty : Nat) (data : Nat) (hK : Kept s₀ s) : Kept s₀ (ttPost s t ty data) := by
  unfold ttPost
  repeat' first | with_reducible assumption | with_reducible apply Kept.ite | with_reducible apply post_kept
                  | with_reducible apply foldl_kept | extract_lets | split | (intros; with_reducible assumption) | intro _ _ _
                  | intro _ _ | dsimp +zetaDelta only | with_reducible refine Kept.mkUpd ?_ rfl rfl rfl

theorem fireRefused_kept {s₀ : State} (s : State) (t : Nat) (x : Int) (hK : Kept s₀ s) : Kept s₀ (fireRefused s t x) := by
  unfold fireRefused
  repeat' first | with_reducible assumption | with_reducible apply Kept.ite | with_reducible apply ttPost_kept
                  | with_reducible apply sts_kept | with_reducible apply foldl_kept | extract_lets | split
                  | (intros; with_reducible assumption) | intro _ _ _ | intro _ _ | dsimp +zetaDelta only
                  | with_reducible refine Kept.mkUpd ?_ rfl rfl rfl

theorem fireTarget_kept {s₀ : State} (s : State) (t : Nat) (x : Int) (hK : Kept s₀ s) : Kept s₀ (fireTarget s t x) := by
  unfold fireTarget
  repeat' first | with_reducible assumption | with_reducible apply Kept.ite | with_reducible apply fireRefused_kept
                  | with_reducible apply strobeAt_kept | with_reducible apply closeTrigGate_kept
                  | with_reducible apply setTrigger_kept | with_reducible apply gateAt_kept | with_reducible apply mailPost_kept
                  | with_reducible apply muPostAt_kept | with_reducible refine mailPost_keq (by with_reducible assumption) ?_
                  | with_reducible apply foldl_kept | extract_lets | split | (intros; with_reducible assumption) | intro _ _ _
                  | intro _ _ | dsimp +zetaDelta only | with_reducible refine Kept.mkUpd ?_ rfl rfl rfl

theorem afterFire_kept {s₀ : State} (s : State) (t : Nat) (x : Int) (hK : Kept s₀ s) : Kept s₀ (afterFire s t x) := by
  unfold afterFire
  repeat' first | with_reducible assumption | with_reducible apply Kept.ite | with_reducible apply sts_kept
                  | with_reducible apply disarm_kept | with_reducible apply setNext_kept | with_reducible apply setTrigger_kept
                  | with_reducible apply foldl_kept | extract_lets | split | (intros; with_reducible assumption) | intro _ _ _
                  | intro _ _ | dsimp +zetaDelta only | with_reducible refine Kept.mkUpd ?_ rfl rfl rfl

theorem closeBy_kept {s₀ : State} (s : State) (t : Nat) (x : Int) (hK : Kept s₀ s) : Kept s₀ (closeBy s t x) := by
  unfold closeBy
  repeat' first | with_reducible assumption | with_reducible apply Kept.ite | with_reducible apply closeTrigGate_kept
                  | with_reducible apply foldl_kept | extract_lets | split | (intros; with_reducible assumption) | intro _ _ _
                  | intro _ _ | dsimp +zetaDelta only | with_reducible refine Kept.mkUpd ?_ rfl rfl rfl

theorem triggerFire_kept {s₀ : State} (s : State) (t : Nat) (hK : Kept s₀ s) : Kept s₀ (triggerFire s t) := by
  unfold triggerFire
  repeat' first | with_reducible assumption | with_reducible apply Kept.ite | with_reducible apply closeBy_kept
                  | with_reducible apply inc_kept | with_reducible apply setTrigger_kept | with_reducible apply ttPost_kept
                  | with_reducible apply sts_kept | with_reducible apply afterFire_kept | with_reducible apply fireTarget_kept
                  | with_reducible apply foldl_kept | extract_lets | split | (intros; with_reducible assumption) | intro _ _ _
                  | intro _ _ | dsimp +zetaDelta only | with_reducible refine Kept.mkUpd ?_ rfl rfl rfl

theorem triggerGateClose_kept {s₀ : State} (s : State) (t : Nat) (hK : Kept s₀ s) : Kept s₀ (triggerGateClose s t) := by
  unfold triggerGateClose
  repeat' first | with_reducible assumption | with_reducible apply Kept.ite | with_reducible apply closeTrigGate_kept
                  | with_reducible apply sts_kept | with_reducible apply disarm_kept | with_reducible apply setTrigger_kept
                  | with_reducible apply foldl_kept | extract_lets | split | (intros; with_reducible assumption) | intro _ _ _
                  | intro _ _ | dsimp +zetaDelta only | with_reducible refine Kept.mkUpd ?_ rfl rfl rfl

theorem hostGate_kept {s₀ : State} (s : State) (open_ : Bool) (v : W32) (hK : Kept s₀ s) : Kept s₀ (hostGate s open_ v) := by
  unfold hostGate
  repeat' first | with_reducible assumption | with_reducible apply Kept.ite | with_reducible apply sts_kept
                  | with_reducible apply gateEvent_kept | with_reducible apply setFlag_kept | with_reducible apply foldl_kept
                  | extract_lets | split | (intros; with_reducible assumption) | intro _ _ _ | intro _ _ | dsimp +zetaDelta only
                  | with_reducible refine Kept.mkUpd ?_ rfl rfl rfl

theorem ttHostGateOpen_kept {s₀ : State} (s : State) (a : Access) (v : W32) (hK : Kept s₀ s) : Kept s₀ (ttHostGateOpen s a v) := by
  unfold ttHostGateOpen
  repeat' first | with_reducible assumption | with_reducible apply Kept.ite | with_reducible apply cmdWrite_kept
                  | with_reducible apply hostGate_kept | with_reducible apply foldl_kept | extract_lets | split
                  | (intros; with_reducible assumption) | intro _ _ _ | intro _ _ | dsimp +zetaDelta only
                  | with_reducible refine Kept.mkUpd ?_ rfl rfl rfl

theorem ttHostGateClose_kept {s₀ : State} (s : State) (a : Access) (v : W32) (hK : Kept s₀ s) : Kept s₀ (ttHostGateClose s a v) := by
  unfold ttHostGateClose
  repeat' first | with_reducible assumption | with_reducible apply Kept.ite | with_reducible apply cmdWrite_kept
                  | with_reducible apply hostGate_kept | with_reducible apply foldl_kept | extract_lets | split
                  | (intros; with_reducible assumption) | intro _ _ _ | intro _ _ | dsimp +zetaDelta only
                  | with_reducible refine Kept.mkUpd ?_ rfl rfl rfl

theorem gatePinEdge_kept {s₀ : State} (s : State) (n : Nat) (level : Bool) (hK : Kept s₀ s) : Kept s₀ (gatePinEdge s n level) := by
  unfold gatePinEdge
  repeat' first | with_reducible assumption | with_reducible apply Kept.ite | with_reducible apply gateEvent_kept
                  | with_reducible apply foldl_kept | extract_lets | split | (intros; with_reducible assumption) | intro _ _ _
                  | intro _ _ | dsimp +zetaDelta only | with_reducible refine Kept.mkUpd ?_ rfl rfl rfl

theorem restartGens_kept {s₀ : State} (s : State) (hK : Kept s₀ s) : Kept s₀ (restartGens s) := by
  unfold restartGens
  repeat' first | with_reducible assumption | with_reducible apply Kept.ite | with_reducible apply forEach_kept
                  | with_reducible apply setPair64_kept | with_reducible apply setFlag_kept | with_reducible apply bump_kept
                  | with_reducible apply foldl_kept | extract_lets | split | (intros; with_reducible assumption) | intro _ _ _
                  | intro _ _ | dsimp +zetaDelta only | with_reducible refine Kept.mkUpd ?_ rfl rfl rfl

theorem advanceGens_kept {s₀ : State} (s : State) (hK : Kept s₀ s) : Kept s₀ (advanceGens s) := by
  unfold advanceGens
  repeat' first | with_reducible assumption | with_reducible apply Kept.ite | with_reducible apply foldl_kept | extract_lets
                  | split | (intros; with_reducible assumption) | intro _ _ _ | intro _ _ | dsimp +zetaDelta only
                  | with_reducible refine Kept.mkUpd ?_ rfl rfl rfl

end Sys2Proof.Laws
end

