-- ==== Sys2Proof/Laws/KeptPower.lean ====
section
/-! SUPPORT. What no operation touches or worsens (`Kept`), for the pair, the Armature, power, the commands of the register bus and
the passage of time. -/

namespace Sys2Proof.Laws

open Sys2Proof.Machine

/-! ## Pair -/

theorem setPr_kept {s₀ : State} (s : State) (x : Pair) (hK : Kept s₀ s) : Kept s₀ (setPr s x) := by
  unfold setPr
  repeat' first | with_reducible assumption | with_reducible apply Kept.ite | with_reducible apply foldl_kept | extract_lets
                  | split | (intros; with_reducible assumption) | intro _ _ _ | intro _ _ | dsimp +zetaDelta only
                  | with_reducible refine Kept.mkUpd ?_ rfl rfl rfl

theorem prPost_kept {s₀ : State} (s : State) (ty : Nat) (aux : Nat) (data : Nat) (hK : Kept s₀ s) : Kept s₀ (prPost s ty aux data) := by
  unfold prPost
  repeat' first | with_reducible assumption | with_reducible apply Kept.ite | with_reducible apply post_kept
                  | with_reducible apply foldl_kept | extract_lets | split | (intros; with_reducible assumption) | intro _ _ _
                  | intro _ _ | dsimp +zetaDelta only | with_reducible refine Kept.mkUpd ?_ rfl rfl rfl

theorem linkStep_kept {s₀ : State} (s : State) (hK : Kept s₀ s) : Kept s₀ (linkStep s) := by
  unfold linkStep
  repeat' first | with_reducible assumption | with_reducible apply Kept.ite | with_reducible apply setPr_kept
                  | with_reducible apply foldl_kept | extract_lets | split | (intros; with_reducible assumption) | intro _ _ _
                  | intro _ _ | dsimp +zetaDelta only | with_reducible refine Kept.mkUpd ?_ rfl rfl rfl

theorem sendHeartbeat_kept {s₀ : State} (s : State) (yields : Bool) (tookOver : Bool) (hK : Kept s₀ s) : Kept s₀ (sendHeartbeat s
    yields tookOver) := by
  unfold sendHeartbeat
  repeat' first | with_reducible assumption | with_reducible apply Kept.ite | with_reducible apply setPr_kept
                  | with_reducible apply foldl_kept | extract_lets | split | (intros; with_reducible assumption) | intro _ _ _
                  | intro _ _ | dsimp +zetaDelta only | with_reducible refine Kept.mkUpd ?_ rfl rfl rfl

theorem heartbeatSend_kept {s₀ : State} (s : State) (hK : Kept s₀ s) : Kept s₀ (heartbeatSend s) := by
  unfold heartbeatSend
  repeat' first | with_reducible assumption | with_reducible apply Kept.ite | with_reducible apply sendHeartbeat_kept
                  | with_reducible apply foldl_kept | extract_lets | split | (intros; with_reducible assumption) | intro _ _ _
                  | intro _ _ | dsimp +zetaDelta only | with_reducible refine Kept.mkUpd ?_ rfl rfl rfl

theorem freshCuts_kept {s₀ : State} (s : State) (hK : Kept s₀ s) : Kept s₀ (freshCuts s) := by
  unfold freshCuts
  repeat' first | with_reducible assumption | with_reducible apply Kept.ite | with_reducible apply setPr_kept
                  | with_reducible apply foldl_kept | extract_lets | split | (intros; with_reducible assumption) | intro _ _ _
                  | intro _ _ | dsimp +zetaDelta only | with_reducible refine Kept.mkUpd ?_ rfl rfl rfl

theorem cutCast_kept {s₀ : State} (s : State) (hK : Kept s₀ s) : Kept s₀ (cutCast s) := by
  unfold cutCast
  repeat' first | with_reducible assumption | with_reducible apply Kept.ite | with_reducible apply setPr_kept
                  | with_reducible apply foldl_kept | extract_lets | split | (intros; with_reducible assumption) | intro _ _ _
                  | intro _ _ | dsimp +zetaDelta only | with_reducible refine Kept.mkUpd ?_ rfl rfl rfl

theorem newRole_kept {s₀ : State} (s : State) (r : Nat) (hK : Kept s₀ s) : Kept s₀ (newRole s r) := by
  unfold newRole
  repeat' first | with_reducible assumption | with_reducible apply Kept.ite | with_reducible apply cutCast_kept
                  | with_reducible apply loseStrayAsides_kept | with_reducible apply rebindAll_kept
                  | with_reducible apply setFld_kept | with_reducible apply foldl_kept | extract_lets | split
                  | (intros; with_reducible assumption) | intro _ _ _ | intro _ _ | dsimp +zetaDelta only
                  | with_reducible refine Kept.mkUpd ?_ rfl rfl rfl

theorem setRole_kept {s₀ : State} (s : State) (r : Nat) (hK : Kept s₀ s) : Kept s₀ (setRole s r) := by
  unfold setRole
  repeat' first | with_reducible assumption | with_reducible apply Kept.ite | with_reducible apply netConfig_kept
                  | with_reducible apply newRole_kept | with_reducible apply foldl_kept | extract_lets | split
                  | (intros; with_reducible assumption) | intro _ _ _ | intro _ _ | dsimp +zetaDelta only
                  | with_reducible refine Kept.mkUpd ?_ rfl rfl rfl

theorem holdMirrored_kept {s₀ : State} (s : State) (hK : Kept s₀ s) : Kept s₀ (holdMirrored s) := by
  unfold holdMirrored
  repeat' first | with_reducible assumption | with_reducible apply Kept.ite | with_reducible apply forEach_kept
                  | with_reducible apply haltEngine_kept | with_reducible apply foldl_kept | extract_lets | split
                  | (intros; with_reducible assumption) | intro _ _ _ | intro _ _ | dsimp +zetaDelta only
                  | with_reducible refine Kept.mkUpd ?_ rfl rfl rfl

theorem becomeStandby_kept {s₀ : State} (s : State) (hK : Kept s₀ s) : Kept s₀ (becomeStandby s) := by
  unfold becomeStandby
  repeat' first | with_reducible assumption | with_reducible apply Kept.ite | with_reducible apply holdMirrored_kept
                  | with_reducible apply setRole_kept | with_reducible apply setPr_kept | with_reducible apply foldl_kept
                  | extract_lets | split | (intros; with_reducible assumption) | intro _ _ _ | intro _ _ | dsimp +zetaDelta only
                  | with_reducible refine Kept.mkUpd ?_ rfl rfl rfl

theorem leaveActive_kept {s₀ : State} (s : State) (r : Nat) (hK : Kept s₀ s) : Kept s₀ (leaveActive s r) := by
  unfold leaveActive
  repeat' first | with_reducible assumption | with_reducible apply Kept.ite | with_reducible apply holdMirrored_kept
                  | with_reducible apply setRole_kept | with_reducible apply setPr_kept | with_reducible apply sendHeartbeat_kept
                  | with_reducible apply foldl_kept | extract_lets | split | (intros; with_reducible assumption) | intro _ _ _
                  | intro _ _ | dsimp +zetaDelta only | with_reducible refine Kept.mkUpd ?_ rfl rfl rfl

theorem prYield_kept {s₀ : State} (s : State) (a : Access) (v : W32) (hK : Kept s₀ s) : Kept s₀ (prYield s a v) := by
  unfold prYield
  repeat' first | with_reducible assumption | with_reducible apply Kept.ite | with_reducible apply cmdWrite_kept
                  | with_reducible apply leaveActive_kept | with_reducible apply foldl_kept | extract_lets | split
                  | (intros; with_reducible assumption) | intro _ _ _ | intro _ _ | dsimp +zetaDelta only
                  | with_reducible refine Kept.mkUpd ?_ rfl rfl rfl

theorem elect_kept {s₀ : State} (s : State) (hK : Kept s₀ s) : Kept s₀ (elect s) := by
  unfold elect
  repeat' first | with_reducible assumption | with_reducible apply Kept.ite | with_reducible apply setPr_kept
                  | with_reducible apply freshCuts_kept | with_reducible apply setRole_kept
                  | with_reducible apply becomeStandby_kept | with_reducible apply foldl_kept | extract_lets | split
                  | (intros; with_reducible assumption) | intro _ _ _ | intro _ _ | dsimp +zetaDelta only
                  | with_reducible refine Kept.mkUpd ?_ rfl rfl rfl

theorem dropAlign_kept {s₀ : State} (s : State) (hK : Kept s₀ s) : Kept s₀ (dropAlign s) := by
  unfold dropAlign
  repeat' first | with_reducible assumption | with_reducible apply Kept.ite | with_reducible apply setFlag_kept
                  | with_reducible apply setPr_kept | with_reducible apply foldl_kept | extract_lets | split
                  | (intros; with_reducible assumption) | intro _ _ _ | intro _ _ | dsimp +zetaDelta only
                  | with_reducible refine Kept.mkUpd ?_ rfl rfl rfl

theorem applyPr_kept {s₀ : State} (s : State) (hK : Kept s₀ s) : Kept s₀ (applyPr s) := by
  unfold applyPr
  repeat' first | with_reducible assumption | with_reducible apply Kept.ite | with_reducible apply applyRegs_kept
                  | with_reducible apply elect_kept | with_reducible apply dropAlign_kept | with_reducible apply setRole_kept
                  | with_reducible apply setPr_kept | with_reducible apply holdMirrored_kept | with_reducible apply foldl_kept
                  | extract_lets | split | (intros; with_reducible assumption) | intro _ _ _ | intro _ _ | dsimp +zetaDelta only
                  | with_reducible refine Kept.mkUpd ?_ rfl rfl rfl

theorem splitCheck_kept {s₀ : State} (s : State) (hK : Kept s₀ s) : Kept s₀ (splitCheck s) := by
  unfold splitCheck
  repeat' first | with_reducible assumption | with_reducible apply Kept.ite | with_reducible apply prPost_kept
                  | with_reducible apply alarm_kept | with_reducible apply sts_kept | with_reducible apply foldl_kept
                  | extract_lets | split | (intros; with_reducible assumption) | intro _ _ _ | intro _ _ | dsimp +zetaDelta only
                  | with_reducible refine Kept.mkUpd ?_ rfl rfl rfl

theorem pairLoss_kept {s₀ : State} (s : State) (cause : Nat) (hK : Kept s₀ s) : Kept s₀ (pairLoss s cause) := by
  unfold pairLoss
  repeat' first | with_reducible assumption | with_reducible apply Kept.ite | with_reducible apply sts_kept
                  | with_reducible apply setPr_kept | with_reducible apply splitCheck_kept | with_reducible apply prPost_kept
                  | with_reducible apply alarm_kept | with_reducible apply foldl_kept | extract_lets | split
                  | (intros; with_reducible assumption) | intro _ _ _ | intro _ _ | dsimp +zetaDelta only
                  | with_reducible refine Kept.mkUpd ?_ rfl rfl rfl

theorem heartbeatReceive_kept {s₀ : State} (s : State) (h : Heartbeat) (hK : Kept s₀ s) : Kept s₀ (heartbeatReceive s h) := by
  unfold heartbeatReceive
  repeat' first | with_reducible assumption | with_reducible apply Kept.ite | with_reducible apply alignLost_kept
                  | with_reducible apply setPr_kept | with_reducible apply pairLoss_kept | with_reducible apply leaveActive_kept
                  | with_reducible apply becomeStandby_kept | with_reducible apply foldl_kept | extract_lets | split
                  | (intros; with_reducible assumption) | intro _ _ _ | intro _ _ | dsimp +zetaDelta only
                  | with_reducible refine Kept.mkUpd ?_ rfl rfl rfl

theorem heartbeatLoss_kept {s₀ : State} (s : State) (hK : Kept s₀ s) : Kept s₀ (heartbeatLoss s) := by
  unfold heartbeatLoss
  repeat' first | with_reducible assumption | with_reducible apply Kept.ite | with_reducible apply pairLoss_kept
                  | with_reducible apply foldl_kept | extract_lets | split | (intros; with_reducible assumption) | intro _ _ _
                  | intro _ _ | dsimp +zetaDelta only | with_reducible refine Kept.mkUpd ?_ rfl rfl rfl

theorem ownInChange_kept {s₀ : State} (s : State) (level : Bool) (hK : Kept s₀ s) : Kept s₀ (ownInChange s level) := by
  unfold ownInChange
  repeat' first | with_reducible assumption | with_reducible apply Kept.ite | with_reducible apply splitCheck_kept
                  | with_reducible apply setPr_kept | with_reducible apply setFlag_kept | with_reducible apply foldl_kept
                  | extract_lets | split | (intros; with_reducible assumption) | intro _ _ _ | intro _ _ | dsimp +zetaDelta only
                  | with_reducible refine Kept.mkUpd ?_ rfl rfl rfl

theorem fence_kept {s₀ : State} (s : State) (hK : Kept s₀ s) : Kept s₀ (fence s) := by
  unfold fence
  repeat' first | with_reducible assumption | with_reducible apply Kept.ite | with_reducible apply alarm_kept
                  | with_reducible apply sts_kept | with_reducible apply leaveActive_kept | with_reducible apply foldl_kept
                  | extract_lets | split | (intros; with_reducible assumption) | intro _ _ _ | intro _ _ | dsimp +zetaDelta only
                  | with_reducible refine Kept.mkUpd ?_ rfl rfl rfl

theorem spliceWpRecord_kept {s₀ : State} (s : State) (hK : Kept s₀ s) : Kept s₀ (spliceWpRecord s) := by
  unfold spliceWpRecord
  repeat' first | with_reducible assumption | with_reducible apply Kept.ite | with_reducible apply setPr_kept
                  | with_reducible apply foldl_kept | extract_lets | split | (intros; with_reducible assumption) | intro _ _ _
                  | intro _ _ | dsimp +zetaDelta only | with_reducible refine Kept.mkUpd ?_ rfl rfl rfl

theorem giveLive_kept {s₀ : State} (s : State) (r : Nat) (hK : Kept s₀ s) : Kept s₀ (giveLive s r) := by
  unfold giveLive
  repeat' first | with_reducible assumption | with_reducible apply Kept.ite | with_reducible apply forEach_kept
                  | with_reducible apply setGroup_kept | with_reducible apply foldl_kept | extract_lets | split
                  | (intros; with_reducible assumption) | intro _ _ _ | intro _ _ | dsimp +zetaDelta only
                  | with_reducible refine Kept.mkUpd ?_ rfl rfl rfl

theorem spliceReplay_kept {s₀ : State} (s : State) (r : Nat) (hK : Kept s₀ s) : Kept s₀ (spliceReplay s r) := by
  unfold spliceReplay
  repeat' first | with_reducible assumption | with_reducible apply Kept.ite | with_reducible apply giveLive_kept
                  | with_reducible apply setCring_kept | with_reducible apply setFlag_kept | with_reducible apply setPr_kept
                  | with_reducible apply startReplay_kept | with_reducible apply foldl_kept | extract_lets | split
                  | (intros; with_reducible assumption) | intro _ _ _ | intro _ _ | dsimp +zetaDelta only
                  | with_reducible refine Kept.mkUpd ?_ rfl rfl rfl

theorem cutPlace_kept {s₀ : State} (s : State) (g : Nat) (hK : Kept s₀ s) : Kept s₀ (cutPlace s g) := by
  unfold cutPlace
  repeat' first | with_reducible assumption | with_reducible apply Kept.ite | with_reducible apply setCut_kept
                  | with_reducible apply settleCut_kept | with_reducible apply foldl_kept | extract_lets | split
                  | (intros; with_reducible assumption) | intro _ _ _ | intro _ _ | dsimp +zetaDelta only
                  | with_reducible refine Kept.mkUpd ?_ rfl rfl rfl

theorem startMirrored_kept {s₀ : State} (s : State) (hK : Kept s₀ s) : Kept s₀ (startMirrored s) := by
  unfold startMirrored
  repeat' first | with_reducible assumption | with_reducible apply Kept.ite | with_reducible apply forEach_kept
                  | with_reducible apply startAt_kept | with_reducible apply foldl_kept | extract_lets | split
                  | (intros; with_reducible assumption) | intro _ _ _ | intro _ _ | dsimp +zetaDelta only
                  | with_reducible refine Kept.mkUpd ?_ rfl rfl rfl

theorem adoptServo_kept {s₀ : State} (old : State) (s : State) (hK : Kept s₀ s) : Kept s₀ (adoptServo old s) := by
  unfold adoptServo
  repeat' first | with_reducible assumption | with_reducible apply Kept.ite | with_reducible apply netConfig_kept
                  | with_reducible apply setTp_kept | with_reducible apply setServo_kept | with_reducible apply showParent_kept
                  | with_reducible apply foldl_kept | extract_lets | split | (intros; with_reducible assumption) | intro _ _ _
                  | intro _ _ | dsimp +zetaDelta only | with_reducible refine Kept.mkUpd ?_ rfl rfl rfl

theorem takeOver_kept {s₀ : State} (s : State) (cause : Nat) (hK : Kept s₀ s) : Kept s₀ (takeOver s cause) := by
  unfold takeOver
  repeat' first | with_reducible assumption | with_reducible apply Kept.ite | with_reducible apply setPair64_kept
                  | with_reducible apply setPr_kept | with_reducible apply dropAlign_kept | with_reducible apply startMirrored_kept
                  | with_reducible apply freshCuts_kept | with_reducible apply adoptServo_kept | with_reducible apply newRole_kept
                  | with_reducible apply forEach_kept | with_reducible apply spliceReplay_kept | with_reducible apply sts_kept
                  | with_reducible apply inc_kept | with_reducible apply prPost_kept | with_reducible apply sendHeartbeat_kept
                  | with_reducible apply foldl_kept | extract_lets | split | (intros; with_reducible assumption) | intro _ _ _
                  | intro _ _ | dsimp +zetaDelta only | with_reducible refine Kept.mkUpd ?_ rfl rfl rfl

theorem takeover_kept {s₀ : State} (s : State) (hK : Kept s₀ s) : Kept s₀ (takeover s) := by
  unfold takeover
  repeat' first | with_reducible assumption | with_reducible apply Kept.ite | with_reducible apply takeOver_kept
                  | with_reducible apply foldl_kept | extract_lets | split | (intros; with_reducible assumption) | intro _ _ _
                  | intro _ _ | dsimp +zetaDelta only | with_reducible refine Kept.mkUpd ?_ rfl rfl rfl

theorem forceWrite_kept {s₀ : State} (s : State) (v : W32) (hK : Kept s₀ s) : Kept s₀ (forceWrite s v) := by
  unfold forceWrite
  repeat' first | with_reducible assumption | with_reducible apply Kept.ite | with_reducible apply takeOver_kept
                  | with_reducible apply foldl_kept | extract_lets | split | (intros; with_reducible assumption) | intro _ _ _
                  | intro _ _ | dsimp +zetaDelta only | with_reducible refine Kept.mkUpd ?_ rfl rfl rfl

theorem castLinkTrain_kept {s₀ : State} (s : State) (lanes : Nat) (lat : Nat) (p : Identity) (hK : Kept s₀ s) : Kept s₀
    (castLinkTrain s lanes lat p) := by
  unfold castLinkTrain
  repeat' first | with_reducible assumption | with_reducible apply Kept.ite | with_reducible apply setFld_kept
                  | with_reducible apply setFlag_kept | with_reducible apply prPost_kept | with_reducible apply setPr_kept
                  | with_reducible apply sts_kept | with_reducible apply setRole_kept | with_reducible apply foldl_kept
                  | extract_lets | split | (intros; with_reducible assumption) | intro _ _ _ | intro _ _ | dsimp +zetaDelta only
                  | with_reducible refine Kept.mkUpd ?_ rfl rfl rfl

theorem castLinkDrop_kept {s₀ : State} (s : State) (lanes : Nat) (hK : Kept s₀ s) : Kept s₀ (castLinkDrop s lanes) := by
  unfold castLinkDrop
  repeat' first | with_reducible assumption | with_reducible apply Kept.ite | with_reducible apply alarm_kept
                  | with_reducible apply sts_kept | with_reducible apply setFld_kept | with_reducible apply cutCast_kept
                  | with_reducible apply prPost_kept | with_reducible apply setPr_kept | with_reducible apply setFlag_kept
                  | with_reducible apply foldl_kept | extract_lets | split | (intros; with_reducible assumption) | intro _ _ _
                  | intro _ _ | dsimp +zetaDelta only | with_reducible refine Kept.mkUpd ?_ rfl rfl rfl

theorem linkRetransmit_kept {s₀ : State} (s : State) (hK : Kept s₀ s) : Kept s₀ (linkRetransmit s) := by
  unfold linkRetransmit
  repeat' first | with_reducible assumption | with_reducible apply Kept.ite | with_reducible apply inc_kept
                  | with_reducible apply foldl_kept | extract_lets | split | (intros; with_reducible assumption) | intro _ _ _
                  | intro _ _ | dsimp +zetaDelta only | with_reducible refine Kept.mkUpd ?_ rfl rfl rfl

theorem endAlign_kept {s₀ : State} (s : State) (outcome : Nat) (pairs : Nat) (hK : Kept s₀ s) : Kept s₀ (endAlign s outcome pairs) := by
  unfold endAlign
  repeat' first | with_reducible assumption | with_reducible apply Kept.ite | with_reducible apply setFlag_kept
                  | with_reducible apply setPr_kept | with_reducible apply setFld_kept | with_reducible apply foldl_kept
                  | extract_lets | split | (intros; with_reducible assumption) | intro _ _ _ | intro _ _ | dsimp +zetaDelta only
                  | with_reducible refine Kept.mkUpd ?_ rfl rfl rfl

theorem setAlignRes_kept {s₀ : State} (s : State) (d : Int) (hK : Kept s₀ s) : Kept s₀ (setAlignRes s d) := by
  unfold setAlignRes
  repeat' first | with_reducible assumption | with_reducible apply Kept.ite | with_reducible apply setReg_kept
                  | with_reducible apply foldl_kept | extract_lets | split | (intros; with_reducible assumption) | intro _ _ _
                  | intro _ _ | dsimp +zetaDelta only | with_reducible refine Kept.mkUpd ?_ rfl rfl rfl

theorem prAlign_kept {s₀ : State} (s : State) (a : Access) (v : W32) (adj : BitVec 48) (hK : Kept s₀ s) : Kept s₀ (prAlign s a v adj)
    := by
  unfold prAlign
  repeat' first | with_reducible assumption | with_reducible apply Kept.ite | with_reducible apply cmdWrite_kept
                  | with_reducible apply setFld_kept | with_reducible apply takeAdj_kept | with_reducible apply setFlag_kept
                  | with_reducible apply setPr_kept | with_reducible apply foldl_kept | extract_lets | split
                  | (intros; with_reducible assumption) | intro _ _ _ | intro _ _ | dsimp +zetaDelta only
                  | with_reducible refine Kept.mkUpd ?_ rfl rfl rfl

theorem alignOffsetDone_kept {s₀ : State} (s : State) (p : Pulses) (hK : Kept s₀ s) : Kept s₀ (alignOffsetDone s p) := by
  unfold alignOffsetDone
  repeat' first | with_reducible assumption | with_reducible apply Kept.ite | with_reducible apply endAlign_kept
                  | with_reducible apply sts_kept | with_reducible apply originLoad_kept | with_reducible apply setPr_kept
                  | with_reducible apply foldl_kept | extract_lets | split | (intros; with_reducible assumption) | intro _ _ _
                  | intro _ _ | dsimp +zetaDelta only | with_reducible refine Kept.mkUpd ?_ rfl rfl rfl

theorem alignComplete_kept {s₀ : State} (s : State) (p : Pulses) (hK : Kept s₀ s) : Kept s₀ (alignComplete s p) := by
  unfold alignComplete
  repeat' first | with_reducible assumption | with_reducible apply Kept.ite | with_reducible apply endAlign_kept
                  | with_reducible apply setFlag_kept | with_reducible apply setAlignRes_kept | with_reducible apply prPost_kept
                  | with_reducible apply foldl_kept | extract_lets | split | (intros; with_reducible assumption) | intro _ _ _
                  | intro _ _ | dsimp +zetaDelta only | with_reducible refine Kept.mkUpd ?_ rfl rfl rfl

theorem prMeasure_kept {s₀ : State} (s : State) (a : Access) (v : W32) (hK : Kept s₀ s) : Kept s₀ (prMeasure s a v) := by
  unfold prMeasure
  repeat' first | with_reducible assumption | with_reducible apply Kept.ite | with_reducible apply cmdWrite_kept
                  | with_reducible apply setFld_kept | with_reducible apply setFlag_kept | with_reducible apply setPr_kept
                  | with_reducible apply foldl_kept | extract_lets | split | (intros; with_reducible assumption) | intro _ _ _
                  | intro _ _ | dsimp +zetaDelta only | with_reducible refine Kept.mkUpd ?_ rfl rfl rfl

theorem measureComplete_kept {s₀ : State} (s : State) (p : Pulses) (hK : Kept s₀ s) : Kept s₀ (measureComplete s p) := by
  unfold measureComplete
  repeat' first | with_reducible assumption | with_reducible apply Kept.ite | with_reducible apply endAlign_kept
                  | with_reducible apply setAlignRes_kept | with_reducible apply foldl_kept | extract_lets | split
                  | (intros; with_reducible assumption) | intro _ _ _ | intro _ _ | dsimp +zetaDelta only
                  | with_reducible refine Kept.mkUpd ?_ rfl rfl rfl

theorem alignPulseTimeout_kept {s₀ : State} (s : State) (hK : Kept s₀ s) : Kept s₀ (alignPulseTimeout s) := by
  unfold alignPulseTimeout
  repeat' first | with_reducible assumption | with_reducible apply Kept.ite | with_reducible apply endAlign_kept
                  | with_reducible apply foldl_kept | extract_lets | split | (intros; with_reducible assumption) | intro _ _ _
                  | intro _ _ | dsimp +zetaDelta only | with_reducible refine Kept.mkUpd ?_ rfl rfl rfl

theorem castStart_kept {s₀ : State} (s : State) (hK : Kept s₀ s) : Kept s₀ (castStart s) := by
  unfold castStart
  repeat' first | with_reducible assumption | with_reducible apply Kept.ite | with_reducible apply setPr_kept
                  | with_reducible apply foldl_kept | extract_lets | split | (intros; with_reducible assumption) | intro _ _ _
                  | intro _ _ | dsimp +zetaDelta only | with_reducible refine Kept.mkUpd ?_ rfl rfl rfl

theorem castEnd_kept {s₀ : State} (s : State) (hK : Kept s₀ s) : Kept s₀ (castEnd s) := by
  unfold castEnd
  split
  · exact hK
  · split
    · exact hK
    · refine castStart_kept _ (Kept.ite (prPost_kept _ _ _ _ (sts_kept _ _ ?_)) ?_) <;>
        exact setPr_kept _ _ (setFld_kept _ _ _ (bump_kept _ _ (inc_kept _ _ (setPr_kept _ _ hK))))

theorem applyCastEngine_kept {s₀ : State} (s : State) (x : CastEngine) (hK : Kept s₀ s) : Kept s₀ (applyCastEngine s x) := by
  unfold applyCastEngine
  repeat' first | with_reducible assumption | with_reducible apply Kept.ite | with_reducible apply setEngine_kept
                  | with_reducible apply foldl_kept | extract_lets | split | (intros; with_reducible assumption) | intro _ _ _
                  | intro _ _ | dsimp +zetaDelta only | with_reducible refine Kept.mkUpd ?_ rfl rfl rfl

theorem castEndReceive_kept {s₀ : State} (s : State) (x : Cast) (hK : Kept s₀ s) : Kept s₀ (castEndReceive s x) := by
  unfold castEndReceive
  repeat' first | with_reducible assumption | with_reducible apply Kept.ite | with_reducible apply setPr_kept
                  | with_reducible apply applyCastEngine_kept | with_reducible apply inc_kept | with_reducible apply setFld_kept
                  | with_reducible apply foldl_kept | extract_lets | split | (intros; with_reducible assumption) | intro _ _ _
                  | intro _ _ | dsimp +zetaDelta only | with_reducible refine Kept.mkUpd ?_ rfl rfl rfl

theorem prResync_kept {s₀ : State} (s : State) (a : Access) (v : W32) (hK : Kept s₀ s) : Kept s₀ (prResync s a v) := by
  unfold prResync
  repeat' first | with_reducible assumption | with_reducible apply Kept.ite | with_reducible apply cmdWrite_kept
                  | with_reducible apply setPr_kept | with_reducible apply foldl_kept | extract_lets | split
                  | (intros; with_reducible assumption) | intro _ _ _ | intro _ _ | dsimp +zetaDelta only
                  | with_reducible refine Kept.mkUpd ?_ rfl rfl rfl

theorem mirrorDec_kept {s₀ : State} (s : State) (d : Decision) (hK : Kept s₀ s) : Kept s₀ (mirrorDec s d) := by
  unfold mirrorDec
  repeat' first | with_reducible assumption | with_reducible apply Kept.ite | with_reducible apply foldl_kept | extract_lets
                  | split | (intros; with_reducible assumption) | intro _ _ _ | intro _ _ | dsimp +zetaDelta only
                  | with_reducible refine Kept.mkUpd ?_ rfl rfl rfl

theorem pairEventReceive_kept {s₀ : State} (s : State) (ev : PairEvent) (hK : Kept s₀ s) : Kept s₀ (pairEventReceive s ev) := by
  unfold pairEventReceive
  repeat' first | with_reducible assumption | with_reducible apply Kept.ite | with_reducible apply setMaq_kept
                  | with_reducible apply setPr_kept | with_reducible apply takeAdj_kept | with_reducible apply alignLost_kept
                  | with_reducible apply putAnchor_kept | with_reducible apply mirrorDec_kept
                  | with_reducible apply setCluster_kept | with_reducible apply setFlag_kept
                  | with_reducible apply takeOutcome_kept | with_reducible apply foldl_kept | extract_lets | split
                  | (intros; with_reducible assumption) | intro _ _ _ | intro _ _ | dsimp +zetaDelta only
                  | with_reducible refine Kept.mkUpd ?_ rfl rfl rfl

theorem partnerStrobe_kept {s₀ : State} (s : State) (hK : Kept s₀ s) : Kept s₀ (partnerStrobe s) := by
  unfold partnerStrobe
  repeat' first | with_reducible assumption | with_reducible apply Kept.ite | with_reducible apply setPr_kept
                  | with_reducible apply strobeAt_kept | with_reducible apply sts_kept | with_reducible apply foldl_kept
                  | extract_lets | split | (intros; with_reducible assumption) | intro _ _ _ | intro _ _ | dsimp +zetaDelta only
                  | with_reducible refine Kept.mkUpd ?_ rfl rfl rfl

/-! ## Armature -/

theorem progRes_kept {s₀ : State} (s : State) (outcome : Nat) (hK : Kept s₀ s) : Kept s₀ (progRes s outcome) := by
  unfold progRes
  repeat' first | with_reducible assumption | with_reducible apply Kept.ite | with_reducible apply setFld_kept
                  | with_reducible apply foldl_kept | extract_lets | split | (intros; with_reducible assumption) | intro _ _ _
                  | intro _ _ | dsimp +zetaDelta only | with_reducible refine Kept.mkUpd ?_ rfl rfl rfl

theorem progCmd_kept {s₀ : State} (s : State) (v : W32) (hK : Kept s₀ s) : Kept s₀ (progCmd s v) := by
  unfold progCmd
  repeat' first | with_reducible assumption | with_reducible apply Kept.ite | with_reducible apply progRes_kept
                  | with_reducible apply setFlag_kept | with_reducible apply foldl_kept | extract_lets | split
                  | (intros; with_reducible assumption) | intro _ _ _ | intro _ _ | dsimp +zetaDelta only
                  | with_reducible refine Kept.mkUpd ?_ rfl rfl rfl

theorem progSet_kept {s₀ : State} (s : State) (off : Nat) (v : W32) (hK : Kept s₀ s) : Kept s₀ (progSet s off v) := by
  unfold progSet
  repeat' first | with_reducible assumption | with_reducible apply Kept.ite | with_reducible apply sts_kept
                  | with_reducible apply setReg_kept | with_reducible apply foldl_kept | extract_lets | split
                  | (intros; with_reducible assumption) | intro _ _ _ | intro _ _ | dsimp +zetaDelta only
                  | with_reducible refine Kept.mkUpd ?_ rfl rfl rfl

theorem blow_kept {s₀ : State} (s : State) (row : Nat) (bits : W32) (hK : Kept s₀ s) : Kept s₀ (blow s row bits) := by
  refine ⟨hK.pending, fun r => ?_, hK.ddr, hK.host⟩
  have h := hK.fuses r
  show fuseRow s₀ r &&& sget _ (sset _ s.ar.array row (fuseRow s row ||| bits)) r = fuseRow s₀ r
  rw [sget_sset]
  split
  · subst r
    rw [← h]; ext i; simp; intro _ hb; exact Or.inl hb
  · exact h

theorem fuseProgComplete_kept {s₀ : State} (s : State) (blown : W32) (hK : Kept s₀ s) : Kept s₀ (fuseProgComplete s blown) := by
  unfold fuseProgComplete
  repeat' first | with_reducible assumption | with_reducible apply Kept.ite | with_reducible apply blow_kept
                  | with_reducible apply setReg_kept | with_reducible apply setFlag_kept | with_reducible apply progRes_kept
                  | with_reducible apply foldl_kept | extract_lets | split | (intros; with_reducible assumption) | intro _ _ _
                  | intro _ _ | dsimp +zetaDelta only | with_reducible refine Kept.mkUpd ?_ rfl rfl rfl

theorem stopProg_kept {s₀ : State} (s : State) (hK : Kept s₀ s) : Kept s₀ (stopProg s) := by
  unfold stopProg
  repeat' first | with_reducible assumption | with_reducible apply Kept.ite | with_reducible apply foldl_kept | extract_lets
                  | split | (intros; with_reducible assumption) | intro _ _ _ | intro _ _ | dsimp +zetaDelta only
                  | with_reducible refine Kept.mkUpd ?_ rfl rfl rfl

theorem fuseVppChange_kept {s₀ : State} (s : State) (inRange : Bool) (hK : Kept s₀ s) : Kept s₀ (fuseVppChange s inRange) := by
  unfold fuseVppChange
  repeat' first | with_reducible assumption | with_reducible apply Kept.ite | with_reducible apply stopProg_kept
                  | with_reducible apply foldl_kept | extract_lets | split | (intros; with_reducible assumption) | intro _ _ _
                  | intro _ _ | dsimp +zetaDelta only | with_reducible refine Kept.mkUpd ?_ rfl rfl rfl

/-! ## Power -/

theorem hardReset_kept {s₀ : State} (s : State) (hK : Kept s₀ s) : Kept s₀ (hardReset s) := by
  refine ⟨hK.pending, fun row => ?_, fun _ => rfl, hK.host⟩
  show fuseRow s₀ row &&& sget _ (arrayAtReset s).1 row = fuseRow s₀ row
  unfold arrayAtReset
  split
  · exact (blow_kept s _ _ hK).fuses row
  · exact hK.fuses row

theorem resetKeepPins_kept {s₀ : State} (s : State) (hK : Kept s₀ s) : Kept s₀ (resetKeepPins s) := by
  unfold resetKeepPins
  repeat' first | with_reducible assumption | with_reducible apply Kept.ite | with_reducible apply setFlag_kept
                  | with_reducible apply hardReset_kept | with_reducible apply foldl_kept | extract_lets | split
                  | (intros; with_reducible assumption) | intro _ _ _ | intro _ _ | dsimp +zetaDelta only
                  | with_reducible refine Kept.mkUpd ?_ rfl rfl rfl

theorem enterReset_kept {s₀ : State} (s : State) (hK : Kept s₀ s) : Kept s₀ (enterReset s) := by
  unfold enterReset
  repeat' first | with_reducible assumption | with_reducible apply Kept.ite | with_reducible apply setFld_kept
                  | with_reducible apply resetKeepPins_kept | with_reducible apply foldl_kept | extract_lets | split
                  | (intros; with_reducible assumption) | intro _ _ _ | intro _ _ | dsimp +zetaDelta only
                  | with_reducible refine Kept.mkUpd ?_ rfl rfl rfl

theorem resetAssert_kept {s₀ : State} (s : State) (hK : Kept s₀ s) : Kept s₀ (resetAssert s) := by
  unfold resetAssert
  repeat' first | with_reducible assumption | with_reducible apply Kept.ite | with_reducible apply enterReset_kept
                  | with_reducible apply setReg_kept | with_reducible apply foldl_kept | extract_lets | split
                  | (intros; with_reducible assumption) | intro _ _ _ | intro _ _ | dsimp +zetaDelta only
                  | with_reducible refine Kept.mkUpd ?_ rfl rfl rfl

theorem railBelowThreshold_kept {s₀ : State} (s : State) (hK : Kept s₀ s) : Kept s₀ (railBelowThreshold s) := by
  unfold railBelowThreshold
  repeat' first | with_reducible assumption | with_reducible apply Kept.ite | with_reducible apply enterReset_kept
                  | with_reducible apply foldl_kept | extract_lets | split | (intros; with_reducible assumption) | intro _ _ _
                  | intro _ _ | dsimp +zetaDelta only | with_reducible refine Kept.mkUpd ?_ rfl rfl rfl

theorem vaonBelowThreshold_kept {s₀ : State} (s : State) (hK : Kept s₀ s) : Kept s₀ (vaonBelowThreshold s) := by
  unfold vaonBelowThreshold
  repeat' first | with_reducible assumption | with_reducible apply Kept.ite | with_reducible apply enterReset_kept
                  | with_reducible apply foldl_kept | extract_lets | split | (intros; with_reducible assumption) | intro _ _ _
                  | intro _ _ | dsimp +zetaDelta only | with_reducible refine Kept.mkUpd ?_ rfl rfl rfl

theorem powerOn_kept {s₀ : State} (s : State) (hK : Kept s₀ s) : Kept s₀ (powerOn s) := by
  unfold powerOn
  repeat' first | with_reducible assumption | with_reducible apply Kept.ite | with_reducible apply enterReset_kept
                  | with_reducible apply foldl_kept | extract_lets | split | (intros; with_reducible assumption) | intro _ _ _
                  | intro _ _ | dsimp +zetaDelta only | with_reducible refine Kept.mkUpd ?_ rfl rfl rfl

theorem vddioSupplyWarning_kept {s₀ : State} (s : State) (hK : Kept s₀ s) : Kept s₀ (vddioSupplyWarning s) := by
  unfold vddioSupplyWarning
  repeat' first | with_reducible assumption | with_reducible apply Kept.ite | with_reducible apply stopProg_kept
                  | with_reducible apply stopStoreWrite_kept | with_reducible apply foldl_kept | extract_lets | split
                  | (intros; with_reducible assumption) | intro _ _ _ | intro _ _ | dsimp +zetaDelta only
                  | with_reducible refine Kept.mkUpd ?_ rfl rfl rfl

theorem senseFuses_kept {s₀ : State} (s : State) (hK : Kept s₀ s) : Kept s₀ (senseFuses s) := by
  unfold senseFuses
  repeat' first | with_reducible assumption | with_reducible apply Kept.ite | with_reducible apply setFlag_kept
                  | with_reducible apply setReg_kept | with_reducible apply setCom_kept | with_reducible apply setMaq_kept
                  | with_reducible apply foldl_kept | extract_lets | split | (intros; with_reducible assumption) | intro _ _ _
                  | intro _ _ | dsimp +zetaDelta only | with_reducible refine Kept.mkUpd ?_ rfl rfl rfl

theorem spdFound_kept {s₀ : State} (s : State) (x : Spd) (hK : Kept s₀ s) : Kept s₀ (spdFound s x) := by
  unfold spdFound
  repeat' first | with_reducible assumption | with_reducible apply Kept.ite | with_reducible apply setReg_kept
                  | with_reducible apply setFlag_kept | with_reducible apply startTrain_kept | with_reducible apply foldl_kept
                  | extract_lets | split | (intros; with_reducible assumption) | intro _ _ _ | intro _ _ | dsimp +zetaDelta only
                  | with_reducible refine Kept.mkUpd ?_ rfl rfl rfl

theorem startUp_kept {s₀ : State} (s : State) (b : Boot) (hK : Kept s₀ s) : Kept s₀ (startUp s b) := by
  unfold startUp
  repeat' first | with_reducible assumption | with_reducible apply Kept.ite | with_reducible apply setFlag_kept
                  | with_reducible apply senseFuses_kept | with_reducible apply setFld_kept | with_reducible apply spdFound_kept
                  | with_reducible apply setLink_kept | with_reducible apply foldl_kept | extract_lets | split
                  | (intros; with_reducible assumption) | intro _ _ _ | intro _ _ | dsimp +zetaDelta only
                  | with_reducible refine Kept.mkUpd ?_ rfl rfl rfl

theorem resetRelease_kept {s₀ : State} (s : State) (b : Boot) (hK : Kept s₀ s) : Kept s₀ (resetRelease s b) := by
  unfold resetRelease
  repeat' first | with_reducible assumption | with_reducible apply Kept.ite | with_reducible apply startUp_kept
                  | with_reducible apply setFld_kept | with_reducible apply foldl_kept | extract_lets | split
                  | (intros; with_reducible assumption) | intro _ _ _ | intro _ _ | dsimp +zetaDelta only
                  | with_reducible refine Kept.mkUpd ?_ rfl rfl rfl

theorem mainPllLock_kept {s₀ : State} (s : State) (hK : Kept s₀ s) : Kept s₀ (mainPllLock s) := by
  unfold mainPllLock
  repeat' first | with_reducible assumption | with_reducible apply Kept.ite | with_reducible apply setFlag_kept
                  | with_reducible apply dllPllLock_kept | with_reducible apply plinthStart_kept | with_reducible apply foldl_kept
                  | extract_lets | split | (intros; with_reducible assumption) | intro _ _ _ | intro _ _ | dsimp +zetaDelta only
                  | with_reducible refine Kept.mkUpd ?_ rfl rfl rfl

theorem pllLoss_kept {s₀ : State} (s : State) (hK : Kept s₀ s) : Kept s₀ (pllLoss s) := by
  unfold pllLoss
  extract_lets lost t
  have k : Kept s₀ t := mainPllLoss_kept _ hK
  exact Kept.ite (pairSend_kept _ _ (alignLost_kept _ k)) k

theorem giveUp_kept {s₀ : State} (s : State) (g : Nat) (w : W64) (hK : Kept s₀ s) : Kept s₀ (giveUp s g w) := by
  unfold giveUp
  repeat' first | with_reducible assumption | with_reducible apply Kept.ite | with_reducible apply setLane_kept
                  | with_reducible apply setGroup_kept | with_reducible apply foldl_kept | extract_lets | split
                  | (intros; with_reducible assumption) | intro _ _ _ | intro _ _ | dsimp +zetaDelta only
                  | with_reducible refine Kept.mkUpd ?_ rfl rfl rfl

theorem flushGroup_kept {s₀ : State} (s : State) (g : Nat) (hK : Kept s₀ s) : Kept s₀ (flushGroup s g) := by
  unfold flushGroup
  repeat' first | with_reducible assumption | with_reducible apply Kept.ite | with_reducible apply forEach_kept
                  | with_reducible apply setLane_kept | with_reducible apply giveUp_kept | with_reducible apply setGroup_kept
                  | with_reducible apply uncount_kept | with_reducible apply noteOcc_kept | with_reducible apply evalGroupBusy_kept
                  | with_reducible apply foldl_kept | extract_lets | split | (intros; with_reducible assumption) | intro _ _ _
                  | intro _ _ | dsimp +zetaDelta only | with_reducible refine Kept.mkUpd ?_ rfl rfl rfl

theorem flushCluster_kept {s₀ : State} (s : State) (c : Nat) (hK : Kept s₀ s) : Kept s₀ (flushCluster s c) := by
  unfold flushCluster
  repeat' first | with_reducible assumption | with_reducible apply Kept.ite | with_reducible apply setCluster_kept
                  | with_reducible apply noteOcc_kept | with_reducible apply setQueue_kept | with_reducible apply forEach_kept
                  | with_reducible apply setEngine_kept | with_reducible apply haltEngine_kept | with_reducible apply foldl_kept
                  | extract_lets | split | (intros; with_reducible assumption) | intro _ _ _ | intro _ _ | dsimp +zetaDelta only
                  | with_reducible refine Kept.mkUpd ?_ rfl rfl rfl

theorem flushBank_kept {s₀ : State} (s : State) (b : Nat) (hK : Kept s₀ s) : Kept s₀ (flushBank s b) := by
  unfold flushBank
  repeat' first | with_reducible assumption | with_reducible apply Kept.ite | with_reducible apply setBank_kept
                  | with_reducible apply bankNote_kept | with_reducible apply noteOcc_kept | with_reducible apply setQueue_kept
                  | with_reducible apply foldl_kept | extract_lets | split | (intros; with_reducible assumption) | intro _ _ _
                  | intro _ _ | dsimp +zetaDelta only | with_reducible refine Kept.mkUpd ?_ rfl rfl rfl

theorem flush_kept {s₀ : State} (s : State) (hK : Kept s₀ s) : Kept s₀ (flush s) := by
  unfold flush
  repeat' first | with_reducible assumption | with_reducible apply Kept.ite | with_reducible apply setFld_kept
                  | with_reducible apply forEach_kept | with_reducible apply muDisarm_kept | with_reducible apply flushGroup_kept
                  | with_reducible apply flushCluster_kept | with_reducible apply flushBank_kept
                  | with_reducible apply loseStrayAsides_kept | with_reducible apply dropUnbound_kept
                  | with_reducible apply shutBlk_kept | with_reducible apply foldl_kept | extract_lets | split
                  | (intros; with_reducible assumption) | intro _ _ _ | intro _ _ | dsimp +zetaDelta only
                  | with_reducible refine Kept.mkUpd ?_ rfl rfl rfl

theorem datapathFlushEnd_kept {s₀ : State} (s : State) (hK : Kept s₀ s) : Kept s₀ (datapathFlushEnd s) := by
  unfold datapathFlushEnd
  repeat' first | with_reducible assumption | with_reducible apply Kept.ite | with_reducible apply setFld_kept
                  | with_reducible apply foldl_kept | extract_lets | split | (intros; with_reducible assumption) | intro _ _ _
                  | intro _ _ | dsimp +zetaDelta only | with_reducible refine Kept.mkUpd ?_ rfl rfl rfl

theorem countUp_kept {s₀ : State} (s : State) (hK : Kept s₀ s) : Kept s₀ (countUp s) := by
  unfold countUp
  repeat' first | with_reducible assumption | with_reducible apply Kept.ite | with_reducible apply foldl_kept | extract_lets
                  | split | (intros; with_reducible assumption) | intro _ _ _ | intro _ _ | dsimp +zetaDelta only
                  | with_reducible refine Kept.mkUpd ?_ rfl rfl rfl

theorem wholeUnit_kept {s₀ : State} (s : State) (hK : Kept s₀ s) : Kept s₀ (wholeUnit s) := by
  unfold wholeUnit
  repeat' first | with_reducible assumption | with_reducible apply Kept.ite | with_reducible apply setFlag_kept
                  | with_reducible apply foldl_kept | extract_lets | split | (intros; with_reducible assumption) | intro _ _ _
                  | intro _ _ | dsimp +zetaDelta only | with_reducible refine Kept.mkUpd ?_ rfl rfl rfl

theorem countStep_kept {s₀ : State} (s : State) (hK : Kept s₀ s) : Kept s₀ (countStep s) := by
  unfold countStep
  repeat' first | with_reducible assumption | with_reducible apply Kept.ite | with_reducible apply countUp_kept
                  | with_reducible apply wholeUnit_kept | with_reducible apply foldl_kept | extract_lets | split
                  | (intros; with_reducible assumption) | intro _ _ _ | intro _ _ | dsimp +zetaDelta only
                  | with_reducible refine Kept.mkUpd ?_ rfl rfl rfl

theorem refLoss_kept {s₀ : State} (s : State) (hK : Kept s₀ s) : Kept s₀ (refLoss s) := by
  unfold refLoss
  repeat' first | with_reducible assumption | with_reducible apply Kept.ite | with_reducible apply setFlag_kept
                  | with_reducible apply sts_kept | with_reducible apply foldl_kept | extract_lets | split
                  | (intros; with_reducible assumption) | intro _ _ _ | intro _ _ | dsimp +zetaDelta only
                  | with_reducible refine Kept.mkUpd ?_ rfl rfl rfl

theorem refRestore_kept {s₀ : State} (s : State) (hK : Kept s₀ s) : Kept s₀ (refRestore s) := by
  unfold refRestore
  repeat' first | with_reducible assumption | with_reducible apply Kept.ite | with_reducible apply foldl_kept | extract_lets
                  | split | (intros; with_reducible assumption) | intro _ _ _ | intro _ _ | dsimp +zetaDelta only
                  | with_reducible refine Kept.mkUpd ?_ rfl rfl rfl

theorem lpoCalWindow_kept {s₀ : State} (s : State) (ratio : Nat) (hK : Kept s₀ s) : Kept s₀ (lpoCalWindow s ratio) := by
  unfold lpoCalWindow
  repeat' first | with_reducible assumption | with_reducible apply Kept.ite | with_reducible apply setFlag_kept
                  | with_reducible apply setReg_kept | with_reducible apply foldl_kept | extract_lets | split
                  | (intros; with_reducible assumption) | intro _ _ _ | intro _ _ | dsimp +zetaDelta only
                  | with_reducible refine Kept.mkUpd ?_ rfl rfl rfl

theorem sleepWrite_kept {s₀ : State} (s : State) (v : W32) (hK : Kept s₀ s) : Kept s₀ (sleepWrite s v) := by
  unfold sleepWrite
  repeat' first | with_reducible assumption | with_reducible apply Kept.ite | with_reducible apply setFld_kept
                  | with_reducible apply foldl_kept | extract_lets | split | (intros; with_reducible assumption) | intro _ _ _
                  | intro _ _ | dsimp +zetaDelta only | with_reducible refine Kept.mkUpd ?_ rfl rfl rfl

theorem sleepEntry_kept {s₀ : State} (s : State) (hK : Kept s₀ s) : Kept s₀ (sleepEntry s) := by
  have hr := resetKeepPins_kept s hK
  unfold sleepEntry
  split
  · exact hK
  · extract_lets k rx sl r src r1 r2 r3
    have h3 : Kept s₀ r3 := inc_kept _ _ (setPair64_kept _ _ _ _ ⟨hr.pending, hr.fuses, hK.ddr, hr.host⟩)
    exact Kept.ite h3 (setFlag_kept _ _ _ h3)

theorem wakeEvent_kept {s₀ : State} (s : State) (wcmp : List WakeStep) (pin : Bool) (b : Boot) (hK : Kept s₀ s) : Kept s₀ (wakeEvent
    s wcmp pin b) := by
  unfold wakeEvent
  repeat' first | with_reducible assumption | with_reducible apply Kept.ite | with_reducible apply setReg_kept
                  | with_reducible apply setFld_kept | with_reducible apply startUp_kept | with_reducible apply foldl_kept
                  | extract_lets | split | (intros; with_reducible assumption) | intro _ _ _ | intro _ _ | dsimp +zetaDelta only
                  | with_reducible refine Kept.mkUpd ?_ rfl rfl rfl

theorem keepAnchor_kept {s₀ : State} (s : State) (x : Option (Nat × Anchor)) (hK : Kept s₀ s) : Kept s₀ (keepAnchor s x) := by
  unfold keepAnchor
  repeat' first | with_reducible assumption | with_reducible apply Kept.ite | with_reducible apply setFlag_kept
                  | with_reducible apply setFld_kept | with_reducible apply foldl_kept | extract_lets | split
                  | (intros; with_reducible assumption) | intro _ _ _ | intro _ _ | dsimp +zetaDelta only
                  | with_reducible refine Kept.mkUpd ?_ rfl rfl rfl

theorem plinthResume_kept {s₀ : State} (s : State) (hK : Kept s₀ s) : Kept s₀ (plinthResume s) := by
  have frame : ∀ (u : State) (p : Plinth) (m : Mitten), Kept s₀ u → Kept s₀ { u with pl := p, mt := m } := fun _ _ _ h => ⟨h.pending,
    h.fuses, h.ddr, h.host⟩
  have plFrame : ∀ (u : State) (p : Plinth), Kept s₀ u → Kept s₀ { u with pl := p } := fun _ _ h => ⟨h.pending, h.fuses, h.ddr, h.host⟩
  unfold plinthResume
  split
  · extract_lets y t f B s1 p2 m2 s2 s3 s4 s5 s6 q7 s7 c
    have h1 : Kept s₀ s1 := setFlag_kept _ _ _ (plinthStart_kept _ hK)
    have h2 : Kept s₀ s2 := frame _ _ _ h1
    have h6 : Kept s₀ s6 := setPair64_kept _ _ _ _ (keepAnchor_kept _ _ (setFld_kept _ _ _ (setReg_kept _ _ _ (setPair64_kept _ _ _ _
    h2))))
    have h7 : Kept s₀ s7 := plFrame _ _ (sts_kept _ _ h6)
    exact Kept.ite (postAt_kept _ _ _ _ _ _ h7) h7
  · exact hK

theorem srstWrite_kept {s₀ : State} (s : State) (v : W32) (hK : Kept s₀ s) : Kept s₀ (srstWrite s v) := by
  unfold srstWrite
  repeat' first | with_reducible assumption | with_reducible apply Kept.ite | with_reducible apply flush_kept
                  | with_reducible apply enterReset_kept | with_reducible apply foldl_kept | extract_lets | split
                  | (intros; with_reducible assumption) | intro _ _ _ | intro _ _ | dsimp +zetaDelta only
                  | with_reducible refine Kept.mkUpd ?_ rfl rfl rfl

/-! ## Registers -/

theorem plainWrite_kept {s₀ : State} (s : State) (a : Access) (off : Nat) (v : W32) (hK : Kept s₀ s) : Kept s₀ (plainWrite s a off v)
    := by
  unfold plainWrite
  repeat' first | with_reducible assumption | with_reducible apply Kept.ite | with_reducible apply writeReg_kept
                  | with_reducible apply foldl_kept | extract_lets | split | (intros; with_reducible assumption) | intro _ _ _
                  | intro _ _ | dsimp +zetaDelta only | with_reducible refine Kept.mkUpd ?_ rfl rfl rfl

theorem glStallMaxClr_kept {s₀ : State} (s : State) (a : Access) (v : W32) (hK : Kept s₀ s) : Kept s₀ (glStallMaxClr s a v) := by
  unfold glStallMaxClr
  repeat' first | with_reducible assumption | with_reducible apply Kept.ite | with_reducible apply cmdWrite_kept
                  | with_reducible apply setFld_kept | with_reducible apply foldl_kept | extract_lets | split
                  | (intros; with_reducible assumption) | intro _ _ _ | intro _ _ | dsimp +zetaDelta only
                  | with_reducible refine Kept.mkUpd ?_ rfl rfl rfl

theorem setView_kept {s₀ : State} (s : State) (f : Nat) (v : W32) (hK : Kept s₀ s) : Kept s₀ (setView s f v) := by
  unfold setView
  repeat' first | with_reducible assumption | with_reducible apply Kept.ite | with_reducible apply foldl_kept | extract_lets
                  | split | (intros; with_reducible assumption) | intro _ _ _ | intro _ _ | dsimp +zetaDelta only
                  | with_reducible refine Kept.mkUpd ?_ rfl rfl rfl

theorem writeMQ_kept {s₀ : State} (s : State) (a : Access) (off : Nat) (v : W32) (hK : Kept s₀ s) : Kept s₀ (writeMQ s a off v) := by
  unfold writeMQ
  repeat' first | with_reducible assumption | with_reducible apply Kept.ite | with_reducible apply mqUnveil_kept
                  | with_reducible apply setView_kept | with_reducible apply regroup_kept | with_reducible apply plainWrite_kept
                  | with_reducible apply foldl_kept | extract_lets | split | (intros; with_reducible assumption) | intro _ _ _
                  | intro _ _ | dsimp +zetaDelta only | with_reducible refine Kept.mkUpd ?_ rfl rfl rfl

theorem writeHI_kept {s₀ : State} (s : State) (a : Access) (off : Nat) (v : W32) (hK : Kept s₀ s) : Kept s₀ (writeHI s a off v) := by
  unfold writeHI
  repeat' first | with_reducible assumption | with_reducible apply Kept.ite | with_reducible apply hiRingStop_kept
                  | with_reducible apply hiRingStart_kept | with_reducible apply plainWrite_kept | with_reducible apply hiKick_kept
                  | with_reducible apply setFnHost_kept | with_reducible apply foldl_kept | extract_lets | split
                  | (intros; with_reducible assumption) | intro _ _ _ | intro _ _ | dsimp +zetaDelta only
                  | with_reducible refine Kept.mkUpd ?_ rfl rfl rfl

theorem writePL_kept {s₀ : State} (s : State) (a : Access) (off : Nat) (v : W32) (hK : Kept s₀ s) : Kept s₀ (writePL s a off v) := by
  unfold writePL
  repeat' first | with_reducible assumption | with_reducible apply Kept.ite | with_reducible apply plAdjSetWrite_kept
                  | with_reducible apply plCtrlWrite_kept | with_reducible apply plSnapCancel_kept
                  | with_reducible apply plSnapGo_kept | with_reducible apply plainWrite_kept | with_reducible apply foldl_kept
                  | extract_lets | split | (intros; with_reducible assumption) | intro _ _ _ | intro _ _ | dsimp +zetaDelta only
                  | with_reducible refine Kept.mkUpd ?_ rfl rfl rfl

theorem writeTP_kept {s₀ : State} (s : State) (a : Access) (off : Nat) (v : W32) (hK : Kept s₀ s) : Kept s₀ (writeTP s a off v) := by
  unfold writeTP
  repeat' first | with_reducible assumption | with_reducible apply Kept.ite | with_reducible apply tpRestart_kept
                  | with_reducible apply tpAnchor_kept | with_reducible apply plainWrite_kept | with_reducible apply foldl_kept
                  | extract_lets | split | (intros; with_reducible assumption) | intro _ _ _ | intro _ _ | dsimp +zetaDelta only
                  | with_reducible refine Kept.mkUpd ?_ rfl rfl rfl

theorem writeEP_kept {s₀ : State} (s : State) (a : Access) (off : Nat) (v : W32) (hK : Kept s₀ s) : Kept s₀ (writeEP s a off v) := by
  unfold writeEP
  repeat' first | with_reducible assumption | with_reducible apply Kept.ite | with_reducible apply epLinkReset_kept
                  | with_reducible apply epFlush_kept | with_reducible apply plainWrite_kept | with_reducible apply foldl_kept
                  | extract_lets | split | (intros; with_reducible assumption) | intro _ _ _ | intro _ _ | dsimp +zetaDelta only
                  | with_reducible refine Kept.mkUpd ?_ rfl rfl rfl

theorem writeIN_kept {s₀ : State} (s : State) (a : Access) (off : Nat) (v : W32) (hK : Kept s₀ s) : Kept s₀ (writeIN s a off v) := by
  unfold writeIN
  repeat' first | with_reducible assumption | with_reducible apply Kept.ite | with_reducible apply inOpenWire_kept
                  | with_reducible apply inNulling_kept | with_reducible apply plainWrite_kept | with_reducible apply foldl_kept
                  | extract_lets | split | (intros; with_reducible assumption) | intro _ _ _ | intro _ _ | dsimp +zetaDelta only
                  | with_reducible refine Kept.mkUpd ?_ rfl rfl rfl

theorem writeLG_kept {s₀ : State} (s : State) (a : Access) (off : Nat) (v : W32) (hK : Kept s₀ s) : Kept s₀ (writeLG s a off v) := by
  unfold writeLG
  repeat' first | with_reducible assumption | with_reducible apply Kept.ite | with_reducible apply plainWrite_kept
                  | with_reducible apply lgQPeakClr_kept | with_reducible apply lgWinVeto_kept
                  | with_reducible apply lgInjFlush_kept | with_reducible apply lgInjDataWrite_kept
                  | with_reducible apply lgDllRelock_kept | with_reducible apply foldl_kept | extract_lets | split
                  | (intros; with_reducible assumption) | intro _ _ _ | intro _ _ | dsimp +zetaDelta only
                  | with_reducible refine Kept.mkUpd ?_ rfl rfl rfl

theorem writeCV_kept {s₀ : State} (s : State) (a : Access) (off : Nat) (v : W32) (hK : Kept s₀ s) : Kept s₀ (writeCV s a off v) := by
  unfold writeCV
  repeat' first | with_reducible assumption | with_reducible apply Kept.ite | with_reducible apply cvHalt_kept
                  | with_reducible apply cvStart_kept | with_reducible apply cvDecLatMaxClr_kept
                  | with_reducible apply plainWrite_kept | with_reducible apply foldl_kept | extract_lets | split
                  | (intros; with_reducible assumption) | intro _ _ _ | intro _ _ | dsimp +zetaDelta only
                  | with_reducible refine Kept.mkUpd ?_ rfl rfl rfl

theorem writeCC_kept {s₀ : State} (s : State) (a : Access) (off : Nat) (v : W32) (hK : Kept s₀ s) : Kept s₀ (writeCC s a off v) := by
  unfold writeCC
  repeat' first | with_reducible assumption | with_reducible apply Kept.ite | with_reducible apply ccInPeakClr_kept
                  | with_reducible apply ccFabWaitMaxClr_kept | with_reducible apply ccDqPeakClr_kept
                  | with_reducible apply plainWrite_kept | with_reducible apply foldl_kept | extract_lets | split
                  | (intros; with_reducible assumption) | intro _ _ _ | intro _ _ | dsimp +zetaDelta only
                  | with_reducible refine Kept.mkUpd ?_ rfl rfl rfl

theorem writeMU_kept {s₀ : State} (s : State) (a : Access) (off : Nat) (v : W32) (hK : Kept s₀ s) : Kept s₀ (writeMU s a off v) := by
  unfold writeMU
  repeat' first | with_reducible assumption | with_reducible apply Kept.ite | with_reducible apply muCloseCmd_kept
                  | with_reducible apply muDisarmCmd_kept | with_reducible apply muArm_kept | with_reducible apply plainWrite_kept
                  | with_reducible apply foldl_kept | extract_lets | split | (intros; with_reducible assumption) | intro _ _ _
                  | intro _ _ | dsimp +zetaDelta only | with_reducible refine Kept.mkUpd ?_ rfl rfl rfl

theorem writeMC_kept {s₀ : State} (s : State) (a : Access) (off : Nat) (v : W32) (hK : Kept s₀ s) : Kept s₀ (writeMC s a off v) := by
  unfold writeMC
  repeat' first | with_reducible assumption | with_reducible apply Kept.ite | with_reducible apply plainWrite_kept
                  | with_reducible apply mcRetire_kept | with_reducible apply mcTrain_kept | with_reducible apply setFlag_kept
                  | with_reducible apply foldl_kept | extract_lets | split | (intros; with_reducible assumption) | intro _ _ _
                  | intro _ _ | dsimp +zetaDelta only | with_reducible refine Kept.mkUpd ?_ rfl rfl rfl

theorem writeCR_kept {s₀ : State} (s : State) (a : Access) (off : Nat) (v : W32) (hK : Kept s₀ s) : Kept s₀ (writeCR s a off v) := by
  unfold writeCR
  repeat' first | with_reducible assumption | with_reducible apply Kept.ite | with_reducible apply crMigrate_kept
                  | with_reducible apply crReplay_kept | with_reducible apply crRelease_kept | with_reducible apply crMark_kept
                  | with_reducible apply crStop_kept | with_reducible apply crStart_kept | with_reducible apply plainWrite_kept
                  | with_reducible apply foldl_kept | extract_lets | split | (intros; with_reducible assumption) | intro _ _ _
                  | intro _ _ | dsimp +zetaDelta only | with_reducible refine Kept.mkUpd ?_ rfl rfl rfl

theorem settleStarve_kept {s₀ : State} (s : State) (q : Nat) (hK : Kept s₀ s) : Kept s₀ (settleStarve s q) := by
  unfold settleStarve
  repeat' first | with_reducible assumption | with_reducible apply Kept.ite | with_reducible apply countUnplayed_kept
                  | with_reducible apply setSeqr_kept | with_reducible apply foldl_kept | extract_lets | split
                  | (intros; with_reducible assumption) | intro _ _ _ | intro _ _ | dsimp +zetaDelta only
                  | with_reducible refine Kept.mkUpd ?_ rfl rfl rfl

theorem writePG_kept {s₀ : State} (s : State) (a : Access) (off : Nat) (v : W32) (hK : Kept s₀ s) : Kept s₀ (writePG s a off v) := by
  unfold writePG
  repeat' first | with_reducible assumption | with_reducible apply Kept.ite | with_reducible apply pgJump_kept
                  | with_reducible apply pgClrreq_kept | with_reducible apply pgStop_kept | with_reducible apply pgStart_kept
                  | with_reducible apply pgStoreClaim_kept | with_reducible apply pgStoreRelease_kept
                  | with_reducible apply plainWrite_kept | with_reducible apply settleStarve_kept
                  | with_reducible apply endDisabled_kept | with_reducible apply noteOvr_kept | with_reducible apply pgOvrCmd_kept
                  | with_reducible apply foldl_kept | extract_lets | split | (intros; with_reducible assumption) | intro _ _ _
                  | intro _ _ | dsimp +zetaDelta only | with_reducible refine Kept.mkUpd ?_ rfl rfl rfl

theorem writeTT_kept {s₀ : State} (s : State) (a : Access) (off : Nat) (v : W32) (hK : Kept s₀ s) : Kept s₀ (writeTT s a off v) := by
  unfold writeTT
  repeat' first | with_reducible assumption | with_reducible apply Kept.ite | with_reducible apply ttDisarm_kept
                  | with_reducible apply ttArm_kept | with_reducible apply sts_kept | with_reducible apply plainWrite_kept
                  | with_reducible apply ttHostGateOpen_kept | with_reducible apply ttHostGateClose_kept
                  | with_reducible apply foldl_kept | extract_lets | split | (intros; with_reducible assumption) | intro _ _ _
                  | intro _ _ | dsimp +zetaDelta only | with_reducible refine Kept.mkUpd ?_ rfl rfl rfl

theorem writeMA_kept {s₀ : State} (s : State) (a : Access) (off : Nat) (v : W32) (hK : Kept s₀ s) : Kept s₀ (writeMA s a off v) := by
  unfold writeMA
  repeat' first | with_reducible assumption | with_reducible apply Kept.ite | with_reducible apply maSelfcal_kept
                  | with_reducible apply maStop_kept | with_reducible apply maStart_kept | with_reducible apply maAccClr_kept
                  | with_reducible apply maAccSnap_kept | with_reducible apply maWinEnable_kept
                  | with_reducible apply maRefEnable_kept | with_reducible apply plainWrite_kept | with_reducible apply foldl_kept
                  | extract_lets | split | (intros; with_reducible assumption) | intro _ _ _ | intro _ _ | dsimp +zetaDelta only
                  | with_reducible refine Kept.mkUpd ?_ rfl rfl rfl

theorem knownAdj_kept {s₀ : State} (s : State) (hK : Kept s₀ s) : Kept s₀ (knownAdj s).2 := by
  unfold knownAdj
  repeat' first | with_reducible assumption | with_reducible apply takeFree_kept
                  | with_reducible refine takeFree_keq (by with_reducible assumption) ?_ | with_reducible apply foldl_kept
                  | extract_lets | split | (intros; with_reducible assumption) | intro _ _ _ | intro _ _ | dsimp +zetaDelta only
                  | with_reducible refine Kept.mkUpd ?_ rfl rfl rfl
theorem knownAdj_keq {s₀ : State} {t₁ : State} {o₁ : BitVec 48}  {s : State} (hE : (knownAdj s) = (o₁, t₁)) (hK : Kept s₀ s) : Kept
    s₀ t₁ := by
  have := knownAdj_kept s hK
  rw [hE] at this; exact this

theorem writePR_kept {s₀ : State} (s : State) (a : Access) (off : Nat) (v : W32) (hK : Kept s₀ s) : Kept s₀ (writePR s a off v) := by
  unfold writePR
  repeat' first | with_reducible assumption | with_reducible apply Kept.ite | with_reducible apply knownAdj_kept
                  | with_reducible apply prResync_kept | with_reducible apply prYield_kept | with_reducible apply prMeasure_kept
                  | with_reducible apply prAlign_kept | with_reducible apply plainWrite_kept
                  | with_reducible refine knownAdj_keq (by with_reducible assumption) ?_ | with_reducible apply foldl_kept
                  | extract_lets | split | (intros; with_reducible assumption) | intro _ _ _ | intro _ _ | dsimp +zetaDelta only
                  | with_reducible refine Kept.mkUpd ?_ rfl rfl rfl

theorem routeWrite_kept {s₀ : State} (s : State) (a : Access) (off : Nat) (v : W32) (hK : Kept s₀ s) : Kept s₀ (routeWrite s a off v)
    := by
  unfold routeWrite
  repeat' first | with_reducible assumption | with_reducible apply Kept.ite | with_reducible apply glStallMaxClr_kept
                  | with_reducible apply plainWrite_kept | with_reducible apply writeMQ_kept | with_reducible apply writeHI_kept
                  | with_reducible apply writePL_kept | with_reducible apply writeTP_kept | with_reducible apply writeEP_kept
                  | with_reducible apply writeIN_kept | with_reducible apply writeLG_kept | with_reducible apply writeCV_kept
                  | with_reducible apply writeCC_kept | with_reducible apply writeMU_kept | with_reducible apply writeMC_kept
                  | with_reducible apply writeCR_kept | with_reducible apply writePG_kept | with_reducible apply writeTT_kept
                  | with_reducible apply writeMA_kept | with_reducible apply writePR_kept | with_reducible apply foldl_kept
                  | extract_lets | split | (intros; with_reducible assumption) | intro _ _ _ | intro _ _ | dsimp +zetaDelta only
                  | with_reducible refine Kept.mkUpd ?_ rfl rfl rfl

/-! ## BusOps -/

theorem grdEffect_kept {s₀ : State} (s : State) (off : Nat) (v : W32) (hK : Kept s₀ s) : Kept s₀ (grdEffect s off v) := by
  unfold grdEffect
  repeat' first | with_reducible assumption | with_reducible apply Kept.ite | with_reducible apply progSet_kept
                  | with_reducible apply progCmd_kept | with_reducible apply setReg_kept | with_reducible apply scanRef_kept
                  | with_reducible apply forceWrite_kept | with_reducible apply sleepWrite_kept
                  | with_reducible apply srstWrite_kept | with_reducible apply foldl_kept | extract_lets | split
                  | (intros; with_reducible assumption) | intro _ _ _ | intro _ _ | dsimp +zetaDelta only
                  | with_reducible refine Kept.mkUpd ?_ rfl rfl rfl

theorem endExpired_kept {s₀ : State} (s : State) (blk : Nat) (hK : Kept s₀ s) : Kept s₀ (endExpired s blk) := by
  unfold endExpired
  repeat' first | with_reducible assumption | with_reducible apply Kept.ite | with_reducible apply guardFault_kept
                  | with_reducible apply setGuardPair_kept | with_reducible apply foldl_kept | extract_lets | split
                  | (intros; with_reducible assumption) | intro _ _ _ | intro _ _ | dsimp +zetaDelta only
                  | with_reducible refine Kept.mkUpd ?_ rfl rfl rfl

theorem openPair_kept {s₀ : State} (s : State) (a : Access) (blk : Nat) (k : Nat) (v : W32) (hK : Kept s₀ s) : Kept s₀ (openPair s a
    blk k v) := by
  unfold openPair
  repeat' first | with_reducible assumption | with_reducible apply Kept.ite | with_reducible apply endExpired_kept
                  | with_reducible apply guardFault_kept | with_reducible apply setGuardPair_kept | with_reducible apply foldl_kept
                  | extract_lets | split | (intros; with_reducible assumption) | intro _ _ _ | intro _ _ | dsimp +zetaDelta only
                  | with_reducible refine Kept.mkUpd ?_ rfl rfl rfl

theorem grdWrite_kept {s₀ : State} (s : State) (a : Access) (p : GuardPair) (blk : Nat) (k : Nat) (hK : Kept s₀ s) : Kept s₀
    (grdWrite s a p blk k) := by
  unfold grdWrite
  repeat' first | with_reducible assumption | with_reducible apply Kept.ite | with_reducible apply ownFault_kept
                  | with_reducible apply grdEffect_kept | with_reducible apply foldl_kept | extract_lets | split
                  | (intros; with_reducible assumption) | intro _ _ _ | intro _ _ | dsimp +zetaDelta only
                  | with_reducible refine Kept.mkUpd ?_ rfl rfl rfl

theorem closePair_kept {s₀ : State} (s : State) (a : Access) (blk : Nat) (k : Nat) (v : W32) (hK : Kept s₀ s) : Kept s₀ (closePair s
    a blk k v) := by
  unfold closePair
  repeat' first | with_reducible assumption | with_reducible apply Kept.ite | with_reducible apply endExpired_kept
                  | with_reducible apply guardFault_kept | with_reducible apply setGuardPair_kept
                  | with_reducible apply grdWrite_kept | with_reducible apply foldl_kept | extract_lets | split
                  | (intros; with_reducible assumption) | intro _ _ _ | intro _ _ | dsimp +zetaDelta only
                  | with_reducible refine Kept.mkUpd ?_ rfl rfl rfl

theorem guardOpen_kept {s₀ : State} (s : State) (a : Access) (blk : Nat) (k : Nat) (v : W32) (hK : Kept s₀ s) : Kept s₀ (guardOpen s
    a blk k v) := by
  unfold guardOpen
  repeat' first | with_reducible assumption | with_reducible apply Kept.ite | with_reducible apply openPair_kept
                  | with_reducible apply noteStall_kept | with_reducible apply foldl_kept | extract_lets | split
                  | (intros; with_reducible assumption) | intro _ _ _ | intro _ _ | dsimp +zetaDelta only
                  | with_reducible refine Kept.mkUpd ?_ rfl rfl rfl

theorem guardClose_kept {s₀ : State} (s : State) (a : Access) (blk : Nat) (k : Nat) (v : W32) (hK : Kept s₀ s) : Kept s₀ (guardClose
    s a blk k v) := by
  unfold guardClose
  repeat' first | with_reducible assumption | with_reducible apply Kept.ite | with_reducible apply closePair_kept
                  | with_reducible apply noteStall_kept | with_reducible apply foldl_kept | extract_lets | split
                  | (intros; with_reducible assumption) | intro _ _ _ | intro _ _ | dsimp +zetaDelta only
                  | with_reducible refine Kept.mkUpd ?_ rfl rfl rfl

theorem guardTimeout_kept {s₀ : State} (s : State) (blk : Nat) (hK : Kept s₀ s) : Kept s₀ (guardTimeout s blk) := by
  unfold guardTimeout
  repeat' first | with_reducible assumption | with_reducible apply Kept.ite | with_reducible apply endExpired_kept
                  | with_reducible apply foldl_kept | extract_lets | split | (intros; with_reducible assumption) | intro _ _ _
                  | intro _ _ | dsimp +zetaDelta only | with_reducible refine Kept.mkUpd ?_ rfl rfl rfl

theorem guardedWrite_kept {s₀ : State} (s : State) (a : Access) (off : Nat) (v : W32) (hK : Kept s₀ s) : Kept s₀ (guardedWrite s a
    off v) := by
  unfold guardedWrite
  repeat' first | with_reducible assumption | with_reducible apply Kept.ite | with_reducible apply guardClose_kept
                  | with_reducible apply guardOpen_kept | with_reducible apply foldl_kept | extract_lets | split
                  | (intros; with_reducible assumption) | intro _ _ _ | intro _ _ | dsimp +zetaDelta only
                  | with_reducible refine Kept.mkUpd ?_ rfl rfl rfl

theorem mqScanRefWrite_kept {s₀ : State} (s : State) (a : Access) (v : W32) (hK : Kept s₀ s) : Kept s₀ (mqScanRefWrite s a v) := by
  unfold mqScanRefWrite
  repeat' first | with_reducible assumption | with_reducible apply Kept.ite | with_reducible apply guardedWrite_kept
                  | with_reducible apply foldl_kept | extract_lets | split | (intros; with_reducible assumption) | intro _ _ _
                  | intro _ _ | dsimp +zetaDelta only | with_reducible refine Kept.mkUpd ?_ rfl rfl rfl

theorem prForce_kept {s₀ : State} (s : State) (a : Access) (v : W32) (hK : Kept s₀ s) : Kept s₀ (prForce s a v) := by
  unfold prForce
  repeat' first | with_reducible assumption | with_reducible apply Kept.ite | with_reducible apply guardedWrite_kept
                  | with_reducible apply foldl_kept | extract_lets | split | (intros; with_reducible assumption) | intro _ _ _
                  | intro _ _ | dsimp +zetaDelta only | with_reducible refine Kept.mkUpd ?_ rfl rfl rfl

theorem arProgCmd_kept {s₀ : State} (s : State) (a : Access) (v : W32) (hK : Kept s₀ s) : Kept s₀ (arProgCmd s a v) := by
  unfold arProgCmd
  repeat' first | with_reducible assumption | with_reducible apply Kept.ite | with_reducible apply guardedWrite_kept
                  | with_reducible apply foldl_kept | extract_lets | split | (intros; with_reducible assumption) | intro _ _ _
                  | intro _ _ | dsimp +zetaDelta only | with_reducible refine Kept.mkUpd ?_ rfl rfl rfl

theorem mtSrstDevice_kept {s₀ : State} (s : State) (a : Access) (v : W32) (hK : Kept s₀ s) : Kept s₀ (mtSrstDevice s a v) := by
  unfold mtSrstDevice
  repeat' first | with_reducible assumption | with_reducible apply Kept.ite | with_reducible apply guardedWrite_kept
                  | with_reducible apply foldl_kept | extract_lets | split | (intros; with_reducible assumption) | intro _ _ _
                  | intro _ _ | dsimp +zetaDelta only | with_reducible refine Kept.mkUpd ?_ rfl rfl rfl

theorem mtSrstDatapath_kept {s₀ : State} (s : State) (a : Access) (v : W32) (hK : Kept s₀ s) : Kept s₀ (mtSrstDatapath s a v) := by
  unfold mtSrstDatapath
  repeat' first | with_reducible assumption | with_reducible apply Kept.ite | with_reducible apply guardedWrite_kept
                  | with_reducible apply foldl_kept | extract_lets | split | (intros; with_reducible assumption) | intro _ _ _
                  | intro _ _ | dsimp +zetaDelta only | with_reducible refine Kept.mkUpd ?_ rfl rfl rfl

theorem mtSleep_kept {s₀ : State} (s : State) (a : Access) (v : W32) (hK : Kept s₀ s) : Kept s₀ (mtSleep s a v) := by
  unfold mtSleep
  repeat' first | with_reducible assumption | with_reducible apply Kept.ite | with_reducible apply guardedWrite_kept
                  | with_reducible apply foldl_kept | extract_lets | split | (intros; with_reducible assumption) | intro _ _ _
                  | intro _ _ | dsimp +zetaDelta only | with_reducible refine Kept.mkUpd ?_ rfl rfl rfl

theorem logDropped_kept {s₀ : State} (s : State) (a : Access) (off : Nat) (be : Nat) (wide : Bool) (hK : Kept s₀ s) : Kept s₀
    (logDropped s a off be wide) := by
  unfold logDropped
  repeat' first | with_reducible assumption | with_reducible apply Kept.ite | with_reducible apply sts_kept
                  | with_reducible apply inc_kept | with_reducible apply setReg_kept | with_reducible apply foldl_kept
                  | extract_lets | split | (intros; with_reducible assumption) | intro _ _ _ | intro _ _ | dsimp +zetaDelta only
                  | with_reducible refine Kept.mkUpd ?_ rfl rfl rfl

theorem narrowWrite_kept {s₀ : State} (s : State) (a : Access) (off : Nat) (be : Nat) (hK : Kept s₀ s) : Kept s₀ (narrowWrite s a off
    be) := by
  unfold narrowWrite
  repeat' first | with_reducible assumption | with_reducible apply Kept.ite | with_reducible apply logDropped_kept
                  | with_reducible apply foldl_kept | extract_lets | split | (intros; with_reducible assumption) | intro _ _ _
                  | intro _ _ | dsimp +zetaDelta only | with_reducible refine Kept.mkUpd ?_ rfl rfl rfl

theorem oversizeAccess_kept {s₀ : State} (s : State) (a : Access) (off : Nat) (be : Nat) (isWrite : Bool) (hK : Kept s₀ s) : Kept s₀
    (oversizeAccess s a off be isWrite) := by
  unfold oversizeAccess
  repeat' first | with_reducible assumption | with_reducible apply Kept.ite | with_reducible apply logDropped_kept
                  | with_reducible apply foldl_kept | extract_lets | split | (intros; with_reducible assumption) | intro _ _ _
                  | intro _ _ | dsimp +zetaDelta only | with_reducible refine Kept.mkUpd ?_ rfl rfl rfl

theorem settleCount_kept {s₀ : State} (s : State) (off : Nat) (hK : Kept s₀ s) : Kept s₀ (settleCount s off) := by
  unfold settleCount
  repeat' first | with_reducible assumption | with_reducible apply Kept.ite | with_reducible apply settleStarve_kept
                  | with_reducible apply foldl_kept | extract_lets | split | (intros; with_reducible assumption) | intro _ _ _
                  | intro _ _ | dsimp +zetaDelta only | with_reducible refine Kept.mkUpd ?_ rfl rfl rfl

theorem aliasBit_kept {s₀ : State} (s : State) (a : Access) (off : Nat) (bit : Nat) (b : Bool) (r : RegRow) (hK : Kept s₀ s) : Kept
    s₀ (aliasBit s a off bit b r) := by
  unfold aliasBit
  repeat' first | with_reducible assumption | with_reducible apply Kept.ite | with_reducible apply settleCount_kept
                  | with_reducible apply guardFault_kept | with_reducible apply routeWrite_kept | with_reducible apply foldl_kept
                  | extract_lets | split | (intros; with_reducible assumption) | intro _ _ _ | intro _ _ | dsimp +zetaDelta only
                  | with_reducible refine Kept.mkUpd ?_ rfl rfl rfl

theorem aliasAt_kept {s₀ : State} (s : State) (a : Access) (off : Nat) (tgt : Nat) (bit : Nat) (b : Bool) (hK : Kept s₀ s) : Kept s₀
    (aliasAt s a off tgt bit b) := by
  unfold aliasAt
  repeat' first | with_reducible assumption | with_reducible apply Kept.ite | with_reducible apply guardFault_kept
                  | with_reducible apply ownFault_kept | with_reducible apply aliasBit_kept | with_reducible apply foldl_kept
                  | extract_lets | split | (intros; with_reducible assumption) | intro _ _ _ | intro _ _ | dsimp +zetaDelta only
                  | with_reducible refine Kept.mkUpd ?_ rfl rfl rfl

theorem aliasWrite_kept {s₀ : State} (s : State) (a : Access) (off : Nat) (v : W32) (hK : Kept s₀ s) : Kept s₀ (aliasWrite s a off v)
    := by
  unfold aliasWrite
  repeat' first | with_reducible assumption | with_reducible apply Kept.ite | with_reducible apply aliasAt_kept
                  | with_reducible apply breakPair_kept | with_reducible apply noteStall_kept | with_reducible apply foldl_kept
                  | extract_lets | split | (intros; with_reducible assumption) | intro _ _ _ | intro _ _ | dsimp +zetaDelta only
                  | with_reducible refine Kept.mkUpd ?_ rfl rfl rfl

theorem regWrite_kept {s₀ : State} (s : State) (a : Access) (off : Nat) (v : W32) (hK : Kept s₀ s) : Kept s₀ (regWrite s a off v) := by
  unfold regWrite
  repeat' first | with_reducible assumption | with_reducible apply Kept.ite | with_reducible apply breakPair_kept
                  | with_reducible apply noteStall_kept | with_reducible apply guardFault_kept | with_reducible apply accept_kept
                  | with_reducible apply routeWrite_kept | with_reducible apply foldl_kept | extract_lets | split
                  | (intros; with_reducible assumption) | intro _ _ _ | intro _ _ | dsimp +zetaDelta only
                  | with_reducible refine Kept.mkUpd ?_ rfl rfl rfl

theorem cfgSpaceWrite_kept {s₀ : State} (s : State) (f : Nat) (off : Nat) (v : W32) (hK : Kept s₀ s) : Kept s₀ (cfgSpaceWrite s f off
    v) := by
  unfold cfgSpaceWrite
  repeat' first | with_reducible assumption | with_reducible apply Kept.ite | with_reducible apply cfgWrite_kept
                  | with_reducible apply loseStrayAsides_kept | with_reducible apply foldl_kept | extract_lets | split
                  | (intros; with_reducible assumption) | intro _ _ _ | intro _ _ | dsimp +zetaDelta only
                  | with_reducible refine Kept.mkUpd ?_ rfl rfl rfl

theorem registerWrite_kept {s₀ : State} (s : State) (a : Access) (off : Nat) (v : W32) (hK : Kept s₀ s) : Kept s₀ (registerWrite s a
    off v) := by
  unfold registerWrite
  repeat' first | with_reducible assumption | with_reducible apply Kept.ite | with_reducible apply cfgSpaceWrite_kept
                  | with_reducible apply bar2Write_kept | with_reducible apply aliasWrite_kept
                  | with_reducible apply noteStall_kept | with_reducible apply guardOpen_kept
                  | with_reducible apply guardClose_kept | with_reducible apply regWrite_kept | with_reducible apply foldl_kept
                  | extract_lets | split | (intros; with_reducible assumption) | intro _ _ _ | intro _ _ | dsimp +zetaDelta only
                  | with_reducible refine Kept.mkUpd ?_ rfl rfl rfl

theorem applySet_kept {s₀ : State} (s : State) (u : UBlock) (hK : Kept s₀ s) : Kept s₀ (applySet s u) := by
  unfold applySet
  repeat' first | with_reducible assumption | with_reducible apply Kept.ite | with_reducible apply applyInLg_kept
                  | with_reducible apply evalPins_kept | with_reducible apply applyRegs_kept | with_reducible apply applyMu_kept
                  | with_reducible apply applyCr_kept | with_reducible apply applyPk_kept | with_reducible apply restartGens_kept
                  | with_reducible apply netConfig_kept | with_reducible apply applyPr_kept | with_reducible apply foldl_kept
                  | extract_lets | split | (intros; with_reducible assumption) | intro _ _ _ | intro _ _ | dsimp +zetaDelta only
                  | with_reducible refine Kept.mkUpd ?_ rfl rfl rfl

theorem committedSetApply_kept {s₀ : State} (s : State) (u : UBlock) (hK : Kept s₀ s) : Kept s₀ (committedSetApply s u) := by
  unfold committedSetApply
  repeat' first | with_reducible assumption | with_reducible apply Kept.ite | with_reducible apply applySet_kept
                  | with_reducible apply foldl_kept | extract_lets | split | (intros; with_reducible assumption) | intro _ _ _
                  | intro _ _ | dsimp +zetaDelta only | with_reducible refine Kept.mkUpd ?_ rfl rfl rfl

/-! ## Tick -/

theorem pclkEdge_kept {s₀ : State} (s : State) (hK : Kept s₀ s) : Kept s₀ (pclkEdge s) := by
  unfold pclkEdge
  repeat' first | with_reducible assumption | with_reducible apply Kept.ite | with_reducible apply advanceGens_kept
                  | with_reducible apply endStops_kept | with_reducible apply evalNewWm_kept | with_reducible apply forEach_kept
                  | with_reducible apply noteBusy_kept | with_reducible apply tickHold_kept | with_reducible apply foldl_kept
                  | extract_lets | split | (intros; with_reducible assumption) | intro _ _ _ | intro _ _ | dsimp +zetaDelta only
                  | with_reducible refine Kept.mkUpd ?_ rfl rfl rfl

theorem endCycle_kept {s₀ : State} (s : State) (hK : Kept s₀ s) : Kept s₀ (endCycle s) := by
  unfold endCycle
  repeat' first | with_reducible assumption | with_reducible apply Kept.ite | with_reducible apply applyMarks_kept
                  | with_reducible apply foldl_kept | extract_lets | split | (intros; with_reducible assumption) | intro _ _ _
                  | intro _ _ | dsimp +zetaDelta only | with_reducible refine Kept.mkUpd ?_ rfl rfl rfl

theorem tick_kept {s₀ : State} (s : State) (hK : Kept s₀ s) : Kept s₀ (tick s) := by
  unfold tick
  repeat' first | with_reducible assumption | with_reducible apply Kept.ite | with_reducible apply endCycle_kept
                  | with_reducible apply pclkEdge_kept | with_reducible apply countStep_kept | with_reducible apply linkStep_kept
                  | with_reducible apply fence_kept | with_reducible apply headReady_kept | with_reducible apply foldl_kept
                  | extract_lets | split | (intros; with_reducible assumption) | intro _ _ _ | intro _ _ | dsimp +zetaDelta only
                  | with_reducible refine Kept.mkUpd ?_ rfl rfl rfl

end Sys2Proof.Laws
end

