-- ==== Sys2Proof/Laws/PerInstr.lean ====
section
/-! SUPPORT. A family of statements about the commands as syntax, one lemma per constructor: a well-formed command that is a
register access names a function that can exist (R260). -/

namespace Sys2Proof.Laws.WellFormed

/-- The function of a well-formed register access is one of PF0 to PF7. -/
def Statement (i : Instr) : Prop := i.wellFormed = true → ∀ a, i.access = some a → a.func < 8

theorem left_of {x y : Bool} (h : (x && y) = true) : x = true := (Bool.and_eq_true_iff.mp h).1

theorem func_of {a b : Access} (h : accessOk a = true) (e : some a = some b) : b.func < 8 :=
  Option.some.inj e ▸ of_decide_eq_true h

theorem powerOn : Statement .powerOn := fun _ _ e => nomatch e
theorem railBelowThreshold : Statement .railBelowThreshold := fun _ _ e => nomatch e
theorem resetAssert : Statement .resetAssert := fun _ _ e => nomatch e
theorem resetRelease (b : Boot) : Statement (.resetRelease b) := fun _ _ e => nomatch e
theorem mainPllLock : Statement .mainPllLock := fun _ _ e => nomatch e
theorem mainPllLoss : Statement .mainPllLoss := fun _ _ e => nomatch e
theorem mainPllRelock : Statement .mainPllRelock := fun _ _ e => nomatch e
theorem vddioSupplyWarning : Statement .vddioSupplyWarning := fun _ _ e => nomatch e
theorem comparatorTransition (lane : Nat) (falling : Bool) (taps : Taps) (further : Nat) : Statement (.comparatorTransition lane falling taps further) := fun _ _ e => nomatch e
theorem stampEmit (lane : Nat) : Statement (.stampEmit lane) := fun _ _ e => nomatch e
theorem settlingWindowEnd (lane : Nat) : Statement (.settlingWindowEnd lane) := fun _ _ e => nomatch e
theorem dllLockDeclare (g : Nat) : Statement (.dllLockDeclare g) := fun _ _ e => nomatch e
theorem dllLossDeclare (g : Nat) (c : DllCause) : Statement (.dllLossDeclare g c) := fun _ _ e => nomatch e
theorem dllCodeStep (g : Nat) (code : Nat) (err : BitVec 16) : Statement (.dllCodeStep g code err) := fun _ _ e => nomatch e
theorem lgDllRelock (a : Access) (g : Nat) (v : W32) : Statement (.lgDllRelock a g v) := fun h _ e => func_of (left_of h) e
theorem inNulling (a : Access) (v : W32) : Statement (.inNulling a v) := fun h _ e => func_of h e
theorem inOpenWire (a : Access) (v : W32) : Statement (.inOpenWire a v) := fun h _ e => func_of h e
theorem nullingComplete (highA : List Nat) (highB : List Nat) : Statement (.nullingComplete highA highB) := fun _ _ e => nomatch e
theorem openWireComplete : Statement .openWireComplete := fun _ _ e => nomatch e
theorem ma0BorrowStart : Statement .ma0BorrowStart := fun _ _ e => nomatch e
theorem ma0BorrowEnd (m : BaselineReading) : Statement (.ma0BorrowEnd m) := fun _ _ e => nomatch e
theorem laneRecordTake (g : Nat) : Statement (.laneRecordTake g) := fun _ _ e => nomatch e
theorem tileHoldTimeout (g : Nat) : Statement (.tileHoldTimeout g) := fun _ _ e => nomatch e
theorem allowanceRise (g : Nat) : Statement (.allowanceRise g) := fun _ _ e => nomatch e
theorem fabricCreditEarn (src : Nat) : Statement (.fabricCreditEarn src) := fun _ _ e => nomatch e
theorem groupQueueRead (q : Nat) (d : Dest) : Statement (.groupQueueRead q d) := fun _ _ e => nomatch e
theorem waitingWindowEntryWrite (g : Nat) : Statement (.waitingWindowEntryWrite g) := fun _ _ e => nomatch e
theorem busyHoldExpiry (p : Nat) : Statement (.busyHoldExpiry p) := fun _ _ e => nomatch e
theorem windowOpen (g : Nat) : Statement (.windowOpen g) := fun _ _ e => nomatch e
theorem windowClose (g : Nat) : Statement (.windowClose g) := fun _ _ e => nomatch e
theorem windowDurExpiry (g : Nat) : Statement (.windowDurExpiry g) := fun _ _ e => nomatch e
theorem lgWinVeto (a : Access) (g : Nat) (v : W32) : Statement (.lgWinVeto a g v) := fun h _ e => func_of (left_of h) e
theorem vetoArrival (g : Nat) : Statement (.vetoArrival g) := fun _ _ e => nomatch e
theorem lgInjDataWrite (a : Access) (g : Nat) (v : W32) : Statement (.lgInjDataWrite a g v) := fun h _ e => func_of (left_of h) e
theorem lgInjFlush (a : Access) (g : Nat) (v : W32) : Statement (.lgInjFlush a g v) := fun h _ e => func_of (left_of h) e
theorem injectedTileSeal (g : Nat) : Statement (.injectedTileSeal g) := fun _ _ e => nomatch e
theorem lgQPeakClr (a : Access) (g : Nat) (v : W32) : Statement (.lgQPeakClr a g v) := fun h _ e => func_of (left_of h) e
theorem epochBoundary : Statement .epochBoundary := fun _ _ e => nomatch e
theorem tempDelivery : Statement .tempDelivery := fun _ _ e => nomatch e
theorem tempStaleExpiry (g : Nat) : Statement (.tempStaleExpiry g) := fun _ _ e => nomatch e
theorem tableBuildComplete (g : Nat) : Statement (.tableBuildComplete g) := fun _ _ e => nomatch e
theorem calFrameBoundary : Statement .calFrameBoundary := fun _ _ e => nomatch e
theorem calStoreLoadComplete (f : FlashRead) : Statement (.calStoreLoadComplete f) := fun _ _ e => nomatch e
theorem calMeasure (c : Command) : Statement (.calMeasure c) := fun _ _ e => nomatch e
theorem calMeasureComplete (g : Nat) (h : List Histogram) : Statement (.calMeasureComplete g h) := fun _ _ e => nomatch e
theorem calTableWrite (c : Command) : Statement (.calTableWrite c) := fun _ _ e => nomatch e
theorem calTableRead (c : Command) : Statement (.calTableRead c) := fun _ _ e => nomatch e
theorem calStoreWrite (c : Command) : Statement (.calStoreWrite c) := fun _ _ e => nomatch e
theorem calStoreWriteComplete (r : FlashWriteEnd) : Statement (.calStoreWriteComplete r) := fun _ _ e => nomatch e
theorem calStoreReload (c : Command) : Statement (.calStoreReload c) := fun _ _ e => nomatch e
theorem calFlashRead (c : Command) (responds : Bool) : Statement (.calFlashRead c responds) := fun _ _ e => nomatch e
theorem plAdjSetWrite (a : Access) (v : W32) : Statement (.plAdjSetWrite a v) := fun h _ e => func_of h e
theorem plRateSrcChange (a : Access) (v : W32) : Statement (.plRateSrcChange a v) := fun h _ e => func_of h e
theorem adjApply : Statement .adjApply := fun _ _ e => nomatch e
theorem plOriginWaitClear (a : Access) (v : W32) : Statement (.plOriginWaitClear a v) := fun h _ e => func_of h e
theorem plSnapGo (a : Access) (v : W32) : Statement (.plSnapGo a v) := fun h _ e => func_of h e
theorem plSnapCancel (a : Access) (v : W32) : Statement (.plSnapCancel a v) := fun h _ e => func_of h e
theorem snapshotTake (pin : Bool) : Statement (.snapshotTake pin) := fun _ _ e => nomatch e
theorem fabricEntry (src : Nat) : Statement (.fabricEntry src) := fun _ _ e => nomatch e
theorem fabricGrant : Statement .fabricGrant := fun _ _ e => nomatch e
theorem fabricDelivery : Statement .fabricDelivery := fun _ _ e => nomatch e
theorem clusterUnpack (c : Nat) : Statement (.clusterUnpack c) := fun _ _ e => nomatch e
theorem muTileArrival : Statement .muTileArrival := fun _ _ e => nomatch e
theorem muProcessInput (u : Nat) : Statement (.muProcessInput u) := fun _ _ e => nomatch e
theorem muArm (a : Access) (u : Nat) (v : W32) : Statement (.muArm a u v) := fun h _ e => func_of (left_of h) e
theorem muClose (a : Access) (u : Nat) (v : W32) : Statement (.muClose a u v) := fun h _ e => func_of (left_of h) e
theorem muDisarm (a : Access) (u : Nat) (v : W32) : Statement (.muDisarm a u v) := fun h _ e => func_of (left_of h) e
theorem muGateLenExpiry (u : Nat) : Statement (.muGateLenExpiry u) := fun _ _ e => nomatch e
theorem muPublish (u : Nat) : Statement (.muPublish u) := fun _ _ e => nomatch e
theorem muBankHoldTimeout (b : Nat) : Statement (.muBankHoldTimeout b) := fun _ _ e => nomatch e
theorem clusterResultTake (c : Nat) : Statement (.clusterResultTake c) := fun _ _ e => nomatch e
theorem clusterHoldTimeout (c : Nat) : Statement (.clusterHoldTimeout c) := fun _ _ e => nomatch e
theorem iAdd (e : Nat) : Statement (.iAdd e) := fun _ _ e => nomatch e
theorem iSub (e : Nat) : Statement (.iSub e) := fun _ _ e => nomatch e
theorem iAnd (e : Nat) : Statement (.iAnd e) := fun _ _ e => nomatch e
theorem iOr (e : Nat) : Statement (.iOr e) := fun _ _ e => nomatch e
theorem iXor (e : Nat) : Statement (.iXor e) := fun _ _ e => nomatch e
theorem iShl (e : Nat) : Statement (.iShl e) := fun _ _ e => nomatch e
theorem iShr (e : Nat) : Statement (.iShr e) := fun _ _ e => nomatch e
theorem iSar (e : Nat) : Statement (.iSar e) := fun _ _ e => nomatch e
theorem iMul (e : Nat) : Statement (.iMul e) := fun _ _ e => nomatch e
theorem iMulhu (e : Nat) : Statement (.iMulhu e) := fun _ _ e => nomatch e
theorem iMin (e : Nat) : Statement (.iMin e) := fun _ _ e => nomatch e
theorem iMax (e : Nat) : Statement (.iMax e) := fun _ _ e => nomatch e
theorem iMinu (e : Nat) : Statement (.iMinu e) := fun _ _ e => nomatch e
theorem iMaxu (e : Nat) : Statement (.iMaxu e) := fun _ _ e => nomatch e
theorem iAdds (e : Nat) : Statement (.iAdds e) := fun _ _ e => nomatch e
theorem iSubs (e : Nat) : Statement (.iSubs e) := fun _ _ e => nomatch e
theorem iSlt (e : Nat) : Statement (.iSlt e) := fun _ _ e => nomatch e
theorem iSltu (e : Nat) : Statement (.iSltu e) := fun _ _ e => nomatch e
theorem iSeq (e : Nat) : Statement (.iSeq e) := fun _ _ e => nomatch e
theorem iClz (e : Nat) : Statement (.iClz e) := fun _ _ e => nomatch e
theorem iPopc (e : Nat) : Statement (.iPopc e) := fun _ _ e => nomatch e
theorem iAddi (e : Nat) : Statement (.iAddi e) := fun _ _ e => nomatch e
theorem iAndi (e : Nat) : Statement (.iAndi e) := fun _ _ e => nomatch e
theorem iOri (e : Nat) : Statement (.iOri e) := fun _ _ e => nomatch e
theorem iXori (e : Nat) : Statement (.iXori e) := fun _ _ e => nomatch e
theorem iShi (e : Nat) : Statement (.iShi e) := fun _ _ e => nomatch e
theorem iMovi (e : Nat) : Statement (.iMovi e) := fun _ _ e => nomatch e
theorem iMovh (e : Nat) : Statement (.iMovh e) := fun _ _ e => nomatch e
theorem iExt (e : Nat) : Statement (.iExt e) := fun _ _ e => nomatch e
theorem iSext (e : Nat) : Statement (.iSext e) := fun _ _ e => nomatch e
theorem iBr (e : Nat) : Statement (.iBr e) := fun _ _ e => nomatch e
theorem iBbit (e : Nat) : Statement (.iBbit e) := fun _ _ e => nomatch e
theorem iJmp (e : Nat) : Statement (.iJmp e) := fun _ _ e => nomatch e
theorem iCall (e : Nat) : Statement (.iCall e) := fun _ _ e => nomatch e
theorem iJr (e : Nat) : Statement (.iJr e) := fun _ _ e => nomatch e
theorem iLd (e : Nat) : Statement (.iLd e) := fun _ _ e => nomatch e
theorem iLdw (e : Nat) : Statement (.iLdw e) := fun _ _ e => nomatch e
theorem iSt (e : Nat) : Statement (.iSt e) := fun _ _ e => nomatch e
theorem iStw (e : Nat) : Statement (.iStw e) := fun _ _ e => nomatch e
theorem iHinc (e : Nat) : Statement (.iHinc e) := fun _ _ e => nomatch e
theorem iHadd (e : Nat) : Statement (.iHadd e) := fun _ _ e => nomatch e
theorem iPop (e : Nat) : Statement (.iPop e) := fun _ _ e => nomatch e
theorem popWaitComplete (e waited : Nat) : Statement (.popWaitComplete e waited) := fun _ _ e => nomatch e
theorem iTrypop (e : Nat) : Statement (.iTrypop e) := fun _ _ e => nomatch e
theorem iPeek (e : Nat) : Statement (.iPeek e) := fun _ _ e => nomatch e
theorem iSkip (e : Nat) : Statement (.iSkip e) := fun _ _ e => nomatch e
theorem iWait (e : Nat) : Statement (.iWait e) := fun _ _ e => nomatch e
theorem waitComplete (e waited : Nat) : Statement (.waitComplete e waited) := fun _ _ e => nomatch e
theorem iRecv (e : Nat) : Statement (.iRecv e) := fun _ _ e => nomatch e
theorem iSend (e : Nat) : Statement (.iSend e) := fun _ _ e => nomatch e
theorem iRds (e : Nat) : Statement (.iRds e) := fun _ _ e => nomatch e
theorem iTreb (e : Nat) : Statement (.iTreb e) := fun _ _ e => nomatch e
theorem iEmit (e : Nat) : Statement (.iEmit e) := fun _ _ e => nomatch e
theorem iEmitt (e : Nat) : Statement (.iEmitt e) := fun _ _ e => nomatch e
theorem iDrive (e : Nat) : Statement (.iDrive e) := fun _ _ e => nomatch e
theorem iPjump (e : Nat) : Statement (.iPjump e) := fun _ _ e => nomatch e
theorem iVeto (e : Nat) : Statement (.iVeto e) := fun _ _ e => nomatch e
theorem iMark (e : Nat) : Statement (.iMark e) := fun _ _ e => nomatch e
theorem iGate (e : Nat) : Statement (.iGate e) := fun _ _ e => nomatch e
theorem iMuarm (e : Nat) : Statement (.iMuarm e) := fun _ _ e => nomatch e
theorem iNote (e : Nat) : Statement (.iNote e) := fun _ _ e => nomatch e
theorem iHalt (e : Nat) : Statement (.iHalt e) := fun _ _ e => nomatch e
theorem illegalInstruction (e : Nat) : Statement (.illegalInstruction e) := fun _ _ e => nomatch e
theorem pcOverrun (e : Nat) : Statement (.pcOverrun e) := fun _ _ e => nomatch e
theorem cvStart (a : Access) (e : Nat) (v : W32) : Statement (.cvStart a e v) := fun h _ e => func_of (left_of h) e
theorem cvHalt (a : Access) (e : Nat) (v : W32) : Statement (.cvHalt a e v) := fun h _ e => func_of (left_of h) e
theorem cvLoadImem (c : Command) : Statement (.cvLoadImem c) := fun _ _ e => nomatch e
theorem cvLoadLmem (c : Command) : Statement (.cvLoadLmem c) := fun _ _ e => nomatch e
theorem cvReadLmem (c : Command) : Statement (.cvReadLmem c) := fun _ _ e => nomatch e
theorem cvSubscribe (c : Command) : Statement (.cvSubscribe c) := fun _ _ e => nomatch e
theorem cvDecLatMaxClr (a : Access) (e : Nat) (v : W32) : Statement (.cvDecLatMaxClr a e v) := fun h _ e => func_of (left_of h) e
theorem ccInPeakClr (a : Access) (c : Nat) (v : W32) : Statement (.ccInPeakClr a c v) := fun h _ e => func_of (left_of h) e
theorem ccDqPeakClr (a : Access) (d : Nat) (v : W32) : Statement (.ccDqPeakClr a d v) := fun h _ e => func_of (left_of h) e
theorem ccFabWaitMaxClr (a : Access) (v : W32) : Statement (.ccFabWaitMaxClr a v) := fun h _ e => func_of h e
theorem overrideApply (p : Nat) : Statement (.overrideApply p) := fun _ _ e => nomatch e
theorem overridePulseEnd (p : Nat) : Statement (.overridePulseEnd p) := fun _ _ e => nomatch e
theorem jumpRequestArrival (q : Nat) : Statement (.jumpRequestArrival q) := fun _ _ e => nomatch e
theorem markArrival (r : Nat) : Statement (.markArrival r) := fun _ _ e => nomatch e
theorem clusterGateArrival (c : Nat) : Statement (.clusterGateArrival c) := fun _ _ e => nomatch e
theorem muarmArrival (u : Nat) : Statement (.muarmArrival u) := fun _ _ e => nomatch e
theorem mcTrain (a : Access) (n : Nat) (v : W32) : Statement (.mcTrain a n v) := fun h _ e => func_of (left_of h) e
theorem channelTrainComplete (n : Nat) (ok : Bool) (size : Nat) : Statement (.channelTrainComplete n ok size) := fun _ _ e => nomatch e
theorem mcRetire (a : Access) (n : Nat) (v : W32) : Statement (.mcRetire a n v) := fun h _ e => func_of (left_of h) e
theorem scrubRead (n : Nat) (blk : Nat) (errs : List (Nat × Bool)) : Statement (.scrubRead n blk errs) := fun _ _ e => nomatch e
theorem crStart (a : Access) (r : Nat) (v : W32) : Statement (.crStart a r v) := fun h _ e => func_of (left_of h) e
theorem crStop (a : Access) (r : Nat) (v : W32) : Statement (.crStop a r v) := fun h _ e => func_of (left_of h) e
theorem crMark (a : Access) (r : Nat) (v : W32) : Statement (.crMark a r v) := fun h _ e => func_of (left_of h) e
theorem crRelease (a : Access) (r : Nat) (v : W32) : Statement (.crRelease a r v) := fun h _ e => func_of (left_of h) e
theorem crReplay (a : Access) (r : Nat) (v : W32) : Statement (.crReplay a r v) := fun h _ e => func_of (left_of h) e
theorem crMigrate (a : Access) (r : Nat) (v : W32) : Statement (.crMigrate a r v) := fun h _ e => func_of (left_of h) e
theorem ringWrite (r : Nat) : Statement (.ringWrite r) := fun _ _ e => nomatch e
theorem replaySlotRead (r : Nat) (errs : List (Nat × Bool)) : Statement (.replaySlotRead r errs) := fun _ _ e => nomatch e
theorem migrationCopy (r : Nat) (errs : List (Nat × Bool)) : Statement (.migrationCopy r errs) := fun _ _ e => nomatch e
theorem packerTakeItem (h : Nat) (rep : Bool) (flip : Nat) : Statement (.packerTakeItem h rep flip) := fun _ _ e => nomatch e
theorem pkFlushExpiry (h : Nat) : Statement (.pkFlushExpiry h) := fun _ _ e => nomatch e
theorem pkRatioUpdate (h : Nat) : Statement (.pkRatioUpdate h) := fun _ _ e => nomatch e
theorem bufferIdleTimeout (h : Nat) : Statement (.bufferIdleTimeout h) := fun _ _ e => nomatch e
theorem hiRingStart (a : Access) (r : Nat) (v : W32) : Statement (.hiRingStart a r v) := fun h _ e => func_of (left_of h) e
theorem hiRingStop (a : Access) (r : Nat) (v : W32) : Statement (.hiRingStop a r v) := fun h _ e => func_of (left_of h) e
theorem ringStopped (r : Nat) : Statement (.ringStopped r) := fun _ _ e => nomatch e
theorem doorbellFetch (f : Nat) (ok : Bool) (slots : List (Nat × Nat)) (bad : List Nat) (bufs : List (Nat × List (List Byte))) : Statement (.doorbellFetch f ok slots bad bufs) := fun _ _ e => nomatch e
theorem hiKick (a : Access) (f : Nat) (v : W32) : Statement (.hiKick a f v) := fun h _ e => func_of (left_of h) e
theorem nop (c : Command) : Statement (.nop c) := fun _ _ e => nomatch e
theorem unknownOpcode (c : Command) : Statement (.unknownOpcode c) := fun _ _ e => nomatch e
theorem pgSegLoad (c : Command) : Statement (.pgSegLoad c) := fun _ _ e => nomatch e
theorem pgSeqLoad (c : Command) : Statement (.pgSeqLoad c) := fun _ _ e => nomatch e
theorem epFrameLaunch (c : Command) : Statement (.epFrameLaunch c) := fun _ _ e => nomatch e
theorem completionSlotWrite (r : Nat) (fail : Option Nat) : Statement (.completionSlotWrite r fail) := fun _ _ e => nomatch e
theorem msixRaise (r : Nat) : Statement (.msixRaise r) := fun _ _ e => nomatch e
theorem interruptModExpiry (r : Nat) : Statement (.interruptModExpiry r) := fun _ _ e => nomatch e
theorem noticeWrite (f : Nat) (ok : Bool) : Statement (.noticeWrite f ok) := fun _ _ e => nomatch e
theorem functionLevelReset (f : Nat) : Statement (.functionLevelReset f) := fun _ _ e => nomatch e
theorem pcieHotReset (width : Nat) (speed : Nat) : Statement (.pcieHotReset width speed) := fun _ _ e => nomatch e
theorem registerWrite (a : Access) (off : Nat) (v : W32) : Statement (.registerWrite a off v) := fun h _ e => func_of (left_of (left_of h)) e
theorem narrowWrite (a : Access) (off : Nat) (be : Nat) (v : W32) : Statement (.narrowWrite a off be v) := fun h _ e => func_of (left_of (left_of (left_of h))) e
theorem oversizeAccess (a : Access) (off : Nat) (be : Nat) (isWrite : Bool) : Statement (.oversizeAccess a off be isWrite) := fun h _ e => func_of (left_of (left_of h)) e
theorem aliasWrite (a : Access) (off : Nat) (v : W32) : Statement (.aliasWrite a off v) := fun h _ e => func_of (left_of (left_of (left_of h))) e
theorem guardOpen (a : Access) (blk : Nat) (k : Nat) (v : W32) : Statement (.guardOpen a blk k v) := fun h _ e => func_of (left_of (left_of h)) e
theorem guardClose (a : Access) (blk : Nat) (k : Nat) (v : W32) : Statement (.guardClose a blk k v) := fun h _ e => func_of (left_of (left_of h)) e
theorem guardTimeout (blk : Nat) : Statement (.guardTimeout blk) := fun _ _ e => nomatch e
theorem mqScanRefWrite (a : Access) (v : W32) : Statement (.mqScanRefWrite a v) := fun h _ e => func_of h e
theorem mqUnveil (a : Access) (v : W32) : Statement (.mqUnveil a v) := fun h _ e => func_of h e
theorem unveilPinStrobe : Statement .unveilPinStrobe := fun _ _ e => nomatch e
theorem partnerStrobe : Statement .partnerStrobe := fun _ _ e => nomatch e
theorem unveilLatch (u : UBlock) : Statement (.unveilLatch u) := fun _ _ e => nomatch e
theorem committedSetApply (u : UBlock) : Statement (.committedSetApply u) := fun _ _ e => nomatch e
theorem integrityScanEnd : Statement .integrityScanEnd := fun _ _ e => nomatch e
theorem ptpSyncReceive (fr : Frame) : Statement (.ptpSyncReceive fr) := fun _ _ e => nomatch e
theorem ptpFollowUpReceive (fr : Frame) : Statement (.ptpFollowUpReceive fr) := fun _ _ e => nomatch e
theorem ptpDelayRespReceive (fr : Frame) : Statement (.ptpDelayRespReceive fr) := fun _ _ e => nomatch e
theorem ptpAnnounceReceive (fr : Frame) : Statement (.ptpAnnounceReceive fr) := fun _ _ e => nomatch e
theorem delayReqSend (ahead : Nat) : Statement (.delayReqSend ahead) := fun _ _ e => nomatch e
theorem syncLossTimeout : Statement .syncLossTimeout := fun _ _ e => nomatch e
theorem tpAnchor (a : Access) (v : W32) : Statement (.tpAnchor a v) := fun h _ e => func_of h e
theorem tpRestart (a : Access) (v : W32) : Statement (.tpRestart a v) := fun h _ e => func_of h e
theorem ptpForward (fr : Frame) : Statement (.ptpForward fr) := fun _ _ e => nomatch e
theorem frameTransmit (p : Nat) (ahead : Nat) : Statement (.frameTransmit p ahead) := fun _ _ e => nomatch e
theorem frameLaunch (p : Nat) : Statement (.frameLaunch p) := fun _ _ e => nomatch e
theorem epFlush (a : Access) (p : Nat) (v : W32) : Statement (.epFlush a p v) := fun h _ e => func_of (left_of h) e
theorem epLinkReset (a : Access) (p : Nat) (v : W32) : Statement (.epLinkReset a p v) := fun h _ e => func_of (left_of h) e
theorem ethLinkChange (p : Nat) (up : Bool) : Statement (.ethLinkChange p up) := fun _ _ e => nomatch e
theorem ppsOutRise : Statement .ppsOutRise := fun _ _ e => nomatch e
theorem ppsOutFall : Statement .ppsOutFall := fun _ _ e => nomatch e
theorem ppsInEdge : Statement .ppsInEdge := fun _ _ e => nomatch e
theorem gatePinEdge (pin : Nat) (level : Bool) : Statement (.gatePinEdge pin level) := fun _ _ e => nomatch e
theorem pgStart (a : Access) (q : Nat) (v : W32) : Statement (.pgStart a q v) := fun h _ e => func_of (left_of h) e
theorem sequencerFirstSample (q : Nat) : Statement (.sequencerFirstSample q) := fun _ _ e => nomatch e
theorem pgStop (a : Access) (q : Nat) (v : W32) : Statement (.pgStop a q v) := fun h _ e => func_of (left_of h) e
theorem pgClrreq (a : Access) (q : Nat) (v : W32) : Statement (.pgClrreq a q v) := fun h _ e => func_of (left_of h) e
theorem pgJump (a : Access) (q : Nat) (v : W32) : Statement (.pgJump a q v) := fun h _ e => func_of (left_of h) e
theorem pgStoreClaim (a : Access) (q : Nat) (v : W32) : Statement (.pgStoreClaim a q v) := fun h _ e => func_of (left_of h) e
theorem pgStoreRelease (a : Access) (q : Nat) (v : W32) : Statement (.pgStoreRelease a q v) := fun h _ e => func_of (left_of h) e
theorem pgOvrCmd (a : Access) (v : W32) : Statement (.pgOvrCmd a v) := fun h _ e => func_of h e
theorem commitPoint (q : Nat) : Statement (.commitPoint q) := fun _ _ e => nomatch e
theorem segmentBoundary (q : Nat) : Statement (.segmentBoundary q) := fun _ _ e => nomatch e
theorem granuleStarve (q : Nat) : Statement (.granuleStarve q) := fun _ _ e => nomatch e
theorem refillRead (q : Nat) (errs : List (Nat × Bool)) : Statement (.refillRead q errs) := fun _ _ e => nomatch e
theorem ttArm (a : Access) (t : Nat) (v : W32) : Statement (.ttArm a t v) := fun h _ e => func_of (left_of h) e
theorem ttDisarm (a : Access) (t : Nat) (v : W32) : Statement (.ttDisarm a t v) := fun h _ e => func_of (left_of h) e
theorem triggerFire (t : Nat) : Statement (.triggerFire t) := fun _ _ e => nomatch e
theorem triggerGateClose (t : Nat) : Statement (.triggerGateClose t) := fun _ _ e => nomatch e
theorem ttHostGateOpen (a : Access) (v : W32) : Statement (.ttHostGateOpen a v) := fun h _ e => func_of h e
theorem ttHostGateClose (a : Access) (v : W32) : Statement (.ttHostGateClose a v) := fun h _ e => func_of h e
theorem maRefEnable (a : Access) (v : W32) : Statement (.maRefEnable a v) := fun h _ e => func_of h e
theorem maRefReady : Statement .maRefReady := fun _ _ e => nomatch e
theorem maSelfcal (a : Access) (c : Nat) (v : W32) : Statement (.maSelfcal a c v) := fun h _ e => func_of (left_of h) e
theorem maSelfcalComplete (c : Nat) (ofs : BitVec 10) (gain : BitVec 16) : Statement (.maSelfcalComplete c ofs gain) := fun _ _ e => nomatch e
theorem maStart (a : Access) (c : Nat) (v : W32) : Statement (.maStart a c v) := fun h _ e => func_of (left_of h) e
theorem maStop (a : Access) (c : Nat) (v : W32) : Statement (.maStop a c v) := fun h _ e => func_of (left_of h) e
theorem maExecutionEnd (x0 : List Int) (x1 : List Int) : Statement (.maExecutionEnd x0 x1) := fun _ _ e => nomatch e
theorem maAccSnap (a : Access) (n : Nat) (v : W32) : Statement (.maAccSnap a n v) := fun h _ e => func_of (left_of h) e
theorem maAccClr (a : Access) (n : Nat) (v : W32) : Statement (.maAccClr a n v) := fun h _ e => func_of (left_of h) e
theorem maWinEnable (a : Access) (n : Nat) (v : W32) : Statement (.maWinEnable a n v) := fun h _ e => func_of (left_of h) e
theorem castLinkTrain (lanes : Nat) (lat : Nat) (p : Identity) : Statement (.castLinkTrain lanes lat p) := fun _ _ e => nomatch e
theorem linkRetransmit : Statement .linkRetransmit := fun _ _ e => nomatch e
theorem heartbeatSend : Statement .heartbeatSend := fun _ _ e => nomatch e
theorem heartbeatReceive (h : Heartbeat) : Statement (.heartbeatReceive h) := fun _ _ e => nomatch e
theorem heartbeatLoss : Statement .heartbeatLoss := fun _ _ e => nomatch e
theorem ownInChange (level : Bool) : Statement (.ownInChange level) := fun _ _ e => nomatch e
theorem takeover : Statement .takeover := fun _ _ e => nomatch e
theorem prYield (a : Access) (v : W32) : Statement (.prYield a v) := fun h _ e => func_of h e
theorem prForce (a : Access) (v : W32) : Statement (.prForce a v) := fun h _ e => func_of h e
theorem prAlign (a : Access) (v : W32) (adj : BitVec 48) : Statement (.prAlign a v adj) := fun h _ e => func_of h e
theorem alignOffsetDone (x : Pulses) : Statement (.alignOffsetDone x) := fun _ _ e => nomatch e
theorem alignComplete (x : Pulses) : Statement (.alignComplete x) := fun _ _ e => nomatch e
theorem prMeasure (a : Access) (v : W32) : Statement (.prMeasure a v) := fun h _ e => func_of h e
theorem prResync (a : Access) (v : W32) : Statement (.prResync a v) := fun h _ e => func_of h e
theorem castStart : Statement .castStart := fun _ _ e => nomatch e
theorem castEndReceive (x : Cast) : Statement (.castEndReceive x) := fun _ _ e => nomatch e
theorem pairEventReceive (ev : PairEvent) : Statement (.pairEventReceive ev) := fun _ _ e => nomatch e
theorem spliceWpRecord : Statement .spliceWpRecord := fun _ _ e => nomatch e
theorem cutPlace (g : Nat) : Statement (.cutPlace g) := fun _ _ e => nomatch e
theorem arProgCmd (a : Access) (v : W32) : Statement (.arProgCmd a v) := fun h _ e => func_of h e
theorem fuseProgComplete (blown : W32) : Statement (.fuseProgComplete blown) := fun _ _ e => nomatch e
theorem fuseVppChange (inRange : Bool) : Statement (.fuseVppChange inRange) := fun _ _ e => nomatch e
theorem mtSrstDevice (a : Access) (v : W32) : Statement (.mtSrstDevice a v) := fun h _ e => func_of h e
theorem mtSrstDatapath (a : Access) (v : W32) : Statement (.mtSrstDatapath a v) := fun h _ e => func_of h e
theorem datapathFlushEnd : Statement .datapathFlushEnd := fun _ _ e => nomatch e
theorem mtSleep (a : Access) (v : W32) : Statement (.mtSleep a v) := fun h _ e => func_of h e
theorem sleepEntry : Statement .sleepEntry := fun _ _ e => nomatch e
theorem wakeEvent (wcmp : List WakeStep) (pin : Bool) (b : Boot) : Statement (.wakeEvent wcmp pin b) := fun _ _ e => nomatch e
theorem plinthResume : Statement .plinthResume := fun _ _ e => nomatch e
theorem refLoss : Statement .refLoss := fun _ _ e => nomatch e
theorem refRestore : Statement .refRestore := fun _ _ e => nomatch e
theorem lpoCalWindow (ratio : Nat) : Statement (.lpoCalWindow ratio) := fun _ _ e => nomatch e
theorem glStallMaxClr (a : Access) (v : W32) : Statement (.glStallMaxClr a v) := fun h _ e => func_of h e
theorem vaonBelowThreshold : Statement .vaonBelowThreshold := fun _ _ e => nomatch e
theorem castLinkDrop (lanes : Nat) : Statement (.castLinkDrop lanes) := fun _ _ e => nomatch e
theorem castEnd : Statement .castEnd := fun _ _ e => nomatch e
theorem alignPulseTimeout : Statement .alignPulseTimeout := fun _ _ e => nomatch e
theorem measureComplete (x : Pulses) : Statement (.measureComplete x) := fun _ _ e => nomatch e
theorem ethFrameReceive (fr : Frame) : Statement (.ethFrameReceive fr) := fun _ _ e => nomatch e

end Sys2Proof.Laws.WellFormed
end

