-- ==== Sys2Proof/Laws/State.lean ====
section
/-! SUPPORT. What each update of a part of the state leaves alone: one equation per update and field, each by unfolding.  They
keep later proofs from unfolding record updates. -/

namespace Sys2Proof.Laws

open Sys2Proof.Machine

@[simp] theorem setReg_pending (s : State) (off : Nat) (v : W32) : (setReg s off v).pending = s.pending := rfl
@[simp] theorem setReg_now (s : State) (off : Nat) (v : W32) : (setReg s off v).now = s.now := rfl
@[simp] theorem setReg_free (s : State) (off : Nat) (v : W32) : (setReg s off v).free = s.free := rfl
@[simp] theorem setReg_ft0512 (s : State) (off : Nat) (v : W32) : (setReg s off v).ft0512 = s.ft0512 := rfl
@[simp] theorem setReg_pl (s : State) (off : Nat) (v : W32) : (setReg s off v).pl = s.pl := rfl
@[simp] theorem setReg_inp (s : State) (off : Nat) (v : W32) : (setReg s off v).inp = s.inp := rfl
@[simp] theorem setReg_cal (s : State) (off : Nat) (v : W32) : (setReg s off v).cal = s.cal := rfl
@[simp] theorem setReg_lg (s : State) (off : Nat) (v : W32) : (setReg s off v).lg = s.lg := rfl
@[simp] theorem setReg_fab (s : State) (off : Nat) (v : W32) : (setReg s off v).fab = s.fab := rfl
@[simp] theorem setReg_mus (s : State) (off : Nat) (v : W32) : (setReg s off v).mus = s.mus := rfl
@[simp] theorem setReg_ar (s : State) (off : Nat) (v : W32) : (setReg s off v).ar = s.ar := rfl
@[simp] theorem setReg_ddr (s : State) (off : Nat) (v : W32) : (setReg s off v).ddr = s.ddr := rfl
@[simp] theorem setReg_host (s : State) (off : Nat) (v : W32) : (setReg s off v).host = s.host := rfl
@[simp] theorem setReg_mon (s : State) (off : Nat) (v : W32) : (setReg s off v).mon = s.mon := rfl
@[simp] theorem setReg_tp (s : State) (off : Nat) (v : W32) : (setReg s off v).tp = s.tp := rfl
@[simp] theorem setReg_play (s : State) (off : Nat) (v : W32) : (setReg s off v).play = s.play := rfl
@[simp] theorem setReg_pr (s : State) (off : Nat) (v : W32) : (setReg s off v).pr = s.pr := rfl
@[simp] theorem setReg_mt (s : State) (off : Nat) (v : W32) : (setReg s off v).mt = s.mt := rfl
@[simp] theorem setReg_bus_maq (s : State) (off : Nat) (v : W32) : (setReg s off v).bus.maq = s.bus.maq := rfl
@[simp] theorem setReg_bus_com (s : State) (off : Nat) (v : W32) : (setReg s off v).bus.com = s.bus.com := rfl
@[simp] theorem setReg_bus_latch (s : State) (off : Nat) (v : W32) : (setReg s off v).bus.latch = s.bus.latch := rfl
@[simp] theorem setReg_bus_view (s : State) (off : Nat) (v : W32) : (setReg s off v).bus.view = s.bus.view := rfl
@[simp] theorem setReg_bus_pair (s : State) (off : Nat) (v : W32) : (setReg s off v).bus.pair = s.bus.pair := rfl
@[simp] theorem setReg_bus_strobes (s : State) (off : Nat) (v : W32) : (setReg s off v).bus.strobes = s.bus.strobes := rfl
@[simp] theorem setReg_bus_waiting (s : State) (off : Nat) (v : W32) : (setReg s off v).bus.waiting = s.bus.waiting := rfl
@[simp] theorem setReg_bus_seen (s : State) (off : Nat) (v : W32) : (setReg s off v).bus.seen = s.bus.seen := rfl
@[simp] theorem setReg_bus_ttLatched (s : State) (off : Nat) (v : W32) : (setReg s off v).bus.ttLatched = s.bus.ttLatched := rfl
@[simp] theorem setReg_bus_scanOn (s : State) (off : Nat) (v : W32) : (setReg s off v).bus.scanOn = s.bus.scanOn := rfl
@[simp] theorem setReg_bus_scanVoid (s : State) (off : Nat) (v : W32) : (setReg s off v).bus.scanVoid = s.bus.scanVoid := rfl
@[simp] theorem setReg_bus_releasedAt (s : State) (off : Nat) (v : W32) : (setReg s off v).bus.releasedAt = s.bus.releasedAt := rfl
@[simp] theorem setFld_pending (s : State) (x : Fld) (v : Nat) : (setFld s x v).pending = s.pending := rfl
@[simp] theorem setFld_now (s : State) (x : Fld) (v : Nat) : (setFld s x v).now = s.now := rfl
@[simp] theorem setFld_free (s : State) (x : Fld) (v : Nat) : (setFld s x v).free = s.free := rfl
@[simp] theorem setFld_ft0512 (s : State) (x : Fld) (v : Nat) : (setFld s x v).ft0512 = s.ft0512 := rfl
@[simp] theorem setFld_pl (s : State) (x : Fld) (v : Nat) : (setFld s x v).pl = s.pl := rfl
@[simp] theorem setFld_inp (s : State) (x : Fld) (v : Nat) : (setFld s x v).inp = s.inp := rfl
@[simp] theorem setFld_cal (s : State) (x : Fld) (v : Nat) : (setFld s x v).cal = s.cal := rfl
@[simp] theorem setFld_lg (s : State) (x : Fld) (v : Nat) : (setFld s x v).lg = s.lg := rfl
@[simp] theorem setFld_fab (s : State) (x : Fld) (v : Nat) : (setFld s x v).fab = s.fab := rfl
@[simp] theorem setFld_mus (s : State) (x : Fld) (v : Nat) : (setFld s x v).mus = s.mus := rfl
@[simp] theorem setFld_ar (s : State) (x : Fld) (v : Nat) : (setFld s x v).ar = s.ar := rfl
@[simp] theorem setFld_ddr (s : State) (x : Fld) (v : Nat) : (setFld s x v).ddr = s.ddr := rfl
@[simp] theorem setFld_host (s : State) (x : Fld) (v : Nat) : (setFld s x v).host = s.host := rfl
@[simp] theorem setFld_mon (s : State) (x : Fld) (v : Nat) : (setFld s x v).mon = s.mon := rfl
@[simp] theorem setFld_tp (s : State) (x : Fld) (v : Nat) : (setFld s x v).tp = s.tp := rfl
@[simp] theorem setFld_play (s : State) (x : Fld) (v : Nat) : (setFld s x v).play = s.play := rfl
@[simp] theorem setFld_pr (s : State) (x : Fld) (v : Nat) : (setFld s x v).pr = s.pr := rfl
@[simp] theorem setFld_mt (s : State) (x : Fld) (v : Nat) : (setFld s x v).mt = s.mt := rfl
@[simp] theorem setFld_bus_maq (s : State) (x : Fld) (v : Nat) : (setFld s x v).bus.maq = s.bus.maq := rfl
@[simp] theorem setFld_bus_com (s : State) (x : Fld) (v : Nat) : (setFld s x v).bus.com = s.bus.com := rfl
@[simp] theorem setFld_bus_latch (s : State) (x : Fld) (v : Nat) : (setFld s x v).bus.latch = s.bus.latch := rfl
@[simp] theorem setFld_bus_view (s : State) (x : Fld) (v : Nat) : (setFld s x v).bus.view = s.bus.view := rfl
@[simp] theorem setFld_bus_pair (s : State) (x : Fld) (v : Nat) : (setFld s x v).bus.pair = s.bus.pair := rfl
@[simp] theorem setFld_bus_strobes (s : State) (x : Fld) (v : Nat) : (setFld s x v).bus.strobes = s.bus.strobes := rfl
@[simp] theorem setFld_bus_waiting (s : State) (x : Fld) (v : Nat) : (setFld s x v).bus.waiting = s.bus.waiting := rfl
@[simp] theorem setFld_bus_seen (s : State) (x : Fld) (v : Nat) : (setFld s x v).bus.seen = s.bus.seen := rfl
@[simp] theorem setFld_bus_ttLatched (s : State) (x : Fld) (v : Nat) : (setFld s x v).bus.ttLatched = s.bus.ttLatched := rfl
@[simp] theorem setFld_bus_scanOn (s : State) (x : Fld) (v : Nat) : (setFld s x v).bus.scanOn = s.bus.scanOn := rfl
@[simp] theorem setFld_bus_scanVoid (s : State) (x : Fld) (v : Nat) : (setFld s x v).bus.scanVoid = s.bus.scanVoid := rfl
@[simp] theorem setFld_bus_releasedAt (s : State) (x : Fld) (v : Nat) : (setFld s x v).bus.releasedAt = s.bus.releasedAt := rfl
@[simp] theorem sts_pending (s : State) (x : Fld) : (sts s x).pending = s.pending := rfl
@[simp] theorem sts_now (s : State) (x : Fld) : (sts s x).now = s.now := rfl
@[simp] theorem sts_free (s : State) (x : Fld) : (sts s x).free = s.free := rfl
@[simp] theorem sts_ft0512 (s : State) (x : Fld) : (sts s x).ft0512 = s.ft0512 := rfl
@[simp] theorem sts_pl (s : State) (x : Fld) : (sts s x).pl = s.pl := rfl
@[simp] theorem sts_inp (s : State) (x : Fld) : (sts s x).inp = s.inp := rfl
@[simp] theorem sts_cal (s : State) (x : Fld) : (sts s x).cal = s.cal := rfl
@[simp] theorem sts_lg (s : State) (x : Fld) : (sts s x).lg = s.lg := rfl
@[simp] theorem sts_fab (s : State) (x : Fld) : (sts s x).fab = s.fab := rfl
@[simp] theorem sts_mus (s : State) (x : Fld) : (sts s x).mus = s.mus := rfl
@[simp] theorem sts_ar (s : State) (x : Fld) : (sts s x).ar = s.ar := rfl
@[simp] theorem sts_ddr (s : State) (x : Fld) : (sts s x).ddr = s.ddr := rfl
@[simp] theorem sts_host (s : State) (x : Fld) : (sts s x).host = s.host := rfl
@[simp] theorem sts_mon (s : State) (x : Fld) : (sts s x).mon = s.mon := rfl
@[simp] theorem sts_tp (s : State) (x : Fld) : (sts s x).tp = s.tp := rfl
@[simp] theorem sts_play (s : State) (x : Fld) : (sts s x).play = s.play := rfl
@[simp] theorem sts_pr (s : State) (x : Fld) : (sts s x).pr = s.pr := rfl
@[simp] theorem sts_mt (s : State) (x : Fld) : (sts s x).mt = s.mt := rfl
@[simp] theorem sts_bus_maq (s : State) (x : Fld) : (sts s x).bus.maq = s.bus.maq := rfl
@[simp] theorem sts_bus_com (s : State) (x : Fld) : (sts s x).bus.com = s.bus.com := rfl
@[simp] theorem sts_bus_latch (s : State) (x : Fld) : (sts s x).bus.latch = s.bus.latch := rfl
@[simp] theorem sts_bus_view (s : State) (x : Fld) : (sts s x).bus.view = s.bus.view := rfl
@[simp] theorem sts_bus_pair (s : State) (x : Fld) : (sts s x).bus.pair = s.bus.pair := rfl
@[simp] theorem sts_bus_strobes (s : State) (x : Fld) : (sts s x).bus.strobes = s.bus.strobes := rfl
@[simp] theorem sts_bus_waiting (s : State) (x : Fld) : (sts s x).bus.waiting = s.bus.waiting := rfl
@[simp] theorem sts_bus_seen (s : State) (x : Fld) : (sts s x).bus.seen = s.bus.seen := rfl
@[simp] theorem sts_bus_ttLatched (s : State) (x : Fld) : (sts s x).bus.ttLatched = s.bus.ttLatched := rfl
@[simp] theorem sts_bus_scanOn (s : State) (x : Fld) : (sts s x).bus.scanOn = s.bus.scanOn := rfl
@[simp] theorem sts_bus_scanVoid (s : State) (x : Fld) : (sts s x).bus.scanVoid = s.bus.scanVoid := rfl
@[simp] theorem sts_bus_releasedAt (s : State) (x : Fld) : (sts s x).bus.releasedAt = s.bus.releasedAt := rfl
@[simp] theorem stsBit_pending (s : State) (x : Fld) (i : Nat) : (stsBit s x i).pending = s.pending := rfl
@[simp] theorem stsBit_now (s : State) (x : Fld) (i : Nat) : (stsBit s x i).now = s.now := rfl
@[simp] theorem stsBit_free (s : State) (x : Fld) (i : Nat) : (stsBit s x i).free = s.free := rfl
@[simp] theorem stsBit_ft0512 (s : State) (x : Fld) (i : Nat) : (stsBit s x i).ft0512 = s.ft0512 := rfl
@[simp] theorem stsBit_pl (s : State) (x : Fld) (i : Nat) : (stsBit s x i).pl = s.pl := rfl
@[simp] theorem stsBit_inp (s : State) (x : Fld) (i : Nat) : (stsBit s x i).inp = s.inp := rfl
@[simp] theorem stsBit_cal (s : State) (x : Fld) (i : Nat) : (stsBit s x i).cal = s.cal := rfl
@[simp] theorem stsBit_lg (s : State) (x : Fld) (i : Nat) : (stsBit s x i).lg = s.lg := rfl
@[simp] theorem stsBit_fab (s : State) (x : Fld) (i : Nat) : (stsBit s x i).fab = s.fab := rfl
@[simp] theorem stsBit_mus (s : State) (x : Fld) (i : Nat) : (stsBit s x i).mus = s.mus := rfl
@[simp] theorem stsBit_ar (s : State) (x : Fld) (i : Nat) : (stsBit s x i).ar = s.ar := rfl
@[simp] theorem stsBit_ddr (s : State) (x : Fld) (i : Nat) : (stsBit s x i).ddr = s.ddr := rfl
@[simp] theorem stsBit_host (s : State) (x : Fld) (i : Nat) : (stsBit s x i).host = s.host := rfl
@[simp] theorem stsBit_mon (s : State) (x : Fld) (i : Nat) : (stsBit s x i).mon = s.mon := rfl
@[simp] theorem stsBit_tp (s : State) (x : Fld) (i : Nat) : (stsBit s x i).tp = s.tp := rfl
@[simp] theorem stsBit_play (s : State) (x : Fld) (i : Nat) : (stsBit s x i).play = s.play := rfl
@[simp] theorem stsBit_pr (s : State) (x : Fld) (i : Nat) : (stsBit s x i).pr = s.pr := rfl
@[simp] theorem stsBit_mt (s : State) (x : Fld) (i : Nat) : (stsBit s x i).mt = s.mt := rfl
@[simp] theorem stsBit_bus_maq (s : State) (x : Fld) (i : Nat) : (stsBit s x i).bus.maq = s.bus.maq := rfl
@[simp] theorem stsBit_bus_com (s : State) (x : Fld) (i : Nat) : (stsBit s x i).bus.com = s.bus.com := rfl
@[simp] theorem stsBit_bus_latch (s : State) (x : Fld) (i : Nat) : (stsBit s x i).bus.latch = s.bus.latch := rfl
@[simp] theorem stsBit_bus_view (s : State) (x : Fld) (i : Nat) : (stsBit s x i).bus.view = s.bus.view := rfl
@[simp] theorem stsBit_bus_pair (s : State) (x : Fld) (i : Nat) : (stsBit s x i).bus.pair = s.bus.pair := rfl
@[simp] theorem stsBit_bus_strobes (s : State) (x : Fld) (i : Nat) : (stsBit s x i).bus.strobes = s.bus.strobes := rfl
@[simp] theorem stsBit_bus_waiting (s : State) (x : Fld) (i : Nat) : (stsBit s x i).bus.waiting = s.bus.waiting := rfl
@[simp] theorem stsBit_bus_seen (s : State) (x : Fld) (i : Nat) : (stsBit s x i).bus.seen = s.bus.seen := rfl
@[simp] theorem stsBit_bus_ttLatched (s : State) (x : Fld) (i : Nat) : (stsBit s x i).bus.ttLatched = s.bus.ttLatched := rfl
@[simp] theorem stsBit_bus_scanOn (s : State) (x : Fld) (i : Nat) : (stsBit s x i).bus.scanOn = s.bus.scanOn := rfl
@[simp] theorem stsBit_bus_scanVoid (s : State) (x : Fld) (i : Nat) : (stsBit s x i).bus.scanVoid = s.bus.scanVoid := rfl
@[simp] theorem stsBit_bus_releasedAt (s : State) (x : Fld) (i : Nat) : (stsBit s x i).bus.releasedAt = s.bus.releasedAt := rfl
@[simp] theorem setFlag_pending (s : State) (x : Fld) (b : Bool) : (setFlag s x b).pending = s.pending := rfl
@[simp] theorem setFlag_now (s : State) (x : Fld) (b : Bool) : (setFlag s x b).now = s.now := rfl
@[simp] theorem setFlag_free (s : State) (x : Fld) (b : Bool) : (setFlag s x b).free = s.free := rfl
@[simp] theorem setFlag_ft0512 (s : State) (x : Fld) (b : Bool) : (setFlag s x b).ft0512 = s.ft0512 := rfl
@[simp] theorem setFlag_pl (s : State) (x : Fld) (b : Bool) : (setFlag s x b).pl = s.pl := rfl
@[simp] theorem setFlag_inp (s : State) (x : Fld) (b : Bool) : (setFlag s x b).inp = s.inp := rfl
@[simp] theorem setFlag_cal (s : State) (x : Fld) (b : Bool) : (setFlag s x b).cal = s.cal := rfl
@[simp] theorem setFlag_lg (s : State) (x : Fld) (b : Bool) : (setFlag s x b).lg = s.lg := rfl
@[simp] theorem setFlag_fab (s : State) (x : Fld) (b : Bool) : (setFlag s x b).fab = s.fab := rfl
@[simp] theorem setFlag_mus (s : State) (x : Fld) (b : Bool) : (setFlag s x b).mus = s.mus := rfl
@[simp] theorem setFlag_ar (s : State) (x : Fld) (b : Bool) : (setFlag s x b).ar = s.ar := rfl
@[simp] theorem setFlag_ddr (s : State) (x : Fld) (b : Bool) : (setFlag s x b).ddr = s.ddr := rfl
@[simp] theorem setFlag_host (s : State) (x : Fld) (b : Bool) : (setFlag s x b).host = s.host := rfl
@[simp] theorem setFlag_mon (s : State) (x : Fld) (b : Bool) : (setFlag s x b).mon = s.mon := rfl
@[simp] theorem setFlag_tp (s : State) (x : Fld) (b : Bool) : (setFlag s x b).tp = s.tp := rfl
@[simp] theorem setFlag_play (s : State) (x : Fld) (b : Bool) : (setFlag s x b).play = s.play := rfl
@[simp] theorem setFlag_pr (s : State) (x : Fld) (b : Bool) : (setFlag s x b).pr = s.pr := rfl
@[simp] theorem setFlag_mt (s : State) (x : Fld) (b : Bool) : (setFlag s x b).mt = s.mt := rfl
@[simp] theorem setFlag_bus_maq (s : State) (x : Fld) (b : Bool) : (setFlag s x b).bus.maq = s.bus.maq := rfl
@[simp] theorem setFlag_bus_com (s : State) (x : Fld) (b : Bool) : (setFlag s x b).bus.com = s.bus.com := rfl
@[simp] theorem setFlag_bus_latch (s : State) (x : Fld) (b : Bool) : (setFlag s x b).bus.latch = s.bus.latch := rfl
@[simp] theorem setFlag_bus_view (s : State) (x : Fld) (b : Bool) : (setFlag s x b).bus.view = s.bus.view := rfl
@[simp] theorem setFlag_bus_pair (s : State) (x : Fld) (b : Bool) : (setFlag s x b).bus.pair = s.bus.pair := rfl
@[simp] theorem setFlag_bus_strobes (s : State) (x : Fld) (b : Bool) : (setFlag s x b).bus.strobes = s.bus.strobes := rfl
@[simp] theorem setFlag_bus_waiting (s : State) (x : Fld) (b : Bool) : (setFlag s x b).bus.waiting = s.bus.waiting := rfl
@[simp] theorem setFlag_bus_seen (s : State) (x : Fld) (b : Bool) : (setFlag s x b).bus.seen = s.bus.seen := rfl
@[simp] theorem setFlag_bus_ttLatched (s : State) (x : Fld) (b : Bool) : (setFlag s x b).bus.ttLatched = s.bus.ttLatched := rfl
@[simp] theorem setFlag_bus_scanOn (s : State) (x : Fld) (b : Bool) : (setFlag s x b).bus.scanOn = s.bus.scanOn := rfl
@[simp] theorem setFlag_bus_scanVoid (s : State) (x : Fld) (b : Bool) : (setFlag s x b).bus.scanVoid = s.bus.scanVoid := rfl
@[simp] theorem setFlag_bus_releasedAt (s : State) (x : Fld) (b : Bool) : (setFlag s x b).bus.releasedAt = s.bus.releasedAt := rfl
@[simp] theorem addCnt_pending (s : State) (x : Fld) (n : Nat) : (addCnt s x n).pending = s.pending := rfl
@[simp] theorem addCnt_now (s : State) (x : Fld) (n : Nat) : (addCnt s x n).now = s.now := rfl
@[simp] theorem addCnt_free (s : State) (x : Fld) (n : Nat) : (addCnt s x n).free = s.free := rfl
@[simp] theorem addCnt_ft0512 (s : State) (x : Fld) (n : Nat) : (addCnt s x n).ft0512 = s.ft0512 := rfl
@[simp] theorem addCnt_pl (s : State) (x : Fld) (n : Nat) : (addCnt s x n).pl = s.pl := rfl
@[simp] theorem addCnt_inp (s : State) (x : Fld) (n : Nat) : (addCnt s x n).inp = s.inp := rfl
@[simp] theorem addCnt_cal (s : State) (x : Fld) (n : Nat) : (addCnt s x n).cal = s.cal := rfl
@[simp] theorem addCnt_lg (s : State) (x : Fld) (n : Nat) : (addCnt s x n).lg = s.lg := rfl
@[simp] theorem addCnt_fab (s : State) (x : Fld) (n : Nat) : (addCnt s x n).fab = s.fab := rfl
@[simp] theorem addCnt_mus (s : State) (x : Fld) (n : Nat) : (addCnt s x n).mus = s.mus := rfl
@[simp] theorem addCnt_ar (s : State) (x : Fld) (n : Nat) : (addCnt s x n).ar = s.ar := rfl
@[simp] theorem addCnt_ddr (s : State) (x : Fld) (n : Nat) : (addCnt s x n).ddr = s.ddr := rfl
@[simp] theorem addCnt_host (s : State) (x : Fld) (n : Nat) : (addCnt s x n).host = s.host := rfl
@[simp] theorem addCnt_mon (s : State) (x : Fld) (n : Nat) : (addCnt s x n).mon = s.mon := rfl
@[simp] theorem addCnt_tp (s : State) (x : Fld) (n : Nat) : (addCnt s x n).tp = s.tp := rfl
@[simp] theorem addCnt_play (s : State) (x : Fld) (n : Nat) : (addCnt s x n).play = s.play := rfl
@[simp] theorem addCnt_pr (s : State) (x : Fld) (n : Nat) : (addCnt s x n).pr = s.pr := rfl
@[simp] theorem addCnt_mt (s : State) (x : Fld) (n : Nat) : (addCnt s x n).mt = s.mt := rfl
@[simp] theorem addCnt_bus_maq (s : State) (x : Fld) (n : Nat) : (addCnt s x n).bus.maq = s.bus.maq := rfl
@[simp] theorem addCnt_bus_com (s : State) (x : Fld) (n : Nat) : (addCnt s x n).bus.com = s.bus.com := rfl
@[simp] theorem addCnt_bus_latch (s : State) (x : Fld) (n : Nat) : (addCnt s x n).bus.latch = s.bus.latch := rfl
@[simp] theorem addCnt_bus_view (s : State) (x : Fld) (n : Nat) : (addCnt s x n).bus.view = s.bus.view := rfl
@[simp] theorem addCnt_bus_pair (s : State) (x : Fld) (n : Nat) : (addCnt s x n).bus.pair = s.bus.pair := rfl
@[simp] theorem addCnt_bus_strobes (s : State) (x : Fld) (n : Nat) : (addCnt s x n).bus.strobes = s.bus.strobes := rfl
@[simp] theorem addCnt_bus_waiting (s : State) (x : Fld) (n : Nat) : (addCnt s x n).bus.waiting = s.bus.waiting := rfl
@[simp] theorem addCnt_bus_seen (s : State) (x : Fld) (n : Nat) : (addCnt s x n).bus.seen = s.bus.seen := rfl
@[simp] theorem addCnt_bus_ttLatched (s : State) (x : Fld) (n : Nat) : (addCnt s x n).bus.ttLatched = s.bus.ttLatched := rfl
@[simp] theorem addCnt_bus_scanOn (s : State) (x : Fld) (n : Nat) : (addCnt s x n).bus.scanOn = s.bus.scanOn := rfl
@[simp] theorem addCnt_bus_scanVoid (s : State) (x : Fld) (n : Nat) : (addCnt s x n).bus.scanVoid = s.bus.scanVoid := rfl
@[simp] theorem addCnt_bus_releasedAt (s : State) (x : Fld) (n : Nat) : (addCnt s x n).bus.releasedAt = s.bus.releasedAt := rfl
@[simp] theorem inc_pending (s : State) (x : Fld) : (inc s x).pending = s.pending := rfl
@[simp] theorem inc_now (s : State) (x : Fld) : (inc s x).now = s.now := rfl
@[simp] theorem inc_free (s : State) (x : Fld) : (inc s x).free = s.free := rfl
@[simp] theorem inc_ft0512 (s : State) (x : Fld) : (inc s x).ft0512 = s.ft0512 := rfl
@[simp] theorem inc_pl (s : State) (x : Fld) : (inc s x).pl = s.pl := rfl
@[simp] theorem inc_inp (s : State) (x : Fld) : (inc s x).inp = s.inp := rfl
@[simp] theorem inc_cal (s : State) (x : Fld) : (inc s x).cal = s.cal := rfl
@[simp] theorem inc_lg (s : State) (x : Fld) : (inc s x).lg = s.lg := rfl
@[simp] theorem inc_fab (s : State) (x : Fld) : (inc s x).fab = s.fab := rfl
@[simp] theorem inc_mus (s : State) (x : Fld) : (inc s x).mus = s.mus := rfl
@[simp] theorem inc_ar (s : State) (x : Fld) : (inc s x).ar = s.ar := rfl
@[simp] theorem inc_ddr (s : State) (x : Fld) : (inc s x).ddr = s.ddr := rfl
@[simp] theorem inc_host (s : State) (x : Fld) : (inc s x).host = s.host := rfl
@[simp] theorem inc_mon (s : State) (x : Fld) : (inc s x).mon = s.mon := rfl
@[simp] theorem inc_tp (s : State) (x : Fld) : (inc s x).tp = s.tp := rfl
@[simp] theorem inc_play (s : State) (x : Fld) : (inc s x).play = s.play := rfl
@[simp] theorem inc_pr (s : State) (x : Fld) : (inc s x).pr = s.pr := rfl
@[simp] theorem inc_mt (s : State) (x : Fld) : (inc s x).mt = s.mt := rfl
@[simp] theorem inc_bus_maq (s : State) (x : Fld) : (inc s x).bus.maq = s.bus.maq := rfl
@[simp] theorem inc_bus_com (s : State) (x : Fld) : (inc s x).bus.com = s.bus.com := rfl
@[simp] theorem inc_bus_latch (s : State) (x : Fld) : (inc s x).bus.latch = s.bus.latch := rfl
@[simp] theorem inc_bus_view (s : State) (x : Fld) : (inc s x).bus.view = s.bus.view := rfl
@[simp] theorem inc_bus_pair (s : State) (x : Fld) : (inc s x).bus.pair = s.bus.pair := rfl
@[simp] theorem inc_bus_strobes (s : State) (x : Fld) : (inc s x).bus.strobes = s.bus.strobes := rfl
@[simp] theorem inc_bus_waiting (s : State) (x : Fld) : (inc s x).bus.waiting = s.bus.waiting := rfl
@[simp] theorem inc_bus_seen (s : State) (x : Fld) : (inc s x).bus.seen = s.bus.seen := rfl
@[simp] theorem inc_bus_ttLatched (s : State) (x : Fld) : (inc s x).bus.ttLatched = s.bus.ttLatched := rfl
@[simp] theorem inc_bus_scanOn (s : State) (x : Fld) : (inc s x).bus.scanOn = s.bus.scanOn := rfl
@[simp] theorem inc_bus_scanVoid (s : State) (x : Fld) : (inc s x).bus.scanVoid = s.bus.scanVoid := rfl
@[simp] theorem inc_bus_releasedAt (s : State) (x : Fld) : (inc s x).bus.releasedAt = s.bus.releasedAt := rfl
@[simp] theorem bump_pending (s : State) (x : Fld) : (bump s x).pending = s.pending := rfl
@[simp] theorem bump_now (s : State) (x : Fld) : (bump s x).now = s.now := rfl
@[simp] theorem bump_free (s : State) (x : Fld) : (bump s x).free = s.free := rfl
@[simp] theorem bump_ft0512 (s : State) (x : Fld) : (bump s x).ft0512 = s.ft0512 := rfl
@[simp] theorem bump_pl (s : State) (x : Fld) : (bump s x).pl = s.pl := rfl
@[simp] theorem bump_inp (s : State) (x : Fld) : (bump s x).inp = s.inp := rfl
@[simp] theorem bump_cal (s : State) (x : Fld) : (bump s x).cal = s.cal := rfl
@[simp] theorem bump_lg (s : State) (x : Fld) : (bump s x).lg = s.lg := rfl
@[simp] theorem bump_fab (s : State) (x : Fld) : (bump s x).fab = s.fab := rfl
@[simp] theorem bump_mus (s : State) (x : Fld) : (bump s x).mus = s.mus := rfl
@[simp] theorem bump_ar (s : State) (x : Fld) : (bump s x).ar = s.ar := rfl
@[simp] theorem bump_ddr (s : State) (x : Fld) : (bump s x).ddr = s.ddr := rfl
@[simp] theorem bump_host (s : State) (x : Fld) : (bump s x).host = s.host := rfl
@[simp] theorem bump_mon (s : State) (x : Fld) : (bump s x).mon = s.mon := rfl
@[simp] theorem bump_tp (s : State) (x : Fld) : (bump s x).tp = s.tp := rfl
@[simp] theorem bump_play (s : State) (x : Fld) : (bump s x).play = s.play := rfl
@[simp] theorem bump_pr (s : State) (x : Fld) : (bump s x).pr = s.pr := rfl
@[simp] theorem bump_mt (s : State) (x : Fld) : (bump s x).mt = s.mt := rfl
@[simp] theorem bump_bus_maq (s : State) (x : Fld) : (bump s x).bus.maq = s.bus.maq := rfl
@[simp] theorem bump_bus_com (s : State) (x : Fld) : (bump s x).bus.com = s.bus.com := rfl
@[simp] theorem bump_bus_latch (s : State) (x : Fld) : (bump s x).bus.latch = s.bus.latch := rfl
@[simp] theorem bump_bus_view (s : State) (x : Fld) : (bump s x).bus.view = s.bus.view := rfl
@[simp] theorem bump_bus_pair (s : State) (x : Fld) : (bump s x).bus.pair = s.bus.pair := rfl
@[simp] theorem bump_bus_strobes (s : State) (x : Fld) : (bump s x).bus.strobes = s.bus.strobes := rfl
@[simp] theorem bump_bus_waiting (s : State) (x : Fld) : (bump s x).bus.waiting = s.bus.waiting := rfl
@[simp] theorem bump_bus_seen (s : State) (x : Fld) : (bump s x).bus.seen = s.bus.seen := rfl
@[simp] theorem bump_bus_ttLatched (s : State) (x : Fld) : (bump s x).bus.ttLatched = s.bus.ttLatched := rfl
@[simp] theorem bump_bus_scanOn (s : State) (x : Fld) : (bump s x).bus.scanOn = s.bus.scanOn := rfl
@[simp] theorem bump_bus_scanVoid (s : State) (x : Fld) : (bump s x).bus.scanVoid = s.bus.scanVoid := rfl
@[simp] theorem bump_bus_releasedAt (s : State) (x : Fld) : (bump s x).bus.releasedAt = s.bus.releasedAt := rfl
@[simp] theorem alarm_pending (s : State) (x : Fld) : (alarm s x).pending = s.pending := rfl
@[simp] theorem alarm_now (s : State) (x : Fld) : (alarm s x).now = s.now := rfl
@[simp] theorem alarm_free (s : State) (x : Fld) : (alarm s x).free = s.free := rfl
@[simp] theorem alarm_ft0512 (s : State) (x : Fld) : (alarm s x).ft0512 = s.ft0512 := rfl
@[simp] theorem alarm_pl (s : State) (x : Fld) : (alarm s x).pl = s.pl := rfl
@[simp] theorem alarm_inp (s : State) (x : Fld) : (alarm s x).inp = s.inp := rfl
@[simp] theorem alarm_cal (s : State) (x : Fld) : (alarm s x).cal = s.cal := rfl
@[simp] theorem alarm_lg (s : State) (x : Fld) : (alarm s x).lg = s.lg := rfl
@[simp] theorem alarm_fab (s : State) (x : Fld) : (alarm s x).fab = s.fab := rfl
@[simp] theorem alarm_mus (s : State) (x : Fld) : (alarm s x).mus = s.mus := rfl
@[simp] theorem alarm_ar (s : State) (x : Fld) : (alarm s x).ar = s.ar := rfl
@[simp] theorem alarm_ddr (s : State) (x : Fld) : (alarm s x).ddr = s.ddr := rfl
@[simp] theorem alarm_host (s : State) (x : Fld) : (alarm s x).host = s.host := rfl
@[simp] theorem alarm_mon (s : State) (x : Fld) : (alarm s x).mon = s.mon := rfl
@[simp] theorem alarm_tp (s : State) (x : Fld) : (alarm s x).tp = s.tp := rfl
@[simp] theorem alarm_play (s : State) (x : Fld) : (alarm s x).play = s.play := rfl
@[simp] theorem alarm_pr (s : State) (x : Fld) : (alarm s x).pr = s.pr := rfl
@[simp] theorem alarm_mt (s : State) (x : Fld) : (alarm s x).mt = s.mt := rfl
@[simp] theorem alarm_bus_maq (s : State) (x : Fld) : (alarm s x).bus.maq = s.bus.maq := rfl
@[simp] theorem alarm_bus_com (s : State) (x : Fld) : (alarm s x).bus.com = s.bus.com := rfl
@[simp] theorem alarm_bus_latch (s : State) (x : Fld) : (alarm s x).bus.latch = s.bus.latch := rfl
@[simp] theorem alarm_bus_view (s : State) (x : Fld) : (alarm s x).bus.view = s.bus.view := rfl
@[simp] theorem alarm_bus_pair (s : State) (x : Fld) : (alarm s x).bus.pair = s.bus.pair := rfl
@[simp] theorem alarm_bus_strobes (s : State) (x : Fld) : (alarm s x).bus.strobes = s.bus.strobes := rfl
@[simp] theorem alarm_bus_waiting (s : State) (x : Fld) : (alarm s x).bus.waiting = s.bus.waiting := rfl
@[simp] theorem alarm_bus_seen (s : State) (x : Fld) : (alarm s x).bus.seen = s.bus.seen := rfl
@[simp] theorem alarm_bus_ttLatched (s : State) (x : Fld) : (alarm s x).bus.ttLatched = s.bus.ttLatched := rfl
@[simp] theorem alarm_bus_scanOn (s : State) (x : Fld) : (alarm s x).bus.scanOn = s.bus.scanOn := rfl
@[simp] theorem alarm_bus_scanVoid (s : State) (x : Fld) : (alarm s x).bus.scanVoid = s.bus.scanVoid := rfl
@[simp] theorem alarm_bus_releasedAt (s : State) (x : Fld) : (alarm s x).bus.releasedAt = s.bus.releasedAt := rfl
@[simp] theorem setPair64_pending (s : State) (lo hi v : Nat) : (setPair64 s lo hi v).pending = s.pending := rfl
@[simp] theorem setPair64_now (s : State) (lo hi v : Nat) : (setPair64 s lo hi v).now = s.now := rfl
@[simp] theorem setPair64_free (s : State) (lo hi v : Nat) : (setPair64 s lo hi v).free = s.free := rfl
@[simp] theorem setPair64_ft0512 (s : State) (lo hi v : Nat) : (setPair64 s lo hi v).ft0512 = s.ft0512 := rfl
@[simp] theorem setPair64_pl (s : State) (lo hi v : Nat) : (setPair64 s lo hi v).pl = s.pl := rfl
@[simp] theorem setPair64_inp (s : State) (lo hi v : Nat) : (setPair64 s lo hi v).inp = s.inp := rfl
@[simp] theorem setPair64_cal (s : State) (lo hi v : Nat) : (setPair64 s lo hi v).cal = s.cal := rfl
@[simp] theorem setPair64_lg (s : State) (lo hi v : Nat) : (setPair64 s lo hi v).lg = s.lg := rfl
@[simp] theorem setPair64_fab (s : State) (lo hi v : Nat) : (setPair64 s lo hi v).fab = s.fab := rfl
@[simp] theorem setPair64_mus (s : State) (lo hi v : Nat) : (setPair64 s lo hi v).mus = s.mus := rfl
@[simp] theorem setPair64_ar (s : State) (lo hi v : Nat) : (setPair64 s lo hi v).ar = s.ar := rfl
@[simp] theorem setPair64_ddr (s : State) (lo hi v : Nat) : (setPair64 s lo hi v).ddr = s.ddr := rfl
@[simp] theorem setPair64_host (s : State) (lo hi v : Nat) : (setPair64 s lo hi v).host = s.host := rfl
@[simp] theorem setPair64_mon (s : State) (lo hi v : Nat) : (setPair64 s lo hi v).mon = s.mon := rfl
@[simp] theorem setPair64_tp (s : State) (lo hi v : Nat) : (setPair64 s lo hi v).tp = s.tp := rfl
@[simp] theorem setPair64_play (s : State) (lo hi v : Nat) : (setPair64 s lo hi v).play = s.play := rfl
@[simp] theorem setPair64_pr (s : State) (lo hi v : Nat) : (setPair64 s lo hi v).pr = s.pr := rfl
@[simp] theorem setPair64_mt (s : State) (lo hi v : Nat) : (setPair64 s lo hi v).mt = s.mt := rfl
@[simp] theorem setPair64_bus_maq (s : State) (lo hi v : Nat) : (setPair64 s lo hi v).bus.maq = s.bus.maq := rfl
@[simp] theorem setPair64_bus_com (s : State) (lo hi v : Nat) : (setPair64 s lo hi v).bus.com = s.bus.com := rfl
@[simp] theorem setPair64_bus_latch (s : State) (lo hi v : Nat) : (setPair64 s lo hi v).bus.latch = s.bus.latch := rfl
@[simp] theorem setPair64_bus_view (s : State) (lo hi v : Nat) : (setPair64 s lo hi v).bus.view = s.bus.view := rfl
@[simp] theorem setPair64_bus_pair (s : State) (lo hi v : Nat) : (setPair64 s lo hi v).bus.pair = s.bus.pair := rfl
@[simp] theorem setPair64_bus_strobes (s : State) (lo hi v : Nat) : (setPair64 s lo hi v).bus.strobes = s.bus.strobes := rfl
@[simp] theorem setPair64_bus_waiting (s : State) (lo hi v : Nat) : (setPair64 s lo hi v).bus.waiting = s.bus.waiting := rfl
@[simp] theorem setPair64_bus_seen (s : State) (lo hi v : Nat) : (setPair64 s lo hi v).bus.seen = s.bus.seen := rfl
@[simp] theorem setPair64_bus_ttLatched (s : State) (lo hi v : Nat) : (setPair64 s lo hi v).bus.ttLatched = s.bus.ttLatched := rfl
@[simp] theorem setPair64_bus_scanOn (s : State) (lo hi v : Nat) : (setPair64 s lo hi v).bus.scanOn = s.bus.scanOn := rfl
@[simp] theorem setPair64_bus_scanVoid (s : State) (lo hi v : Nat) : (setPair64 s lo hi v).bus.scanVoid = s.bus.scanVoid := rfl
@[simp] theorem setPair64_bus_releasedAt (s : State) (lo hi v : Nat) : (setPair64 s lo hi v).bus.releasedAt = s.bus.releasedAt := rfl
@[simp] theorem setMaq_pending (s : State) (off : Nat) (v : W32) : (setMaq s off v).pending = s.pending := rfl
@[simp] theorem setMaq_now (s : State) (off : Nat) (v : W32) : (setMaq s off v).now = s.now := rfl
@[simp] theorem setMaq_free (s : State) (off : Nat) (v : W32) : (setMaq s off v).free = s.free := rfl
@[simp] theorem setMaq_ft0512 (s : State) (off : Nat) (v : W32) : (setMaq s off v).ft0512 = s.ft0512 := rfl
@[simp] theorem setMaq_pl (s : State) (off : Nat) (v : W32) : (setMaq s off v).pl = s.pl := rfl
@[simp] theorem setMaq_inp (s : State) (off : Nat) (v : W32) : (setMaq s off v).inp = s.inp := rfl
@[simp] theorem setMaq_cal (s : State) (off : Nat) (v : W32) : (setMaq s off v).cal = s.cal := rfl
@[simp] theorem setMaq_lg (s : State) (off : Nat) (v : W32) : (setMaq s off v).lg = s.lg := rfl
@[simp] theorem setMaq_fab (s : State) (off : Nat) (v : W32) : (setMaq s off v).fab = s.fab := rfl
@[simp] theorem setMaq_mus (s : State) (off : Nat) (v : W32) : (setMaq s off v).mus = s.mus := rfl
@[simp] theorem setMaq_ar (s : State) (off : Nat) (v : W32) : (setMaq s off v).ar = s.ar := rfl
@[simp] theorem setMaq_ddr (s : State) (off : Nat) (v : W32) : (setMaq s off v).ddr = s.ddr := rfl
@[simp] theorem setMaq_host (s : State) (off : Nat) (v : W32) : (setMaq s off v).host = s.host := rfl
@[simp] theorem setMaq_mon (s : State) (off : Nat) (v : W32) : (setMaq s off v).mon = s.mon := rfl
@[simp] theorem setMaq_tp (s : State) (off : Nat) (v : W32) : (setMaq s off v).tp = s.tp := rfl
@[simp] theorem setMaq_play (s : State) (off : Nat) (v : W32) : (setMaq s off v).play = s.play := rfl
@[simp] theorem setMaq_pr (s : State) (off : Nat) (v : W32) : (setMaq s off v).pr = s.pr := rfl
@[simp] theorem setMaq_mt (s : State) (off : Nat) (v : W32) : (setMaq s off v).mt = s.mt := rfl
@[simp] theorem setMaq_bus_regs (s : State) (off : Nat) (v : W32) : (setMaq s off v).bus.regs = s.bus.regs := rfl
@[simp] theorem setMaq_bus_com (s : State) (off : Nat) (v : W32) : (setMaq s off v).bus.com = s.bus.com := rfl
@[simp] theorem setMaq_bus_latch (s : State) (off : Nat) (v : W32) : (setMaq s off v).bus.latch = s.bus.latch := rfl
@[simp] theorem setMaq_bus_view (s : State) (off : Nat) (v : W32) : (setMaq s off v).bus.view = s.bus.view := rfl
@[simp] theorem setMaq_bus_pair (s : State) (off : Nat) (v : W32) : (setMaq s off v).bus.pair = s.bus.pair := rfl
@[simp] theorem setMaq_bus_strobes (s : State) (off : Nat) (v : W32) : (setMaq s off v).bus.strobes = s.bus.strobes := rfl
@[simp] theorem setMaq_bus_waiting (s : State) (off : Nat) (v : W32) : (setMaq s off v).bus.waiting = s.bus.waiting := rfl
@[simp] theorem setMaq_bus_seen (s : State) (off : Nat) (v : W32) : (setMaq s off v).bus.seen = s.bus.seen := rfl
@[simp] theorem setMaq_bus_ttLatched (s : State) (off : Nat) (v : W32) : (setMaq s off v).bus.ttLatched = s.bus.ttLatched := rfl
@[simp] theorem setMaq_bus_scanOn (s : State) (off : Nat) (v : W32) : (setMaq s off v).bus.scanOn = s.bus.scanOn := rfl
@[simp] theorem setMaq_bus_scanVoid (s : State) (off : Nat) (v : W32) : (setMaq s off v).bus.scanVoid = s.bus.scanVoid := rfl
@[simp] theorem setMaq_bus_releasedAt (s : State) (off : Nat) (v : W32) : (setMaq s off v).bus.releasedAt = s.bus.releasedAt := rfl
@[simp] theorem setCom_pending (s : State) (off : Nat) (v : W32) : (setCom s off v).pending = s.pending := rfl
@[simp] theorem setCom_now (s : State) (off : Nat) (v : W32) : (setCom s off v).now = s.now := rfl
@[simp] theorem setCom_free (s : State) (off : Nat) (v : W32) : (setCom s off v).free = s.free := rfl
@[simp] theorem setCom_ft0512 (s : State) (off : Nat) (v : W32) : (setCom s off v).ft0512 = s.ft0512 := rfl
@[simp] theorem setCom_pl (s : State) (off : Nat) (v : W32) : (setCom s off v).pl = s.pl := rfl
@[simp] theorem setCom_inp (s : State) (off : Nat) (v : W32) : (setCom s off v).inp = s.inp := rfl
@[simp] theorem setCom_cal (s : State) (off : Nat) (v : W32) : (setCom s off v).cal = s.cal := rfl
@[simp] theorem setCom_lg (s : State) (off : Nat) (v : W32) : (setCom s off v).lg = s.lg := rfl
@[simp] theorem setCom_fab (s : State) (off : Nat) (v : W32) : (setCom s off v).fab = s.fab := rfl
@[simp] theorem setCom_mus (s : State) (off : Nat) (v : W32) : (setCom s off v).mus = s.mus := rfl
@[simp] theorem setCom_ar (s : State) (off : Nat) (v : W32) : (setCom s off v).ar = s.ar := rfl
@[simp] theorem setCom_ddr (s : State) (off : Nat) (v : W32) : (setCom s off v).ddr = s.ddr := rfl
@[simp] theorem setCom_host (s : State) (off : Nat) (v : W32) : (setCom s off v).host = s.host := rfl
@[simp] theorem setCom_mon (s : State) (off : Nat) (v : W32) : (setCom s off v).mon = s.mon := rfl
@[simp] theorem setCom_tp (s : State) (off : Nat) (v : W32) : (setCom s off v).tp = s.tp := rfl
@[simp] theorem setCom_play (s : State) (off : Nat) (v : W32) : (setCom s off v).play = s.play := rfl
@[simp] theorem setCom_pr (s : State) (off : Nat) (v : W32) : (setCom s off v).pr = s.pr := rfl
@[simp] theorem setCom_mt (s : State) (off : Nat) (v : W32) : (setCom s off v).mt = s.mt := rfl
@[simp] theorem setCom_bus_regs (s : State) (off : Nat) (v : W32) : (setCom s off v).bus.regs = s.bus.regs := rfl
@[simp] theorem setCom_bus_maq (s : State) (off : Nat) (v : W32) : (setCom s off v).bus.maq = s.bus.maq := rfl
@[simp] theorem setCom_bus_latch (s : State) (off : Nat) (v : W32) : (setCom s off v).bus.latch = s.bus.latch := rfl
@[simp] theorem setCom_bus_view (s : State) (off : Nat) (v : W32) : (setCom s off v).bus.view = s.bus.view := rfl
@[simp] theorem setCom_bus_pair (s : State) (off : Nat) (v : W32) : (setCom s off v).bus.pair = s.bus.pair := rfl
@[simp] theorem setCom_bus_strobes (s : State) (off : Nat) (v : W32) : (setCom s off v).bus.strobes = s.bus.strobes := rfl
@[simp] theorem setCom_bus_waiting (s : State) (off : Nat) (v : W32) : (setCom s off v).bus.waiting = s.bus.waiting := rfl
@[simp] theorem setCom_bus_seen (s : State) (off : Nat) (v : W32) : (setCom s off v).bus.seen = s.bus.seen := rfl
@[simp] theorem setCom_bus_ttLatched (s : State) (off : Nat) (v : W32) : (setCom s off v).bus.ttLatched = s.bus.ttLatched := rfl
@[simp] theorem setCom_bus_scanOn (s : State) (off : Nat) (v : W32) : (setCom s off v).bus.scanOn = s.bus.scanOn := rfl
@[simp] theorem setCom_bus_scanVoid (s : State) (off : Nat) (v : W32) : (setCom s off v).bus.scanVoid = s.bus.scanVoid := rfl
@[simp] theorem setCom_bus_releasedAt (s : State) (off : Nat) (v : W32) : (setCom s off v).bus.releasedAt = s.bus.releasedAt := rfl
@[simp] theorem setLatch_pending (s : State) (off : Nat) (v : W32) : (setLatch s off v).pending = s.pending := rfl
@[simp] theorem setLatch_now (s : State) (off : Nat) (v : W32) : (setLatch s off v).now = s.now := rfl
@[simp] theorem setLatch_free (s : State) (off : Nat) (v : W32) : (setLatch s off v).free = s.free := rfl
@[simp] theorem setLatch_ft0512 (s : State) (off : Nat) (v : W32) : (setLatch s off v).ft0512 = s.ft0512 := rfl
@[simp] theorem setLatch_pl (s : State) (off : Nat) (v : W32) : (setLatch s off v).pl = s.pl := rfl
@[simp] theorem setLatch_inp (s : State) (off : Nat) (v : W32) : (setLatch s off v).inp = s.inp := rfl
@[simp] theorem setLatch_cal (s : State) (off : Nat) (v : W32) : (setLatch s off v).cal = s.cal := rfl
@[simp] theorem setLatch_lg (s : State) (off : Nat) (v : W32) : (setLatch s off v).lg = s.lg := rfl
@[simp] theorem setLatch_fab (s : State) (off : Nat) (v : W32) : (setLatch s off v).fab = s.fab := rfl
@[simp] theorem setLatch_mus (s : State) (off : Nat) (v : W32) : (setLatch s off v).mus = s.mus := rfl
@[simp] theorem setLatch_ar (s : State) (off : Nat) (v : W32) : (setLatch s off v).ar = s.ar := rfl
@[simp] theorem setLatch_ddr (s : State) (off : Nat) (v : W32) : (setLatch s off v).ddr = s.ddr := rfl
@[simp] theorem setLatch_host (s : State) (off : Nat) (v : W32) : (setLatch s off v).host = s.host := rfl
@[simp] theorem setLatch_mon (s : State) (off : Nat) (v : W32) : (setLatch s off v).mon = s.mon := rfl
@[simp] theorem setLatch_tp (s : State) (off : Nat) (v : W32) : (setLatch s off v).tp = s.tp := rfl
@[simp] theorem setLatch_play (s : State) (off : Nat) (v : W32) : (setLatch s off v).play = s.play := rfl
@[simp] theorem setLatch_pr (s : State) (off : Nat) (v : W32) : (setLatch s off v).pr = s.pr := rfl
@[simp] theorem setLatch_mt (s : State) (off : Nat) (v : W32) : (setLatch s off v).mt = s.mt := rfl
@[simp] theorem setLatch_bus_regs (s : State) (off : Nat) (v : W32) : (setLatch s off v).bus.regs = s.bus.regs := rfl
@[simp] theorem setLatch_bus_maq (s : State) (off : Nat) (v : W32) : (setLatch s off v).bus.maq = s.bus.maq := rfl
@[simp] theorem setLatch_bus_com (s : State) (off : Nat) (v : W32) : (setLatch s off v).bus.com = s.bus.com := rfl
@[simp] theorem setLatch_bus_view (s : State) (off : Nat) (v : W32) : (setLatch s off v).bus.view = s.bus.view := rfl
@[simp] theorem setLatch_bus_pair (s : State) (off : Nat) (v : W32) : (setLatch s off v).bus.pair = s.bus.pair := rfl
@[simp] theorem setLatch_bus_strobes (s : State) (off : Nat) (v : W32) : (setLatch s off v).bus.strobes = s.bus.strobes := rfl
@[simp] theorem setLatch_bus_waiting (s : State) (off : Nat) (v : W32) : (setLatch s off v).bus.waiting = s.bus.waiting := rfl
@[simp] theorem setLatch_bus_seen (s : State) (off : Nat) (v : W32) : (setLatch s off v).bus.seen = s.bus.seen := rfl
@[simp] theorem setLatch_bus_ttLatched (s : State) (off : Nat) (v : W32) : (setLatch s off v).bus.ttLatched = s.bus.ttLatched := rfl
@[simp] theorem setLatch_bus_scanOn (s : State) (off : Nat) (v : W32) : (setLatch s off v).bus.scanOn = s.bus.scanOn := rfl
@[simp] theorem setLatch_bus_scanVoid (s : State) (off : Nat) (v : W32) : (setLatch s off v).bus.scanVoid = s.bus.scanVoid := rfl
@[simp] theorem setLatch_bus_releasedAt (s : State) (off : Nat) (v : W32) : (setLatch s off v).bus.releasedAt = s.bus.releasedAt := rfl
@[simp] theorem setGuardPair_pending (s : State) (blk : Nat) (p : Option GuardPair) : (setGuardPair s blk p).pending = s.pending := rfl
@[simp] theorem setGuardPair_now (s : State) (blk : Nat) (p : Option GuardPair) : (setGuardPair s blk p).now = s.now := rfl
@[simp] theorem setGuardPair_free (s : State) (blk : Nat) (p : Option GuardPair) : (setGuardPair s blk p).free = s.free := rfl
@[simp] theorem setGuardPair_ft0512 (s : State) (blk : Nat) (p : Option GuardPair) : (setGuardPair s blk p).ft0512 = s.ft0512 := rfl
@[simp] theorem setGuardPair_pl (s : State) (blk : Nat) (p : Option GuardPair) : (setGuardPair s blk p).pl = s.pl := rfl
@[simp] theorem setGuardPair_inp (s : State) (blk : Nat) (p : Option GuardPair) : (setGuardPair s blk p).inp = s.inp := rfl
@[simp] theorem setGuardPair_cal (s : State) (blk : Nat) (p : Option GuardPair) : (setGuardPair s blk p).cal = s.cal := rfl
@[simp] theorem setGuardPair_lg (s : State) (blk : Nat) (p : Option GuardPair) : (setGuardPair s blk p).lg = s.lg := rfl
@[simp] theorem setGuardPair_fab (s : State) (blk : Nat) (p : Option GuardPair) : (setGuardPair s blk p).fab = s.fab := rfl
@[simp] theorem setGuardPair_mus (s : State) (blk : Nat) (p : Option GuardPair) : (setGuardPair s blk p).mus = s.mus := rfl
@[simp] theorem setGuardPair_ar (s : State) (blk : Nat) (p : Option GuardPair) : (setGuardPair s blk p).ar = s.ar := rfl
@[simp] theorem setGuardPair_ddr (s : State) (blk : Nat) (p : Option GuardPair) : (setGuardPair s blk p).ddr = s.ddr := rfl
@[simp] theorem setGuardPair_host (s : State) (blk : Nat) (p : Option GuardPair) : (setGuardPair s blk p).host = s.host := rfl
@[simp] theorem setGuardPair_mon (s : State) (blk : Nat) (p : Option GuardPair) : (setGuardPair s blk p).mon = s.mon := rfl
@[simp] theorem setGuardPair_tp (s : State) (blk : Nat) (p : Option GuardPair) : (setGuardPair s blk p).tp = s.tp := rfl
@[simp] theorem setGuardPair_play (s : State) (blk : Nat) (p : Option GuardPair) : (setGuardPair s blk p).play = s.play := rfl
@[simp] theorem setGuardPair_pr (s : State) (blk : Nat) (p : Option GuardPair) : (setGuardPair s blk p).pr = s.pr := rfl
@[simp] theorem setGuardPair_mt (s : State) (blk : Nat) (p : Option GuardPair) : (setGuardPair s blk p).mt = s.mt := rfl
@[simp] theorem setGuardPair_bus_regs (s : State) (blk : Nat) (p : Option GuardPair) : (setGuardPair s blk p).bus.regs = s.bus.regs := rfl
@[simp] theorem setGuardPair_bus_maq (s : State) (blk : Nat) (p : Option GuardPair) : (setGuardPair s blk p).bus.maq = s.bus.maq := rfl
@[simp] theorem setGuardPair_bus_com (s : State) (blk : Nat) (p : Option GuardPair) : (setGuardPair s blk p).bus.com = s.bus.com := rfl
@[simp] theorem setGuardPair_bus_latch (s : State) (blk : Nat) (p : Option GuardPair) : (setGuardPair s blk p).bus.latch = s.bus.latch := rfl
@[simp] theorem setGuardPair_bus_view (s : State) (blk : Nat) (p : Option GuardPair) : (setGuardPair s blk p).bus.view = s.bus.view := rfl
@[simp] theorem setGuardPair_bus_strobes (s : State) (blk : Nat) (p : Option GuardPair) : (setGuardPair s blk p).bus.strobes = s.bus.strobes := rfl
@[simp] theorem setGuardPair_bus_waiting (s : State) (blk : Nat) (p : Option GuardPair) : (setGuardPair s blk p).bus.waiting = s.bus.waiting := rfl
@[simp] theorem setGuardPair_bus_seen (s : State) (blk : Nat) (p : Option GuardPair) : (setGuardPair s blk p).bus.seen = s.bus.seen := rfl
@[simp] theorem setGuardPair_bus_ttLatched (s : State) (blk : Nat) (p : Option GuardPair) : (setGuardPair s blk p).bus.ttLatched = s.bus.ttLatched := rfl
@[simp] theorem setGuardPair_bus_scanOn (s : State) (blk : Nat) (p : Option GuardPair) : (setGuardPair s blk p).bus.scanOn = s.bus.scanOn := rfl
@[simp] theorem setGuardPair_bus_scanVoid (s : State) (blk : Nat) (p : Option GuardPair) : (setGuardPair s blk p).bus.scanVoid = s.bus.scanVoid := rfl
@[simp] theorem setGuardPair_bus_releasedAt (s : State) (blk : Nat) (p : Option GuardPair) : (setGuardPair s blk p).bus.releasedAt = s.bus.releasedAt := rfl
@[simp] theorem setView_pending (s : State) (f : Nat) (v : W32) : (setView s f v).pending = s.pending := rfl
@[simp] theorem setView_now (s : State) (f : Nat) (v : W32) : (setView s f v).now = s.now := rfl
@[simp] theorem setView_free (s : State) (f : Nat) (v : W32) : (setView s f v).free = s.free := rfl
@[simp] theorem setView_ft0512 (s : State) (f : Nat) (v : W32) : (setView s f v).ft0512 = s.ft0512 := rfl
@[simp] theorem setView_pl (s : State) (f : Nat) (v : W32) : (setView s f v).pl = s.pl := rfl
@[simp] theorem setView_inp (s : State) (f : Nat) (v : W32) : (setView s f v).inp = s.inp := rfl
@[simp] theorem setView_cal (s : State) (f : Nat) (v : W32) : (setView s f v).cal = s.cal := rfl
@[simp] theorem setView_lg (s : State) (f : Nat) (v : W32) : (setView s f v).lg = s.lg := rfl
@[simp] theorem setView_fab (s : State) (f : Nat) (v : W32) : (setView s f v).fab = s.fab := rfl
@[simp] theorem setView_mus (s : State) (f : Nat) (v : W32) : (setView s f v).mus = s.mus := rfl
@[simp] theorem setView_ar (s : State) (f : Nat) (v : W32) : (setView s f v).ar = s.ar := rfl
@[simp] theorem setView_ddr (s : State) (f : Nat) (v : W32) : (setView s f v).ddr = s.ddr := rfl
@[simp] theorem setView_host (s : State) (f : Nat) (v : W32) : (setView s f v).host = s.host := rfl
@[simp] theorem setView_mon (s : State) (f : Nat) (v : W32) : (setView s f v).mon = s.mon := rfl
@[simp] theorem setView_tp (s : State) (f : Nat) (v : W32) : (setView s f v).tp = s.tp := rfl
@[simp] theorem setView_play (s : State) (f : Nat) (v : W32) : (setView s f v).play = s.play := rfl
@[simp] theorem setView_pr (s : State) (f : Nat) (v : W32) : (setView s f v).pr = s.pr := rfl
@[simp] theorem setView_mt (s : State) (f : Nat) (v : W32) : (setView s f v).mt = s.mt := rfl
@[simp] theorem setView_bus_regs (s : State) (f : Nat) (v : W32) : (setView s f v).bus.regs = s.bus.regs := rfl
@[simp] theorem setView_bus_maq (s : State) (f : Nat) (v : W32) : (setView s f v).bus.maq = s.bus.maq := rfl
@[simp] theorem setView_bus_com (s : State) (f : Nat) (v : W32) : (setView s f v).bus.com = s.bus.com := rfl
@[simp] theorem setView_bus_latch (s : State) (f : Nat) (v : W32) : (setView s f v).bus.latch = s.bus.latch := rfl
@[simp] theorem setView_bus_pair (s : State) (f : Nat) (v : W32) : (setView s f v).bus.pair = s.bus.pair := rfl
@[simp] theorem setView_bus_strobes (s : State) (f : Nat) (v : W32) : (setView s f v).bus.strobes = s.bus.strobes := rfl
@[simp] theorem setView_bus_waiting (s : State) (f : Nat) (v : W32) : (setView s f v).bus.waiting = s.bus.waiting := rfl
@[simp] theorem setView_bus_seen (s : State) (f : Nat) (v : W32) : (setView s f v).bus.seen = s.bus.seen := rfl
@[simp] theorem setView_bus_ttLatched (s : State) (f : Nat) (v : W32) : (setView s f v).bus.ttLatched = s.bus.ttLatched := rfl
@[simp] theorem setView_bus_scanOn (s : State) (f : Nat) (v : W32) : (setView s f v).bus.scanOn = s.bus.scanOn := rfl
@[simp] theorem setView_bus_scanVoid (s : State) (f : Nat) (v : W32) : (setView s f v).bus.scanVoid = s.bus.scanVoid := rfl
@[simp] theorem setView_bus_releasedAt (s : State) (f : Nat) (v : W32) : (setView s f v).bus.releasedAt = s.bus.releasedAt := rfl
@[simp] theorem setFnHost_pending (s : State) (f : Nat) (x : FnHost) : (setFnHost s f x).pending = s.pending := rfl
@[simp] theorem setFnHost_now (s : State) (f : Nat) (x : FnHost) : (setFnHost s f x).now = s.now := rfl
@[simp] theorem setFnHost_free (s : State) (f : Nat) (x : FnHost) : (setFnHost s f x).free = s.free := rfl
@[simp] theorem setFnHost_ft0512 (s : State) (f : Nat) (x : FnHost) : (setFnHost s f x).ft0512 = s.ft0512 := rfl
@[simp] theorem setFnHost_bus (s : State) (f : Nat) (x : FnHost) : (setFnHost s f x).bus = s.bus := rfl
@[simp] theorem setFnHost_pl (s : State) (f : Nat) (x : FnHost) : (setFnHost s f x).pl = s.pl := rfl
@[simp] theorem setFnHost_inp (s : State) (f : Nat) (x : FnHost) : (setFnHost s f x).inp = s.inp := rfl
@[simp] theorem setFnHost_cal (s : State) (f : Nat) (x : FnHost) : (setFnHost s f x).cal = s.cal := rfl
@[simp] theorem setFnHost_lg (s : State) (f : Nat) (x : FnHost) : (setFnHost s f x).lg = s.lg := rfl
@[simp] theorem setFnHost_fab (s : State) (f : Nat) (x : FnHost) : (setFnHost s f x).fab = s.fab := rfl
@[simp] theorem setFnHost_mus (s : State) (f : Nat) (x : FnHost) : (setFnHost s f x).mus = s.mus := rfl
@[simp] theorem setFnHost_ar (s : State) (f : Nat) (x : FnHost) : (setFnHost s f x).ar = s.ar := rfl
@[simp] theorem setFnHost_ddr (s : State) (f : Nat) (x : FnHost) : (setFnHost s f x).ddr = s.ddr := rfl
@[simp] theorem setFnHost_mon (s : State) (f : Nat) (x : FnHost) : (setFnHost s f x).mon = s.mon := rfl
@[simp] theorem setFnHost_tp (s : State) (f : Nat) (x : FnHost) : (setFnHost s f x).tp = s.tp := rfl
@[simp] theorem setFnHost_play (s : State) (f : Nat) (x : FnHost) : (setFnHost s f x).play = s.play := rfl
@[simp] theorem setFnHost_pr (s : State) (f : Nat) (x : FnHost) : (setFnHost s f x).pr = s.pr := rfl
@[simp] theorem setFnHost_mt (s : State) (f : Nat) (x : FnHost) : (setFnHost s f x).mt = s.mt := rfl
@[simp] theorem setHring_pending (s : State) (r : Nat) (x : HRing) : (setHring s r x).pending = s.pending := rfl
@[simp] theorem setHring_now (s : State) (r : Nat) (x : HRing) : (setHring s r x).now = s.now := rfl
@[simp] theorem setHring_free (s : State) (r : Nat) (x : HRing) : (setHring s r x).free = s.free := rfl
@[simp] theorem setHring_ft0512 (s : State) (r : Nat) (x : HRing) : (setHring s r x).ft0512 = s.ft0512 := rfl
@[simp] theorem setHring_bus (s : State) (r : Nat) (x : HRing) : (setHring s r x).bus = s.bus := rfl
@[simp] theorem setHring_pl (s : State) (r : Nat) (x : HRing) : (setHring s r x).pl = s.pl := rfl
@[simp] theorem setHring_inp (s : State) (r : Nat) (x : HRing) : (setHring s r x).inp = s.inp := rfl
@[simp] theorem setHring_cal (s : State) (r : Nat) (x : HRing) : (setHring s r x).cal = s.cal := rfl
@[simp] theorem setHring_lg (s : State) (r : Nat) (x : HRing) : (setHring s r x).lg = s.lg := rfl
@[simp] theorem setHring_fab (s : State) (r : Nat) (x : HRing) : (setHring s r x).fab = s.fab := rfl
@[simp] theorem setHring_mus (s : State) (r : Nat) (x : HRing) : (setHring s r x).mus = s.mus := rfl
@[simp] theorem setHring_ar (s : State) (r : Nat) (x : HRing) : (setHring s r x).ar = s.ar := rfl
@[simp] theorem setHring_ddr (s : State) (r : Nat) (x : HRing) : (setHring s r x).ddr = s.ddr := rfl
@[simp] theorem setHring_mon (s : State) (r : Nat) (x : HRing) : (setHring s r x).mon = s.mon := rfl
@[simp] theorem setHring_tp (s : State) (r : Nat) (x : HRing) : (setHring s r x).tp = s.tp := rfl
@[simp] theorem setHring_play (s : State) (r : Nat) (x : HRing) : (setHring s r x).play = s.play := rfl
@[simp] theorem setHring_pr (s : State) (r : Nat) (x : HRing) : (setHring s r x).pr = s.pr := rfl
@[simp] theorem setHring_mt (s : State) (r : Nat) (x : HRing) : (setHring s r x).mt = s.mt := rfl
@[simp] theorem setStream_pending (s : State) (h : Nat) (x : Stream) : (setStream s h x).pending = s.pending := rfl
@[simp] theorem setStream_now (s : State) (h : Nat) (x : Stream) : (setStream s h x).now = s.now := rfl
@[simp] theorem setStream_free (s : State) (h : Nat) (x : Stream) : (setStream s h x).free = s.free := rfl
@[simp] theorem setStream_ft0512 (s : State) (h : Nat) (x : Stream) : (setStream s h x).ft0512 = s.ft0512 := rfl
@[simp] theorem setStream_bus (s : State) (h : Nat) (x : Stream) : (setStream s h x).bus = s.bus := rfl
@[simp] theorem setStream_pl (s : State) (h : Nat) (x : Stream) : (setStream s h x).pl = s.pl := rfl
@[simp] theorem setStream_inp (s : State) (h : Nat) (x : Stream) : (setStream s h x).inp = s.inp := rfl
@[simp] theorem setStream_cal (s : State) (h : Nat) (x : Stream) : (setStream s h x).cal = s.cal := rfl
@[simp] theorem setStream_lg (s : State) (h : Nat) (x : Stream) : (setStream s h x).lg = s.lg := rfl
@[simp] theorem setStream_fab (s : State) (h : Nat) (x : Stream) : (setStream s h x).fab = s.fab := rfl
@[simp] theorem setStream_mus (s : State) (h : Nat) (x : Stream) : (setStream s h x).mus = s.mus := rfl
@[simp] theorem setStream_ar (s : State) (h : Nat) (x : Stream) : (setStream s h x).ar = s.ar := rfl
@[simp] theorem setStream_ddr (s : State) (h : Nat) (x : Stream) : (setStream s h x).ddr = s.ddr := rfl
@[simp] theorem setStream_mon (s : State) (h : Nat) (x : Stream) : (setStream s h x).mon = s.mon := rfl
@[simp] theorem setStream_tp (s : State) (h : Nat) (x : Stream) : (setStream s h x).tp = s.tp := rfl
@[simp] theorem setStream_play (s : State) (h : Nat) (x : Stream) : (setStream s h x).play = s.play := rfl
@[simp] theorem setStream_pr (s : State) (h : Nat) (x : Stream) : (setStream s h x).pr = s.pr := rfl
@[simp] theorem setStream_mt (s : State) (h : Nat) (x : Stream) : (setStream s h x).mt = s.mt := rfl
@[simp] theorem setLane_pending (s : State) (n : Nat) (x : Lane) : (setLane s n x).pending = s.pending := rfl
@[simp] theorem setLane_now (s : State) (n : Nat) (x : Lane) : (setLane s n x).now = s.now := rfl
@[simp] theorem setLane_free (s : State) (n : Nat) (x : Lane) : (setLane s n x).free = s.free := rfl
@[simp] theorem setLane_ft0512 (s : State) (n : Nat) (x : Lane) : (setLane s n x).ft0512 = s.ft0512 := rfl
@[simp] theorem setLane_bus (s : State) (n : Nat) (x : Lane) : (setLane s n x).bus = s.bus := rfl
@[simp] theorem setLane_pl (s : State) (n : Nat) (x : Lane) : (setLane s n x).pl = s.pl := rfl
@[simp] theorem setLane_cal (s : State) (n : Nat) (x : Lane) : (setLane s n x).cal = s.cal := rfl
@[simp] theorem setLane_lg (s : State) (n : Nat) (x : Lane) : (setLane s n x).lg = s.lg := rfl
@[simp] theorem setLane_fab (s : State) (n : Nat) (x : Lane) : (setLane s n x).fab = s.fab := rfl
@[simp] theorem setLane_mus (s : State) (n : Nat) (x : Lane) : (setLane s n x).mus = s.mus := rfl
@[simp] theorem setLane_ar (s : State) (n : Nat) (x : Lane) : (setLane s n x).ar = s.ar := rfl
@[simp] theorem setLane_ddr (s : State) (n : Nat) (x : Lane) : (setLane s n x).ddr = s.ddr := rfl
@[simp] theorem setLane_host (s : State) (n : Nat) (x : Lane) : (setLane s n x).host = s.host := rfl
@[simp] theorem setLane_mon (s : State) (n : Nat) (x : Lane) : (setLane s n x).mon = s.mon := rfl
@[simp] theorem setLane_tp (s : State) (n : Nat) (x : Lane) : (setLane s n x).tp = s.tp := rfl
@[simp] theorem setLane_play (s : State) (n : Nat) (x : Lane) : (setLane s n x).play = s.play := rfl
@[simp] theorem setLane_pr (s : State) (n : Nat) (x : Lane) : (setLane s n x).pr = s.pr := rfl
@[simp] theorem setLane_mt (s : State) (n : Nat) (x : Lane) : (setLane s n x).mt = s.mt := rfl
@[simp] theorem setGroup_pending (s : State) (g : Nat) (x : Group) : (setGroup s g x).pending = s.pending := rfl
@[simp] theorem setGroup_now (s : State) (g : Nat) (x : Group) : (setGroup s g x).now = s.now := rfl
@[simp] theorem setGroup_free (s : State) (g : Nat) (x : Group) : (setGroup s g x).free = s.free := rfl
@[simp] theorem setGroup_ft0512 (s : State) (g : Nat) (x : Group) : (setGroup s g x).ft0512 = s.ft0512 := rfl
@[simp] theorem setGroup_bus (s : State) (g : Nat) (x : Group) : (setGroup s g x).bus = s.bus := rfl
@[simp] theorem setGroup_pl (s : State) (g : Nat) (x : Group) : (setGroup s g x).pl = s.pl := rfl
@[simp] theorem setGroup_inp (s : State) (g : Nat) (x : Group) : (setGroup s g x).inp = s.inp := rfl
@[simp] theorem setGroup_cal (s : State) (g : Nat) (x : Group) : (setGroup s g x).cal = s.cal := rfl
@[simp] theorem setGroup_fab (s : State) (g : Nat) (x : Group) : (setGroup s g x).fab = s.fab := rfl
@[simp] theorem setGroup_mus (s : State) (g : Nat) (x : Group) : (setGroup s g x).mus = s.mus := rfl
@[simp] theorem setGroup_ar (s : State) (g : Nat) (x : Group) : (setGroup s g x).ar = s.ar := rfl
@[simp] theorem setGroup_ddr (s : State) (g : Nat) (x : Group) : (setGroup s g x).ddr = s.ddr := rfl
@[simp] theorem setGroup_host (s : State) (g : Nat) (x : Group) : (setGroup s g x).host = s.host := rfl
@[simp] theorem setGroup_mon (s : State) (g : Nat) (x : Group) : (setGroup s g x).mon = s.mon := rfl
@[simp] theorem setGroup_tp (s : State) (g : Nat) (x : Group) : (setGroup s g x).tp = s.tp := rfl
@[simp] theorem setGroup_play (s : State) (g : Nat) (x : Group) : (setGroup s g x).play = s.play := rfl
@[simp] theorem setGroup_pr (s : State) (g : Nat) (x : Group) : (setGroup s g x).pr = s.pr := rfl
@[simp] theorem setGroup_mt (s : State) (g : Nat) (x : Group) : (setGroup s g x).mt = s.mt := rfl
@[simp] theorem setHold_pending (s : State) (p n : Nat) : (setHold s p n).pending = s.pending := rfl
@[simp] theorem setHold_now (s : State) (p n : Nat) : (setHold s p n).now = s.now := rfl
@[simp] theorem setHold_free (s : State) (p n : Nat) : (setHold s p n).free = s.free := rfl
@[simp] theorem setHold_ft0512 (s : State) (p n : Nat) : (setHold s p n).ft0512 = s.ft0512 := rfl
@[simp] theorem setHold_bus (s : State) (p n : Nat) : (setHold s p n).bus = s.bus := rfl
@[simp] theorem setHold_pl (s : State) (p n : Nat) : (setHold s p n).pl = s.pl := rfl
@[simp] theorem setHold_inp (s : State) (p n : Nat) : (setHold s p n).inp = s.inp := rfl
@[simp] theorem setHold_cal (s : State) (p n : Nat) : (setHold s p n).cal = s.cal := rfl
@[simp] theorem setHold_fab (s : State) (p n : Nat) : (setHold s p n).fab = s.fab := rfl
@[simp] theorem setHold_mus (s : State) (p n : Nat) : (setHold s p n).mus = s.mus := rfl
@[simp] theorem setHold_ar (s : State) (p n : Nat) : (setHold s p n).ar = s.ar := rfl
@[simp] theorem setHold_ddr (s : State) (p n : Nat) : (setHold s p n).ddr = s.ddr := rfl
@[simp] theorem setHold_host (s : State) (p n : Nat) : (setHold s p n).host = s.host := rfl
@[simp] theorem setHold_mon (s : State) (p n : Nat) : (setHold s p n).mon = s.mon := rfl
@[simp] theorem setHold_tp (s : State) (p n : Nat) : (setHold s p n).tp = s.tp := rfl
@[simp] theorem setHold_play (s : State) (p n : Nat) : (setHold s p n).play = s.play := rfl
@[simp] theorem setHold_pr (s : State) (p n : Nat) : (setHold s p n).pr = s.pr := rfl
@[simp] theorem setHold_mt (s : State) (p n : Nat) : (setHold s p n).mt = s.mt := rfl
@[simp] theorem setCalGroup_pending (s : State) (g : Nat) (x : CalGroup) : (setCalGroup s g x).pending = s.pending := rfl
@[simp] theorem setCalGroup_now (s : State) (g : Nat) (x : CalGroup) : (setCalGroup s g x).now = s.now := rfl
@[simp] theorem setCalGroup_free (s : State) (g : Nat) (x : CalGroup) : (setCalGroup s g x).free = s.free := rfl
@[simp] theorem setCalGroup_ft0512 (s : State) (g : Nat) (x : CalGroup) : (setCalGroup s g x).ft0512 = s.ft0512 := rfl
@[simp] theorem setCalGroup_bus (s : State) (g : Nat) (x : CalGroup) : (setCalGroup s g x).bus = s.bus := rfl
@[simp] theorem setCalGroup_pl (s : State) (g : Nat) (x : CalGroup) : (setCalGroup s g x).pl = s.pl := rfl
@[simp] theorem setCalGroup_inp (s : State) (g : Nat) (x : CalGroup) : (setCalGroup s g x).inp = s.inp := rfl
@[simp] theorem setCalGroup_lg (s : State) (g : Nat) (x : CalGroup) : (setCalGroup s g x).lg = s.lg := rfl
@[simp] theorem setCalGroup_fab (s : State) (g : Nat) (x : CalGroup) : (setCalGroup s g x).fab = s.fab := rfl
@[simp] theorem setCalGroup_mus (s : State) (g : Nat) (x : CalGroup) : (setCalGroup s g x).mus = s.mus := rfl
@[simp] theorem setCalGroup_ar (s : State) (g : Nat) (x : CalGroup) : (setCalGroup s g x).ar = s.ar := rfl
@[simp] theorem setCalGroup_ddr (s : State) (g : Nat) (x : CalGroup) : (setCalGroup s g x).ddr = s.ddr := rfl
@[simp] theorem setCalGroup_host (s : State) (g : Nat) (x : CalGroup) : (setCalGroup s g x).host = s.host := rfl
@[simp] theorem setCalGroup_mon (s : State) (g : Nat) (x : CalGroup) : (setCalGroup s g x).mon = s.mon := rfl
@[simp] theorem setCalGroup_tp (s : State) (g : Nat) (x : CalGroup) : (setCalGroup s g x).tp = s.tp := rfl
@[simp] theorem setCalGroup_play (s : State) (g : Nat) (x : CalGroup) : (setCalGroup s g x).play = s.play := rfl
@[simp] theorem setCalGroup_pr (s : State) (g : Nat) (x : CalGroup) : (setCalGroup s g x).pr = s.pr := rfl
@[simp] theorem setCalGroup_mt (s : State) (g : Nat) (x : CalGroup) : (setCalGroup s g x).mt = s.mt := rfl
@[simp] theorem setSource_pending (s : State) (c : Nat) (x : Source) : (setSource s c x).pending = s.pending := rfl
@[simp] theorem setSource_now (s : State) (c : Nat) (x : Source) : (setSource s c x).now = s.now := rfl
@[simp] theorem setSource_free (s : State) (c : Nat) (x : Source) : (setSource s c x).free = s.free := rfl
@[simp] theorem setSource_ft0512 (s : State) (c : Nat) (x : Source) : (setSource s c x).ft0512 = s.ft0512 := rfl
@[simp] theorem setSource_bus (s : State) (c : Nat) (x : Source) : (setSource s c x).bus = s.bus := rfl
@[simp] theorem setSource_pl (s : State) (c : Nat) (x : Source) : (setSource s c x).pl = s.pl := rfl
@[simp] theorem setSource_inp (s : State) (c : Nat) (x : Source) : (setSource s c x).inp = s.inp := rfl
@[simp] theorem setSource_cal (s : State) (c : Nat) (x : Source) : (setSource s c x).cal = s.cal := rfl
@[simp] theorem setSource_lg (s : State) (c : Nat) (x : Source) : (setSource s c x).lg = s.lg := rfl
@[simp] theorem setSource_mus (s : State) (c : Nat) (x : Source) : (setSource s c x).mus = s.mus := rfl
@[simp] theorem setSource_ar (s : State) (c : Nat) (x : Source) : (setSource s c x).ar = s.ar := rfl
@[simp] theorem setSource_ddr (s : State) (c : Nat) (x : Source) : (setSource s c x).ddr = s.ddr := rfl
@[simp] theorem setSource_host (s : State) (c : Nat) (x : Source) : (setSource s c x).host = s.host := rfl
@[simp] theorem setSource_mon (s : State) (c : Nat) (x : Source) : (setSource s c x).mon = s.mon := rfl
@[simp] theorem setSource_tp (s : State) (c : Nat) (x : Source) : (setSource s c x).tp = s.tp := rfl
@[simp] theorem setSource_play (s : State) (c : Nat) (x : Source) : (setSource s c x).play = s.play := rfl
@[simp] theorem setSource_pr (s : State) (c : Nat) (x : Source) : (setSource s c x).pr = s.pr := rfl
@[simp] theorem setSource_mt (s : State) (c : Nat) (x : Source) : (setSource s c x).mt = s.mt := rfl
@[simp] theorem setCluster_pending (s : State) (c : Nat) (x : Cluster) : (setCluster s c x).pending = s.pending := rfl
@[simp] theorem setCluster_now (s : State) (c : Nat) (x : Cluster) : (setCluster s c x).now = s.now := rfl
@[simp] theorem setCluster_free (s : State) (c : Nat) (x : Cluster) : (setCluster s c x).free = s.free := rfl
@[simp] theorem setCluster_ft0512 (s : State) (c : Nat) (x : Cluster) : (setCluster s c x).ft0512 = s.ft0512 := rfl
@[simp] theorem setCluster_bus (s : State) (c : Nat) (x : Cluster) : (setCluster s c x).bus = s.bus := rfl
@[simp] theorem setCluster_pl (s : State) (c : Nat) (x : Cluster) : (setCluster s c x).pl = s.pl := rfl
@[simp] theorem setCluster_inp (s : State) (c : Nat) (x : Cluster) : (setCluster s c x).inp = s.inp := rfl
@[simp] theorem setCluster_cal (s : State) (c : Nat) (x : Cluster) : (setCluster s c x).cal = s.cal := rfl
@[simp] theorem setCluster_lg (s : State) (c : Nat) (x : Cluster) : (setCluster s c x).lg = s.lg := rfl
@[simp] theorem setCluster_mus (s : State) (c : Nat) (x : Cluster) : (setCluster s c x).mus = s.mus := rfl
@[simp] theorem setCluster_ar (s : State) (c : Nat) (x : Cluster) : (setCluster s c x).ar = s.ar := rfl
@[simp] theorem setCluster_ddr (s : State) (c : Nat) (x : Cluster) : (setCluster s c x).ddr = s.ddr := rfl
@[simp] theorem setCluster_host (s : State) (c : Nat) (x : Cluster) : (setCluster s c x).host = s.host := rfl
@[simp] theorem setCluster_mon (s : State) (c : Nat) (x : Cluster) : (setCluster s c x).mon = s.mon := rfl
@[simp] theorem setCluster_tp (s : State) (c : Nat) (x : Cluster) : (setCluster s c x).tp = s.tp := rfl
@[simp] theorem setCluster_play (s : State) (c : Nat) (x : Cluster) : (setCluster s c x).play = s.play := rfl
@[simp] theorem setCluster_pr (s : State) (c : Nat) (x : Cluster) : (setCluster s c x).pr = s.pr := rfl
@[simp] theorem setCluster_mt (s : State) (c : Nat) (x : Cluster) : (setCluster s c x).mt = s.mt := rfl
@[simp] theorem setEngine_pending (s : State) (e : Nat) (x : Engine) : (setEngine s e x).pending = s.pending := rfl
@[simp] theorem setEngine_now (s : State) (e : Nat) (x : Engine) : (setEngine s e x).now = s.now := rfl
@[simp] theorem setEngine_free (s : State) (e : Nat) (x : Engine) : (setEngine s e x).free = s.free := rfl
@[simp] theorem setEngine_ft0512 (s : State) (e : Nat) (x : Engine) : (setEngine s e x).ft0512 = s.ft0512 := rfl
@[simp] theorem setEngine_bus (s : State) (e : Nat) (x : Engine) : (setEngine s e x).bus = s.bus := rfl
@[simp] theorem setEngine_pl (s : State) (e : Nat) (x : Engine) : (setEngine s e x).pl = s.pl := rfl
@[simp] theorem setEngine_inp (s : State) (e : Nat) (x : Engine) : (setEngine s e x).inp = s.inp := rfl
@[simp] theorem setEngine_cal (s : State) (e : Nat) (x : Engine) : (setEngine s e x).cal = s.cal := rfl
@[simp] theorem setEngine_lg (s : State) (e : Nat) (x : Engine) : (setEngine s e x).lg = s.lg := rfl
@[simp] theorem setEngine_mus (s : State) (e : Nat) (x : Engine) : (setEngine s e x).mus = s.mus := rfl
@[simp] theorem setEngine_ar (s : State) (e : Nat) (x : Engine) : (setEngine s e x).ar = s.ar := rfl
@[simp] theorem setEngine_ddr (s : State) (e : Nat) (x : Engine) : (setEngine s e x).ddr = s.ddr := rfl
@[simp] theorem setEngine_host (s : State) (e : Nat) (x : Engine) : (setEngine s e x).host = s.host := rfl
@[simp] theorem setEngine_mon (s : State) (e : Nat) (x : Engine) : (setEngine s e x).mon = s.mon := rfl
@[simp] theorem setEngine_tp (s : State) (e : Nat) (x : Engine) : (setEngine s e x).tp = s.tp := rfl
@[simp] theorem setEngine_play (s : State) (e : Nat) (x : Engine) : (setEngine s e x).play = s.play := rfl
@[simp] theorem setEngine_pr (s : State) (e : Nat) (x : Engine) : (setEngine s e x).pr = s.pr := rfl
@[simp] theorem setEngine_mt (s : State) (e : Nat) (x : Engine) : (setEngine s e x).mt = s.mt := rfl
@[simp] theorem setMu_pending (s : State) (u : Nat) (x : Mu) : (setMu s u x).pending = s.pending := rfl
@[simp] theorem setMu_now (s : State) (u : Nat) (x : Mu) : (setMu s u x).now = s.now := rfl
@[simp] theorem setMu_free (s : State) (u : Nat) (x : Mu) : (setMu s u x).free = s.free := rfl
@[simp] theorem setMu_ft0512 (s : State) (u : Nat) (x : Mu) : (setMu s u x).ft0512 = s.ft0512 := rfl
@[simp] theorem setMu_bus (s : State) (u : Nat) (x : Mu) : (setMu s u x).bus = s.bus := rfl
@[simp] theorem setMu_pl (s : State) (u : Nat) (x : Mu) : (setMu s u x).pl = s.pl := rfl
@[simp] theorem setMu_inp (s : State) (u : Nat) (x : Mu) : (setMu s u x).inp = s.inp := rfl
@[simp] theorem setMu_cal (s : State) (u : Nat) (x : Mu) : (setMu s u x).cal = s.cal := rfl
@[simp] theorem setMu_lg (s : State) (u : Nat) (x : Mu) : (setMu s u x).lg = s.lg := rfl
@[simp] theorem setMu_fab (s : State) (u : Nat) (x : Mu) : (setMu s u x).fab = s.fab := rfl
@[simp] theorem setMu_ar (s : State) (u : Nat) (x : Mu) : (setMu s u x).ar = s.ar := rfl
@[simp] theorem setMu_ddr (s : State) (u : Nat) (x : Mu) : (setMu s u x).ddr = s.ddr := rfl
@[simp] theorem setMu_host (s : State) (u : Nat) (x : Mu) : (setMu s u x).host = s.host := rfl
@[simp] theorem setMu_mon (s : State) (u : Nat) (x : Mu) : (setMu s u x).mon = s.mon := rfl
@[simp] theorem setMu_tp (s : State) (u : Nat) (x : Mu) : (setMu s u x).tp = s.tp := rfl
@[simp] theorem setMu_play (s : State) (u : Nat) (x : Mu) : (setMu s u x).play = s.play := rfl
@[simp] theorem setMu_pr (s : State) (u : Nat) (x : Mu) : (setMu s u x).pr = s.pr := rfl
@[simp] theorem setMu_mt (s : State) (u : Nat) (x : Mu) : (setMu s u x).mt = s.mt := rfl
@[simp] theorem setBank_pending (s : State) (b : Nat) (x : MuBank) : (setBank s b x).pending = s.pending := rfl
@[simp] theorem setBank_now (s : State) (b : Nat) (x : MuBank) : (setBank s b x).now = s.now := rfl
@[simp] theorem setBank_free (s : State) (b : Nat) (x : MuBank) : (setBank s b x).free = s.free := rfl
@[simp] theorem setBank_ft0512 (s : State) (b : Nat) (x : MuBank) : (setBank s b x).ft0512 = s.ft0512 := rfl
@[simp] theorem setBank_bus (s : State) (b : Nat) (x : MuBank) : (setBank s b x).bus = s.bus := rfl
@[simp] theorem setBank_pl (s : State) (b : Nat) (x : MuBank) : (setBank s b x).pl = s.pl := rfl
@[simp] theorem setBank_inp (s : State) (b : Nat) (x : MuBank) : (setBank s b x).inp = s.inp := rfl
@[simp] theorem setBank_cal (s : State) (b : Nat) (x : MuBank) : (setBank s b x).cal = s.cal := rfl
@[simp] theorem setBank_lg (s : State) (b : Nat) (x : MuBank) : (setBank s b x).lg = s.lg := rfl
@[simp] theorem setBank_fab (s : State) (b : Nat) (x : MuBank) : (setBank s b x).fab = s.fab := rfl
@[simp] theorem setBank_ar (s : State) (b : Nat) (x : MuBank) : (setBank s b x).ar = s.ar := rfl
@[simp] theorem setBank_ddr (s : State) (b : Nat) (x : MuBank) : (setBank s b x).ddr = s.ddr := rfl
@[simp] theorem setBank_host (s : State) (b : Nat) (x : MuBank) : (setBank s b x).host = s.host := rfl
@[simp] theorem setBank_mon (s : State) (b : Nat) (x : MuBank) : (setBank s b x).mon = s.mon := rfl
@[simp] theorem setBank_tp (s : State) (b : Nat) (x : MuBank) : (setBank s b x).tp = s.tp := rfl
@[simp] theorem setBank_play (s : State) (b : Nat) (x : MuBank) : (setBank s b x).play = s.play := rfl
@[simp] theorem setBank_pr (s : State) (b : Nat) (x : MuBank) : (setBank s b x).pr = s.pr := rfl
@[simp] theorem setBank_mt (s : State) (b : Nat) (x : MuBank) : (setBank s b x).mt = s.mt := rfl
@[simp] theorem setCring_pending (s : State) (r : Nat) (x : CRing) : (setCring s r x).pending = s.pending := rfl
@[simp] theorem setCring_now (s : State) (r : Nat) (x : CRing) : (setCring s r x).now = s.now := rfl
@[simp] theorem setCring_free (s : State) (r : Nat) (x : CRing) : (setCring s r x).free = s.free := rfl
@[simp] theorem setCring_ft0512 (s : State) (r : Nat) (x : CRing) : (setCring s r x).ft0512 = s.ft0512 := rfl
@[simp] theorem setCring_bus (s : State) (r : Nat) (x : CRing) : (setCring s r x).bus = s.bus := rfl
@[simp] theorem setCring_pl (s : State) (r : Nat) (x : CRing) : (setCring s r x).pl = s.pl := rfl
@[simp] theorem setCring_inp (s : State) (r : Nat) (x : CRing) : (setCring s r x).inp = s.inp := rfl
@[simp] theorem setCring_cal (s : State) (r : Nat) (x : CRing) : (setCring s r x).cal = s.cal := rfl
@[simp] theorem setCring_lg (s : State) (r : Nat) (x : CRing) : (setCring s r x).lg = s.lg := rfl
@[simp] theorem setCring_fab (s : State) (r : Nat) (x : CRing) : (setCring s r x).fab = s.fab := rfl
@[simp] theorem setCring_mus (s : State) (r : Nat) (x : CRing) : (setCring s r x).mus = s.mus := rfl
@[simp] theorem setCring_ar (s : State) (r : Nat) (x : CRing) : (setCring s r x).ar = s.ar := rfl
@[simp] theorem setCring_host (s : State) (r : Nat) (x : CRing) : (setCring s r x).host = s.host := rfl
@[simp] theorem setCring_mon (s : State) (r : Nat) (x : CRing) : (setCring s r x).mon = s.mon := rfl
@[simp] theorem setCring_tp (s : State) (r : Nat) (x : CRing) : (setCring s r x).tp = s.tp := rfl
@[simp] theorem setCring_play (s : State) (r : Nat) (x : CRing) : (setCring s r x).play = s.play := rfl
@[simp] theorem setCring_pr (s : State) (r : Nat) (x : CRing) : (setCring s r x).pr = s.pr := rfl
@[simp] theorem setCring_mt (s : State) (r : Nat) (x : CRing) : (setCring s r x).mt = s.mt := rfl
@[simp] theorem setClaim_pending (s : State) (q : Nat) (x : Option Region) : (setClaim s q x).pending = s.pending := rfl
@[simp] theorem setClaim_now (s : State) (q : Nat) (x : Option Region) : (setClaim s q x).now = s.now := rfl
@[simp] theorem setClaim_free (s : State) (q : Nat) (x : Option Region) : (setClaim s q x).free = s.free := rfl
@[simp] theorem setClaim_ft0512 (s : State) (q : Nat) (x : Option Region) : (setClaim s q x).ft0512 = s.ft0512 := rfl
@[simp] theorem setClaim_bus (s : State) (q : Nat) (x : Option Region) : (setClaim s q x).bus = s.bus := rfl
@[simp] theorem setClaim_pl (s : State) (q : Nat) (x : Option Region) : (setClaim s q x).pl = s.pl := rfl
@[simp] theorem setClaim_inp (s : State) (q : Nat) (x : Option Region) : (setClaim s q x).inp = s.inp := rfl
@[simp] theorem setClaim_cal (s : State) (q : Nat) (x : Option Region) : (setClaim s q x).cal = s.cal := rfl
@[simp] theorem setClaim_lg (s : State) (q : Nat) (x : Option Region) : (setClaim s q x).lg = s.lg := rfl
@[simp] theorem setClaim_fab (s : State) (q : Nat) (x : Option Region) : (setClaim s q x).fab = s.fab := rfl
@[simp] theorem setClaim_mus (s : State) (q : Nat) (x : Option Region) : (setClaim s q x).mus = s.mus := rfl
@[simp] theorem setClaim_ar (s : State) (q : Nat) (x : Option Region) : (setClaim s q x).ar = s.ar := rfl
@[simp] theorem setClaim_host (s : State) (q : Nat) (x : Option Region) : (setClaim s q x).host = s.host := rfl
@[simp] theorem setClaim_mon (s : State) (q : Nat) (x : Option Region) : (setClaim s q x).mon = s.mon := rfl
@[simp] theorem setClaim_tp (s : State) (q : Nat) (x : Option Region) : (setClaim s q x).tp = s.tp := rfl
@[simp] theorem setClaim_play (s : State) (q : Nat) (x : Option Region) : (setClaim s q x).play = s.play := rfl
@[simp] theorem setClaim_pr (s : State) (q : Nat) (x : Option Region) : (setClaim s q x).pr = s.pr := rfl
@[simp] theorem setClaim_mt (s : State) (q : Nat) (x : Option Region) : (setClaim s q x).mt = s.mt := rfl
@[simp] theorem setWordErr_pending (s : State) (a e : Nat) : (setWordErr s a e).pending = s.pending := rfl
@[simp] theorem setWordErr_now (s : State) (a e : Nat) : (setWordErr s a e).now = s.now := rfl
@[simp] theorem setWordErr_free (s : State) (a e : Nat) : (setWordErr s a e).free = s.free := rfl
@[simp] theorem setWordErr_ft0512 (s : State) (a e : Nat) : (setWordErr s a e).ft0512 = s.ft0512 := rfl
@[simp] theorem setWordErr_bus (s : State) (a e : Nat) : (setWordErr s a e).bus = s.bus := rfl
@[simp] theorem setWordErr_pl (s : State) (a e : Nat) : (setWordErr s a e).pl = s.pl := rfl
@[simp] theorem setWordErr_inp (s : State) (a e : Nat) : (setWordErr s a e).inp = s.inp := rfl
@[simp] theorem setWordErr_cal (s : State) (a e : Nat) : (setWordErr s a e).cal = s.cal := rfl
@[simp] theorem setWordErr_lg (s : State) (a e : Nat) : (setWordErr s a e).lg = s.lg := rfl
@[simp] theorem setWordErr_fab (s : State) (a e : Nat) : (setWordErr s a e).fab = s.fab := rfl
@[simp] theorem setWordErr_mus (s : State) (a e : Nat) : (setWordErr s a e).mus = s.mus := rfl
@[simp] theorem setWordErr_ar (s : State) (a e : Nat) : (setWordErr s a e).ar = s.ar := rfl
@[simp] theorem setWordErr_host (s : State) (a e : Nat) : (setWordErr s a e).host = s.host := rfl
@[simp] theorem setWordErr_mon (s : State) (a e : Nat) : (setWordErr s a e).mon = s.mon := rfl
@[simp] theorem setWordErr_tp (s : State) (a e : Nat) : (setWordErr s a e).tp = s.tp := rfl
@[simp] theorem setWordErr_play (s : State) (a e : Nat) : (setWordErr s a e).play = s.play := rfl
@[simp] theorem setWordErr_pr (s : State) (a e : Nat) : (setWordErr s a e).pr = s.pr := rfl
@[simp] theorem setWordErr_mt (s : State) (a e : Nat) : (setWordErr s a e).mt = s.mt := rfl
@[simp] theorem setSeqr_pending (s : State) (q : Nat) (x : Sequencer) : (setSeqr s q x).pending = s.pending := rfl
@[simp] theorem setSeqr_now (s : State) (q : Nat) (x : Sequencer) : (setSeqr s q x).now = s.now := rfl
@[simp] theorem setSeqr_free (s : State) (q : Nat) (x : Sequencer) : (setSeqr s q x).free = s.free := rfl
@[simp] theorem setSeqr_ft0512 (s : State) (q : Nat) (x : Sequencer) : (setSeqr s q x).ft0512 = s.ft0512 := rfl
@[simp] theorem setSeqr_bus (s : State) (q : Nat) (x : Sequencer) : (setSeqr s q x).bus = s.bus := rfl
@[simp] theorem setSeqr_pl (s : State) (q : Nat) (x : Sequencer) : (setSeqr s q x).pl = s.pl := rfl
@[simp] theorem setSeqr_inp (s : State) (q : Nat) (x : Sequencer) : (setSeqr s q x).inp = s.inp := rfl
@[simp] theorem setSeqr_cal (s : State) (q : Nat) (x : Sequencer) : (setSeqr s q x).cal = s.cal := rfl
@[simp] theorem setSeqr_lg (s : State) (q : Nat) (x : Sequencer) : (setSeqr s q x).lg = s.lg := rfl
@[simp] theorem setSeqr_fab (s : State) (q : Nat) (x : Sequencer) : (setSeqr s q x).fab = s.fab := rfl
@[simp] theorem setSeqr_mus (s : State) (q : Nat) (x : Sequencer) : (setSeqr s q x).mus = s.mus := rfl
@[simp] theorem setSeqr_ar (s : State) (q : Nat) (x : Sequencer) : (setSeqr s q x).ar = s.ar := rfl
@[simp] theorem setSeqr_ddr (s : State) (q : Nat) (x : Sequencer) : (setSeqr s q x).ddr = s.ddr := rfl
@[simp] theorem setSeqr_host (s : State) (q : Nat) (x : Sequencer) : (setSeqr s q x).host = s.host := rfl
@[simp] theorem setSeqr_mon (s : State) (q : Nat) (x : Sequencer) : (setSeqr s q x).mon = s.mon := rfl
@[simp] theorem setSeqr_tp (s : State) (q : Nat) (x : Sequencer) : (setSeqr s q x).tp = s.tp := rfl
@[simp] theorem setSeqr_pr (s : State) (q : Nat) (x : Sequencer) : (setSeqr s q x).pr = s.pr := rfl
@[simp] theorem setSeqr_mt (s : State) (q : Nat) (x : Sequencer) : (setSeqr s q x).mt = s.mt := rfl
@[simp] theorem setTrigger_pending (s : State) (t : Nat) (x : Trigger) : (setTrigger s t x).pending = s.pending := rfl
@[simp] theorem setTrigger_now (s : State) (t : Nat) (x : Trigger) : (setTrigger s t x).now = s.now := rfl
@[simp] theorem setTrigger_free (s : State) (t : Nat) (x : Trigger) : (setTrigger s t x).free = s.free := rfl
@[simp] theorem setTrigger_ft0512 (s : State) (t : Nat) (x : Trigger) : (setTrigger s t x).ft0512 = s.ft0512 := rfl
@[simp] theorem setTrigger_bus (s : State) (t : Nat) (x : Trigger) : (setTrigger s t x).bus = s.bus := rfl
@[simp] theorem setTrigger_pl (s : State) (t : Nat) (x : Trigger) : (setTrigger s t x).pl = s.pl := rfl
@[simp] theorem setTrigger_inp (s : State) (t : Nat) (x : Trigger) : (setTrigger s t x).inp = s.inp := rfl
@[simp] theorem setTrigger_cal (s : State) (t : Nat) (x : Trigger) : (setTrigger s t x).cal = s.cal := rfl
@[simp] theorem setTrigger_lg (s : State) (t : Nat) (x : Trigger) : (setTrigger s t x).lg = s.lg := rfl
@[simp] theorem setTrigger_fab (s : State) (t : Nat) (x : Trigger) : (setTrigger s t x).fab = s.fab := rfl
@[simp] theorem setTrigger_mus (s : State) (t : Nat) (x : Trigger) : (setTrigger s t x).mus = s.mus := rfl
@[simp] theorem setTrigger_ar (s : State) (t : Nat) (x : Trigger) : (setTrigger s t x).ar = s.ar := rfl
@[simp] theorem setTrigger_ddr (s : State) (t : Nat) (x : Trigger) : (setTrigger s t x).ddr = s.ddr := rfl
@[simp] theorem setTrigger_host (s : State) (t : Nat) (x : Trigger) : (setTrigger s t x).host = s.host := rfl
@[simp] theorem setTrigger_mon (s : State) (t : Nat) (x : Trigger) : (setTrigger s t x).mon = s.mon := rfl
@[simp] theorem setTrigger_tp (s : State) (t : Nat) (x : Trigger) : (setTrigger s t x).tp = s.tp := rfl
@[simp] theorem setTrigger_pr (s : State) (t : Nat) (x : Trigger) : (setTrigger s t x).pr = s.pr := rfl
@[simp] theorem setTrigger_mt (s : State) (t : Nat) (x : Trigger) : (setTrigger s t x).mt = s.mt := rfl
@[simp] theorem setOvr_pending (s : State) (p : Nat) (x : Option Override) (sample : Nat) : (setOvr s p x sample).pending = s.pending := rfl
@[simp] theorem setOvr_now (s : State) (p : Nat) (x : Option Override) (sample : Nat) : (setOvr s p x sample).now = s.now := rfl
@[simp] theorem setOvr_free (s : State) (p : Nat) (x : Option Override) (sample : Nat) : (setOvr s p x sample).free = s.free := rfl
@[simp] theorem setOvr_ft0512 (s : State) (p : Nat) (x : Option Override) (sample : Nat) : (setOvr s p x sample).ft0512 = s.ft0512 := rfl
@[simp] theorem setOvr_bus (s : State) (p : Nat) (x : Option Override) (sample : Nat) : (setOvr s p x sample).bus = s.bus := rfl
@[simp] theorem setOvr_pl (s : State) (p : Nat) (x : Option Override) (sample : Nat) : (setOvr s p x sample).pl = s.pl := rfl
@[simp] theorem setOvr_inp (s : State) (p : Nat) (x : Option Override) (sample : Nat) : (setOvr s p x sample).inp = s.inp := rfl
@[simp] theorem setOvr_cal (s : State) (p : Nat) (x : Option Override) (sample : Nat) : (setOvr s p x sample).cal = s.cal := rfl
@[simp] theorem setOvr_lg (s : State) (p : Nat) (x : Option Override) (sample : Nat) : (setOvr s p x sample).lg = s.lg := rfl
@[simp] theorem setOvr_fab (s : State) (p : Nat) (x : Option Override) (sample : Nat) : (setOvr s p x sample).fab = s.fab := rfl
@[simp] theorem setOvr_mus (s : State) (p : Nat) (x : Option Override) (sample : Nat) : (setOvr s p x sample).mus = s.mus := rfl
@[simp] theorem setOvr_ar (s : State) (p : Nat) (x : Option Override) (sample : Nat) : (setOvr s p x sample).ar = s.ar := rfl
@[simp] theorem setOvr_ddr (s : State) (p : Nat) (x : Option Override) (sample : Nat) : (setOvr s p x sample).ddr = s.ddr := rfl
@[simp] theorem setOvr_host (s : State) (p : Nat) (x : Option Override) (sample : Nat) : (setOvr s p x sample).host = s.host := rfl
@[simp] theorem setOvr_mon (s : State) (p : Nat) (x : Option Override) (sample : Nat) : (setOvr s p x sample).mon = s.mon := rfl
@[simp] theorem setOvr_tp (s : State) (p : Nat) (x : Option Override) (sample : Nat) : (setOvr s p x sample).tp = s.tp := rfl
@[simp] theorem setOvr_pr (s : State) (p : Nat) (x : Option Override) (sample : Nat) : (setOvr s p x sample).pr = s.pr := rfl
@[simp] theorem setOvr_mt (s : State) (p : Nat) (x : Option Override) (sample : Nat) : (setOvr s p x sample).mt = s.mt := rfl
@[simp] theorem setMsixVec_pending (s : State) (f v : Nat) (x : MsixVec) : (setMsixVec s f v x).pending = s.pending := rfl
@[simp] theorem setMsixVec_now (s : State) (f v : Nat) (x : MsixVec) : (setMsixVec s f v x).now = s.now := rfl
@[simp] theorem setMsixVec_free (s : State) (f v : Nat) (x : MsixVec) : (setMsixVec s f v x).free = s.free := rfl
@[simp] theorem setMsixVec_ft0512 (s : State) (f v : Nat) (x : MsixVec) : (setMsixVec s f v x).ft0512 = s.ft0512 := rfl
@[simp] theorem setMsixVec_bus (s : State) (f v : Nat) (x : MsixVec) : (setMsixVec s f v x).bus = s.bus := rfl
@[simp] theorem setMsixVec_pl (s : State) (f v : Nat) (x : MsixVec) : (setMsixVec s f v x).pl = s.pl := rfl
@[simp] theorem setMsixVec_inp (s : State) (f v : Nat) (x : MsixVec) : (setMsixVec s f v x).inp = s.inp := rfl
@[simp] theorem setMsixVec_cal (s : State) (f v : Nat) (x : MsixVec) : (setMsixVec s f v x).cal = s.cal := rfl
@[simp] theorem setMsixVec_lg (s : State) (f v : Nat) (x : MsixVec) : (setMsixVec s f v x).lg = s.lg := rfl
@[simp] theorem setMsixVec_fab (s : State) (f v : Nat) (x : MsixVec) : (setMsixVec s f v x).fab = s.fab := rfl
@[simp] theorem setMsixVec_mus (s : State) (f v : Nat) (x : MsixVec) : (setMsixVec s f v x).mus = s.mus := rfl
@[simp] theorem setMsixVec_ar (s : State) (f v : Nat) (x : MsixVec) : (setMsixVec s f v x).ar = s.ar := rfl
@[simp] theorem setMsixVec_ddr (s : State) (f v : Nat) (x : MsixVec) : (setMsixVec s f v x).ddr = s.ddr := rfl
@[simp] theorem setMsixVec_mon (s : State) (f v : Nat) (x : MsixVec) : (setMsixVec s f v x).mon = s.mon := rfl
@[simp] theorem setMsixVec_tp (s : State) (f v : Nat) (x : MsixVec) : (setMsixVec s f v x).tp = s.tp := rfl
@[simp] theorem setMsixVec_play (s : State) (f v : Nat) (x : MsixVec) : (setMsixVec s f v x).play = s.play := rfl
@[simp] theorem setMsixVec_pr (s : State) (f v : Nat) (x : MsixVec) : (setMsixVec s f v x).pr = s.pr := rfl
@[simp] theorem setMsixVec_mt (s : State) (f v : Nat) (x : MsixVec) : (setMsixVec s f v x).mt = s.mt := rfl
@[simp] theorem setEncoder_pending (s : State) (k : Nat) (x : Encoder) : (setEncoder s k x).pending = s.pending := rfl
@[simp] theorem setEncoder_now (s : State) (k : Nat) (x : Encoder) : (setEncoder s k x).now = s.now := rfl
@[simp] theorem setEncoder_free (s : State) (k : Nat) (x : Encoder) : (setEncoder s k x).free = s.free := rfl
@[simp] theorem setEncoder_ft0512 (s : State) (k : Nat) (x : Encoder) : (setEncoder s k x).ft0512 = s.ft0512 := rfl
@[simp] theorem setEncoder_bus (s : State) (k : Nat) (x : Encoder) : (setEncoder s k x).bus = s.bus := rfl
@[simp] theorem setEncoder_pl (s : State) (k : Nat) (x : Encoder) : (setEncoder s k x).pl = s.pl := rfl
@[simp] theorem setEncoder_inp (s : State) (k : Nat) (x : Encoder) : (setEncoder s k x).inp = s.inp := rfl
@[simp] theorem setEncoder_cal (s : State) (k : Nat) (x : Encoder) : (setEncoder s k x).cal = s.cal := rfl
@[simp] theorem setEncoder_lg (s : State) (k : Nat) (x : Encoder) : (setEncoder s k x).lg = s.lg := rfl
@[simp] theorem setEncoder_fab (s : State) (k : Nat) (x : Encoder) : (setEncoder s k x).fab = s.fab := rfl
@[simp] theorem setEncoder_mus (s : State) (k : Nat) (x : Encoder) : (setEncoder s k x).mus = s.mus := rfl
@[simp] theorem setEncoder_ar (s : State) (k : Nat) (x : Encoder) : (setEncoder s k x).ar = s.ar := rfl
@[simp] theorem setEncoder_ddr (s : State) (k : Nat) (x : Encoder) : (setEncoder s k x).ddr = s.ddr := rfl
@[simp] theorem setEncoder_mon (s : State) (k : Nat) (x : Encoder) : (setEncoder s k x).mon = s.mon := rfl
@[simp] theorem setEncoder_tp (s : State) (k : Nat) (x : Encoder) : (setEncoder s k x).tp = s.tp := rfl
@[simp] theorem setEncoder_play (s : State) (k : Nat) (x : Encoder) : (setEncoder s k x).play = s.play := rfl
@[simp] theorem setEncoder_pr (s : State) (k : Nat) (x : Encoder) : (setEncoder s k x).pr = s.pr := rfl
@[simp] theorem setEncoder_mt (s : State) (k : Nat) (x : Encoder) : (setEncoder s k x).mt = s.mt := rfl
@[simp] theorem setChan_pending (s : State) (n : Nat) (x : Chan) : (setChan s n x).pending = s.pending := rfl
@[simp] theorem setChan_now (s : State) (n : Nat) (x : Chan) : (setChan s n x).now = s.now := rfl
@[simp] theorem setChan_free (s : State) (n : Nat) (x : Chan) : (setChan s n x).free = s.free := rfl
@[simp] theorem setChan_ft0512 (s : State) (n : Nat) (x : Chan) : (setChan s n x).ft0512 = s.ft0512 := rfl
@[simp] theorem setChan_bus (s : State) (n : Nat) (x : Chan) : (setChan s n x).bus = s.bus := rfl
@[simp] theorem setChan_pl (s : State) (n : Nat) (x : Chan) : (setChan s n x).pl = s.pl := rfl
@[simp] theorem setChan_inp (s : State) (n : Nat) (x : Chan) : (setChan s n x).inp = s.inp := rfl
@[simp] theorem setChan_cal (s : State) (n : Nat) (x : Chan) : (setChan s n x).cal = s.cal := rfl
@[simp] theorem setChan_lg (s : State) (n : Nat) (x : Chan) : (setChan s n x).lg = s.lg := rfl
@[simp] theorem setChan_fab (s : State) (n : Nat) (x : Chan) : (setChan s n x).fab = s.fab := rfl
@[simp] theorem setChan_mus (s : State) (n : Nat) (x : Chan) : (setChan s n x).mus = s.mus := rfl
@[simp] theorem setChan_ar (s : State) (n : Nat) (x : Chan) : (setChan s n x).ar = s.ar := rfl
@[simp] theorem setChan_host (s : State) (n : Nat) (x : Chan) : (setChan s n x).host = s.host := rfl
@[simp] theorem setChan_mon (s : State) (n : Nat) (x : Chan) : (setChan s n x).mon = s.mon := rfl
@[simp] theorem setChan_tp (s : State) (n : Nat) (x : Chan) : (setChan s n x).tp = s.tp := rfl
@[simp] theorem setChan_play (s : State) (n : Nat) (x : Chan) : (setChan s n x).play = s.play := rfl
@[simp] theorem setChan_pr (s : State) (n : Nat) (x : Chan) : (setChan s n x).pr = s.pr := rfl
@[simp] theorem setChan_mt (s : State) (n : Nat) (x : Chan) : (setChan s n x).mt = s.mt := rfl
@[simp] theorem setPr_pending (s : State) (x : Pair) : (setPr s x).pending = s.pending := rfl
@[simp] theorem setPr_now (s : State) (x : Pair) : (setPr s x).now = s.now := rfl
@[simp] theorem setPr_free (s : State) (x : Pair) : (setPr s x).free = s.free := rfl
@[simp] theorem setPr_ft0512 (s : State) (x : Pair) : (setPr s x).ft0512 = s.ft0512 := rfl
@[simp] theorem setPr_bus (s : State) (x : Pair) : (setPr s x).bus = s.bus := rfl
@[simp] theorem setPr_pl (s : State) (x : Pair) : (setPr s x).pl = s.pl := rfl
@[simp] theorem setPr_inp (s : State) (x : Pair) : (setPr s x).inp = s.inp := rfl
@[simp] theorem setPr_cal (s : State) (x : Pair) : (setPr s x).cal = s.cal := rfl
@[simp] theorem setPr_lg (s : State) (x : Pair) : (setPr s x).lg = s.lg := rfl
@[simp] theorem setPr_fab (s : State) (x : Pair) : (setPr s x).fab = s.fab := rfl
@[simp] theorem setPr_mus (s : State) (x : Pair) : (setPr s x).mus = s.mus := rfl
@[simp] theorem setPr_ar (s : State) (x : Pair) : (setPr s x).ar = s.ar := rfl
@[simp] theorem setPr_ddr (s : State) (x : Pair) : (setPr s x).ddr = s.ddr := rfl
@[simp] theorem setPr_host (s : State) (x : Pair) : (setPr s x).host = s.host := rfl
@[simp] theorem setPr_mon (s : State) (x : Pair) : (setPr s x).mon = s.mon := rfl
@[simp] theorem setPr_tp (s : State) (x : Pair) : (setPr s x).tp = s.tp := rfl
@[simp] theorem setPr_play (s : State) (x : Pair) : (setPr s x).play = s.play := rfl
@[simp] theorem setPr_mt (s : State) (x : Pair) : (setPr s x).mt = s.mt := rfl
@[simp] theorem setCut_pending (s : State) (g : Nat) (x : Cut) : (setCut s g x).pending = s.pending := rfl
@[simp] theorem setCut_now (s : State) (g : Nat) (x : Cut) : (setCut s g x).now = s.now := rfl
@[simp] theorem setCut_free (s : State) (g : Nat) (x : Cut) : (setCut s g x).free = s.free := rfl
@[simp] theorem setCut_ft0512 (s : State) (g : Nat) (x : Cut) : (setCut s g x).ft0512 = s.ft0512 := rfl
@[simp] theorem setCut_bus (s : State) (g : Nat) (x : Cut) : (setCut s g x).bus = s.bus := rfl
@[simp] theorem setCut_pl (s : State) (g : Nat) (x : Cut) : (setCut s g x).pl = s.pl := rfl
@[simp] theorem setCut_inp (s : State) (g : Nat) (x : Cut) : (setCut s g x).inp = s.inp := rfl
@[simp] theorem setCut_cal (s : State) (g : Nat) (x : Cut) : (setCut s g x).cal = s.cal := rfl
@[simp] theorem setCut_lg (s : State) (g : Nat) (x : Cut) : (setCut s g x).lg = s.lg := rfl
@[simp] theorem setCut_fab (s : State) (g : Nat) (x : Cut) : (setCut s g x).fab = s.fab := rfl
@[simp] theorem setCut_mus (s : State) (g : Nat) (x : Cut) : (setCut s g x).mus = s.mus := rfl
@[simp] theorem setCut_ar (s : State) (g : Nat) (x : Cut) : (setCut s g x).ar = s.ar := rfl
@[simp] theorem setCut_ddr (s : State) (g : Nat) (x : Cut) : (setCut s g x).ddr = s.ddr := rfl
@[simp] theorem setCut_host (s : State) (g : Nat) (x : Cut) : (setCut s g x).host = s.host := rfl
@[simp] theorem setCut_mon (s : State) (g : Nat) (x : Cut) : (setCut s g x).mon = s.mon := rfl
@[simp] theorem setCut_tp (s : State) (g : Nat) (x : Cut) : (setCut s g x).tp = s.tp := rfl
@[simp] theorem setCut_play (s : State) (g : Nat) (x : Cut) : (setCut s g x).play = s.play := rfl
@[simp] theorem setCut_mt (s : State) (g : Nat) (x : Cut) : (setCut s g x).mt = s.mt := rfl
@[simp] theorem setTp_pending (s : State) (x : NetTime) : (setTp s x).pending = s.pending := rfl
@[simp] theorem setTp_now (s : State) (x : NetTime) : (setTp s x).now = s.now := rfl
@[simp] theorem setTp_free (s : State) (x : NetTime) : (setTp s x).free = s.free := rfl
@[simp] theorem setTp_ft0512 (s : State) (x : NetTime) : (setTp s x).ft0512 = s.ft0512 := rfl
@[simp] theorem setTp_bus (s : State) (x : NetTime) : (setTp s x).bus = s.bus := rfl
@[simp] theorem setTp_pl (s : State) (x : NetTime) : (setTp s x).pl = s.pl := rfl
@[simp] theorem setTp_inp (s : State) (x : NetTime) : (setTp s x).inp = s.inp := rfl
@[simp] theorem setTp_cal (s : State) (x : NetTime) : (setTp s x).cal = s.cal := rfl
@[simp] theorem setTp_lg (s : State) (x : NetTime) : (setTp s x).lg = s.lg := rfl
@[simp] theorem setTp_fab (s : State) (x : NetTime) : (setTp s x).fab = s.fab := rfl
@[simp] theorem setTp_mus (s : State) (x : NetTime) : (setTp s x).mus = s.mus := rfl
@[simp] theorem setTp_ar (s : State) (x : NetTime) : (setTp s x).ar = s.ar := rfl
@[simp] theorem setTp_ddr (s : State) (x : NetTime) : (setTp s x).ddr = s.ddr := rfl
@[simp] theorem setTp_host (s : State) (x : NetTime) : (setTp s x).host = s.host := rfl
@[simp] theorem setTp_mon (s : State) (x : NetTime) : (setTp s x).mon = s.mon := rfl
@[simp] theorem setTp_play (s : State) (x : NetTime) : (setTp s x).play = s.play := rfl
@[simp] theorem setTp_pr (s : State) (x : NetTime) : (setTp s x).pr = s.pr := rfl
@[simp] theorem setTp_mt (s : State) (x : NetTime) : (setTp s x).mt = s.mt := rfl
@[simp] theorem setEport_pending (s : State) (p : Nat) (x : EPort) : (setEport s p x).pending = s.pending := rfl
@[simp] theorem setEport_now (s : State) (p : Nat) (x : EPort) : (setEport s p x).now = s.now := rfl
@[simp] theorem setEport_free (s : State) (p : Nat) (x : EPort) : (setEport s p x).free = s.free := rfl
@[simp] theorem setEport_ft0512 (s : State) (p : Nat) (x : EPort) : (setEport s p x).ft0512 = s.ft0512 := rfl
@[simp] theorem setEport_bus (s : State) (p : Nat) (x : EPort) : (setEport s p x).bus = s.bus := rfl
@[simp] theorem setEport_pl (s : State) (p : Nat) (x : EPort) : (setEport s p x).pl = s.pl := rfl
@[simp] theorem setEport_inp (s : State) (p : Nat) (x : EPort) : (setEport s p x).inp = s.inp := rfl
@[simp] theorem setEport_cal (s : State) (p : Nat) (x : EPort) : (setEport s p x).cal = s.cal := rfl
@[simp] theorem setEport_lg (s : State) (p : Nat) (x : EPort) : (setEport s p x).lg = s.lg := rfl
@[simp] theorem setEport_fab (s : State) (p : Nat) (x : EPort) : (setEport s p x).fab = s.fab := rfl
@[simp] theorem setEport_mus (s : State) (p : Nat) (x : EPort) : (setEport s p x).mus = s.mus := rfl
@[simp] theorem setEport_ar (s : State) (p : Nat) (x : EPort) : (setEport s p x).ar = s.ar := rfl
@[simp] theorem setEport_ddr (s : State) (p : Nat) (x : EPort) : (setEport s p x).ddr = s.ddr := rfl
@[simp] theorem setEport_host (s : State) (p : Nat) (x : EPort) : (setEport s p x).host = s.host := rfl
@[simp] theorem setEport_mon (s : State) (p : Nat) (x : EPort) : (setEport s p x).mon = s.mon := rfl
@[simp] theorem setEport_play (s : State) (p : Nat) (x : EPort) : (setEport s p x).play = s.play := rfl
@[simp] theorem setEport_pr (s : State) (p : Nat) (x : EPort) : (setEport s p x).pr = s.pr := rfl
@[simp] theorem setEport_mt (s : State) (p : Nat) (x : EPort) : (setEport s p x).mt = s.mt := rfl
@[simp] theorem setAcc_pending (s : State) (n : Nat) (x : Acc) : (setAcc s n x).pending = s.pending := rfl
@[simp] theorem setAcc_now (s : State) (n : Nat) (x : Acc) : (setAcc s n x).now = s.now := rfl
@[simp] theorem setAcc_free (s : State) (n : Nat) (x : Acc) : (setAcc s n x).free = s.free := rfl
@[simp] theorem setAcc_ft0512 (s : State) (n : Nat) (x : Acc) : (setAcc s n x).ft0512 = s.ft0512 := rfl
@[simp] theorem setAcc_bus (s : State) (n : Nat) (x : Acc) : (setAcc s n x).bus = s.bus := rfl
@[simp] theorem setAcc_pl (s : State) (n : Nat) (x : Acc) : (setAcc s n x).pl = s.pl := rfl
@[simp] theorem setAcc_inp (s : State) (n : Nat) (x : Acc) : (setAcc s n x).inp = s.inp := rfl
@[simp] theorem setAcc_cal (s : State) (n : Nat) (x : Acc) : (setAcc s n x).cal = s.cal := rfl
@[simp] theorem setAcc_lg (s : State) (n : Nat) (x : Acc) : (setAcc s n x).lg = s.lg := rfl
@[simp] theorem setAcc_fab (s : State) (n : Nat) (x : Acc) : (setAcc s n x).fab = s.fab := rfl
@[simp] theorem setAcc_mus (s : State) (n : Nat) (x : Acc) : (setAcc s n x).mus = s.mus := rfl
@[simp] theorem setAcc_ar (s : State) (n : Nat) (x : Acc) : (setAcc s n x).ar = s.ar := rfl
@[simp] theorem setAcc_ddr (s : State) (n : Nat) (x : Acc) : (setAcc s n x).ddr = s.ddr := rfl
@[simp] theorem setAcc_host (s : State) (n : Nat) (x : Acc) : (setAcc s n x).host = s.host := rfl
@[simp] theorem setAcc_tp (s : State) (n : Nat) (x : Acc) : (setAcc s n x).tp = s.tp := rfl
@[simp] theorem setAcc_play (s : State) (n : Nat) (x : Acc) : (setAcc s n x).play = s.play := rfl
@[simp] theorem setAcc_pr (s : State) (n : Nat) (x : Acc) : (setAcc s n x).pr = s.pr := rfl
@[simp] theorem setAcc_mt (s : State) (n : Nat) (x : Acc) : (setAcc s n x).mt = s.mt := rfl
@[simp] theorem setWinOut_pending (s : State) (w : Nat) (b : Bool) : (setWinOut s w b).pending = s.pending := rfl
@[simp] theorem setWinOut_now (s : State) (w : Nat) (b : Bool) : (setWinOut s w b).now = s.now := rfl
@[simp] theorem setWinOut_free (s : State) (w : Nat) (b : Bool) : (setWinOut s w b).free = s.free := rfl
@[simp] theorem setWinOut_ft0512 (s : State) (w : Nat) (b : Bool) : (setWinOut s w b).ft0512 = s.ft0512 := rfl
@[simp] theorem setWinOut_bus (s : State) (w : Nat) (b : Bool) : (setWinOut s w b).bus = s.bus := rfl
@[simp] theorem setWinOut_pl (s : State) (w : Nat) (b : Bool) : (setWinOut s w b).pl = s.pl := rfl
@[simp] theorem setWinOut_inp (s : State) (w : Nat) (b : Bool) : (setWinOut s w b).inp = s.inp := rfl
@[simp] theorem setWinOut_cal (s : State) (w : Nat) (b : Bool) : (setWinOut s w b).cal = s.cal := rfl
@[simp] theorem setWinOut_lg (s : State) (w : Nat) (b : Bool) : (setWinOut s w b).lg = s.lg := rfl
@[simp] theorem setWinOut_fab (s : State) (w : Nat) (b : Bool) : (setWinOut s w b).fab = s.fab := rfl
@[simp] theorem setWinOut_mus (s : State) (w : Nat) (b : Bool) : (setWinOut s w b).mus = s.mus := rfl
@[simp] theorem setWinOut_ar (s : State) (w : Nat) (b : Bool) : (setWinOut s w b).ar = s.ar := rfl
@[simp] theorem setWinOut_ddr (s : State) (w : Nat) (b : Bool) : (setWinOut s w b).ddr = s.ddr := rfl
@[simp] theorem setWinOut_host (s : State) (w : Nat) (b : Bool) : (setWinOut s w b).host = s.host := rfl
@[simp] theorem setWinOut_tp (s : State) (w : Nat) (b : Bool) : (setWinOut s w b).tp = s.tp := rfl
@[simp] theorem setWinOut_play (s : State) (w : Nat) (b : Bool) : (setWinOut s w b).play = s.play := rfl
@[simp] theorem setWinOut_pr (s : State) (w : Nat) (b : Bool) : (setWinOut s w b).pr = s.pr := rfl
@[simp] theorem setWinOut_mt (s : State) (w : Nat) (b : Bool) : (setWinOut s w b).mt = s.mt := rfl

end Sys2Proof.Laws
end

