-- ==== Sys2Proof/Laws/Registers.lean ====
section
/-! SUPPORT. Laws of registers and their fields: a read after a write of the same field, of another field of the same
register, and of another register. -/

namespace Sys2Proof.Laws

open Sys2Proof.Machine

/-! ## Fields of a word -/

/-- A word cut at a field: above, the field, below. -/
theorem withBits_eq (v m l x : Nat) :
    withBits v m l x = ((v / 2 ^ l / 2 ^ (m + 1 - l)) * 2 ^ (m + 1 - l) + x % 2 ^ (m + 1 - l)) * 2 ^ l + v % 2 ^ l := by
  unfold withBits bitsOf
  generalize m + 1 - l = n
  have h1 : v = v / 2 ^ l * 2 ^ l + v % 2 ^ l := by rw [Nat.mul_comm]; exact (Nat.div_add_mod v (2 ^ l)).symm
  have h2 : v / 2 ^ l = (v / 2 ^ l / 2 ^ n) * 2 ^ n + v / 2 ^ l % 2 ^ n := by
    rw [Nat.mul_comm]; exact (Nat.div_add_mod _ _).symm
  generalize hq : v / 2 ^ l = q at *
  generalize hb : q % 2 ^ n = b at *
  generalize hh : q / 2 ^ n = u at *
  generalize x % 2 ^ n = y
  generalize v % 2 ^ l = lo at *
  have h3 : v = (u * 2 ^ n + b) * 2 ^ l + lo := by rw [← h2]; exact h1
  have h4 : v - b * 2 ^ l = u * 2 ^ n * 2 ^ l + lo := by rw [h3, Nat.add_mul]; omega
  rw [h4, Nat.add_mul]; omega

/-- The field reads as written. -/
theorem bitsOf_withBits_self (v m l x : Nat) : bitsOf (withBits v m l x) m l = x % 2 ^ (m + 1 - l) := by
  rw [withBits_eq]; unfold bitsOf
  have hl : v % 2 ^ l < 2 ^ l := Nat.mod_lt _ (Nat.two_pow_pos l)
  rw [Nat.mul_comm _ (2 ^ l), Nat.mul_add_div (Nat.two_pow_pos l), Nat.div_eq_of_lt hl, Nat.add_zero, Nat.mul_comm,
    Nat.mul_add_mod, Nat.mod_mod]

/-- A field below is as before. -/
theorem bitsOf_withBits_below (v m l x m' l' : Nat) (h : m' < l) (h' : l' ≤ m') :
    bitsOf (withBits v m l x) m' l' = bitsOf v m' l' := by
  rw [withBits_eq]; unfold bitsOf
  generalize (v / 2 ^ l / 2 ^ (m + 1 - l)) * 2 ^ (m + 1 - l) + x % 2 ^ (m + 1 - l) = u
  have e : 2 ^ l = 2 ^ l' * 2 ^ (m' + 1 - l') * 2 ^ (l - (m' + 1)) := by
    rw [← Nat.pow_add, ← Nat.pow_add]; congr 1; omega
  have key : ∀ a : Nat, (a * 2 ^ l + v % 2 ^ l) / 2 ^ l' % 2 ^ (m' + 1 - l') = v % 2 ^ l / 2 ^ l' % 2 ^ (m' + 1 - l') := by
    intro a
    have : a * 2 ^ l + v % 2 ^ l = 2 ^ l' * (2 ^ (m' + 1 - l') * (2 ^ (l - (m' + 1)) * a)) + v % 2 ^ l := by
      rw [e]; ac_rfl
    rw [this, Nat.mul_add_div (Nat.two_pow_pos l'), Nat.mul_add_mod]
  rw [key u]
  have := key (v / 2 ^ l)
  rw [← this]
  congr 2
  rw [Nat.mul_comm]; exact Nat.div_add_mod v (2 ^ l)

/-- A field above is as before. -/
theorem bitsOf_withBits_above (v m l x m' l' : Nat) (h : m < l') (h' : l ≤ m) :
    bitsOf (withBits v m l x) m' l' = bitsOf v m' l' := by
  rw [withBits_eq]; unfold bitsOf
  congr 1
  have e : l' = l + (m + 1 - l) + (l' - (m + 1)) := by omega
  rw [e, Nat.pow_add, Nat.pow_add]
  generalize l' - (m + 1) = k
  generalize m + 1 - l = n
  have hl : v % 2 ^ l < 2 ^ l := Nat.mod_lt _ (Nat.two_pow_pos l)
  have hx : x % 2 ^ n < 2 ^ n := Nat.mod_lt _ (Nat.two_pow_pos n)
  rw [← Nat.div_div_eq_div_mul, ← Nat.div_div_eq_div_mul, ← Nat.div_div_eq_div_mul, ← Nat.div_div_eq_div_mul]
  congr 1
  rw [Nat.mul_comm _ (2 ^ l), Nat.mul_add_div (Nat.two_pow_pos l), Nat.div_eq_of_lt hl, Nat.add_zero,
    Nat.mul_comm _ (2 ^ n), Nat.mul_add_div (Nat.two_pow_pos n), Nat.div_eq_of_lt hx, Nat.add_zero]

/-- A field's value fits its width. -/
theorem bitsOf_lt (v m l : Nat) : bitsOf v m l < 2 ^ (m + 1 - l) := Nat.mod_lt _ (Nat.two_pow_pos _)

/-- A word of 32 bits stays one. -/
theorem withBits_lt (v m l x : Nat) (hv : v < 2 ^ 32) (hm : m < 32) (hl : l ≤ m) : withBits v m l x < 2 ^ 32 := by
  rw [withBits_eq]
  have e : 2 ^ 32 = 2 ^ l * (2 ^ (m + 1 - l) * 2 ^ (31 - m)) := by rw [← Nat.pow_add, ← Nat.pow_add]; congr 1; omega
  generalize hn : m + 1 - l = n at *
  have hx : x % 2 ^ n < 2 ^ n := Nat.mod_lt _ (Nat.two_pow_pos n)
  have hlo : v % 2 ^ l < 2 ^ l := Nat.mod_lt _ (Nat.two_pow_pos l)
  have hq : v / 2 ^ l / 2 ^ n < 2 ^ (31 - m) := by
    rw [Nat.div_div_eq_div_mul]
    apply Nat.div_lt_of_lt_mul
    calc v < 2 ^ 32 := hv
      _ = _ := by rw [e, Nat.mul_assoc]
  generalize v / 2 ^ l / 2 ^ n = q at *
  generalize x % 2 ^ n = y at *
  have h1 : q * 2 ^ n + y < 2 ^ n * 2 ^ (31 - m) := by
    calc q * 2 ^ n + y < q * 2 ^ n + 2 ^ n := by omega
      _ = (q + 1) * 2 ^ n := by rw [Nat.add_mul, Nat.one_mul]
      _ ≤ 2 ^ (31 - m) * 2 ^ n := Nat.mul_le_mul_right _ hq
      _ = _ := Nat.mul_comm _ _
  rw [e]
  generalize q * 2 ^ n + y = u at *
  calc u * 2 ^ l + v % 2 ^ l < u * 2 ^ l + 2 ^ l := by omega
    _ = (u + 1) * 2 ^ l := by rw [Nat.add_mul, Nat.one_mul]
    _ ≤ (2 ^ n * 2 ^ (31 - m)) * 2 ^ l := Nat.mul_le_mul_right _ h1
    _ = _ := Nat.mul_comm _ _

/-! ## Registers -/

/-- A register read after a register write. -/
@[simp] theorem reg_setReg_self (s : State) (o : Nat) (v : W32) : reg (setReg s o v) o = v := by
  simp [reg, setReg]

theorem reg_setReg_ne (s : State) {o p : Nat} (v : W32) (h : p ≠ o) : reg (setReg s o v) p = reg s p :=
  sget_sset_ne _ _ _ h

theorem reg_setReg (s : State) (o p : Nat) (v : W32) : reg (setReg s o v) p = if p = o then v else reg s p :=
  sget_sset _ _ _ _ _

theorem reg_setFld_ne (s : State) (x : Fld) (v : Nat) {p : Nat} (h : p ≠ x.off) : reg (setFld s x v) p = reg s p :=
  reg_setReg_ne s _ h

theorem fld_setReg_ne (s : State) (x : Fld) (v : W32) {p : Nat} (h : x.off ≠ p) : fld (setReg s p v) x = fld s x := by
  unfold fld; rw [reg_setReg_ne s v h]

theorem fld_setReg_self (s : State) (x : Fld) (v : W32) : fld (setReg s x.off v) x = bitsOf v.toNat x.msb x.lsb := by
  unfold fld; rw [reg_setReg_self]

/-- A field read after it is written. -/
theorem fld_setFld_self (s : State) (x : Fld) (v : Nat) (h : x.lsb ≤ x.msb) (h' : x.msb < 32) :
    fld (setFld s x v) x = v % 2 ^ (x.msb + 1 - x.lsb) := by
  unfold fld setFld
  rw [reg_setReg_self, BitVec.toNat_ofNat, Nat.mod_eq_of_lt (withBits_lt _ _ _ _ (reg s x.off).isLt h' h), bitsOf_withBits_self]

/-- A field of another register. -/
theorem fld_setFld_off (s : State) (x y : Fld) (v : Nat) (h : y.off ≠ x.off) : fld (setFld s x v) y = fld s y :=
  fld_setReg_ne s y _ h

/-- Another field of the same register. -/
theorem fld_setFld_other (s : State) (x y : Fld) (v : Nat) (e : y.off = x.off) (h : y.msb < x.lsb ∨ x.msb < y.lsb)
    (hx : x.lsb ≤ x.msb) (hx' : x.msb < 32) (hy : y.lsb ≤ y.msb) : fld (setFld s x v) y = fld s y := by
  unfold fld setFld
  rw [e, reg_setReg_self, BitVec.toNat_ofNat, Nat.mod_eq_of_lt (withBits_lt _ _ _ _ (reg s x.off).isLt hx' hx)]
  rcases h with h | h
  · exact bitsOf_withBits_below _ _ _ _ _ _ h hy
  · exact bitsOf_withBits_above _ _ _ _ _ _ h hx

/-- A field fits its width. -/
theorem fld_lt (s : State) (x : Fld) : fld s x < 2 ^ (x.msb + 1 - x.lsb) := bitsOf_lt _ _ _

/-- An event sets every bit of its sts field. -/
theorem fld_sts_self (s : State) (x : Fld) (h : x.lsb ≤ x.msb) (h' : x.msb < 32) : fld (sts s x) x = 2 ^ (x.msb + 1 - x.lsb) - 1 := by
  unfold sts
  rw [fld_setFld_self s x _ h h', Nat.mod_eq_of_lt]
  have := Nat.two_pow_pos (x.msb + 1 - x.lsb)
  omega

/-- A flag reads as written. -/
theorem flag_setFlag_self (s : State) (x : Fld) (b : Bool) (h : x.msb = x.lsb) (h' : x.msb < 32) : flag (setFlag s x b) x = b := by
  unfold flag setFlag
  rw [fld_setFld_self s x _ (by omega) h', h]
  cases b <;> simp

/-- The event of a one-bit sts field is seen. -/
theorem flag_sts_self (s : State) (x : Fld) (h : x.msb = x.lsb) (h' : x.msb < 32) : flag (sts s x) x = true := by
  unfold flag
  rw [fld_sts_self s x (by omega) h', h]
  simp

/-- A saturating count after some events. -/
theorem fld_addCnt_self (s : State) (x : Fld) (n : Nat) (h : x.lsb ≤ x.msb) (h' : x.msb < 32) :
    fld (addCnt s x n) x = min (fld s x + n) (2 ^ (x.msb + 1 - x.lsb) - 1) := by
  unfold addCnt
  rw [fld_setFld_self s x _ h h', Nat.mod_eq_of_lt]
  have := Nat.two_pow_pos (x.msb + 1 - x.lsb)
  omega

/-- A register write keeps the register table's canonical form. -/
theorem regs_wf_setReg (s : State) (o : Nat) (v : W32) (h : storeWf regReset s.bus.regs = true) :
    storeWf regReset (setReg s o v).bus.regs = true := storeWf_sset _ _ _ _ h

/-! ## Updates that leave every register alone -/

@[simp] theorem reg_setMaq (s : State) (off : Nat) (v : W32) (i : Nat) : reg (setMaq s off v) i = reg s i := rfl
@[simp] theorem fld_setMaq (s : State) (off : Nat) (v : W32) (i : Fld) : fld (setMaq s off v) i = fld s i := rfl
@[simp] theorem flag_setMaq (s : State) (off : Nat) (v : W32) (i : Fld) : flag (setMaq s off v) i = flag s i := rfl
@[simp] theorem reg_setCom (s : State) (off : Nat) (v : W32) (i : Nat) : reg (setCom s off v) i = reg s i := rfl
@[simp] theorem fld_setCom (s : State) (off : Nat) (v : W32) (i : Fld) : fld (setCom s off v) i = fld s i := rfl
@[simp] theorem flag_setCom (s : State) (off : Nat) (v : W32) (i : Fld) : flag (setCom s off v) i = flag s i := rfl
@[simp] theorem reg_setLatch (s : State) (off : Nat) (v : W32) (i : Nat) : reg (setLatch s off v) i = reg s i := rfl
@[simp] theorem fld_setLatch (s : State) (off : Nat) (v : W32) (i : Fld) : fld (setLatch s off v) i = fld s i := rfl
@[simp] theorem flag_setLatch (s : State) (off : Nat) (v : W32) (i : Fld) : flag (setLatch s off v) i = flag s i := rfl
@[simp] theorem reg_setGuardPair (s : State) (blk : Nat) (p : Option GuardPair) (i : Nat) : reg (setGuardPair s blk p) i = reg s i := rfl
@[simp] theorem fld_setGuardPair (s : State) (blk : Nat) (p : Option GuardPair) (i : Fld) : fld (setGuardPair s blk p) i = fld s i := rfl
@[simp] theorem flag_setGuardPair (s : State) (blk : Nat) (p : Option GuardPair) (i : Fld) : flag (setGuardPair s blk p) i = flag s i := rfl
@[simp] theorem reg_setView (s : State) (f : Nat) (v : W32) (i : Nat) : reg (setView s f v) i = reg s i := rfl
@[simp] theorem fld_setView (s : State) (f : Nat) (v : W32) (i : Fld) : fld (setView s f v) i = fld s i := rfl
@[simp] theorem flag_setView (s : State) (f : Nat) (v : W32) (i : Fld) : flag (setView s f v) i = flag s i := rfl
@[simp] theorem reg_setFnHost (s : State) (f : Nat) (x : FnHost) (i : Nat) : reg (setFnHost s f x) i = reg s i := rfl
@[simp] theorem fld_setFnHost (s : State) (f : Nat) (x : FnHost) (i : Fld) : fld (setFnHost s f x) i = fld s i := rfl
@[simp] theorem flag_setFnHost (s : State) (f : Nat) (x : FnHost) (i : Fld) : flag (setFnHost s f x) i = flag s i := rfl
@[simp] theorem reg_setHring (s : State) (r : Nat) (x : HRing) (i : Nat) : reg (setHring s r x) i = reg s i := rfl
@[simp] theorem fld_setHring (s : State) (r : Nat) (x : HRing) (i : Fld) : fld (setHring s r x) i = fld s i := rfl
@[simp] theorem flag_setHring (s : State) (r : Nat) (x : HRing) (i : Fld) : flag (setHring s r x) i = flag s i := rfl
@[simp] theorem reg_setStream (s : State) (h : Nat) (x : Stream) (i : Nat) : reg (setStream s h x) i = reg s i := rfl
@[simp] theorem fld_setStream (s : State) (h : Nat) (x : Stream) (i : Fld) : fld (setStream s h x) i = fld s i := rfl
@[simp] theorem flag_setStream (s : State) (h : Nat) (x : Stream) (i : Fld) : flag (setStream s h x) i = flag s i := rfl
@[simp] theorem reg_setLane (s : State) (n : Nat) (x : Lane) (i : Nat) : reg (setLane s n x) i = reg s i := rfl
@[simp] theorem fld_setLane (s : State) (n : Nat) (x : Lane) (i : Fld) : fld (setLane s n x) i = fld s i := rfl
@[simp] theorem flag_setLane (s : State) (n : Nat) (x : Lane) (i : Fld) : flag (setLane s n x) i = flag s i := rfl
@[simp] theorem reg_setGroup (s : State) (g : Nat) (x : Group) (i : Nat) : reg (setGroup s g x) i = reg s i := rfl
@[simp] theorem fld_setGroup (s : State) (g : Nat) (x : Group) (i : Fld) : fld (setGroup s g x) i = fld s i := rfl
@[simp] theorem flag_setGroup (s : State) (g : Nat) (x : Group) (i : Fld) : flag (setGroup s g x) i = flag s i := rfl
@[simp] theorem reg_setHold (s : State) (p n : Nat) (i : Nat) : reg (setHold s p n) i = reg s i := rfl
@[simp] theorem fld_setHold (s : State) (p n : Nat) (i : Fld) : fld (setHold s p n) i = fld s i := rfl
@[simp] theorem flag_setHold (s : State) (p n : Nat) (i : Fld) : flag (setHold s p n) i = flag s i := rfl
@[simp] theorem reg_setCalGroup (s : State) (g : Nat) (x : CalGroup) (i : Nat) : reg (setCalGroup s g x) i = reg s i := rfl
@[simp] theorem fld_setCalGroup (s : State) (g : Nat) (x : CalGroup) (i : Fld) : fld (setCalGroup s g x) i = fld s i := rfl
@[simp] theorem flag_setCalGroup (s : State) (g : Nat) (x : CalGroup) (i : Fld) : flag (setCalGroup s g x) i = flag s i := rfl
@[simp] theorem reg_setSource (s : State) (c : Nat) (x : Source) (i : Nat) : reg (setSource s c x) i = reg s i := rfl
@[simp] theorem fld_setSource (s : State) (c : Nat) (x : Source) (i : Fld) : fld (setSource s c x) i = fld s i := rfl
@[simp] theorem flag_setSource (s : State) (c : Nat) (x : Source) (i : Fld) : flag (setSource s c x) i = flag s i := rfl
@[simp] theorem reg_setCluster (s : State) (c : Nat) (x : Cluster) (i : Nat) : reg (setCluster s c x) i = reg s i := rfl
@[simp] theorem fld_setCluster (s : State) (c : Nat) (x : Cluster) (i : Fld) : fld (setCluster s c x) i = fld s i := rfl
@[simp] theorem flag_setCluster (s : State) (c : Nat) (x : Cluster) (i : Fld) : flag (setCluster s c x) i = flag s i := rfl
@[simp] theorem reg_setEngine (s : State) (e : Nat) (x : Engine) (i : Nat) : reg (setEngine s e x) i = reg s i := rfl
@[simp] theorem fld_setEngine (s : State) (e : Nat) (x : Engine) (i : Fld) : fld (setEngine s e x) i = fld s i := rfl
@[simp] theorem flag_setEngine (s : State) (e : Nat) (x : Engine) (i : Fld) : flag (setEngine s e x) i = flag s i := rfl
@[simp] theorem reg_setMu (s : State) (u : Nat) (x : Mu) (i : Nat) : reg (setMu s u x) i = reg s i := rfl
@[simp] theorem fld_setMu (s : State) (u : Nat) (x : Mu) (i : Fld) : fld (setMu s u x) i = fld s i := rfl
@[simp] theorem flag_setMu (s : State) (u : Nat) (x : Mu) (i : Fld) : flag (setMu s u x) i = flag s i := rfl
@[simp] theorem reg_setBank (s : State) (b : Nat) (x : MuBank) (i : Nat) : reg (setBank s b x) i = reg s i := rfl
@[simp] theorem fld_setBank (s : State) (b : Nat) (x : MuBank) (i : Fld) : fld (setBank s b x) i = fld s i := rfl
@[simp] theorem flag_setBank (s : State) (b : Nat) (x : MuBank) (i : Fld) : flag (setBank s b x) i = flag s i := rfl
@[simp] theorem reg_setCring (s : State) (r : Nat) (x : CRing) (i : Nat) : reg (setCring s r x) i = reg s i := rfl
@[simp] theorem fld_setCring (s : State) (r : Nat) (x : CRing) (i : Fld) : fld (setCring s r x) i = fld s i := rfl
@[simp] theorem flag_setCring (s : State) (r : Nat) (x : CRing) (i : Fld) : flag (setCring s r x) i = flag s i := rfl
@[simp] theorem reg_setClaim (s : State) (q : Nat) (x : Option Region) (i : Nat) : reg (setClaim s q x) i = reg s i := rfl
@[simp] theorem fld_setClaim (s : State) (q : Nat) (x : Option Region) (i : Fld) : fld (setClaim s q x) i = fld s i := rfl
@[simp] theorem flag_setClaim (s : State) (q : Nat) (x : Option Region) (i : Fld) : flag (setClaim s q x) i = flag s i := rfl
@[simp] theorem reg_setWordErr (s : State) (a e : Nat) (i : Nat) : reg (setWordErr s a e) i = reg s i := rfl
@[simp] theorem fld_setWordErr (s : State) (a e : Nat) (i : Fld) : fld (setWordErr s a e) i = fld s i := rfl
@[simp] theorem flag_setWordErr (s : State) (a e : Nat) (i : Fld) : flag (setWordErr s a e) i = flag s i := rfl
@[simp] theorem reg_setSeqr (s : State) (q : Nat) (x : Sequencer) (i : Nat) : reg (setSeqr s q x) i = reg s i := rfl
@[simp] theorem fld_setSeqr (s : State) (q : Nat) (x : Sequencer) (i : Fld) : fld (setSeqr s q x) i = fld s i := rfl
@[simp] theorem flag_setSeqr (s : State) (q : Nat) (x : Sequencer) (i : Fld) : flag (setSeqr s q x) i = flag s i := rfl
@[simp] theorem reg_setTrigger (s : State) (t : Nat) (x : Trigger) (i : Nat) : reg (setTrigger s t x) i = reg s i := rfl
@[simp] theorem fld_setTrigger (s : State) (t : Nat) (x : Trigger) (i : Fld) : fld (setTrigger s t x) i = fld s i := rfl
@[simp] theorem flag_setTrigger (s : State) (t : Nat) (x : Trigger) (i : Fld) : flag (setTrigger s t x) i = flag s i := rfl
@[simp] theorem reg_setOvr (s : State) (p : Nat) (x : Option Override) (sample : Nat) (i : Nat) : reg (setOvr s p x sample) i = reg s i := rfl
@[simp] theorem fld_setOvr (s : State) (p : Nat) (x : Option Override) (sample : Nat) (i : Fld) : fld (setOvr s p x sample) i = fld s i := rfl
@[simp] theorem flag_setOvr (s : State) (p : Nat) (x : Option Override) (sample : Nat) (i : Fld) : flag (setOvr s p x sample) i = flag s i := rfl
@[simp] theorem reg_setMsixVec (s : State) (f v : Nat) (x : MsixVec) (i : Nat) : reg (setMsixVec s f v x) i = reg s i := rfl
@[simp] theorem fld_setMsixVec (s : State) (f v : Nat) (x : MsixVec) (i : Fld) : fld (setMsixVec s f v x) i = fld s i := rfl
@[simp] theorem flag_setMsixVec (s : State) (f v : Nat) (x : MsixVec) (i : Fld) : flag (setMsixVec s f v x) i = flag s i := rfl
@[simp] theorem reg_setEncoder (s : State) (k : Nat) (x : Encoder) (i : Nat) : reg (setEncoder s k x) i = reg s i := rfl
@[simp] theorem fld_setEncoder (s : State) (k : Nat) (x : Encoder) (i : Fld) : fld (setEncoder s k x) i = fld s i := rfl
@[simp] theorem flag_setEncoder (s : State) (k : Nat) (x : Encoder) (i : Fld) : flag (setEncoder s k x) i = flag s i := rfl
@[simp] theorem reg_setChan (s : State) (n : Nat) (x : Chan) (i : Nat) : reg (setChan s n x) i = reg s i := rfl
@[simp] theorem fld_setChan (s : State) (n : Nat) (x : Chan) (i : Fld) : fld (setChan s n x) i = fld s i := rfl
@[simp] theorem flag_setChan (s : State) (n : Nat) (x : Chan) (i : Fld) : flag (setChan s n x) i = flag s i := rfl
@[simp] theorem reg_setPr (s : State) (x : Pair) (i : Nat) : reg (setPr s x) i = reg s i := rfl
@[simp] theorem fld_setPr (s : State) (x : Pair) (i : Fld) : fld (setPr s x) i = fld s i := rfl
@[simp] theorem flag_setPr (s : State) (x : Pair) (i : Fld) : flag (setPr s x) i = flag s i := rfl
@[simp] theorem reg_setCut (s : State) (g : Nat) (x : Cut) (i : Nat) : reg (setCut s g x) i = reg s i := rfl
@[simp] theorem fld_setCut (s : State) (g : Nat) (x : Cut) (i : Fld) : fld (setCut s g x) i = fld s i := rfl
@[simp] theorem flag_setCut (s : State) (g : Nat) (x : Cut) (i : Fld) : flag (setCut s g x) i = flag s i := rfl
@[simp] theorem reg_setTp (s : State) (x : NetTime) (i : Nat) : reg (setTp s x) i = reg s i := rfl
@[simp] theorem fld_setTp (s : State) (x : NetTime) (i : Fld) : fld (setTp s x) i = fld s i := rfl
@[simp] theorem flag_setTp (s : State) (x : NetTime) (i : Fld) : flag (setTp s x) i = flag s i := rfl
@[simp] theorem reg_setEport (s : State) (p : Nat) (x : EPort) (i : Nat) : reg (setEport s p x) i = reg s i := rfl
@[simp] theorem fld_setEport (s : State) (p : Nat) (x : EPort) (i : Fld) : fld (setEport s p x) i = fld s i := rfl
@[simp] theorem flag_setEport (s : State) (p : Nat) (x : EPort) (i : Fld) : flag (setEport s p x) i = flag s i := rfl
@[simp] theorem reg_setAcc (s : State) (n : Nat) (x : Acc) (i : Nat) : reg (setAcc s n x) i = reg s i := rfl
@[simp] theorem fld_setAcc (s : State) (n : Nat) (x : Acc) (i : Fld) : fld (setAcc s n x) i = fld s i := rfl
@[simp] theorem flag_setAcc (s : State) (n : Nat) (x : Acc) (i : Fld) : flag (setAcc s n x) i = flag s i := rfl
@[simp] theorem reg_setWinOut (s : State) (w : Nat) (b : Bool) (i : Nat) : reg (setWinOut s w b) i = reg s i := rfl
@[simp] theorem fld_setWinOut (s : State) (w : Nat) (b : Bool) (i : Fld) : fld (setWinOut s w b) i = fld s i := rfl
@[simp] theorem flag_setWinOut (s : State) (w : Nat) (b : Bool) (i : Fld) : flag (setWinOut s w b) i = flag s i := rfl

end Sys2Proof.Laws
end

