-- ==== Sys2Proof/Tests/Slice0.lean ====
section
/-! SUPPORT. Witnesses that the hypotheses of the obligations can be met, one theorem for each of their clauses (wit_<obligation>_<clause>);
tests of well-formedness; and the manual's worked examples. -/

namespace Sys2Proof.Tests

open Sys2Proof Sys2Proof.Machine

set_option Elab.async false

/-! ## Small states -/

def a0 : Access := ⟨0, 0⟩

/-- The block 20 ms after reset, where BAR0 answers (R7), with Plinth running. -/
def up : State :=
  { State.reset with now := 32000000, pl := { running := true, edge := 200000, t := 204800000, tc := 204798976, hist := [204800000] } }

/-- Fields at values. -/
def fl (l : List (Fld × Nat)) (s : State) : State := l.foldl (fun s x => setFld s x.1 x.2) s

def boot : Boot := ⟨0, 16, 4, []⟩

def slp : Sleep := ⟨5, 7, 0, 0, false, 0, false, false, none⟩

def rd : BaselineReading := ⟨12, 3⟩

/-- Group 0 emits, and lane 3 stamps both edges. -/
def edgeUp : State := setGroup (fl [(IN_CFG.EDGE_B 1, 3)] up) 0 { ready := true }

/-- A capture ring takes every group's tiles. -/
def ringed (s : State) : State := fl [(CR_STAT.RUNNING 0, 1), (CR_SRC_LO.SRC 0, 1)] s

def win0 : Win := ⟨3, 0, 0x40, 7, 5, 0, 0, none, false, 0, 0⟩

theorem reached_of {s : State} {a : Access} {o : Nat} (h : (reaches s a && regPresent s o && mayWrite s a.func o) = true) :
    Reached s a o := by
  simp only [Bool.and_eq_true] at h; exact ⟨h.1.1, h.1.2, h.2⟩

theorem takes_of {s : State} {o : Nat} (h : (decide (o % 4 = 0 ∧ o % 0x10000 < 0xF000 ∧ o < 0x160000 ∧ o / 0x10000 ≠ 2 ∧
      o ∉ [PL_CTRL.off, PL_ADJ_SET_HI.off, PG_OVR_EN_LO.off, PG_OVR_EN_HI.off, MA_REF.off]) && decide (∀ g : Nat, g < 64 → o ≠ LG_INJ_DATA.off g) &&
    decide (∀ f : Nat, f < 8 → o ≠ HI_DB_CFG.off f) && decide (o / 0x10000 = 3 → ∀ r : Nat, r < 64 → running s r = false ∧ stopping s r = false) &&
    decide (∀ n : Nat, n < 4 → o ≠ MC_ORG.off n) && decide (o / 0x10000 = 13 → setInUse s ((o % 0x10000 - 0x1000) / 16) = false) &&
    decide (∀ q : Nat, q < 4 → o ≠ PG_STARVE_GR_CNT.off q ∧
      o ≠ PG_STORE_CFG.off q ∧ (o / 0x10000 = 16 → claimOf s q = none)) &&
    decide (o / 0x10000 = 17 → ttArmed s (o % 0x10000 / 64) = false) && decide (∀ w : Nat, w < 64 → o ≠ MA_WIN_CFG.off w)) = true) :
    TakesPlain s o := by
  simp only [Bool.and_eq_true, decide_eq_true_eq] at h
  exact ⟨h.1.1.1.1.1.1.1.1.1, h.1.1.1.1.1.1.1.1.2.1, h.1.1.1.1.1.1.1.1.2.2.1, h.1.1.1.1.1.1.1.1.2.2.2.1, h.1.1.1.1.1.1.1.1.2.2.2.2,
    h.1.1.1.1.1.1.1.2, h.1.1.1.1.1.1.2, h.1.1.1.1.1.2, h.1.1.1.1.2, h.1.1.1.2, h.1.1.2, h.1.2, h.2⟩

/-- The row of a register. -/
def rowAt (o : Nat) : RegRow := ((findReg o).getD (⟨0, 0, 0, 0, 0, .none, []⟩, 0, 0)).1

/-- Host ring 0 is a running command ring of 8 entries at 0x10000, with one descriptor to take. -/
def cmdUp : State :=
  fl [(HI_RING_BASE_LO.ADDR 0, 0x10000), (HI_RING_CFG.KIND 0, 1), (HI_RING_CFG.SIZE_LOG2 0, 3), (HI_RING_STAT.RUNNING 0, 1),
      (HI_RING_IDX.HOST 0, 8), (HI_RING_IDX.DEV 0, 7)] up

/-- A descriptor of host ring 0 with TAG 9, as its bytes (R270). -/
def desc (op addr : Nat) (p0 : W64) (p1 : W32) (data : Option (List Byte)) : Command :=
  ⟨0, leBytes op 2 ++ [0, 0] ++ leBytes 9 4 ++ leBytes addr 8 ++ leBytes p0.toNat 8 ++ leBytes p1.toNat 4 ++ leBytes 0 4, data⟩

/-- Its buffer lies at 0x20000. -/
def cmd (op : Nat) (p0 : W64) (p1 : W32) (data : Option (List Byte)) : Command := desc op 0x20000 p0 p1 data

/-- A tile of one word. -/
def tile1 : Tile := ⟨1, [7, 0, 0, 0, 0, 0, 0]⟩

def scanPair : GuardPair := ⟨MQ_SCAN_REF.off % 0x10000 / 4, 5, 0, 32000000, false, false, false⟩

def note0 : Notice := ⟨0x403, 0, 0, 2, 5, 31000000, 77⟩

/-- A set of bins, each 1,024, as the host writes it. -/
def tableBytes : List Byte := (List.replicate 256 [(0 : Byte), 4, 64]).flatten

/-- A descriptor of host ring 0 without a buffer. -/
def cmd0 (op : Nat) (p0 : W64) (p1 : W32) (data : Option (List Byte)) : Command := desc op 0 p0 p1 data

def scanUp : State := fl [(MQ_SCAN_STAT.REF_SET, 1)] { up with bus := { up.bus with scanOn := true } }

theorem taken_of {s : State} {c : Command} {n : Nat} (h : (cmdReady s c && decide (c.opcode = n) && !reservedBad c) = true) :
    CmdTaken s c n := by
  simp only [Bool.and_eq_true, decide_eq_true_eq, Bool.not_eq_true'] at h; exact ⟨h.1.1, h.1.2, h.2⟩


theorem scanCrc_setReg (s : State) (o : Nat) (v : W32) : scanCrc (setReg s o v) = scanCrc s := rfl

/-- Fuse word 4 enables pairing; the link runs; a standby that is aligned; an active. -/
def paired : State := { up with ar := { shadow := [(4, 0x40000)] } }
def linked : State := fl [(PR_STAT.LINK_UP, 1)] paired
def standby : State := fl [(PR_STAT.ROLE, 1), (PR_STAT.ALIGNED, 1)] linked
def active3 : State := fl [(PR_STAT.ROLE, 3)] linked

/-- Group 63 is exported by stream 0. -/
def cutUp : State := setReg (fl [(PK_CFG.EN 0, 1), (LG_SEQ.SEQ 63, 1)] active3) (PK_SRC_HI.off 0) 0x80000000

/-- Two tiles wait at the fabric since one cycle. -/
def twoIn : State := setSource (setSource up 3 { entry := [(tile1, 5)] }) 0x53 { entry := [(tile1, 5)] }

theorem runs_of {s : State} {e : Nat} {w : W32} {opc : Nat}
    (h : (decide (e < nEngines s) && decide ((engine s e).st = 2) && !(engine s e).overrun && decide (issueCycle (engine s e) ≤ eclk s) &&
      decide (fetch (engine s e) = w) && legal w && decide (iOpc w = opc)) = true) : Runs s e w opc := by
  simp only [Bool.and_eq_true, decide_eq_true_eq, Bool.not_eq_true'] at h
  exact ⟨h.1.1.1.1.1.1, h.1.1.1.1.1.2, h.1.1.1.1.2, h.1.1.1.2, h.1.1.2, h.1.2, h.2⟩

/-- Engine 255 runs, with a word at its PC of 4,094 and registers. -/
def eng (w : W32) (g : Store W64) : Engine := { st := 2, pc := 4094, g := g, imem := [(4094, w)] }
def prog (w : W32) (g : Store W64) : State := setEngine up 255 (eng w g)

/-- A tile of seven words that passes its check. -/
def good : Tile := mkTile 5 false false 0 9 [1, 2, 3, 4, 5, 6, 7]

def meas0 : Meas := { tOpen := 0, mode := 5, gateLen := 0, nmax := 0, withT := false, emit := false }

/-- Channel 3 is trained with 8 units, and scrubbed. -/
def ddrUp : State := fl [(MC_STAT.TRAINED 3, 1), (MC_STAT.SIZE 3, 8), (MC_SCRUB.EN 3, 1)] up

/-- Capture ring 15 of 64 slots runs on channel 3. -/
def ringUp (x : CRing) : State := setCring (fl [(CR_STAT.RUNNING 15, 1), (CR_BIND_RD.BIND 15, 3)] ddrUp) 15 { x with n := 64 }

/-- Stream 63 runs, its entries at 0x10000. -/
def streamOn (s : State) : State :=
  fl [(HI_RING_STAT.RUNNING 63, 1), (PK_CFG.EN 63, 1), (HI_RING_BASE_LO.ADDR 63, 0x10000), (HI_RING_CFG.SIZE_LOG2 63, 3)] s

def blk0 : Blk :=
  { rep := false, mode := 0, q := 0, seq := 5, off := 0, limit := 2048, refT := 5, at_ := 32000000, hasTile := true, pay := 0
    nbits := 0, list := [], corrupt := false, rawMarked := false, prev := [], hist := [], sums := [], kept := [], raws := []
    seqs := [], shut := false }

def buf0 : Buf := ⟨1, 0x20000, 9, 0, [], 0, false, false, some 0, []⟩

def parentId : List Byte := beBytes 0x1122334455667788 8 ++ beBytes 1 2

/-- A PTP message of the parent on layer 2, by its type and sequence number, with its body. -/
def ptpFrame (ty seq : Nat) (body : List Byte) : List Byte :=
  beBytes 0x011B19000000 6 ++ beBytes 5 6 ++ beBytes 0x88F7 2 ++ beBytes ty 1 ++ beBytes 2 1 ++ beBytes 44 2 ++ beBytes 0 16 ++
    parentId ++ beBytes seq 2 ++ beBytes 0 2 ++ body

def ptp0 : PtpAt := ⟨0, 14, none, true, none⟩

/-- The servo in a state, port 0 being its slave port. -/
def servoUp (st : Nat) : State :=
  fl [(TP_CFG.EN, 1), (EP_CFG.EN 0, 1), (EP_STAT.LINK 0, 1), (EP_CFG.TRANSPORT 0, 1), (TP_STAT.STATE, st)]
    { up with tp := { parent := some parentId, lastEdge := some 198400, dreq := [⟨9, 5, 4, some 3, none⟩] } }

def sync9 : Frame := ⟨0, ptpFrame 0 9 (beBytes 5 6 ++ beBytes 7 4 ++ beBytes 0 10), true, 2048⟩
def follow9 : Frame := ⟨0, ptpFrame 8 9 (beBytes 5 6 ++ beBytes 7 4 ++ beBytes 0 10), true, 2048⟩
def resp9 : Frame := ⟨0, ptpFrame 9 9 (beBytes 5 6 ++ beBytes 7 4 ++ beBytes 0x52594CFFFE000000 8 ++ beBytes 1 2), true, 2048⟩
def announce9 : Frame := ⟨0, ptpFrame 11 9 (beBytes 0 30), true, 2048⟩
def anchor0 : Anchor := ⟨204800000, 5, 0, 0, 0, 1⟩

/-- Sequencer 3 has its store of two units on channel 3. -/
def claimUp (s : State) : State :=
  setClaim (fl [(MC_STAT.TRAINED 3, 1), (MC_STAT.SIZE 3, 8)] s) 3 (some ⟨3, 5, 2⟩)

/-- An entry of eight granules that stops, or names a jump target in slot 2. -/
def inst8 : Inst := ⟨5, 0, 0x8000000100000000, 0x0010140000000000⟩
def fetch8 : Fetched := freshFetch inst8
def granule0 : List Byte := List.replicate 128 7

/-- Sequencer 3 plays. -/
def seqUp (Q : Sequencer) : State := setSeqr (fl [(PG_STAT.RUNNING 3, 1)] (claimUp up)) 3 Q

/-- Trigger 31 is armed for T = 5. -/
def trigUp (l : List (Fld × Nat)) : State :=
  setReg (fl ([(TT_STAT.ARMED 31, 1)] ++ l) up) (TT_NEXT_LO.off 31) 5

/-- Every output's override is on. -/
def ovrUp : State := setReg (setReg up PG_OVR_EN_LO.off 0xFFFFFFFF) PG_OVR_EN_HI.off 0xFFFFFFFF

/-! ## Witnesses -/

theorem wit_StartUp_0 : ∃ (s : State), s.mt.inReset = true ∧ s.mt.vaon = true := by
  refine ⟨({ State.reset with mt := { inReset := true } } : State), ?_, ?_⟩
  all_goals decide +kernel

theorem wit_StartUp_1 : ∃ (s : State) (k : List WakeStep) (pin : Bool), s.mt.asleep = true ∧ wakeCause s k pin ≠ 0 := by
  refine ⟨(fl [(MT_WAKE_EN.WCMP, 1)] { State.reset with mt := { asleep := true } } : State), ([⟨0, -500000, 500000, 50⟩] : List
    WakeStep), false, ?_, ?_⟩
  all_goals decide +kernel

theorem wit_StartUp_2 : ∃ (s : State) (k : Nat) (ns : Nat) (x : Int) (y : Int), s.mt.asleep = true ∧ k < 8 ∧ (reg s
    MT_WAKE_EN.off).toNat.testBit k = true ∧ 50 ≤ ns ∧ ((if flag s (MT_WCMP.EDGE k) then y + 240000 + 2000 ≤ 1875 * Int.ofNat (fld s
    (MT_WCMP.THR k)) ∧ 1875 * Int.ofNat (fld s (MT_WCMP.THR k)) + 2000 ≤ x + 240000 else x + 240000 + 2000 ≤ 1875 * Int.ofNat (fld s
    (MT_WCMP.THR k)) ∧ 1875 * Int.ofNat (fld s (MT_WCMP.THR k)) + 2000 ≤ y + 240000)) := by
  refine ⟨(fl [(MT_WAKE_EN.WCMP, 1)] { State.reset with mt := { asleep := true } } : State), (0 : Nat), (50 : Nat), (-500000 : Int),
    (500000 : Int), ?_, ?_, ?_, ?_, ?_⟩
  all_goals decide +kernel

theorem wit_StartUp_3 : ∃ (s : State) (ns : Nat), s.mt.asleep = true ∧ s.mt.count / 2 ^ 24 < mtAlarm s ∧ ns < 50 := by
  refine ⟨({ State.reset with mt := { asleep := true } } : State), (49 : Nat), ?_, ?_, ?_⟩
  all_goals decide +kernel

theorem wit_MainPll_0 : ∃ (s : State), s.mt.inReset = false ∧ s.mt.asleep = false ∧ s.pl.running = false ∧ s.mt.sleep = none ∧
    s.mt.resume = false := by
  refine ⟨State.reset, ?_, ?_, ?_, ?_, ?_⟩
  all_goals decide +kernel

theorem wit_MainPll_1 : ∃ (s : State), s.mt.inReset = false ∧ s.mt.asleep = false ∧ s.pl.running = false ∧ s.mt.sleep.isSome = true ∧
    s.mt.resume = false := by
  refine ⟨({ State.reset with mt := { sleep := some slp } } : State), ?_, ?_, ?_, ?_, ?_⟩
  all_goals decide +kernel

theorem wit_MainPll_2 : ∃ (s : State), flag s PL_STAT.PLL_LOCK = true := by
  refine ⟨(fl [(PL_STAT.PLL_LOCK, 1)] up : State), ?_⟩
  all_goals decide +kernel

theorem wit_MainPll_3 : ∃ (s : State), s.pl.running = true ∧ flag s PL_STAT.PLL_LOCK = false := by
  refine ⟨up, ?_, ?_⟩
  all_goals decide +kernel

theorem wit_MittenEvents_1 : ∃ (s : State) (n : Nat), s.mt.flushAt = some n ∧ n + 3200 ≤ s.now := by
  refine ⟨({ up with mt := { flushAt := some (32000000 - 3200) } } : State), (32000000 - 3200 : Nat), ?_, ?_⟩
  all_goals decide +kernel

theorem wit_MittenEvents_6 : ∃ (s : State), s.mt.vaon = true := by
  refine ⟨up, ?_⟩
  all_goals decide +kernel

theorem wit_SleepAndResume_0 : ∃ (s : State) (n : Nat), s.mt.sleepReq = some n ∧ s.mt.vaon = true ∧ s.mt.entry = none := by
  refine ⟨({ up with mt := { count := 2 ^ 24 - 1, sleepReq := some 5 } } : State), (5 : Nat), ?_, ?_, ?_⟩
  all_goals decide +kernel

theorem wit_SleepAndResume_1 : ∃ (s : State) (e : EntryEdge), s.mt.entry = some e := by
  refine ⟨({ up with mt := { entry := some ⟨16777216, 77, 5, 9⟩ } } : State), (⟨16777216, 77, 5, 9⟩ : EntryEdge), ?_⟩
  all_goals decide +kernel

theorem wit_SleepAndResume_2 : ∃ (s : State), s.mt.resume = true ∧ s.mt.vaon = true ∧ s.mt.resumeAt = none := by
  refine ⟨({ up with mt := { sleep := some slp, resume := true, count := 2 ^ 24 - 1 } } : State), ?_, ?_, ?_⟩
  all_goals decide +kernel

theorem wit_SleepAndResume_3 : ∃ (s : State) (x : Sleep) (c : Nat) (n : Nat), s.mt.sleep = some x ∧ s.mt.resumeAt = some (c, n) := by
  refine ⟨({ up with mt := { sleep := some slp, resume := true, count := 100 * 2 ^ 24, resumeAt := some (1677721600, 31999990) } } :
    State), slp, (1677721600 : Nat), (31999990 : Nat), ?_, ?_⟩
  all_goals decide +kernel

theorem wit_SleepAndResume_3b : ∃ (s : State) (x : Sleep) (c : Nat) (n : Nat), s.mt.sleep = some x ∧ s.mt.resumeAt = some (c, n) ∧
    s.now ≤ n := by
  refine ⟨({ up with mt := { sleep := some slp, resume := true, count := 100 * 2 ^ 24, resumeAt := some (1677721600, 32000000) } } :
    State), slp, (1677721600 : Nat), (32000000 : Nat), ?_, ?_, ?_⟩
  all_goals decide +kernel

theorem wit_MtGuardedWrites_0 : ∃ (s : State) (a : Access) (v : W32), reaches s a = true ∧ a.func = 0 ∧ rights s 0 = true ∧ guardPair s
    20 = none ∧ v.getLsbD 0 = true := by
  refine ⟨up, a0, (1 : W32), ?_, ?_, ?_, ?_, ?_⟩
  all_goals decide +kernel

theorem wit_MtGuardedWrites_1 : ∃ (s : State) (a : Access) (v : W32), reaches s a = true ∧ a.func = 0 ∧ rights s 0 = true ∧ guardPair s
    20 = none ∧ v.getLsbD 1 = true := by
  refine ⟨up, a0, (2 : W32), ?_, ?_, ?_, ?_, ?_⟩
  all_goals decide +kernel

theorem wit_MtGuardedWrites_2 : ∃ (s : State) (a : Access), reaches s a = true ∧ a.func = 0 ∧ rights s 0 = true ∧ guardPair s 20 = none
    := by
  refine ⟨(fl [(MT_WAKE_EN.WCMP, 1)] up : State), a0, ?_, ?_, ?_, ?_⟩
  all_goals decide +kernel

theorem wit_RateControl_0 : ∃ (s : State) (a : Access), Reached s a PL_ADJ_SET_HI.off ∧ flag s PL_CTRL.RATE_SRC = false ∧ isStandby s =
    false := by
  refine ⟨up, a0, ?_, ?_, ?_⟩
  · exact reached_of (by decide +kernel)
  · decide +kernel
  · decide +kernel

theorem wit_RateControl_1 : ∃ (s : State) (a : Access) (v : W32), Reached s a PL_CTRL.off ∧ flag s PL_CTRL.RATE_SRC = false ∧ v.getLsbD
    0 = true ∧ fld s PR_STAT.ROLE = 0 := by
  refine ⟨up, a0, (1 : W32), ?_, ?_, ?_, ?_⟩
  all_goals first | decide +kernel | exact reached_of (by decide +kernel) | exact runs_of (by decide +kernel) | exact taken_of (by
    decide +kernel) | exact takes_of (by decide +kernel)

theorem wit_RateControl_2 : ∃ (s : State) (a : Access) (v : W32), Reached s a PL_CTRL.off ∧ v.getLsbD 2 = false := by
  refine ⟨({ up with cal := { up.cal with groups := [(3, { first := true })] } } : State), a0, (1 : W32), ?_, ?_⟩
  · exact reached_of (by decide +kernel)
  · decide +kernel

theorem wit_RateControl_3 : ∃ (s : State) (v : BitVec 48) (n : Nat), s.pl.adjReq = some (v, n) ∧ adjDue s n = true := by
  refine ⟨({ up with pl := { up.pl with edge := 200001, adjReq := some (5, 0) } } : State), (5 : BitVec 48), (0 : Nat), ?_, ?_⟩
  all_goals decide +kernel

theorem wit_EpochsAndSnapshots_0 : ∃ (s : State), s.pl.running = true ∧ s.pl.epochSeen < tNow s / 2 ^ 47 := by
  refine ⟨({ up with pl := { up.pl with t := 2 ^ 47 }, lg := { groups := [(3, { ready := true })] } } : State), ?_, ?_⟩
  all_goals decide +kernel

theorem wit_EpochsAndSnapshots_1 : ∃ (s : State) (a : Access) (v : W32), Reached s a PL_SNAP_CTRL.off ∧ v.getLsbD 31 = true ∧ flag s
    PL_SNAP_CTRL.GO = false := by
  refine ⟨up, a0, 0x80000003, ?_, ?_, ?_⟩
  · exact reached_of (by decide +kernel)
  · decide +kernel
  · decide +kernel

theorem wit_EpochsAndSnapshots_2 : ∃ (s : State) (a : Access) (v : W32), Reached s a PL_SNAP_CTRL.off ∧ v.getLsbD 30 = true := by
  refine ⟨(fl [(PL_SNAP_CTRL.GO, 1)] up : State), a0, 0x40000000, ?_, ?_⟩
  · exact reached_of (by decide +kernel)
  · decide +kernel

theorem wit_EpochsAndSnapshots_3 : ∃ (s : State) (pin : Bool), s.pl.running = true ∧ flag s PL_SNAP_CTRL.GO = true ∧ s.pl.snapEdge <
    s.pl.edge ∧ ((s.pl.snapSrc = 0 ∨ s.pl.snapSrc = 3 ∨ pin = true)) := by
  refine ⟨(fl [(PL_SNAP_CTRL.GO, 1)] up : State), false, ?_, ?_, ?_, ?_⟩
  all_goals decide +kernel

theorem wit_StampPath_0 : ∃ (s : State) (n : Nat) (falling : Bool) (p : Bool) (taps : Taps) (f : Nat), cellsOn s = true ∧ n < nLanes s
    ∧ s.pl.running = true ∧ s.pl.edge ≠ 0 ∧ oldestFalling taps (edgeSel s n) (lane s n).level falling = p ∧ edgeSelected s n p = true ∧
    (lane s n).supp = none ∧ (group s (n / 16)).ready = true ∧ (lane s n).last = none ∧ fineOf (activeTable s n) (rawCode taps (!p)
    (lane s n).level) = (f, false) := by
  refine ⟨edgeUp, (3 : Nat), false, false, (⟨2 ^ 128 - 2 ^ 64, 0, 0, 0⟩ : Taps), ((fineOf (activeTable edgeUp 3) (rawCode ⟨2 ^ 128 - 2
    ^ 64, 0, 0, 0⟩ true false)).1 : Nat), ?_, ?_, ?_, ?_, ?_, ?_, ?_, ?_, ?_, ?_⟩
  all_goals decide +kernel

theorem wit_StampPath_1 : ∃ (s : State) (n : Nat) (falling : Bool) (p : Bool) (taps : Taps) (f : Nat) (c0 : Nat) (f0 : Nat), cellsOn s
    = true ∧ n < nLanes s ∧ s.pl.running = true ∧ s.pl.edge ≠ 0 ∧ oldestFalling taps (edgeSel s n) (lane s n).level falling = p ∧
    edgeSelected s n p = true ∧ (lane s n).supp = none ∧ (group s (n / 16)).ready = true ∧ (lane s n).last = some (c0, f0) ∧ dllLocked
    s (n / 16) = true ∧ fineOf (activeTable s n) (rawCode taps (!p) (lane s n).level) = (f, false) ∧ (Int.ofNat (s.pl.edge - 1) -
    Int.ofNat c0) * 1024 + (Int.ofNat f - Int.ofNat f0) < 2048 := by
  refine ⟨(fl [(LG_DLL_STAT.LOCKED 0, 1)] (setLane edgeUp 3 { last := some (199999, 0) }) : State), (3 : Nat), false, false, (⟨2 ^ 128
    - 2 ^ 64, 0, 0, 0⟩ : Taps), ((fineOf (activeTable edgeUp 3) (rawCode ⟨2 ^ 128 - 2 ^ 64, 0, 0, 0⟩ true false)).1 : Nat), (199999 :
    Nat), (0 : Nat), ?_, ?_, ?_, ?_, ?_, ?_, ?_, ?_, ?_, ?_, ?_, ?_⟩
  all_goals decide +kernel

theorem wit_StampPath_4 : ∃ (s : State) (n : Nat) (h : Held) (r : List Held), (lane s n).pipe = h :: r ∧ h.at_ + 5 ≤ s.pl.edge ∧ (lane
    s n).chain.length < 32 := by
  refine ⟨(setLane up 3 { pipe := [⟨9, false, false, 0, 199995⟩], chain := List.replicate 31 ⟨0, 0, 0⟩ } : State), (3 : Nat), (⟨9,
    false, false, 0, 199995⟩ : Held), ([] : List Held), ?_, ?_, ?_⟩
  all_goals decide +kernel

theorem wit_StampPath_5 : ∃ (s : State) (n : Nat) (h : Held) (r : List Held), n < 1024 ∧ (lane s n).pipe = h :: r ∧ h.at_ + 5 ≤
    s.pl.edge ∧ 32 ≤ (lane s n).chain.length := by
  refine ⟨(setLane up 1023 { pipe := [⟨9, false, false, 0, 199995⟩], chain := List.replicate 32 ⟨0, 0, 0⟩ } : State), (1023 : Nat),
    (⟨9, false, false, 0, 199995⟩ : Held), ([] : List Held), ?_, ?_, ?_, ?_⟩
  all_goals decide +kernel

theorem wit_SettlingAndDll_0 : ∃ (s : State) (n : Nat) (k : Nat), n < nLanes s ∧ (lane s n).suppCmd = true ∧ settling s n = false ∧
    commandHolds s (n / 2) = false ∧ measuring s n = false ∧ (lane s n).supp = some k ∧ edgeSel s n ≠ 0 := by
  refine ⟨(setLane (setGroup (fl [(IN_CFG.EDGE_B 0, 1)] up) 0 { ready := true }) 1
    { supp := some 4, suppCmd := true, settleEnd := 200000 } : State), (1 : Nat), (4 : Nat), ?_, ?_, ?_, ?_, ?_, ?_, ?_⟩
  all_goals decide +kernel

theorem wit_SettlingAndDll_1 : ∃ (s : State) (g : Nat), g < nGroups s ∧ (group s g).dllOn = true ∧ dllLocked s g = false ∧ flag s
    PL_STAT.PLL_LOCK = true ∧ (group s g).dllRun + 16384 ≤ s.now := by
  refine ⟨(fl [(PL_STAT.PLL_LOCK, 1)] (setGroup up 63 { dllOn := true, dllRun := 200000 - 16384 }) : State), (63 : Nat), ?_, ?_, ?_,
    ?_, ?_⟩
  all_goals decide +kernel

theorem wit_SettlingAndDll_2 : ∃ (s : State) (g : Nat) (e : Int), g < nGroups s ∧ dllLocked s g = true ∧ 16 < e.natAbs := by
  refine ⟨(fl [(LG_DLL_STAT.LOCKED 0, 1)] up : State), (0 : Nat), (-17 : Int), ?_, ?_, ?_⟩
  all_goals decide +kernel

theorem wit_SettlingAndDll_3 : ∃ (s : State) (g : Nat) (code : Nat), g < nGroups s ∧ (group s g).dllOn = true ∧ code < 2 ^ 14 ∧
    ((dllLocked s g = true → code = fld s (LG_DLL_STAT.CTRL g) ∨ (code ≤ fld s (LG_DLL_STAT.CTRL g) + 1 ∧ fld s (LG_DLL_STAT.CTRL g) ≤
    code + 1 ∧ (group s g).dllStep + 64 ≤ s.now))) := by
  refine ⟨(fl [(LG_DLL_STAT.LOCKED 2, 1), (LG_DLL_STAT.CTRL 2, 100)] (setGroup up 2 { dllOn := true, dllStep := 200000 - 64 }) :
    State), (2 : Nat), (101 : Nat), ?_, ?_, ?_, ?_⟩
  all_goals decide +kernel

theorem wit_SettlingAndDll_4 : ∃ (s : State) (a : Access) (g : Nat) (v : W32), g < nGroups s ∧ Reached s a (LG_DLL_CTRL.off g) ∧
    v.getLsbD 31 = true ∧ flag s PL_STAT.PLL_LOCK = true := by
  refine ⟨(fl [(PL_STAT.PLL_LOCK, 1)] up : State), a0, (63 : Nat), 0x80000000, ?_, ?_, ?_, ?_⟩
  all_goals first | decide +kernel | exact reached_of (by decide +kernel) | exact runs_of (by decide +kernel) | exact taken_of (by
    decide +kernel) | exact takes_of (by decide +kernel)

theorem wit_InputCommands_0 : ∃ (s : State) (a : Access) (v : W32), Reached s a IN_CMD.off ∧ v.getLsbD 31 = true ∧ v.getLsbD 12 = false
    ∧ s.inp.cmd = none ∧ inputFor s a.func (v.toNat % 512) = true ∧ maAvailable s = true := by
  refine ⟨(fl [(MA_REF.READY, 1), (MA_STAT.CAL_DONE 0, 1)] up : State), a0, 0x800001FF, ?_, ?_, ?_, ?_, ?_, ?_⟩
  all_goals first | decide +kernel | exact reached_of (by decide +kernel) | exact runs_of (by decide +kernel) | exact taken_of (by
    decide +kernel) | exact takes_of (by decide +kernel)

theorem wit_InputCommands_1 : ∃ (s : State) (a : Access) (v : W32), Reached s a IN_CMD.off ∧ v.getLsbD 31 = true ∧ v.getLsbD 12 = true
    ∧ s.inp.cmd = none ∧ inputFor s a.func (v.toNat % 512) = true ∧ maAvailable s = true := by
  refine ⟨(fl [(MA_REF.READY, 1), (MA_STAT.CAL_DONE 0, 1)] up : State), a0, 0x80001000, ?_, ?_, ?_, ?_, ?_, ?_⟩
  all_goals first | decide +kernel | exact reached_of (by decide +kernel) | exact runs_of (by decide +kernel) | exact taken_of (by
    decide +kernel) | exact takes_of (by decide +kernel)

theorem wit_InputCommands_2 : ∃ (s : State) (c : InCmd), s.inp.cmd = some c ∧ (c.phase = .wait1 ∨ (c.phase = .wait2 ∧ c.at_ + 32000 ≤
    s.now)) ∧ borrowFree s = true := by
  refine ⟨({ up with inp := { cmd := some ⟨7, true, .wait1, none, none, 0, 0, false, false, 0, 5⟩ } } : State), (⟨7, true, .wait1,
    none, none, 0, 0, false, false, 0, 5⟩ : InCmd), ?_, ?_, ?_⟩
  all_goals decide +kernel

theorem wit_InputCommands_3 : ∃ (s : State) (c : InCmd) (n : Nat), cellsOn s = true ∧ n < nLanes s ∧ s.inp.cmd = some c ∧ (c.phase =
    .read1 ∨ c.phase = .read2) ∧ c.input = n / 2 ∧ samplesPassed s.now c.at_ 40 = true ∧ samplesPassed s.now c.at_ (40 + if c.openWire
    then 4096 else 16384) = false := by
  refine ⟨({ up with inp := { cmd := some ⟨1, true, .read2, none, none, 0, 0, false, false, 0, 31990000⟩ } } : State), (⟨1, true,
    .read2, none, none, 0, 0, false, false, 0, 31990000⟩ : InCmd), (3 : Nat), ?_, ?_, ?_, ?_, ?_, ?_, ?_⟩
  all_goals decide +kernel

theorem wit_InputCommands_4 : ∃ (s : State) (c : InCmd) (n : Nat), s.inp.cmd = some c ∧ c.phase = .read1 ∧ c.openWire = false ∧ (conv s
    0).borrowAt = some n ∧ samplesPassed s.now n (borrowSamples c) = true := by
  refine ⟨({ up with inp := { cmd := some ⟨7, false, .read1, none, none, 0, 0, false, false, 0, 5⟩ }, mon := { c0 := { borrowAt := some 5 } } } : State), (⟨7, false, .read1, none, none, 0, 0, false, false, 0, 5⟩ : InCmd), (5 : Nat), ?_, ?_, ?_, ?_, ?_⟩
  all_goals decide +kernel

theorem wit_InputCommands_5 : ∃ (s : State) (c : InCmd) (m : BaselineReading), s.inp.cmd = some c ∧ c.openWire = false ∧ c.phase =
    .search ∧ c.m1 = some m ∧ c.input < 512 ∧ s.inp.held = [] ∧ c.at_ + 19200 ≤ s.now := by
  refine ⟨({ up with inp := { cmd := some ⟨511, false, .search, some rd, none, 0, 0, false, false, 0, 32000000 - 19200⟩ } } : State),
    (⟨511, false, .search, some rd, none, 0, 0, false, false, 0, 32000000 - 19200⟩ : InCmd), rd, ?_, ?_, ?_, ?_, ?_, ?_, ?_⟩
  all_goals decide +kernel

theorem wit_InputCommands_6 : ∃ (s : State) (c : InCmd) (m : BaselineReading), s.inp.cmd = some c ∧ c.openWire = false ∧ c.phase =
    .ending ∧ c.m1 = some m ∧ c.input < 512 ∧ c.reject < 8 ∧ s.inp.held = [] := by
  refine ⟨({ up with inp := { cmd := some ⟨511, false, .ending, some rd, none, 0, 0, false, false, 5, 0⟩ } } : State), (⟨511, false,
    .ending, some rd, none, 0, 0, false, false, 5, 0⟩ : InCmd), rd, ?_, ?_, ?_, ?_, ?_, ?_, ?_⟩
  all_goals decide +kernel

theorem wit_InputCommands_8 : ∃ (s : State) (c : InCmd) (m1 : BaselineReading) (m2 : BaselineReading), s.inp.cmd = some c ∧ c.openWire
    = true ∧ c.phase = .ending ∧ c.m1 = some m1 ∧ c.m2 = some m2 ∧ c.input < 512 ∧ s.inp.held = [] := by
  refine ⟨({ up with inp := { cmd := some ⟨511, true, .ending, some rd, some ⟨60001, 3⟩, 0, 0, true, true, 0, 0⟩ } } : State), (⟨511,
    true, .ending, some rd, some ⟨60001, 3⟩, 0, 0, true, true, 0, 0⟩ : InCmd), rd, (⟨60001, 3⟩ : BaselineReading), ?_, ?_, ?_, ?_, ?_,
    ?_, ?_⟩
  all_goals decide +kernel

theorem wit_TileAssembler_0 : ∃ (s : State) (g : Nat) (m : Mark) (r : List Mark), g < nGroups s ∧ s.pl.running = true ∧ (group s
    g).tile.length < 6 ∧ (group s g).placed ≠ some (s.pl.edge / 2) ∧ (group s g).ready = true ∧ tNow s / 2 ^ 47 ≤ s.pl.epochSeen ∧
    (group s g).marks = m :: r := by
  refine ⟨(setGroup up 63 { ready := true, tile := List.replicate 5 0, marks := [⟨5, 0, 77⟩] } : State), (63 : Nat), (⟨5, 0, 77⟩ :
    Mark), ([] : List Mark), ?_, ?_, ?_, ?_, ?_, ?_, ?_⟩
  all_goals decide +kernel

theorem wit_TileAssembler_1 : ∃ (s : State) (g : Nat), g < nGroups s ∧ s.pl.running = true ∧ (group s g).tile.length < 6 ∧ (group s
    g).placed ≠ some (s.pl.edge / 2) ∧ (group s g).ready = true ∧ tNow s / 2 ^ 47 ≤ s.pl.epochSeen ∧ (group s g).marks = [] ∧ (group s
    g).qGap ≠ 0 := by
  refine ⟨(setGroup up 63 { ready := true, qGap := 3 } : State), (63 : Nat), ?_, ?_, ?_, ?_, ?_, ?_, ?_, ?_⟩
  all_goals decide +kernel

theorem wit_TileAssembler_5 : ∃ (s : State) (g : Nat) (n : Nat) (h : ChainRec) (r : List ChainRec), g < nGroups s ∧ s.pl.running = true
    ∧ (group s g).tile.length < 6 ∧ (group s g).placed ≠ some (s.pl.edge / 2) ∧ (group s g).ready = true ∧ tNow s / 2 ^ 47 ≤
    s.pl.epochSeen ∧ (group s g).marks = [] ∧ (group s g).qGap = 0 ∧ lossLane s g = none ∧ (group s g).epochDue = false ∧ (group s
    g).supGaps = [] ∧ (group s g).allow ≠ 0 ∧ pickLane s g = some n ∧ (lane s n).chain = h :: r := by
  refine ⟨(setLane (setGroup up 0 { ready := true }) 5 { chain := [⟨77, 5, 99⟩] } : State), (0 : Nat), (5 : Nat), (⟨77, 5, 99⟩ :
    ChainRec), ([] : List ChainRec), ?_, ?_, ?_, ?_, ?_, ?_, ?_, ?_, ?_, ?_, ?_, ?_, ?_, ?_⟩
  all_goals decide +kernel

theorem wit_TileAssembler_8 : ∃ (s : State) (g : Nat), g < nGroups s ∧ (group s g).rises < s.pl.edge / 2 / 32 := by
  refine ⟨(setGroup up 0 { rises := 3124 } : State), (0 : Nat), ?_, ?_⟩
  all_goals decide +kernel

theorem wit_TileAssembler_9 : ∃ (s : State) (g : Nat), g < 64 ∧ sealDue s g = true ∧ maySeal s g = true ∧ (group s g).win = none := by
  refine ⟨(setGroup up 63 { tile := [1, 2], tileTimes := [1, 2], tileCyc := 99996 } : State), (63 : Nat), ?_, ?_, ?_, ?_⟩
  all_goals decide +kernel

theorem wit_TileAssembler_10 : ∃ (s : State) (g : Nat) (it : QItem) (r : List QItem), g < 64 ∧ (group s g).waitWin = it :: r ∧ destsOf
    s g ≠ [] ∧ places (group s g).queue < 1024 := by
  refine ⟨(ringed (setGroup up 0 { waitWin := [.reservation 3 1] }) : State), (0 : Nat), (.reservation 3 1 : QItem), ([] : List QItem),
    ?_, ?_, ?_, ?_⟩
  all_goals decide +kernel

theorem wit_WindowsAndBusy_0 : ∃ (s : State) (g : Nat) (e : GateEv), g < 64 ∧ (group s g).win = none ∧ e.open_ = true := by
  refine ⟨(fl [(LG_WIN_CFG.EN 0, 1), (LG_WIN_CFG.GATE_ID 0, 0x40)] (setGroup up 0
    { winEv := [⟨true, 0x40, 9⟩], waitWin := List.replicate 3 (.reservation 0 0) }) : State), (0 : Nat), (⟨true, 0x40, 9⟩ : GateEv),
    ?_, ?_, ?_⟩
  all_goals decide +kernel

theorem wit_WindowsAndBusy_1 : ∃ (s : State) (g : Nat) (e : GateEv) (r : List GateEv), g < 64 ∧ (group s g).winEv = e :: r ∧ e.open_ =
    true ∧ (group s g).win = none ∧ flag s (LG_WIN_CFG.EN g) = true ∧ framesWindow s g e.id = true ∧ 4 ≤ waitCount (group s g) := by
  refine ⟨(fl [(LG_WIN_CFG.EN 0, 1), (LG_WIN_CFG.GATE_ID 0, 0x40)] (setGroup up 0
    { winEv := [⟨true, 0x40, 9⟩], waitWin := List.replicate 4 (.reservation 0 0) }) : State), (0 : Nat), (⟨true, 0x40, 9⟩ : GateEv),
    ([] : List GateEv), ?_, ?_, ?_, ?_, ?_, ?_, ?_⟩
  all_goals decide +kernel

theorem wit_WindowsAndBusy_2 : ∃ (s : State) (g : Nat) (e : GateEv) (W : Win), g < 64 ∧ (group s g).win = some W ∧ e.open_ = false ∧
    e.id = W.gate := by
  refine ⟨(fl [(LG_WIN_CFG.EN 63, 1)] (setGroup up 63 { winEv := [⟨false, 0x40, 9⟩], win := some win0 }) : State), (63 : Nat), (⟨false,
    0x40, 9⟩ : GateEv), win0, ?_, ?_, ?_, ?_⟩
  all_goals decide +kernel

theorem wit_WindowsAndBusy_4 : ∃ (s : State) (g : Nat) (W : Win), g < 64 ∧ (group s g).win = some W ∧ W.dur ≠ 0 ∧ W.openedCyc + 8 *
    W.dur ≤ s.pl.edge / 2 := by
  refine ⟨(setGroup up 63 { win := some { win0 with dur := 5, openedCyc := 99960 } } : State), (63 : Nat),
    ({ win0 with dur := 5, openedCyc := 99960 } : Win), ?_, ?_, ?_, ?_⟩
  all_goals decide +kernel

theorem wit_WindowsAndBusy_5 : ∃ (s : State) (a : Access) (g : Nat) (v : W32), g < nGroups s ∧ Reached s a (LG_WIN_CMD.off g) ∧
    v.getLsbD 0 = true := by
  refine ⟨up, a0, (63 : Nat), (1 : W32), ?_, ?_, ?_⟩
  · decide +kernel
  · exact reached_of (by decide +kernel)
  · decide +kernel

theorem wit_WindowsAndBusy_6 : ∃ (s : State) (g : Nat) (n : Nat), g < 64 ∧ (group s g).vetoes = n + 1 := by
  refine ⟨(setGroup up 63 { vetoes := 1 } : State), (63 : Nat), (0 : Nat), ?_, ?_⟩
  all_goals decide +kernel

theorem wit_WindowsAndBusy_8 : ∃ (s : State) (p : Nat), p < nBusy s ∧ pinWanted s p = false ∧ holdOf s p = 0 ∧ fbit s
    LG_BUSY_STAT.STATE p = true := by
  refine ⟨(fl [(LG_BUSY_STAT.STATE, 2)] up : State), (1 : Nat), ?_, ?_, ?_, ?_⟩
  all_goals decide +kernel

theorem wit_InjectionPort_0 : ∃ (s : State) (a : Access) (g : Nat), g < nGroups s ∧ Reached s a (LG_INJ_DATA.off g) ∧ flag s
    (LG_INJ_CTRL.EN g) = true ∧ (group s g).inj.length < 13 := by
  refine ⟨(fl [(LG_INJ_CTRL.EN 63, 1)] (setGroup up 63 { inj := List.replicate 12 5 }) : State), a0, (63 : Nat), ?_, ?_, ?_, ?_⟩
  all_goals first | decide +kernel | exact reached_of (by decide +kernel) | exact runs_of (by decide +kernel) | exact taken_of (by
    decide +kernel) | exact takes_of (by decide +kernel)

theorem wit_InjectionPort_2 : ∃ (s : State) (a : Access) (g : Nat), g < nGroups s ∧ Reached s a (LG_INJ_DATA.off g) ∧ (flag s
    (LG_INJ_CTRL.EN g) = false ∨ 14 ≤ (group s g).inj.length) := by
  refine ⟨up, a0, (63 : Nat), ?_, ?_, ?_⟩
  · decide +kernel
  · exact reached_of (by decide +kernel)
  · decide +kernel

theorem wit_InjectionPort_3 : ∃ (s : State) (a : Access) (g : Nat) (v : W32), g < nGroups s ∧ Reached s a (LG_INJ_CTRL.off g) ∧
    v.getLsbD 31 = true ∧ (group s g).inj ≠ [] ∧ (group s g).injTile = none := by
  refine ⟨(setGroup up 63 { inj := [5] } : State), a0, (63 : Nat), 0x80000000, ?_, ?_, ?_, ?_, ?_⟩
  all_goals first | decide +kernel | exact reached_of (by decide +kernel) | exact runs_of (by decide +kernel) | exact taken_of (by
    decide +kernel) | exact takes_of (by decide +kernel)

theorem wit_InjectionPort_5 : ∃ (s : State) (g : Nat) (ws : List W32), g < 64 ∧ (group s g).injTile = some ws ∧ maySeal s g = true ∧
    sealDue s g = false ∧ (group s g).sealedCyc ≠ some (s.pl.edge / 2) := by
  refine ⟨(setGroup up 63 { injTile := some [5] } : State), (63 : Nat), ([5] : List W32), ?_, ?_, ?_, ?_, ?_⟩
  all_goals decide +kernel

theorem wit_InjectionPort_7 : ∃ (s : State) (a : Access) (g : Nat) (v : W32), g < nGroups s ∧ Reached s a (LG_Q_OCC.off g) ∧ v.getLsbD
    15 = true := by
  refine ⟨(fl [(LG_Q_OCC.OCC 63, 5)] up : State), a0, (63 : Nat), 0x8000, ?_, ?_, ?_⟩
  · decide +kernel
  · exact reached_of (by decide +kernel)
  · decide +kernel

theorem wit_MittenEvents_3 : ∃ (s : State), s.mt.refAt + 1600000 ≤ s.now := by
  refine ⟨up, ?_⟩
  all_goals decide +kernel

theorem wit_MittenEvents_4 : ∃ (s : State), s.now < s.mt.refAt + 1600000 := by
  refine ⟨({ up with mt := { refAt := 32000000 } } : State), ?_⟩
  all_goals decide +kernel

theorem wit_MittenEvents_5 : ∃ (s : State), s.mt.vaon = true ∧ s.mt.asleep = false ∧ s.mt.sleepReq = none ∧ s.mt.entry = none ∧
    s.mt.refBack = true ∧ flag s MT_STAT.SRC_LPO = true ∧ s.mt.count < 2 ^ 88 - 2 ^ 32 := by
  refine ⟨(fl [(MT_STAT.SRC_LPO, 1)] { up with mt := { refBack := true } } : State), ?_, ?_, ?_, ?_, ?_, ?_, ?_⟩
  all_goals decide +kernel

theorem wit_StampPath_2 : ∃ (s : State) (n : Nat) (falling : Bool) (p : Bool) (taps : Taps) (f : Nat) (c0 : Nat) (f0 : Nat), cellsOn s
    = true ∧ n < nLanes s ∧ s.pl.running = true ∧ s.pl.edge ≠ 0 ∧ oldestFalling taps (edgeSel s n) (lane s n).level falling = p ∧
    edgeSelected s n p = true ∧ (lane s n).supp = none ∧ (group s (n / 16)).ready = true ∧ (lane s n).last = some (c0, f0) ∧ fineOf
    (activeTable s n) (rawCode taps (!p) (lane s n).level) = (f, false) ∧ 2048 ≤ (Int.ofNat (s.pl.edge - 1) - Int.ofNat c0) * 1024 +
    (if dllLocked s (n / 16) then Int.ofNat f - Int.ofNat f0 else 0) := by
  refine ⟨(fl [(LG_DLL_STAT.LOCKED 0, 1)] (setLane edgeUp 3
    { last := some (199997, (fineOf (activeTable edgeUp 3) (rawCode ⟨2 ^ 128 - 2 ^ 64, 0, 0, 0⟩ true false)).1) }) : State), (3 : Nat),
    false, false, (⟨2 ^ 128 - 2 ^ 64, 0, 0, 0⟩ : Taps), ((fineOf (activeTable edgeUp 3) (rawCode ⟨2 ^ 128 - 2 ^ 64, 0, 0, 0⟩ true
    false)).1 : Nat), (199997 : Nat), ((fineOf (activeTable edgeUp 3) (rawCode ⟨2 ^ 128 - 2 ^ 64, 0, 0, 0⟩ true false)).1 : Nat), ?_,
    ?_, ?_, ?_, ?_, ?_, ?_, ?_, ?_, ?_, ?_⟩
  all_goals decide +kernel

theorem wit_StampPath_3 : ∃ (s : State) (n : Nat) (falling : Bool) (p : Bool) (taps : Taps) (f : Nat) (c0 : Nat) (f0 : Nat), cellsOn s
    = true ∧ n < nLanes s ∧ s.pl.running = true ∧ s.pl.edge ≠ 0 ∧ oldestFalling taps (edgeSel s n) (lane s n).level falling = p ∧
    edgeSelected s n p = true ∧ (lane s n).supp = none ∧ (group s (n / 16)).ready = true ∧ (lane s n).last = some (c0, f0) ∧ dllLocked
    s (n / 16) = false ∧ fineOf (activeTable s n) (rawCode taps (!p) (lane s n).level) = (f, false) ∧ s.pl.edge - 1 < c0 + 2 := by
  refine ⟨(setLane edgeUp 3 { last := some (199998, 0), pipe := [⟨9, false, false, 0, 199999⟩] } : State), (3 : Nat), false, false, (⟨2
    ^ 128 - 2 ^ 64, 0, 0, 0⟩ : Taps), ((fineOf (activeTable edgeUp 3) (rawCode ⟨2 ^ 128 - 2 ^ 64, 0, 0, 0⟩ true false)).1 : Nat),
    (199998 : Nat), (0 : Nat), ?_, ?_, ?_, ?_, ?_, ?_, ?_, ?_, ?_, ?_, ?_, ?_⟩
  all_goals decide +kernel

theorem wit_InputCommands_7 : ∃ (s : State) (c : InCmd), cellsOn s = true ∧ s.inp.cmd = some c ∧ c.openWire = true := by
  refine ⟨({ up with inp := { cmd := some ⟨7, true, .read1, none, none, 0, 0, false, false, 0, 5⟩ } } : State), (⟨7, true, .read1,
    none, none, 0, 0, false, false, 0, 5⟩ : InCmd), ?_, ?_, ?_⟩
  all_goals decide +kernel

theorem wit_TileAssembler_2 : ∃ (s : State) (g : Nat) (n : Nat), g < nGroups s ∧ s.pl.running = true ∧ (group s g).tile.length < 6 ∧
    (group s g).placed ≠ some (s.pl.edge / 2) ∧ (group s g).ready = true ∧ tNow s / 2 ^ 47 ≤ s.pl.epochSeen ∧ (group s g).marks = [] ∧
    (group s g).qGap = 0 ∧ lossLane s g = some n := by
  refine ⟨(setLane (setGroup up 3 { ready := true }) 50 { lost := 9 } : State), (3 : Nat), (50 : Nat), ?_, ?_, ?_, ?_, ?_, ?_, ?_, ?_, ?_⟩
  all_goals decide +kernel

theorem wit_TileAssembler_3 : ∃ (s : State) (g : Nat), g < nGroups s ∧ s.pl.running = true ∧ (group s g).tile.length < 6 ∧ (group s
    g).placed ≠ some (s.pl.edge / 2) ∧ (group s g).ready = true ∧ tNow s / 2 ^ 47 ≤ s.pl.epochSeen ∧ (group s g).marks = [] ∧ (group s
    g).qGap = 0 ∧ lossLane s g = none ∧ (group s g).epochDue = true := by
  refine ⟨(setGroup up 63 { ready := true, epochDue := true } : State), (63 : Nat), ?_, ?_, ?_, ?_, ?_, ?_, ?_, ?_, ?_, ?_⟩
  all_goals decide +kernel

theorem wit_TileAssembler_4 : ∃ (s : State) (g : Nat) (n : Nat) (k : Nat) (r : List (Nat × Nat)), g < nGroups s ∧ s.pl.running = true ∧
    (group s g).tile.length < 6 ∧ (group s g).placed ≠ some (s.pl.edge / 2) ∧ (group s g).ready = true ∧ tNow s / 2 ^ 47 ≤
    s.pl.epochSeen ∧ (group s g).marks = [] ∧ (group s g).qGap = 0 ∧ lossLane s g = none ∧ (group s g).epochDue = false ∧ (group s
    g).supGaps = (n, k) :: r := by
  refine ⟨(setGroup up 63 { ready := true, supGaps := [(1023, 7)] } : State), (63 : Nat), (1023 : Nat), (7 : Nat), ([] : List (Nat ×
    Nat)), ?_, ?_, ?_, ?_, ?_, ?_, ?_, ?_, ?_, ?_, ?_⟩
  all_goals decide +kernel

theorem wit_TileAssembler_6 : ∃ (s : State) (g : Nat) (m : Mark) (r : List Mark), g < nGroups s ∧ s.pl.running = true ∧ (group s
    g).tile.length = 6 ∧ (group s g).placed ≠ some (s.pl.edge / 2) ∧ (group s g).ready = true ∧ tNow s / 2 ^ 47 ≤ s.pl.epochSeen ∧
    (group s g).marks = m :: r ∧ (group s g).win = none := by
  refine ⟨(setGroup up 63 { ready := true, tile := List.replicate 6 0, marks := [⟨5, 0, 77⟩] } : State), (63 : Nat), (⟨5, 0, 77⟩ :
    Mark), ([] : List Mark), ?_, ?_, ?_, ?_, ?_, ?_, ?_, ?_⟩
  all_goals decide +kernel

theorem wit_TileAssembler_7 : ∃ (s : State) (g : Nat) (n : Nat) (h : ChainRec) (r : List ChainRec), g < nGroups s ∧ s.pl.running = true
    ∧ (group s g).tile.length = 6 ∧ (group s g).placed ≠ some (s.pl.edge / 2) ∧ (group s g).ready = true ∧ tNow s / 2 ^ 47 ≤
    s.pl.epochSeen ∧ (group s g).marks = [] ∧ (group s g).qGap = 0 ∧ lossLane s g = none ∧ (group s g).epochDue = false ∧ (group s
    g).supGaps = [] ∧ (group s g).allow ≠ 0 ∧ pickLane s g = some n ∧ (lane s n).chain = h :: r ∧ (group s g).win = none ∧ maySeal s g
    = true := by
  refine ⟨(setLane (setGroup up 0 { ready := true, tile := List.replicate 6 0 }) 5 { chain := [⟨77, 5, 99⟩] } : State), (0 : Nat), (5 :
    Nat), (⟨77, 5, 99⟩ : ChainRec), ([] : List ChainRec), ?_, ?_, ?_, ?_, ?_, ?_, ?_, ?_, ?_, ?_, ?_, ?_, ?_, ?_, ?_, ?_⟩
  all_goals decide +kernel

theorem wit_WindowsAndBusy_3 : ∃ (s : State) (g : Nat) (W : Win), g < 64 ∧ (group s g).win = some W ∧ flag s (LG_WIN_CFG.EN g) = false
    := by
  refine ⟨(setGroup up 63 { win := some win0, winEv := [⟨false, 0x40, 9⟩] } : State), (63 : Nat), win0, ?_, ?_, ?_⟩
  all_goals decide +kernel

theorem wit_InjectionPort_1 : ∃ (s : State) (a : Access) (g : Nat), g < nGroups s ∧ Reached s a (LG_INJ_DATA.off g) ∧ flag s
    (LG_INJ_CTRL.EN g) = true ∧ (group s g).inj.length = 13 := by
  refine ⟨(fl [(LG_INJ_CTRL.EN 63, 1)] (setGroup up 63 { inj := List.replicate 13 5 }) : State), a0, (63 : Nat), ?_, ?_, ?_, ?_⟩
  all_goals first | decide +kernel | exact reached_of (by decide +kernel) | exact runs_of (by decide +kernel) | exact taken_of (by
    decide +kernel) | exact takes_of (by decide +kernel)

theorem wit_InjectionPort_1b : ∃ (s : State) (a : Access) (g : Nat), g < nGroups s ∧ Reached s a (LG_INJ_DATA.off g) ∧ flag s
    (LG_INJ_CTRL.EN g) = true ∧ (group s g).inj.length = 13 ∧ (group s g).injTile ≠ none := by
  refine ⟨(fl [(LG_INJ_CTRL.EN 63, 1)] (setGroup up 63 { inj := List.replicate 13 5, injTile := some [6] }) : State), a0, (63 : Nat),
    ?_, ?_, ?_, ?_, ?_⟩
  all_goals first | decide +kernel | exact reached_of (by decide +kernel) | exact runs_of (by decide +kernel) | exact taken_of (by
    decide +kernel) | exact takes_of (by decide +kernel)

theorem wit_InjectionPort_4 : ∃ (s : State) (a : Access) (g : Nat) (v : W32), g < nGroups s ∧ Reached s a (LG_INJ_CTRL.off g) ∧
    v.getLsbD 31 = true ∧ (group s g).inj ≠ [] ∧ (group s g).injTile ≠ none := by
  refine ⟨(setGroup up 63 { inj := [5], injTile := some [6] } : State), a0, (63 : Nat), 0x80000000, ?_, ?_, ?_, ?_, ?_⟩
  all_goals first | decide +kernel | exact reached_of (by decide +kernel) | exact runs_of (by decide +kernel) | exact taken_of (by
    decide +kernel) | exact takes_of (by decide +kernel)

theorem wit_InjectionPort_6 : ∃ (s : State) (g : Nat), (sealDue s g = true ∨ (group s g).sealedCyc = some (s.pl.edge / 2)) := by
  refine ⟨(setGroup up 63 { injTile := some [5], sealedCyc := some 100000 } : State), (63 : Nat), ?_⟩
  all_goals decide +kernel

theorem wit_BinTables_0 : ∃ (s : State) (n : Nat) (x : Int) (r : List (Nat × Int)), s.mon.temps = (n, x) :: r := by
  refine ⟨({ up with mon := { temps := [(1, -5)] } } : State), (1 : Nat), (-5 : Int), ([] : List (Nat × Int)), ?_⟩
  all_goals decide +kernel

theorem wit_BinTables_1 : ∃ (s : State) (g : Nat) (n : Nat), g < nGroups s ∧ (calGroup s g).staleFrom = some n ∧ n + 1600000 * max 1
    (fld s CA_CFG.STALE_MS) ≤ s.now := by
  refine ⟨(fl [(CA_CFG.STALE_MS, 20)] { up with cal := { groups := [(63, { staleFrom := some 0 })] } } : State), (63 : Nat), (0 : Nat),
    ?_, ?_, ?_⟩
  all_goals decide +kernel

theorem wit_BinTables_2 : ∃ (s : State) (g : Nat) (st : Staging), g < 64 ∧ (calGroup s g).building = some st ∧ failMask 0 st.tables = 0
    ∧ st.firstTable = false ∧ (calGroup s g).again = false ∧ ((∀ x, groupTemp s g = some x → (x - st.temp).natAbs < 16)) ∧ s.pl.frameT
    = none := by
  refine ⟨(fl [(CA_GRP_CFG.TOVR_EN 63, 1), (CA_GRP_CFG.TOVR 63, 115)]
    { up with cal := { groups := [(63, { building := some ⟨100, [nominalSet], false, 5, false⟩ })] } } : State), (63 : Nat), (⟨100,
    [nominalSet], false, 5, false⟩ : Staging), ?_, ?_, ?_, ?_, ?_, ?_, ?_⟩
  · decide +kernel
  · decide +kernel
  · decide +kernel
  · decide +kernel
  · decide +kernel
  · intro x h; cases h; decide +kernel
  · decide +kernel

theorem wit_BinTables_3 : ∃ (s : State) (g : Nat) (st : Staging), g < 64 ∧ (calGroup s g).building = some st ∧ failMask 0 st.tables = 0
    ∧ st.firstTable = true ∧ (calGroup s g).staged = none := by
  refine ⟨({ up with cal := { groups := [(63, { building := some ⟨100, [nominalSet], false, 5, true⟩ })] } } : State), (63 : Nat),
    (⟨100, [nominalSet], false, 5, true⟩ : Staging), ?_, ?_, ?_, ?_, ?_⟩
  all_goals decide +kernel

theorem wit_BinTables_6 : ∃ (s : State) (x : BitVec 104), s.pl.frameT = some x := by
  refine ⟨({ up with pl := { up.pl with frameT := some 5 } } : State), (5 : BitVec 104), ?_⟩
  all_goals decide +kernel

theorem wit_BinSetCommands_0 : ∃ (s : State) (c : Command) (x : Int), CmdTaken s c 0x100 ∧ p0f c 5 0 < nGroups s ∧ p0f c 33 32 ≠ 3 ∧
    p0f c 38 36 ≤ 4 ∧ ownGroup s (p0f c 5 0) = cmdPart s c ∧ (calGroup s (p0f c 5 0)).measure = none ∧ storeWriting s = false ∧
    groupTemp s (p0f c 5 0) = some x ∧ (x - (1600 + 2240 * Int.ofNat (p0f c 33 32))).natAbs ≤ 128 := by
  refine ⟨(fl [(CA_GRP_CFG.TOVR_EN 63, 1), (CA_GRP_CFG.TOVR 63, 3968)] cmdUp : State), (cmd0 0x100 0x10000003F 0 none : Command), (3968
    : Int), ?_, ?_, ?_, ?_, ?_, ?_, ?_, ?_, ?_⟩
  all_goals first | decide +kernel | exact reached_of (by decide +kernel) | exact runs_of (by decide +kernel) | exact taken_of (by
    decide +kernel) | exact takes_of (by decide +kernel)

theorem wit_BinSetCommands_1 : ∃ (s : State) (g : Nat) (hs : List Histogram) (m : Measure), (calGroup s g).measure = some m ∧ m.at_ +
    collectTicks m.p ≤ s.now ∧ m.set < 3 ∧ ((∀ h ∈ hs, h.hA.length = 512 ∧ h.hB.length = 512)) := by
  refine ⟨({ up with cal := { groups := [(3, { measure := some ⟨1, 2, 20, 0, cmd 0x100 0 0 none, false, some (5, 37), 0⟩ })] } } :
    State), (3 : Nat), ([⟨48, List.replicate 512 1024, List.replicate 512 1024⟩] : List Histogram), (⟨1, 2, 20, 0, cmd 0x100 0 0 none,
    false, some (5, 37), 0⟩ : Measure), ?_, ?_, ?_, ?_⟩
  all_goals decide +kernel

theorem wit_BinSetCommands_3 : ∃ (s : State) (c : Command) (bs : List Byte), CmdTaken s c 0x101 ∧ p0f c 9 0 < nLanes s ∧ p0f c 33 32 ≠
    3 ∧ ownGroup s (p0f c 9 0 / 16) = cmdPart s c ∧ storeWriting s = false ∧ c.data = some bs ∧ checks13 (unpackSet bs) = 0 := by
  refine ⟨cmdUp, (cmd 0x101 0x2000003FF 0 (some tableBytes) : Command), tableBytes, ?_, ?_, ?_, ?_, ?_, ?_, ?_⟩
  all_goals first | decide +kernel | exact reached_of (by decide +kernel) | exact runs_of (by decide +kernel) | exact taken_of (by
    decide +kernel) | exact takes_of (by decide +kernel)

theorem wit_BinSetCommands_4 : ∃ (s : State) (c : Command) (bs : List Byte), CmdTaken s c 0x101 ∧ p0f c 9 0 < nLanes s ∧ p0f c 33 32 ≠
    3 ∧ ownGroup s (p0f c 9 0 / 16) = cmdPart s c ∧ storeWriting s = false ∧ c.data = some bs ∧ checks13 (unpackSet bs) ≠ 0 := by
  refine ⟨cmdUp, (cmd 0x101 0x3FF 0 (some []) : Command), ([] : List Byte), ?_, ?_, ?_, ?_, ?_, ?_, ?_⟩
  all_goals first | decide +kernel | exact reached_of (by decide +kernel) | exact runs_of (by decide +kernel) | exact taken_of (by
    decide +kernel) | exact takes_of (by decide +kernel)

theorem wit_BinSetCommands_5 : ∃ (s : State) (c : Command) (w : List Nat), CmdTaken s c 0x102 ∧ p0f c 9 0 < nLanes s ∧ ownGroup s (p0f
    c 9 0 / 16) = cmdPart s c ∧ w = (if p0f c 33 32 = 3 then activeTable s (p0f c 9 0) else workSet s (p0f c 9 0) (p0f c 33 32)) := by
  refine ⟨cmdUp, (cmd 0x102 0x3000003FF 0 none : Command), (activeTable cmdUp 1023 : List Nat), ?_, ?_, ?_, ?_⟩
  all_goals first | decide +kernel | exact reached_of (by decide +kernel) | exact runs_of (by decide +kernel) | exact taken_of (by
    decide +kernel) | exact takes_of (by decide +kernel)

theorem wit_CalibrationStore_0 : ∃ (s : State) (c : Command), CmdTaken s c 0x103 ∧ cmdPart s c = 0 ∧ (shadow s 4).testBit 17 = false ∧
    s.cal.op = none ∧ newSeq s ≠ 0xFFFFFFFF := by
  refine ⟨({ cmdUp with cal := {} } : State), (cmd0 0x103 0 0 none : Command), ?_, ?_, ?_, ?_, ?_⟩
  all_goals first | decide +kernel | exact reached_of (by decide +kernel) | exact runs_of (by decide +kernel) | exact taken_of (by
    decide +kernel) | exact takes_of (by decide +kernel)

theorem wit_CalibrationStore_1 : ∃ (s : State) (i : Nat) (n : Nat), i < 2 ∧ s.cal.op = some (.write i n) ∧ s.cal.aborted = false := by
  refine ⟨({ up with cal := { op := some (.write 1 7) } } : State), (1 : Nat), (7 : Nat), ?_, ?_, ?_⟩
  all_goals decide +kernel

theorem wit_CalibrationStore_2 : ∃ (s : State) (i : Nat) (n : Nat), i < 2 ∧ s.cal.op = some (.write i n) ∧ s.cal.aborted = true := by
  refine ⟨({ up with cal := { op := some (.write 1 7), aborted := true } } : State), (1 : Nat), (7 : Nat), ?_, ?_, ?_⟩
  all_goals decide +kernel

theorem wit_CalibrationStore_4 : ∃ (s : State) (c : Command), CmdTaken s c 0x104 ∧ cmdPart s c = 0 ∧ s.cal.op = none := by
  refine ⟨({ cmdUp with cal := {} } : State), (cmd0 0x104 0 0 none : Command), ?_, ?_, ?_⟩
  · exact taken_of (by decide +kernel)
  · decide +kernel
  · decide +kernel

theorem wit_CalibrationStore_5 : ∃ (s : State) (f : FlashRead) (va : Bool) (vb : Bool) (i : Nat), s.cal.op = some (.load false) ∧
    f.responds = true ∧ (fld s MT_STRAP.STRAP).testBit 2 = false ∧ va = (slotWhole s.cal.slotA && !f.failA) ∧ vb = (slotWhole
    s.cal.slotB && !f.failB) ∧ ((va = true ∨ vb = true)) ∧ i = (if va && vb then (if s.cal.slotB.seq < s.cal.slotA.seq then 0 else 1)
    else if va then 0 else 1) := by
  refine ⟨({ up with cal := { op := some (.load false), slotB := { header := true, payload := true, commit := 0, seq := 3 } } } :
    State), (⟨true, false, false⟩ : FlashRead), false, true, (1 : Nat), ?_, ?_, ?_, ?_, ?_, ?_, ?_⟩
  all_goals decide +kernel

theorem wit_CalibrationStore_5b : ∃ (s : State) (f : FlashRead) (va : Bool) (vb : Bool) (i : Nat), s.cal.op = some (.load false) ∧
    f.responds = true ∧ (fld s MT_STRAP.STRAP).testBit 2 = false ∧ va = (slotWhole s.cal.slotA && !f.failA) ∧ vb = (slotWhole
    s.cal.slotB && !f.failB) ∧ ((va = true ∨ vb = true)) ∧ i = (if va && vb then (if s.cal.slotB.seq < s.cal.slotA.seq then 0 else 1)
    else if va then 0 else 1) := by
  refine ⟨({ up with cal := { op := some (.load false), slotA := { header := true, payload := true, commit := 0, seq := 4 }, slotB := { header := true, payload := true, commit := 0, seq := 3 } } } : State), (⟨true, false, false⟩ : FlashRead), true, true, (0 : Nat), ?_, ?_, ?_, ?_, ?_, ?_, ?_⟩
  all_goals decide +kernel

theorem wit_CalibrationStore_8 : ∃ (s : State) (c : Command), CmdTaken s c 0x105 ∧ 4 ≤ c.p1.toNat ∧ c.p1.toNat ≤ 2 ^ 20 ∧ c.p1.toNat %
    4 = 0 ∧ p0f c 22 0 + c.p1.toNat ≤ 2 ^ 23 := by
  refine ⟨cmdUp, (cmd 0x105 0x7FFFFC 4 none : Command), ?_, ?_, ?_, ?_, ?_⟩
  all_goals first | decide +kernel | exact reached_of (by decide +kernel) | exact runs_of (by decide +kernel) | exact taken_of (by
    decide +kernel) | exact takes_of (by decide +kernel)

theorem wit_RegisterWrites_3 : ∃ (s : State) (a : Access) (f : Nat), f < 8 ∧ Reached s a (IR_NMASK.off f) := by
  refine ⟨up, a0, (0 : Nat), ?_, ?_⟩
  · decide +kernel
  · exact reached_of (by decide +kernel)

theorem wit_RegisterWrites_4 : ∃ (s : State) (a : Access) (i : Nat), i < 512 ∧ Reached s a (IN_THR.off i) := by
  refine ⟨up, a0, (511 : Nat), ?_, ?_⟩
  · decide +kernel
  · exact reached_of (by decide +kernel)

theorem wit_RegisterWrites_5 : ∃ (s : State) (a : Access) (g : Nat), g < 64 ∧ Reached s a (LG_STAT.off g) := by
  refine ⟨(fl [(LG_STAT.WIN_OPEN 63, 1)] up : State), a0, (63 : Nat), ?_, ?_⟩
  · decide +kernel
  · exact reached_of (by decide +kernel)

theorem wit_RegisterWrites_6 : ∃ (s : State) (a : Access) (i : Nat), i < 512 ∧ reaches s a = true ∧ regPresent s (IN_THR.off i) = true
    ∧ mayWrite s a.func (IN_THR.off i) = false := by
  refine ⟨({ up with ar := { shadow := [(5, 4)] } } : State), (⟨2, 0⟩ : Access), (511 : Nat), ?_, ?_, ?_, ?_⟩
  all_goals decide +kernel

theorem wit_RegisterWrites_7 : ∃ (s : State) (a : Access) (be : Nat), reaches s a = true ∧ be % 16 ≠ 15 := by
  refine ⟨up, a0, (1 : Nat), ?_, ?_⟩
  all_goals decide +kernel

theorem wit_RegisterWrites_8 : ∃ (s : State) (a : Access), reaches s a = true := by
  refine ⟨up, a0, ?_⟩
  all_goals decide +kernel

theorem wit_RegisterWrites_10 : ∃ (s : State) (a : Access) (f : Nat) (i : Nat), f < 8 ∧ i < 32 ∧ Reached s a (IR_NMASK.off f) := by
  refine ⟨up, a0, (0 : Nat), (31 : Nat), ?_, ?_, ?_⟩
  · decide +kernel
  · decide +kernel
  · exact reached_of (by decide +kernel)

theorem wit_RegisterWrites_11 : ∃ (s : State) (a : Access) (v : W32), Reached s a GL_STALL_MAX.off ∧ v.getLsbD 31 = true := by
  refine ⟨(fl [(GL_STALL_MAX.NS, 5)] up : State), a0, 0x80000000, ?_, ?_⟩
  · exact reached_of (by decide +kernel)
  · decide +kernel

theorem wit_GuardedPairs_0 : ∃ (s : State) (a : Access) (blk : Nat) (k : Nat), reaches s a = true ∧ blk < 22 ∧ k < 64 ∧ guardPair s blk
    = none := by
  refine ⟨up, a0, (21 : Nat), (63 : Nat), ?_, ?_, ?_, ?_⟩
  all_goals decide +kernel

theorem wit_GuardedPairs_1 : ∃ (s : State) (a : Access) (blk : Nat) (k : Nat) (v : W32) (p : GuardPair), reaches s a = true ∧ blk < 22
    ∧ k < 64 ∧ guardPair s blk = some p ∧ pairExpired s p = false ∧ p.slot = k ∧ p.broken = false ∧ p.noReg = false ∧ p.noRights =
    false ∧ v ≠ ~~~p.value := by
  refine ⟨({ up with bus := { up.bus with pair := [(0, some ⟨63, 5, 0, 32000000 - 1600, false, false, false⟩)] } } : State), a0, (0 :
    Nat), (63 : Nat), (5 : W32), (⟨63, 5, 0, 32000000 - 1600, false, false, false⟩ : GuardPair), ?_, ?_, ?_, ?_, ?_, ?_, ?_, ?_, ?_, ?_⟩
  all_goals decide +kernel

theorem wit_GuardedPairs_2 : ∃ (s : State) (a : Access) (p : GuardPair), reaches s a = true ∧ guardPair s 2 = some p ∧ pairExpired s p
    = false ∧ p.slot = MQ_SCAN_REF.off % 0x10000 / 4 ∧ p.broken = false ∧ p.noReg = false ∧ p.noRights = false ∧ a.func = 0 ∧ p.func =
    0 := by
  refine ⟨({ up with bus := { up.bus with pair := [(2, some scanPair)] } } : State), a0, scanPair, ?_, ?_, ?_, ?_, ?_, ?_, ?_, ?_, ?_⟩
  all_goals decide +kernel

theorem wit_GuardedPairs_3 : ∃ (s : State) (a : Access), reaches s a = true ∧ a.func = 0 ∧ rights s 0 = true ∧ guardPair s 2 = none := by
  refine ⟨up, a0, ?_, ?_, ?_, ?_⟩
  all_goals decide +kernel

theorem wit_GuardedPairs_4 : ∃ (s : State) (a : Access), reaches s a = true ∧ a.func ≠ 0 ∧ rights s a.func = true ∧ guardPair s 2 =
    none := by
  refine ⟨({ up with ar := { shadow := [(4, 0x80000), (5, 0x202)] } } : State), (⟨1, 0⟩ : Access), ?_, ?_, ?_, ?_⟩
  all_goals decide +kernel

theorem wit_GuardedPairs_6 : ∃ (s : State) (blk : Nat) (p : GuardPair), guardPair s blk = some p ∧ pairExpired s p = true := by
  refine ⟨({ up with bus := { up.bus with pair := [(21, some ⟨63, 5, 0, 32000000 - 1610, false, false, false⟩)] } } : State), (21 :
    Nat), (⟨63, 5, 0, 32000000 - 1610, false, false, false⟩ : GuardPair), ?_, ?_⟩
  all_goals decide +kernel

theorem wit_GuardRights_0 : ∃ (s : State), (shadow s 4).testBit 19 = false := by
  refine ⟨up, ?_⟩
  all_goals decide +kernel

theorem wit_GuardRights_1 : ∃ (s : State), (shadow s 4).testBit 19 = true := by
  refine ⟨({ up with ar := { shadow := [(4, 0x80000)] } } : State), ?_⟩
  all_goals decide +kernel

theorem wit_GuardRights_2 : ∃ (s : State) (a : Access), reaches s a = true ∧ rights s a.func = false ∧ s.bus.pair = [] := by
  refine ⟨({ up with ar := { shadow := [(4, 0x80000)] } } : State), a0, ?_, ?_, ?_⟩
  all_goals decide +kernel

theorem wit_GuardRights_3 : ∃ (s : State) (a : Access) (off : Nat), off ∈ [AR_PROG_ROW.off, AR_PROG_DATA.off] ∧ reaches s a = true ∧
    rights s a.func = false ∧ s.bus.pair = [] := by
  refine ⟨({ up with ar := { shadow := [(4, 0x80000)] } } : State), a0, AR_PROG_DATA.off, ?_, ?_, ?_, ?_⟩
  all_goals decide +kernel

theorem wit_Partitions_1 : ∃ (f : Nat), 1 ≤ f ∧ f < 8 := by
  refine ⟨(7 : Nat), ?_, ?_⟩
  all_goals decide +kernel

theorem wit_Partitions_3 : ∃ (s : State), s.ar.shadow = [] := by
  refine ⟨up, ?_⟩
  all_goals decide +kernel

theorem wit_Partitions_4 : ∃ (s : State) (off : Nat), regOwner s off = .device ∧ off ≠ MQ_UNVEIL.off ∧ off ≠ MQ_VIEW.off := by
  refine ⟨up, GL_STALL_MAX.off, ?_, ?_, ?_⟩
  all_goals decide +kernel

theorem wit_UnveilPath_0 : ∃ (s : State) (a : Access) (v : W32), Reached s a MQ_UNVEIL.off ∧ v.toNat % 2 ^ 16 ≠ 0 := by
  refine ⟨up, a0, 0x8000, ?_, ?_⟩
  · exact reached_of (by decide +kernel)
  · decide +kernel

theorem wit_UnveilPath_1 : ∃ (s : State) (a : Access) (v : W32), Reached s a MQ_UNVEIL.off ∧ v.toNat % 2 ^ 16 = 0 := by
  refine ⟨up, a0, 0x80000, ?_, ?_⟩
  · exact reached_of (by decide +kernel)
  · decide +kernel

theorem wit_UnveilPath_3 : ∃ (s : State), flag s MQ_PIN_CFG.EN = false := by
  refine ⟨up, ?_⟩
  all_goals decide +kernel

theorem wit_UnveilPath_2 : ∃ (s : State), barUp s = true ∧ flag s MQ_PIN_CFG.EN = true := by
  refine ⟨(fl [(MQ_PIN_CFG.EN, 1), (MQ_PIN_CFG.MASK, 1)] up : State), ?_, ?_⟩
  all_goals decide +kernel

theorem wit_UnveilPath_4 : ∃ (s : State) (x : PartnerStrobe) (r : List PartnerStrobe), s.pr.strobes = x :: r ∧ x.t ≤ tNow s ∧ ((x.late
    = true → x.arrived ≠ s.pl.edge)) ∧ x.mask &&& fld s MQ_PAIR_CFG.ACCEPT ≠ 0 := by
  refine ⟨(fl [(MQ_PAIR_CFG.ACCEPT, 1)] { up with pr := { strobes := [⟨3, 204800000, false, 0⟩] } } : State), (⟨3, 204800000, false, 0⟩
    : PartnerStrobe), ([] : List PartnerStrobe), ?_, ?_, ?_, ?_⟩
  all_goals decide +kernel

theorem wit_UnveilPath_5 : ∃ (s : State) (u : UBlock) (x : Strobe), strobeFor u s.bus.strobes = some x ∧ arrived s u x.edge = true := by
  refine ⟨({ up with bus := { up.bus with strobes := [⟨1, 0, 0, 199999, [.inLg 63], []⟩] } } : State), (.inLg 63 : UBlock), (⟨1, 0, 0,
    199999, [.inLg 63], []⟩ : Strobe), ?_, ?_⟩
  all_goals decide +kernel

theorem wit_UnveilPath_9 : ∃ (s : State), s.bus.scanOn = true ∧ s.bus.scanVoid = false ∧ flag s MQ_SCAN_STAT.REF_SET = true ∧ flag s
    MQ_SCAN_STAT.REF_STALE = false ∧ scanCrc s ≠ reg s MQ_SCAN_REF.off := by
  refine ⟨(setReg scanUp MQ_SCAN_REF.off (scanCrc scanUp + 1) : State), ?_, ?_, ?_, ?_, ?_⟩
  · rw [Sys2Proof.Laws.setReg_bus_scanOn]; decide +kernel
  · rw [Sys2Proof.Laws.setReg_bus_scanVoid]; decide +kernel
  · unfold flag fld; rw [Sys2Proof.Laws.reg_setReg_ne _ _ (by decide)]; decide +kernel
  · unfold flag fld; rw [Sys2Proof.Laws.reg_setReg_ne _ _ (by decide)]; decide +kernel
  · rw [scanCrc_setReg, Sys2Proof.Laws.reg_setReg_self]; generalize scanCrc scanUp = x; intro h; have := congrArg BitVec.toNat h; rw
    [BitVec.toNat_add] at this; have := x.isLt; simp at *

theorem wit_UnveilPath_10 : ∃ (s : State), s.bus.scanOn = true ∧ s.bus.scanVoid = true := by
  refine ⟨({ up with bus := { up.bus with scanOn := true, scanVoid := true } } : State), ?_, ?_⟩
  all_goals decide +kernel

theorem wit_HostRings_0 : ∃ (s : State) (a : Access) (r : Nat) (v : W32), r < 64 ∧ Reached s a (HI_RING_CMD.off r) ∧ v.getLsbD 31 =
    true ∧ startRefused s r = false := by
  refine ⟨(fl [(HI_RING_CFG.KIND 63, 1), (HI_RING_CFG.SIZE_LOG2 63, 3), (HI_DB_BASE_LO.ADDR 0, 0x1000), (HI_CB_BASE_LO.ADDR 0, 0x2000)]
    up : State), a0, (63 : Nat), 0x80000000, ?_, ?_, ?_, ?_⟩
  all_goals first | decide +kernel | exact reached_of (by decide +kernel) | exact runs_of (by decide +kernel) | exact taken_of (by
    decide +kernel) | exact takes_of (by decide +kernel)

theorem wit_HostRings_1 : ∃ (s : State) (a : Access) (r : Nat) (v : W32), r < 64 ∧ Reached s a (HI_RING_CMD.off r) ∧ v.getLsbD 30 =
    true ∧ running s r = true := by
  refine ⟨cmdUp, a0, (0 : Nat), 0x40000000, ?_, ?_, ?_, ?_⟩
  all_goals first | decide +kernel | exact reached_of (by decide +kernel) | exact runs_of (by decide +kernel) | exact taken_of (by
    decide +kernel) | exact takes_of (by decide +kernel)

theorem wit_HostRings_2 : ∃ (s : State) (a : Access) (f : Nat) (v : W32), f < 8 ∧ Reached s a (HI_KICK.off f) ∧ v.getLsbD 0 = true := by
  refine ⟨up, a0, (0 : Nat), (1 : W32), ?_, ?_, ?_⟩
  · decide +kernel
  · exact reached_of (by decide +kernel)
  · decide +kernel

theorem wit_HostRings_3 : ∃ (s : State) (f : Nat) (r : Nat) (n : Nat), f < 8 ∧ flag s (HI_DB_CFG.EN f) = true ∧ (fnHost s f).d3hot =
    false ∧ (fnHost s f).kick = true ∧ doorRings s f = [r] ∧ n < 2 ^ 16 ∧ useWith s r n ≤ ringSize s r := by
  refine ⟨(fl [(HI_DB_CFG.EN 0, 1)] (setFnHost cmdUp 0 { kick := true }) : State), (0 : Nat), (0 : Nat), (15 : Nat), ?_, ?_, ?_, ?_,
    ?_, ?_, ?_⟩
  all_goals decide +kernel

theorem wit_HostRings_4 : ∃ (s : State) (f : Nat) (r : Nat) (n : Nat), f < 8 ∧ flag s (HI_DB_CFG.EN f) = true ∧ (fnHost s f).d3hot =
    false ∧ (fnHost s f).kick = true ∧ doorRings s f = [r] ∧ n < 2 ^ 16 ∧ ringSize s r < useWith s r n := by
  refine ⟨(fl [(HI_DB_CFG.EN 0, 1)] (setFnHost cmdUp 0 { kick := true }) : State), (0 : Nat), (0 : Nat), (16 : Nat), ?_, ?_, ?_, ?_,
    ?_, ?_, ?_⟩
  all_goals decide +kernel

theorem wit_HostRings_5 : ∃ (s : State) (c : Command), CmdTaken s c 0 := by
  refine ⟨cmdUp, (cmd0 0 0 0 none : Command), ?_⟩
  · exact taken_of (by decide +kernel)

theorem wit_HostRings_6 : ∃ (s : State) (c : Command), cmdReady s c = true ∧ listedOpcode c.opcode = false := by
  refine ⟨cmdUp, (cmd 0x7FF 0 0 none : Command), ?_, ?_⟩
  all_goals decide +kernel

theorem wit_HostOutput_0 : ∃ (s : State) (r : Nat) (d : Nat), r < 64 ∧ (fnHost s (ownHostRing s r)).d3hot = false ∧ (hring s r).slotDue
    = some d ∧ ((∀ n, (hring s r).slotAt = some n → n + 400 ≤ s.now)) ∧ (((hring s r).starting = true → ringKind s r = 0 → ∀ h < 64,
    (stream s h).asides = [])) := by
  refine ⟨(setHring up 63 { slotDue := some 5, slotAt := some 31999600 } : State), (63 : Nat), (5 : Nat), ?_, ?_, ?_, ?_, ?_⟩
  · decide +kernel
  · decide +kernel
  · decide +kernel
  · intro n h; cases h; decide +kernel
  · decide +kernel

theorem wit_HostOutput_1 : ∃ (s : State) (r : Nat) (d : Nat), r < 64 ∧ (fnHost s (ownHostRing s r)).d3hot = false ∧ (hring s r).slotDue
    = some d ∧ ((∀ n, (hring s r).slotAt = some n → n + 400 ≤ s.now)) := by
  refine ⟨(setHring up 63 { slotDue := some 5, slotAt := some 31999600 } : State), (63 : Nat), (5 : Nat), ?_, ?_, ?_, ?_⟩
  · decide +kernel
  · decide +kernel
  · decide +kernel
  · intro n h; cases h; decide +kernel

theorem wit_HostOutput_2 : ∃ (s : State) (r : Nat) (d : Nat) (a : Nat) (old : List Byte) (l : List (Nat × List Byte)), r < 64 ∧ (fnHost
    s (ownHostRing s r)).d3hot = false ∧ (hring s r).slotDue = some d ∧ ((∀ n, (hring s r).slotAt = some n → n + 400 ≤ s.now)) ∧ (hring
    s r).unack = (a, old) :: l ∧ a ≠ cbBase s (ownHostRing s r) + 8 * r := by
  refine ⟨(setHring up 63 { slotDue := some 5, slotAt := some 31999600, unack := [(0x8000, [7])] } : State), (63 : Nat), (5 : Nat),
    0x8000, ([7] : List Byte), ([] : List (Nat × List Byte)), ?_, ?_, ?_, ?_, ?_, ?_⟩
  · decide +kernel
  · decide +kernel
  · decide +kernel
  · intro n h; cases h; decide +kernel
  · decide +kernel
  · decide +kernel

theorem wit_HostOutput_6 : ∃ (s : State) (r : Nat), (hring s r).raise = true ∧ moderated s r = false ∧ (fnHost s (ownHostRing s
    r)).msixEn = true ∧ ((msixVec s (ownHostRing s r) (fld s (HI_RING_CFG.VEC r))).ctrl.getLsbD 0 = true ∨ (fnHost s (ownHostRing s
    r)).msixMask = true) := by
  refine ⟨(setFnHost (setHring up 63 { raise := true }) 0 { msixEn := true } : State), (63 : Nat), ?_, ?_, ?_, ?_⟩
  all_goals decide +kernel

theorem wit_HostOutput_3 : ∃ (s : State) (r : Nat), (hring s r).raise = true ∧ moderated s r = false ∧ (fnHost s (ownHostRing s
    r)).msixEn = true ∧ vectorMasked s (ownHostRing s r) (fld s (HI_RING_CFG.VEC r)) = false := by
  refine ⟨(setMsixVec (setFnHost (setHring up 63 { raise := true }) 0 { msixEn := true }) 0 0 { ctrl := 0 } : State), (63 : Nat), ?_,
    ?_, ?_, ?_⟩
  all_goals decide +kernel

theorem wit_HostOutput_4 : ∃ (s : State) (r : Nat), (hring s r).raise = true ∧ moderated s r = true := by
  refine ⟨(fl [(HI_RING_CFG.MOD 63, 1)] (setHring up 63 { raise := true, raisedAt := some 31999000 }) : State), (63 : Nat), ?_, ?_⟩
  all_goals decide +kernel

theorem wit_HostOutput_5 : ∃ (s : State) (r : Nat), (hring s r).deferred = true ∧ moderated s r = false ∧ (fnHost s (ownHostRing s
    r)).msixEn = true ∧ vectorMasked s (ownHostRing s r) (fld s (HI_RING_CFG.VEC r)) = false := by
  refine ⟨(setMsixVec (setFnHost (fl [(HI_RING_CFG.MOD 63, 1)] (setHring up 63 { deferred := true, raisedAt := some 31998400 })) 0
    { msixEn := true }) 0 0 { ctrl := 0 } : State), (63 : Nat), ?_, ?_, ?_, ?_⟩
  all_goals decide +kernel

theorem wit_HostOutput_7 : ∃ (s : State) (f : Nat) (r : Nat) (n : Notice) (q : List Notice), f < 8 ∧ (fnHost s f).d3hot = false ∧
    (fnHost s f).nq = n :: q ∧ (fnHost s f).dropped = 0 ∧ flag s (IR_NCFG.EN f) = true ∧ n.at_ + 1600 * fld s (IR_NCFG.HOLD f) ≤ s.now
    ∧ fld s (IR_NCFG.RING f) = r ∧ ownHostRing s r = f ∧ ringKind s r = 3 ∧ running s r = true ∧ stopping s r = false ∧ (hring s
    r).fetched = true ∧ inUse (devIdx s r) (hostIdx s r) < ringSize s r := by
  refine ⟨(fl [(HI_RING_BASE_LO.ADDR 0, 0x10000), (HI_RING_CFG.KIND 0, 3), (HI_RING_CFG.SIZE_LOG2 0, 3), (HI_RING_STAT.RUNNING 0, 1),
    (HI_RING_IDX.HOST 0, 0), (HI_RING_IDX.DEV 0, 7), (IR_NCFG.EN 0, 1)] (setHring (setFnHost up 0 { nq := [note0] }) 0
    { fetched := true }) : State), (0 : Nat), (0 : Nat), note0, ([] : List Notice), ?_, ?_, ?_, ?_, ?_, ?_, ?_, ?_, ?_, ?_, ?_, ?_, ?_⟩
  all_goals decide +kernel

theorem wit_FunctionLevelReset_0 : ∃ (s : State) (f : Nat), f < 8 ∧ fnExists s f = true := by
  refine ⟨cmdUp, (0 : Nat), ?_, ?_⟩
  all_goals decide +kernel

theorem wit_BinTables_4 : ∃ (s : State) (g : Nat) (st : Staging), (calGroup s g).building = some st ∧ st.firstTable = false ∧
    s.pl.frameT.isSome = true := by
  refine ⟨({ up with pl := { up.pl with frameT := some 5 }, cal := { groups := [(63, { building := some ⟨100, [nominalSet], false, 5, false⟩ })] } } : State), (63 : Nat), (⟨100, [nominalSet], false, 5, false⟩ : Staging), ?_, ?_, ?_⟩
  all_goals decide +kernel

theorem wit_BinTables_5 : ∃ (s : State) (g : Nat) (i : Nat) (st : Staging), i < 16 ∧ s.pl.frameT.isSome = true ∧ (calGroup s g).staged
    = some st := by
  refine ⟨({ up with pl := { up.pl with frameT := some 5 }, cal := { groups := [(63, { staged := some ⟨100, [nominalSet], false, 5, false⟩ })] } } : State), (63 : Nat), (15 : Nat), (⟨100, [nominalSet], false, 5, false⟩ : Staging), ?_, ?_, ?_⟩
  all_goals decide +kernel

theorem wit_BinSetCommands_2 : ∃ (s : State) (g : Nat) (m : Measure), (calGroup s g).measure = some m ∧ m.at_ + collectTicks m.p ≤
    s.now ∧ m.set < 3 := by
  refine ⟨({ up with cal := { groups := [(3, { measure := some ⟨1, 2, 20, 0, cmd 0x100 0 0 none, false, some (5, 37), 0⟩ })] } } :
    State), (3 : Nat), (⟨1, 2, 20, 0, cmd 0x100 0 0 none, false, some (5, 37), 0⟩ : Measure), ?_, ?_, ?_⟩
  all_goals decide +kernel

theorem wit_CalibrationStore_6 : ∃ (s : State) (f : FlashRead) (c : Command), s.cal.op = some (.load false) ∧ s.cal.opCmd = some c ∧
    (hring s c.ring).cmd = some c ∧ c.ring < 64 ∧ f.responds = false := by
  refine ⟨(setHring { cmdUp with cal := { op := some (.load false), opCmd := some (cmd0 0x104 0 0 none) } } 0
    { hring cmdUp 0 with cmd := some (cmd0 0x104 0 0 none) } : State), (⟨false, false, false⟩ : FlashRead), (cmd0 0x104 0 0 none :
    Command), ?_, ?_, ?_, ?_, ?_⟩
  all_goals decide +kernel

theorem wit_CalibrationStore_7 : ∃ (s : State) (c : Command), CmdTaken s c 0x105 ∧ 4 ≤ c.p1.toNat ∧ c.p1.toNat ≤ 2 ^ 20 ∧ c.p1.toNat %
    4 = 0 ∧ p0f c 22 0 + c.p1.toNat ≤ 2 ^ 23 := by
  refine ⟨cmdUp, (cmd 0x105 0x7FFFFC 4 none : Command), ?_, ?_, ?_, ?_, ?_⟩
  all_goals first | decide +kernel | exact reached_of (by decide +kernel) | exact runs_of (by decide +kernel) | exact taken_of (by
    decide +kernel) | exact takes_of (by decide +kernel)

theorem wit_RegisterWrites_0 : ∃ (s : State) (a : Access) (off : Nat) (i : Nat) (j : Nat) (r : RegRow), off / 0x10000 ∈ [1, 7, 8, 9,
    10, 12, 14, 15, 20, 21] ∧ off % 4 = 0 ∧ off % 0x10000 < 0xF000 ∧ findReg off = some (r, i, j) ∧ maskOf (fun x => x = .cmd || x =
    .grd) r.fields = 0 ∧ r.half = .none ∧ ((∀ g < 64, off ≠ LG_INJ_DATA.off g)) ∧ Reached s a off := by
  refine ⟨up, a0, 0x71FF4, (511 : Nat), (0 : Nat), (⟨0x70004, 512, 16, 1, 4, .none, [⟨27, 16, .cfg, 2048⟩, ⟨11, 0, .cfg, 2048⟩]⟩ :
    RegRow), ?_, ?_, ?_, ?_, ?_, ?_, ?_, ?_⟩
  · decide +kernel
  · decide +kernel
  · decide +kernel
  · decide +kernel
  · decide +kernel
  · decide +kernel
  · decide +kernel
  · exact reached_of (by decide +kernel)

theorem wit_RegisterWrites_0b : ∃ (s : State) (a : Access) (off : Nat) (i : Nat) (j : Nat) (r : RegRow), off / 0x10000 ∈ [1, 7, 8, 9,
    10, 12, 14, 15, 20, 21] ∧ off % 4 = 0 ∧ off % 0x10000 < 0xF000 ∧ findReg off = some (r, i, j) ∧ maskOf (fun x => x = .cmd || x =
    .grd) r.fields = 0 ∧ r.half = .none ∧ ((∀ g < 64, off ≠ LG_INJ_DATA.off g)) ∧ Reached s a off := by
  refine ⟨up, a0, 0x8000C, (0 : Nat), (0 : Nat), (((findReg 0x8000C).getD (⟨0, 0, 0, 0, 0, .none, []⟩, 0, 0)).1 : RegRow), ?_, ?_, ?_,
    ?_, ?_, ?_, ?_, ?_⟩
  · decide +kernel
  · decide +kernel
  · decide +kernel
  · decide +kernel
  · decide +kernel
  · decide +kernel
  · decide +kernel
  · exact reached_of (by decide +kernel)

theorem wit_RegisterWrites_1 : ∃ (s : State) (a : Access) (off : Nat) (i : Nat) (j : Nat) (r : RegRow), off / 0x10000 ∈ [9, 12, 20, 21]
    ∧ off % 4 = 0 ∧ off % 0x10000 < 0xF000 ∧ findReg off = some (r, i, j) ∧ maskOf (fun x => x = .cmd || x = .grd) r.fields = 0 ∧
    r.half = .lo ∧ maskOf (fun x => x = .live || x = .cnt || x = .cfg) r.fields ≠ 0 ∧ Reached s a off := by
  refine ⟨up, a0, 0xC0014, (0 : Nat), (0 : Nat), (⟨0xC0014, 64, 256, 1, 4, .lo, [⟨31, 0, .cfg, 0⟩]⟩ : RegRow), ?_, ?_, ?_, ?_, ?_, ?_,
    ?_, ?_⟩
  · decide +kernel
  · decide +kernel
  · decide +kernel
  · decide +kernel
  · decide +kernel
  · decide +kernel
  · decide +kernel
  · exact reached_of (by decide +kernel)

theorem wit_RegisterWrites_2 : ∃ (s : State) (a : Access) (off : Nat) (i : Nat) (j : Nat) (r : RegRow), off < 0x160000 ∧ off % 4 = 0 ∧
    off % 0x10000 < 0xF000 ∧ findReg off = some (r, i, j) ∧ maskOf (fun x => x = .grd) r.fields ≠ 0 ∧ Reached s a off := by
  refine ⟨up, a0, 0x20030, (0 : Nat), (0 : Nat), (⟨0x20030, 1, 4, 1, 4, .none, [⟨31, 0, .grd, 0⟩]⟩ : RegRow), ?_, ?_, ?_, ?_, ?_, ?_⟩
  · decide +kernel
  · decide +kernel
  · decide +kernel
  · decide +kernel
  · decide +kernel
  · exact reached_of (by decide +kernel)

theorem wit_GuardedPairs_5 : ∃ (s : State) (a : Access), reaches s a = true ∧ a.func ≠ 0 ∧ rights s a.func = false ∧ guardPair s 2 =
    none := by
  refine ⟨({ up with ar := { shadow := [(4, 0x80000), (5, 0x002)] } } : State), (⟨1, 0⟩ : Access), ?_, ?_, ?_, ?_⟩
  all_goals decide +kernel

theorem wit_UnveilPath_6 : ∃ (s : State) (a : Access) (k : Nat), k < 29 ∧ Reached s a (MQ_UG.off k) := by
  refine ⟨({ up with bus := { up.bus with strobes := [⟨1, 0, 0, 199999, [.inLg 63], []⟩] } } : State), a0, (28 : Nat), ?_, ?_⟩
  · decide +kernel
  · exact reached_of (by decide +kernel)

theorem wit_UnveilPath_8 : ∃ (s : State) (u : UBlock), u ∈ allUnits s ∧ isWaiting s u = true ∧ boundary s u = true ∧ s.inp.cmd = none
    := by
  refine ⟨({ up with bus := { up.bus with waiting := [(.ma 1, 5)] } } : State), (.ma 1 : UBlock), ?_, ?_, ?_, ?_⟩
  all_goals decide +kernel

theorem wit_HostOutput_8 : ∃ (s : State) (r : Nat), r < 64 ∧ stopping s r = true ∧ ringKind s r = 1 ∧ (hring s r).cmd = none ∧ (fnHost
    s (ownHostRing s r)).d3hot = false := by
  refine ⟨(fl [(HI_RING_CFG.KIND 63, 1), (HI_RING_STAT.RUNNING 63, 1), (HI_RING_STAT.STOPPING 63, 1)] up : State), (63 : Nat), ?_, ?_,
    ?_, ?_, ?_⟩
  all_goals decide +kernel

theorem wit_HostOutput_9 : ∃ (s : State) (a : Access) (f : Nat), a.func = f ∧ f < 8 ∧ barUp s = true ∧ fnExists s f = true := by
  refine ⟨up, a0, (0 : Nat), ?_, ?_, ?_, ?_⟩
  all_goals decide +kernel

theorem wit_MonitorConverters_0 : ∃ (s : State) (a : Access) (c : Nat) (v : W32), c < 2 ∧ Reached s a (MA_CMD.off c) ∧ v.getLsbD 29 =
    true ∧ (conv s c).calEnd = none ∧ flag s MA_REF.READY = true ∧ (conv s c).run = false ∧ (conv s c).borrowAt = none := by
  refine ⟨(fl [(MA_REF.READY, 1)] up : State), a0, (1 : Nat), 0x20000000, ?_, ?_, ?_, ?_, ?_, ?_, ?_⟩
  all_goals first | decide +kernel | exact reached_of (by decide +kernel) | exact runs_of (by decide +kernel) | exact taken_of (by
    decide +kernel) | exact takes_of (by decide +kernel)

theorem wit_MonitorConverters_1 : ∃ (s : State) (c : Nat) (n : Nat), c < 2 ∧ (conv s c).calEnd = some n ∧ n ≤ s.now := by
  refine ⟨({ up with mon := { c1 := { calEnd := some 5 } } } : State), (1 : Nat), (5 : Nat), ?_, ?_, ?_⟩
  all_goals decide +kernel

theorem wit_MonitorConverters_2 : ∃ (s : State) (a : Access) (c : Nat) (v : W32), c < 2 ∧ Reached s a (MA_CMD.off c) ∧ v.getLsbD 31 =
    true ∧ flag s MA_REF.READY = true ∧ flag s (MA_STAT.CAL_DONE c) = true := by
  refine ⟨(fl [(MA_REF.READY, 1), (MA_STAT.CAL_DONE 1, 1)] up : State), a0, (1 : Nat), 0x80000000, ?_, ?_, ?_, ?_, ?_⟩
  all_goals first | decide +kernel | exact reached_of (by decide +kernel) | exact runs_of (by decide +kernel) | exact taken_of (by
    decide +kernel) | exact takes_of (by decide +kernel)

theorem wit_MonitorConverters_3 : ∃ (s : State) (a : Access) (c : Nat) (v : W32), c < 2 ∧ Reached s a (MA_CMD.off c) ∧ v.getLsbD 30 =
    true := by
  refine ⟨up, a0, (1 : Nat), 0x40000000, ?_, ?_, ?_⟩
  · decide +kernel
  · exact reached_of (by decide +kernel)
  · decide +kernel

theorem wit_MonitorConverters_4 : ∃ (s : State) (xs : List Int), maDue s 0 = true ∧ (conv s 0).role = .own ∧ (conv s 1).startAt = none
    ∧ xs.length = 2 ^ (maCur s 0).avg ∧ ((∀ x ∈ xs, -2048 ≤ x ∧ x ≤ 2047)) ∧ fld s (MA_ACC_CFG.LEN (maCur s 0).tgt) = 0 ∧ (acc s (maCur
    s 0).tgt).count + 1 < 2 ^ 32 := by
  refine ⟨({ up with mon := { c0 := { run := true, startAt := some 31999000 } } } : State), ([5] : List Int), ?_, ?_, ?_, ?_, ?_, ?_, ?_⟩
  all_goals decide +kernel

theorem wit_MonitorConverters_5 : ∃ (s : State) (a : Access) (n : Nat) (v : W32), n < 128 ∧ Reached s a (MA_ACC_CFG.off n) ∧ v.getLsbD
    31 = true := by
  refine ⟨up, a0, (127 : Nat), 0x80000000, ?_, ?_, ?_⟩
  · decide +kernel
  · exact reached_of (by decide +kernel)
  · decide +kernel

theorem wit_MonitorConverters_6 : ∃ (s : State) (a : Access) (n : Nat) (v : W32), n < 128 ∧ Reached s a (MA_ACC_CFG.off n) ∧ v.getLsbD
    30 = true := by
  refine ⟨up, a0, (127 : Nat), 0x40000000, ?_, ?_, ?_⟩
  · decide +kernel
  · exact reached_of (by decide +kernel)
  · decide +kernel

theorem wit_MonitorConverters_7 : ∃ (s : State) (a : Access) (n : Nat) (v : W32), n < 64 ∧ Reached s a (MA_WIN_CFG.off n) ∧ v.getLsbD
    31 = true := by
  refine ⟨up, a0, (63 : Nat), 0x80000000, ?_, ?_, ?_⟩
  · decide +kernel
  · exact reached_of (by decide +kernel)
  · decide +kernel

theorem wit_ReferenceBuffer_0 : ∃ (s : State) (a : Access) (v : W32), Reached s a MA_REF.off ∧ flag s MA_REF.EN = false ∧ v.getLsbD 31
    = true := by
  refine ⟨up, a0, 0x80000000, ?_, ?_, ?_⟩
  · exact reached_of (by decide +kernel)
  · decide +kernel
  · decide +kernel

theorem wit_ReferenceBuffer_1 : ∃ (s : State) (n : Nat), s.mon.refAt = some n ∧ n + 3200000 ≤ s.now := by
  refine ⟨({ up with mon := { refAt := some 28800000 } } : State), (28800000 : Nat), ?_, ?_⟩
  all_goals decide +kernel

theorem wit_ReferenceBuffer_2 : ∃ (s : State) (n : Nat), s.mon.refAt = some n ∧ s.now < n + 3200000 := by
  refine ⟨({ up with mon := { refAt := some 28800001 } } : State), (28800001 : Nat), ?_, ?_⟩
  all_goals decide +kernel

theorem wit_ReferenceBuffer_3 : ∃ (s : State) (a : Access) (v : W32), Reached s a MA_REF.off ∧ flag s MA_REF.EN = true ∧ v.getLsbD 31 =
    false := by
  refine ⟨(fl [(MA_REF.EN, 1), (MA_REF.READY, 1)] { up with mon := { c0 := { run := true, startAt := some 5 } } } : State), a0, (0 :
    W32), ?_, ?_, ?_⟩
  · exact reached_of (by decide +kernel)
  · decide +kernel
  · decide +kernel

theorem wit_CastLink_0 : ∃ (s : State) (n : Nat), pairFuse s = true ∧ n ≠ 0 ∧ s.mt.inReset = false ∧ s.mt.asleep = false := by
  refine ⟨paired, (1 : Nat), ?_, ?_, ?_, ?_⟩
  all_goals decide +kernel

theorem wit_CastLink_1 : ∃ (s : State), flag s PR_STAT.LINK_UP = true := by
  refine ⟨linked, ?_⟩
  all_goals decide +kernel

theorem wit_CastLink_2 : ∃ (s : State), flag s PR_STAT.LINK_UP = true := by
  refine ⟨linked, ?_⟩
  all_goals decide +kernel

theorem wit_CastLink_3 : ∃ (s : State), pairFuse s = true ∧ flag s PR_STAT.LINK_UP = true ∧ ((∀ n h, s.pr.hbSent = some (n, h) →
    hbIndex n < hbIndex s.now)) := by
  refine ⟨({ linked with pr := { hbSent := some (1, ⟨3, 0, 0, false, false, false⟩) } } : State), ?_, ?_, ?_⟩
  · decide +kernel
  · decide +kernel
  · intro n h e; cases e; decide +kernel

theorem wit_CastLink_5 : ∃ (s : State) (h : Heartbeat), pairFuse s = true ∧ flag s PR_STAT.LINK_UP = true ∧ fld s PR_STAT.ROLE ≠ 3 ∧
    h.yields = false := by
  refine ⟨linked, (⟨3, 9, 0, false, false, true⟩ : Heartbeat), ?_, ?_, ?_, ?_⟩
  all_goals decide +kernel

theorem wit_CastLink_6 : ∃ (s : State) (n : Nat), s.pr.hbAt = some n ∧ fld s PR_STAT.ROLE ≠ 0 ∧ n + 3200 ≤ s.now ∧ s.pr.hbLost = 0 := by
  refine ⟨(fl [(PR_STAT.ROLE, 1)] { linked with pr := { hbAt := some 31996800 } } : State), (31996800 : Nat), ?_, ?_, ?_, ?_⟩
  all_goals decide +kernel

theorem wit_CastLink_7 : ∃ (s : State) (b : Bool), flag s PR_STAT.OWN_IN ≠ b := by
  refine ⟨up, true, ?_⟩
  all_goals decide +kernel

theorem wit_TakeOverAndCasts_0 : ∃ (s : State), ready s = true ∧ s.pr.hbLost ≠ 0 ∧ ownLow s = true := by
  refine ⟨({ standby with pr := { castOk := true, hbLost := 1 } } : State), ?_, ?_, ?_⟩
  all_goals decide +kernel

theorem wit_TakeOverAndCasts_1 : ∃ (s : State) (a : Access), reaches s a = true ∧ a.func = 0 ∧ rights s 0 = true ∧ guardPair s 19 =
    none ∧ isStandby s = true ∧ flag s PR_STAT.ALIGNED = true := by
  refine ⟨standby, a0, ?_, ?_, ?_, ?_, ?_, ?_⟩
  all_goals decide +kernel

theorem wit_TakeOverAndCasts_2 : ∃ (s : State) (a : Access) (v : W32), Reached s a PR_CMD.off ∧ v.getLsbD 29 = true ∧ fld s
    PR_STAT.ROLE = 3 := by
  refine ⟨active3, a0, 0x20000000, ?_, ?_, ?_⟩
  · exact reached_of (by decide +kernel)
  · decide +kernel
  · decide +kernel

theorem wit_TakeOverAndCasts_3 : ∃ (s : State), fld s PR_STAT.ROLE = 3 ∧ flag s PR_STAT.LINK_UP = true ∧ s.pr.castAt = none ∧ ((∀ n,
    s.pr.castLast = some n → n + castPeriod s ≤ s.now)) := by
  refine ⟨({ active3 with pr := { castLast := some 1 } } : State), ?_, ?_, ?_, ?_⟩
  · decide +kernel
  · decide +kernel
  · decide +kernel
  · intro n e; cases e; decide +kernel

theorem wit_TakeOverAndCasts_4 : ∃ (s : State) (n : Nat), s.pr.castAt = some n ∧ linesWait s = false ∧ fld s PR_STAT.ROLE = 3 := by
  refine ⟨({ active3 with pr := { castAt := some 5 } } : State), (5 : Nat), ?_, ?_, ?_⟩
  all_goals decide +kernel

theorem wit_TakeOverAndCasts_6 : ∃ (s : State) (x : Cast), isStandby s = true ∧ flag s PR_STAT.LINK_UP = true ∧ x.engines = [] := by
  refine ⟨standby, (⟨5, true, none, [], []⟩ : Cast), ?_, ?_, ?_⟩
  all_goals decide +kernel

theorem wit_TakeOverAndCasts_7 : ∃ (s : State) (x : Cast) (ce : CastEngine), isStandby s = true ∧ flag s PR_STAT.LINK_UP = true ∧
    x.engines = [ce] ∧ heldHalted s ce.e = true ∧ ce.e < nEngines s := by
  refine ⟨(setReg standby (PR_CV_MIRROR.off 7) 0x80000000 : State), (⟨5, true, none, [], [⟨255, 4097, [], []⟩]⟩ : Cast), (⟨255, 4097,
    [], []⟩ : CastEngine), ?_, ?_, ?_, ?_, ?_⟩
  all_goals decide +kernel

theorem wit_TakeOverAndCasts_8 : ∃ (s : State) (a : Access) (v : W32), Reached s a PR_CMD.off ∧ v.getLsbD 28 = true := by
  refine ⟨standby, a0, 0x10000000, ?_, ?_⟩
  · exact reached_of (by decide +kernel)
  · decide +kernel

theorem wit_AlignmentAndSplicing_0 : ∃ (s : State) (a : Access) (v : W32), Reached s a PR_CMD.off ∧ v.getLsbD 31 = true ∧ s.pr.align =
    none ∧ isStandby s = true ∧ flag s PR_STAT.LINK_UP = true ∧ flag s PL_STAT.EMITTED = false ∧ flag s PL_CTRL.ORIGIN_WAIT = true ∧
    s.pr.activeSeen = true := by
  refine ⟨(fl [(PL_CTRL.ORIGIN_WAIT, 1)] { standby with pr := { activeSeen := true } } : State), a0, 0x80000000, ?_, ?_, ?_, ?_, ?_,
    ?_, ?_, ?_⟩
  all_goals first | decide +kernel | exact reached_of (by decide +kernel) | exact runs_of (by decide +kernel) | exact taken_of (by
    decide +kernel) | exact takes_of (by decide +kernel)

theorem wit_AlignmentAndSplicing_1 : ∃ (s : State) (x : AlignRun) (act : List Nat) (d : Int) (n : Nat) (y : Nat), s.pr.align = some x ∧
    x.measure = false ∧ x.residual = false ∧ pulsesDone s x = true ∧ measured s x.own act = (some d, n) ∧ Int.ofNat (s.pl.t.toNat * 2 ^
    40 + s.pl.f.toNat) + d * 2 ^ 32 = Int.ofNat y ∧ flag s PL_STAT.EMITTED = false ∧ s.pl.originDone = false ∧ s.pl.t.toNat ≤ y / 2 ^
    40 ∧ y < 2 ^ 144 := by
  refine ⟨(fl [(PR_ALIGN_CFG.P, 8)] { standby with pr := { align := some ⟨false, false, 0, 5, (List.range 256).map (· * 1000000)⟩ } } :
    State), (⟨false, false, 0, 5, (List.range 256).map (· * 1000000)⟩ : AlignRun), ((List.range 256).map (· * 1000000 + 5) : List Nat),
    (1280 : Int), (256 : Nat), (204800000 * 2 ^ 40 + 1280 * 2 ^ 32 : Nat), ?_, ?_, ?_, ?_, ?_, ?_, ?_, ?_, ?_, ?_⟩
  all_goals decide +kernel

theorem wit_AlignmentAndSplicing_2 : ∃ (s : State) (x : AlignRun) (act : List Nat) (d : Int) (n : Nat), s.pr.align = some x ∧
    x.residual = true ∧ pulsesDone s x = true ∧ measured s x.own act = (some d, n) := by
  refine ⟨(fl [(PR_ALIGN_CFG.P, 8)]
    { standby with pr := { align := some ⟨false, true, 0, 5, (List.range 256).map (· * 1000000 + 3)⟩ } } : State), (⟨false, true, 0, 5,
    (List.range 256).map (· * 1000000 + 3)⟩ : AlignRun), ((List.range 256).map (· * 1000000) : List Nat), (-768 : Int), (256 : Nat),
    ?_, ?_, ?_, ?_⟩
  all_goals decide +kernel

theorem wit_AlignmentAndSplicing_5 : ∃ (s : State) (a : Access) (v : W32), Reached s a PR_CMD.off ∧ v.getLsbD 30 = true ∧ s.pr.align =
    none ∧ isStandby s = true ∧ flag s PR_STAT.ALIGNED = true := by
  refine ⟨standby, a0, 0x40000000, ?_, ?_, ?_, ?_, ?_⟩
  all_goals first | decide +kernel | exact reached_of (by decide +kernel) | exact runs_of (by decide +kernel) | exact taken_of (by
    decide +kernel) | exact takes_of (by decide +kernel)

theorem wit_AlignmentAndSplicing_6 : ∃ (s : State) (x : AlignRun) (act : List Nat) (d : Int) (n : Nat), s.pr.align = some x ∧ x.measure
    = true ∧ pulsesDone s x = true ∧ measured s x.own act = (some d, n) := by
  refine ⟨(fl [(PR_ALIGN_CFG.P, 8)]
    { standby with pr := { align := some ⟨true, false, 0, 5, (List.range 256).map (· * 1000000 + 3)⟩ } } : State), (⟨true, false, 0, 5,
    (List.range 256).map (· * 1000000 + 3)⟩ : AlignRun), ((List.range 256).map (· * 1000000) : List Nat), (-768 : Int), (256 : Nat),
    ?_, ?_, ?_, ?_⟩
  all_goals decide +kernel

theorem wit_AlignmentAndSplicing_7 : ∃ (s : State) (x : AlignRun), s.pr.align = some x ∧ x.at_ + 1600000000 ≤ s.now := by
  refine ⟨({ standby with now := 1600000005, pr := { align := some ⟨true, false, 0, 5, []⟩ } } : State), (⟨true, false, 0, 5, []⟩ :
    AlignRun), ?_, ?_⟩
  all_goals decide +kernel

theorem wit_AlignmentAndSplicing_8 : ∃ (s : State), isStandby s = true ∧ flag s PR_STAT.LINK_UP = true := by
  refine ⟨standby, ?_, ?_⟩
  all_goals decide +kernel

theorem wit_AlignmentAndSplicing_9 : ∃ (s : State), isStandby s = true ∧ s.pr.spliceAt < tNow s / 2 ^ 26 := by
  refine ⟨({ standby with pr := { spliceAt := 2 } } : State), ?_, ?_⟩
  all_goals decide +kernel

theorem wit_AlignmentAndSplicing_10 : ∃ (s : State) (g : Nat) (c : Nat), fld s PR_STAT.ROLE = 3 ∧ g < nGroups s ∧ (exportedGroups
    s).contains g = true ∧ c = quiet (max 1 (fld s PR_CFG.CUT_GUARD)) ((cutOf s g).last + 2 ^ 16) (cutOf s g).times ∧ c + max 1 (fld s
    PR_CFG.CUT_GUARD) < progress s g ∧ (cutOf s g).done = none ∧ fld s (LG_SEQ.SEQ g) ≠ 0 := by
  refine ⟨cutUp, (63 : Nat), (65536 : Nat), ?_, ?_, ?_, ?_, ?_, ?_, ?_⟩
  all_goals decide +kernel

theorem wit_FabricPath_0 : ∃ (s : State) (c : Nat), codePresent s c = true ∧ (source s c).earned < creditsDue s := by
  refine ⟨up, 0x53, ?_, ?_⟩
  all_goals decide +kernel

theorem wit_FabricPath_1 : ∃ (s : State) (c : Nat), creditsDue s ≤ (source s c).earned := by
  refine ⟨(setSource up 0x53 { earned := 10000000 } : State), 0x53, ?_⟩
  all_goals decide +kernel

theorem wit_FabricPath_2 : ∃ (s : State) (c : Nat) (x : Tile) (r : List Tile), (source s c).crossing = x :: r ∧ (source s
    c).entry.length < 8 := by
  refine ⟨(setSource up 0x53 { crossing := [tile1] } : State), 0x53, tile1, ([] : List Tile), ?_, ?_⟩
  all_goals decide +kernel

theorem wit_FabricPath_3 : ∃ (s : State) (c : Nat) (x : Tile) (k : Nat) (r : List (Tile × Nat)), c < 0x54 ∧ s.fab.grantCyc ≠ some (fclk
    s) ∧ (source s c).entry = (x, k) :: r ∧ ((∀ d < 0x54, ∀ y j q, (source s d).entry = (y, j) :: q → k < j ∨ (k = j ∧ c ≤ d))) := by
  refine ⟨twoIn, (3 : Nat), tile1, (5 : Nat), ([] : List (Tile × Nat)), ?_, ?_, ?_, ?_⟩
  · decide +kernel
  · decide +kernel
  · decide +kernel
  · intro d hd y j q e
    have h : ∀ d < 0x54, ((source twoIn d).entry.all fun e => decide (5 < e.2 ∨ (5 = e.2 ∧ 3 ≤ d))) = true := by
      decide +kernel
    have h := h d hd
    rw [e, List.all_cons, Bool.and_eq_true, decide_eq_true_eq] at h; exact h.1

theorem wit_FabricPath_4 : ∃ (s : State), s.fab.grantCyc = some (fclk s) := by
  refine ⟨({ up with fab := { grantCyc := some 20000000 } } : State), ?_⟩
  all_goals decide +kernel

theorem wit_FabricPath_5 : ∃ (s : State) (code : Nat) (k : Nat) (dst : Nat) (x : Tile) (r : List (Nat × Tile × Nat × Nat)), s.fab.pipe
    = (code, x, k, dst) :: r ∧ k + 12 ≤ fclk s ∧ code < 0x54 := by
  refine ⟨({ up with fab := { pipe := [(5, tile1, 0, 1)] } } : State), (5 : Nat), (0 : Nat), (1 : Nat), tile1, ([] : List (Nat × Tile ×
    Nat × Nat)), ?_, ?_, ?_⟩
  all_goals decide +kernel

theorem wit_QueueRead_0 : ∃ (q : Nat) (code : Nat), code = (if q < 64 then q else dqCode (q - 64)) ∧ q < 84 := by
  refine ⟨(83 : Nat), 0x53, ?_, ?_⟩
  all_goals decide +kernel

theorem wit_QueueRead_0b : ∃ (q : Nat) (code : Nat), code = (if q < 64 then q else dqCode (q - 64)) ∧ q < 84 := by
  refine ⟨(0 : Nat), (0 : Nat), ?_, ?_⟩
  all_goals decide +kernel

theorem wit_ClusterPaths_1 : ∃ (s : State) (c : Nat) (k : Nat) (x : Tile) (r : List (Tile × Nat)), c < 16 ∧ (cluster s c).inBuf = (x,
    k) :: r ∧ unpackDue s k = true ∧ (cluster s c).unpCyc ≠ some (eclk s) ∧ failsCheck s x = false ∧ tileInjected x = false := by
  refine ⟨(setCluster up 15 { inBuf := [(mkTile 5 false false 0 9 [1, 2, 3, 4, 5, 6, 7], 19999)] } : State), (15 : Nat), (19999 : Nat),
    (mkTile 5 false false 0 9 [1, 2, 3, 4, 5, 6, 7] : Tile), ([] : List (Tile × Nat)), ?_, ?_, ?_, ?_, ?_, ?_⟩
  all_goals decide +kernel

theorem wit_ClusterPaths_2 : ∃ (s : State) (c : Nat) (k : Nat) (x : Tile) (r : List (Tile × Nat)), c < 16 ∧ (cluster s c).inBuf = (x,
    k) :: r ∧ unpackDue s k = true ∧ (cluster s c).unpCyc ≠ some (eclk s) ∧ failsCheck s x = true := by
  refine ⟨(setCluster up 15 { inBuf := [(tile1, 19999)] } : State), (15 : Nat), (19999 : Nat), tile1, ([] : List (Tile × Nat)), ?_, ?_,
    ?_, ?_, ?_⟩
  all_goals decide +kernel

theorem wit_ClusterPaths_3 : ∃ (s : State) (c : Nat) (w : W64) (r : List W64), c < nClusters s ∧ (cluster s c).tile.length < 6 ∧
    (cluster s c).placed ≠ some (eclk s) ∧ (cluster s c).due = w :: r := by
  refine ⟨(setCluster up 15 { due := [5] } : State), (15 : Nat), (5 : W64), ([] : List W64), ?_, ?_, ?_, ?_⟩
  all_goals decide +kernel

theorem wit_ClusterPaths_4 : ∃ (s : State) (c : Nat) (k : Nat) (e : Nat) (w : W64) (r : List (W64 × Nat)), c < nClusters s ∧ (cluster s
    c).tile.length < 6 ∧ (cluster s c).placed ≠ some (eclk s) ∧ (cluster s c).due = [] ∧ (cluster s c).lead = none ∧ (cluster s c).qGap
    = 0 ∧ (cluster s c).marks = [] ∧ (cluster s c).started = true ∧ (cluster s c).epoch = some (tNow s / 2 ^ 47) ∧ k < 16 ∧ e = 16 * c
    + ((cluster s c).rr + k) % 16 ∧ ((∀ j < k, (engine s (16 * c + ((cluster s c).rr + j) % 16)).rq = [])) ∧ (engine s e).rq = (w, 0)
    :: r := by
  refine ⟨(setEngine (setCluster up 15 { rr := 14, started := true, epoch := some 0 }) 241 { rq := [(9, 0)] } : State), (15 : Nat), (3
    : Nat), (241 : Nat), (9 : W64), ([] : List (W64 × Nat)), ?_, ?_, ?_, ?_, ?_, ?_, ?_, ?_, ?_, ?_, ?_, ?_, ?_⟩
  all_goals decide +kernel

theorem wit_ClusterPaths_5 : ∃ (s : State) (c : Nat), c < 16 ∧ (cluster s c).tile ≠ [] ∧ (cluster s c).tile.length ≤ 7 ∧ (((cluster s
    c).qGap ≠ 0 → (cluster s c).tile.length ≤ 5)) ∧ (cluster s c).cont ≤ (cluster s c).tile.length ∧ (cluster s c).tileCyc + 10 ≤ eclk
    s ∧ maySeal s (0x40 + c) = true := by
  refine ⟨(setCluster up 15 { tile := [5] } : State), (15 : Nat), ?_, ?_, ?_, ?_, ?_, ?_, ?_⟩
  all_goals decide +kernel

theorem wit_ClusterPaths_6 : ∃ (s : State) (a : Access) (c : Nat) (v : W32), Reached s a (CC_IN_OCC.off c) ∧ c < 16 ∧ v.getLsbD 15 =
    true := by
  refine ⟨up, a0, (15 : Nat), 0x8000, ?_, ?_, ?_⟩
  · exact reached_of (by decide +kernel)
  · decide +kernel
  · decide +kernel

theorem wit_ClusterPaths_7 : ∃ (s : State) (a : Access) (d : Nat) (v : W32), Reached s a (CC_DQ_OCC.off d) ∧ d < 20 ∧ v.getLsbD 15 =
    true := by
  refine ⟨up, a0, (19 : Nat), 0x8000, ?_, ?_, ?_⟩
  · exact reached_of (by decide +kernel)
  · decide +kernel
  · decide +kernel

theorem wit_ClusterPaths_8 : ∃ (s : State) (a : Access) (v : W32), Reached s a CC_FAB_WAIT_MAX.off ∧ v.getLsbD 31 = true := by
  refine ⟨up, a0, 0x80000000, ?_, ?_⟩
  · exact reached_of (by decide +kernel)
  · decide +kernel

theorem wit_GateAndArmArrival_0 : ∃ (s : State) (c : Nat) (T : Nat) (o : Bool) (pre : List SentDec) (post : List SentDec) (y :
    SentDec), c < nClusters s ∧ s.fab.decs = pre ++ y :: post ∧ y.d = .gate c o T ∧ ((∀ x ∈ pre, ∀ o' T', x.d ≠ .gate c o' T')) ∧
    inOrder s y = true := by
  refine ⟨({ up with fab := { decs := [⟨5, 3, .veto 3⟩, ⟨6, 241, .gate 15 true 5⟩] } } : State), (15 : Nat), (5 : Nat), true, ([⟨5, 3,
    .veto 3⟩] : List SentDec), ([] : List SentDec), (⟨6, 241, .gate 15 true 5⟩ : SentDec), ?_, ?_, ?_, ?_, ?_⟩
  · decide +kernel
  · decide +kernel
  · decide +kernel
  · intro x hx o' T' e; simp at hx; subst hx; simp at e
  · decide +kernel

theorem wit_GateAndArmArrival_1 : ∃ (s : State) (u : Nat) (T : Nat) (pre : List SentDec) (post : List SentDec) (y : SentDec), u < 64 ∧
    s.fab.decs = pre ++ y :: post ∧ y.d = .muarm u T ∧ ((∀ x ∈ pre, ∀ T', x.d ≠ .muarm u T')) ∧ inOrder s y = true ∧ muMode s u ≠ 0 := by
  refine ⟨(fl [(MU_CFG.MODE 63, 1)] { up with fab := { decs := [⟨5, 3, .veto 3⟩, ⟨6, 241, .muarm 63 5⟩] } } : State), (63 : Nat), (5 :
    Nat), ([⟨5, 3, .veto 3⟩] : List SentDec), ([] : List SentDec), (⟨6, 241, .muarm 63 5⟩ : SentDec), ?_, ?_, ?_, ?_, ?_, ?_⟩
  · decide +kernel
  · decide +kernel
  · decide +kernel
  · intro x hx T' e; simp at hx; subst hx; simp at e
  · decide +kernel
  · decide +kernel

theorem wit_TakeOverAndCasts_5 : ∃ (s : State) (n : Nat), s.pr.castAt = some n ∧ (linesWait s = true ∨ fld s PR_STAT.ROLE ≠ 3) := by
  refine ⟨({ active3 with pr := { castAt := some 5, linkQ := [.line (.fronts 0 [])] } } : State), (5 : Nat), ?_, ?_⟩
  all_goals decide +kernel

theorem wit_CastLink_4 : ∃ (s : State) (m : LinkMsg), flag s PR_STAT.LINK_UP = true ∧ s.pr.linkBusy ≤ s.now ∧ nextMsg s.pr.linkQ = some
    m := by
  refine ⟨({ linked with pr := { linkQ := [.event .pllLoss, .heartbeat ⟨3, 5, 6, false, false, true⟩] } } : State), (.heartbeat ⟨3, 5,
    6, false, false, true⟩ : LinkMsg), ?_, ?_, ?_⟩
  all_goals decide +kernel

theorem wit_AlignmentAndSplicing_3 : ∃ (s : State) (n : Nat) (x : AlignRun), n = alignLane s ∧ n < nLanes s ∧ cellsOn s = true ∧
    s.pl.running = true ∧ s.pl.edge ≠ 0 ∧ s.pr.align = some x := by
  refine ⟨({ edgeUp with pr := { align := some ⟨false, false, 0, 5, []⟩ } } : State), (0 : Nat), (⟨false, false, 0, 5, []⟩ : AlignRun),
    ?_, ?_, ?_, ?_, ?_, ?_⟩
  all_goals decide +kernel

theorem wit_AlignmentAndSplicing_4 : ∃ (s : State) (n : Nat), n = alignLane s ∧ n < nLanes s ∧ cellsOn s = true ∧ s.pl.running = true ∧
    s.pl.edge ≠ 0 ∧ s.pr.align = none ∧ fld s PR_STAT.ROLE = 3 ∧ flag s PR_STAT.LINK_UP = true ∧ s.pr.partnerAligns = true := by
  refine ⟨({ active3 with pr := { partnerAligns := true } } : State), (0 : Nat), ?_, ?_, ?_, ?_, ?_, ?_, ?_, ?_, ?_⟩
  all_goals decide +kernel

theorem wit_ClusterPaths_0 : ∃ (c : Nat), c < 16 := by
  refine ⟨(15 : Nat), ?_⟩
  all_goals decide +kernel

theorem wit_MuInputs_0 : ∃ (s : State) (x : Tile) (r : List Tile), s.fab.muIn = x :: r ∧ x.slots.length ≤ 7 := by
  refine ⟨({ fl [(MU_CFG.MODE 63, 1)] up with fab := { muIn := [good] } } : State), good, ([] : List Tile), ?_, ?_⟩
  all_goals decide +kernel

theorem wit_MuInputs_1 : ∃ (s : State) (u : Nat) (pre : List MuRec) (post : List MuRec) (x : MuRec), u < nMus s ∧ muMode s u ≠ 0 ∧ (mu
    s u).evs = [] ∧ (mu s u).recs = pre ++ x :: post ∧ ((∀ y ∈ pre, recKey x < recKey y)) ∧ ((∀ y ∈ post, recKey x ≤ recKey y)) ∧
    muReady s u x.t = true ∧ gateEndsBy s u x.t = false := by
  refine ⟨(setMu (fl [(MU_CFG.MODE 63, 5)] up) 63 { recs := [⟨7, 0, 3⟩, ⟨5, 0, 3⟩, ⟨6, 0, 3⟩] } : State), (63 : Nat), ([⟨7, 0, 3⟩] :
    List MuRec), ([⟨6, 0, 3⟩] : List MuRec), (⟨5, 0, 3⟩ : MuRec), ?_, ?_, ?_, ?_, ?_, ?_, ?_, ?_⟩
  all_goals decide +kernel

theorem wit_MuInputs_2 : ∃ (s : State) (u : Nat) (T : Nat) (late : Bool), u < nMus s ∧ muMode s u ≠ 0 ∧ muGsrc s u = 0 ∧ (mu s u).st =
    0 ∧ (mu s u).meas = none ∧ (mu s u).busy < 2 ∧ (mu s u).evs = [.arm T late] ∧ (mu s u).recs = [] ∧ muReady s u T = true := by
  refine ⟨(setMu (fl [(MU_CFG.MODE 63, 1)] up) 63 { evs := [.arm 5 true] } : State), (63 : Nat), (5 : Nat), true, ?_, ?_, ?_, ?_, ?_,
    ?_, ?_, ?_, ?_⟩
  all_goals decide +kernel

theorem wit_MuInputs_3 : ∃ (s : State) (u : Nat) (x : MuRec) (m : Meas), u < nMus s ∧ muMode s u ≠ 0 ∧ (mu s u).evs = [] ∧ (mu s
    u).recs = [x] ∧ x.role = 3 ∧ muEdgeOk s u 3 x.word = true ∧ (mu s u).meas = some m ∧ m.mode = 5 ∧ m.tOpen ≤ x.t ∧ m.nmax = 0 ∧ m.n
    + 1 < 2 ^ 40 ∧ muReady s u x.t = true ∧ gateEndsBy s u x.t = false := by
  refine ⟨(setMu (fl [(MU_CFG.MODE 63, 5), (MU_CFG.EDGE_A 63, 3)] up) 63 { recs := [⟨5, 0, 3⟩], meas := some meas0 } : State), (63 :
    Nat), (⟨5, 0, 3⟩ : MuRec), meas0, ?_, ?_, ?_, ?_, ?_, ?_, ?_, ?_, ?_, ?_, ?_, ?_, ?_⟩
  all_goals decide +kernel

theorem wit_MuResults_0 : ∃ (s : State) (a : Access) (u : Nat) (v : W32), u < nMus s ∧ Reached s a (MU_CMD.off u) ∧ muMode s u ≠ 0 ∧
    v.getLsbD 0 = true := by
  refine ⟨(fl [(MU_CFG.MODE 63, 1)] up : State), a0, (63 : Nat), (1 : W32), ?_, ?_, ?_, ?_⟩
  all_goals first | decide +kernel | exact reached_of (by decide +kernel) | exact runs_of (by decide +kernel) | exact taken_of (by
    decide +kernel) | exact takes_of (by decide +kernel)

theorem wit_MuResults_1 : ∃ (s : State) (a : Access) (u : Nat) (v : W32), u < nMus s ∧ Reached s a (MU_CMD.off u) ∧ muMode s u ≠ 0 ∧
    v.getLsbD 2 = true := by
  refine ⟨(fl [(MU_CFG.MODE 63, 1)] up : State), a0, (63 : Nat), (4 : W32), ?_, ?_, ?_, ?_⟩
  all_goals first | decide +kernel | exact reached_of (by decide +kernel) | exact runs_of (by decide +kernel) | exact taken_of (by
    decide +kernel) | exact takes_of (by decide +kernel)

theorem wit_MuResults_2 : ∃ (s : State) (a : Access) (u : Nat) (v : W32), u < nMus s ∧ Reached s a (MU_CMD.off u) ∧ v.getLsbD 1 = true
    := by
  refine ⟨(setMu (fl [(MU_CFG.MODE 63, 1)] up) 63 { st := 2, meas := some meas0, evs := [.hostClose 5] } : State), a0, (63 : Nat), (2 :
    W32), ?_, ?_, ?_⟩
  · decide +kernel
  · exact reached_of (by decide +kernel)
  · decide +kernel

theorem wit_MuResults_3 : ∃ (s : State) (u : Nat) (m : Meas), u < 64 ∧ (mu s u).meas = some m ∧ m.gateLen ≠ 0 ∧ muReady s u (m.tOpen +
    m.gateLen) = true ∧ ((∀ e ∈ (mu s u).evs, 5 * (m.tOpen + m.gateLen) ≤ evKey e)) ∧ ((∀ x ∈ (mu s u).recs, 5 * (m.tOpen + m.gateLen)
    ≤ recKey x)) := by
  refine ⟨(setMu up 63 { st := 2, meas := some { meas0 with gateLen := 5 }, evs := [.hostClose 5], recs := [⟨6, 0, 3⟩] } : State), (63
    : Nat), ({ meas0 with gateLen := 5 } : Meas), ?_, ?_, ?_, ?_, ?_, ?_⟩
  all_goals decide +kernel

theorem wit_MuResults_4 : ∃ (s : State) (u : Nat) (p : Pub) (r : List Pub), u < 64 ∧ (mu s u).pubs = p :: r := by
  refine ⟨(setMu up 63 { pubs := [⟨List.replicate 24 3, [], true⟩], busy := 1, seq := 255 } : State), (63 : Nat), (⟨List.replicate 24
    3, [], true⟩ : Pub), ([] : List Pub), ?_, ?_⟩
  all_goals decide +kernel

theorem wit_MuResults_5 : ∃ (s : State) (b : Nat) (n : Nat) (l : List W64), b < 4 ∧ (bank s b).recs ≠ [] ∧ (bank s b).tileCyc + 8 ≤
    fclk s ∧ maySeal s (0x50 + b) = true ∧ n = (bank s b).cont + (((bank s b).recs.drop (bank s b).cont).takeWhile continues).length ∧
    l = (bank s b).recs.take n ++ (if (bank s b).qGap = 0 then [] else [gapWord true false 1 0 (bank s b).qGap, epochWord (tNow s)]) ++
    (bank s b).recs.drop n := by
  refine ⟨(setBank up 3 { recs := [1, 2], started := true } : State), (3 : Nat), (0 : Nat), ([1, 2] : List W64), ?_, ?_, ?_, ?_, ?_, ?_⟩
  all_goals decide +kernel

theorem wit_ImmediateInstructions_8 : ∃ (s : State) (e : Nat) (w : W32), Runs s e w 0x07 := by
  refine ⟨(prog 0x1C23FFFF [(1, 5)] : State), (255 : Nat), 0x1C23FFFF, ?_⟩
  · exact runs_of (by decide +kernel)

theorem wit_BranchesAndJumps_0 : ∃ (s : State) (e : Nat) (w : W32) (a : W64) (b : W64) (p : Bool), Runs s e w 0x10 ∧ a = greg (engine s
    e) (iRd w) ∧ b = greg (engine s e) (iRa w) ∧
    (p = true ↔ match ibits w 15 12 with | 0 => a = b | 1 => a ≠ b | 2 => a.toInt < b.toInt | 3 => b.toInt ≤ a.toInt | 4 => a.toNat < b.toNat | 5 => b.toNat ≤ a.toNat | 6 => (a - b).toInt < 0 | _ => 0 ≤ (a - b).toInt) := by
  refine ⟨(prog 0x40225FFF [(1, 5), (2, 5)] : State), (255 : Nat), 0x40225FFF, (5 : W64), (5 : W64), true, ?_, ?_, ?_, ?_⟩
  · exact runs_of (by decide +kernel)
  · decide +kernel
  · decide +kernel
  · exact ⟨fun _ => (by decide : (5 : W64).toNat ≤ (5 : W64).toNat), fun _ => rfl⟩

theorem wit_BranchesAndJumps_0b : ∃ (s : State) (e : Nat) (w : W32) (a : W64) (b : W64) (p : Bool), Runs s e w 0x10 ∧ a = greg (engine
    s e) (iRd w) ∧ b = greg (engine s e) (iRa w) ∧
    (p = true ↔ match ibits w 15 12 with | 0 => a = b | 1 => a ≠ b | 2 => a.toInt < b.toInt | 3 => b.toInt ≤ a.toInt | 4 => a.toNat < b.toNat | 5 => b.toNat ≤ a.toNat | 6 => (a - b).toInt < 0 | _ => 0 ≤ (a - b).toInt) := by
  refine ⟨(prog 0x40220000 [(1, 5)] : State), (255 : Nat), 0x40220000, (5 : W64), (0 : W64), false, ?_, ?_, ?_, ?_⟩
  · exact runs_of (by decide +kernel)
  · decide +kernel
  · decide +kernel
  · exact ⟨nofun, fun h => absurd h (by decide : (5 : W64) ≠ 0)⟩

theorem wit_BranchesAndJumps_1 : ∃ (s : State) (e : Nat) (w : W32), Runs s e w 0x11 := by
  refine ⟨(prog 0x442FC008 [(1, 0x80000000)] : State), (255 : Nat), 0x442FC008, ?_⟩
  · exact runs_of (by decide +kernel)

theorem wit_BranchesAndJumps_2 : ∃ (s : State) (e : Nat) (w : W32), Runs s e w 0x12 := by
  refine ⟨(prog 0x48000FFF [] : State), (255 : Nat), 0x48000FFF, ?_⟩
  · exact runs_of (by decide +kernel)

theorem wit_BranchesAndJumps_3 : ∃ (s : State) (e : Nat) (w : W32), Runs s e w 0x13 := by
  refine ⟨(prog 0x4C000FFF [] : State), (255 : Nat), 0x4C000FFF, ?_⟩
  · exact runs_of (by decide +kernel)

theorem wit_BranchesAndJumps_4 : ∃ (s : State) (e : Nat) (w : W32), Runs s e w 0x14 := by
  refine ⟨(prog 0x50010000 [(1, 0x1FFF)] : State), (255 : Nat), 0x50010000, ?_⟩
  · exact runs_of (by decide +kernel)

theorem wit_LocalMemory_0 : ∃ (s : State) (e : Nat) (opc : Nat) (n : Nat) (a : Nat) (w : W32) (i : Nat → Instr), ((i = .iLd ∧ opc =
    0x18 ∧ n = 8) ∨ (i = .iLdw ∧ opc = 0x19 ∧ n = 4)) ∧ Runs s e w opc ∧ a = (greg (engine s e) (iRa w) + BitVec.ofInt 64 (signedOf 16
    w.toNat)).toNat ∧ a < 0x20000 ∧ a % n = 0 := by
  refine ⟨(prog 0x6041FFF8 [(1, 0x20000)] : State), (255 : Nat), 0x18, (8 : Nat), 0x1FFF8, 0x6041FFF8, .iLd, ?_, ?_, ?_, ?_, ?_⟩
  · exact Or.inl ⟨rfl, rfl, rfl⟩
  · exact runs_of (by decide +kernel)
  · decide +kernel
  · decide +kernel
  · decide +kernel

theorem wit_LocalMemory_0b : ∃ (s : State) (e : Nat) (opc : Nat) (n : Nat) (a : Nat) (w : W32) (i : Nat → Instr), ((i = .iLd ∧ opc =
    0x18 ∧ n = 8) ∨ (i = .iLdw ∧ opc = 0x19 ∧ n = 4)) ∧ Runs s e w opc ∧ a = (greg (engine s e) (iRa w) + BitVec.ofInt 64 (signedOf 16
    w.toNat)).toNat ∧ a < 0x20000 ∧ a % n = 0 := by
  refine ⟨(prog 0x6441FFFC [(1, 0x20000)] : State), (255 : Nat), 0x19, (4 : Nat), 0x1FFFC, 0x6441FFFC, .iLdw, ?_, ?_, ?_, ?_, ?_⟩
  · exact Or.inr ⟨rfl, rfl, rfl⟩
  · exact runs_of (by decide +kernel)
  · decide +kernel
  · decide +kernel
  · decide +kernel

theorem wit_LocalMemory_1 : ∃ (s : State) (e : Nat) (opc : Nat) (n : Nat) (a : Nat) (w : W32) (i : Nat → Instr), ((i = .iSt ∧ opc =
    0x1A ∧ n = 8) ∨ (i = .iStw ∧ opc = 0x1B ∧ n = 4)) ∧ Runs s e w opc ∧ a = (greg (engine s e) (iRa w) + BitVec.ofInt 64 (signedOf 16
    w.toNat)).toNat ∧ a < 0x20000 ∧ a % n = 0 := by
  refine ⟨(prog 0x6841FFF8 [(1, 0x20000), (2, 0x123456789)] : State), (255 : Nat), 0x1A, (8 : Nat), 0x1FFF8, 0x6841FFF8, .iSt, ?_, ?_,
    ?_, ?_, ?_⟩
  · exact Or.inl ⟨rfl, rfl, rfl⟩
  · exact runs_of (by decide +kernel)
  · decide +kernel
  · decide +kernel
  · decide +kernel

theorem wit_LocalMemory_2 : ∃ (s : State) (e : Nat) (opc : Nat) (a : Nat) (k : Nat) (old : Nat) (w : W32) (i : Nat → Instr), ((i =
    .iHinc ∧ opc = 0x1C ∧ k = 1 ∧ a = (greg (engine s e) (iRa w) + BitVec.ofInt 64 (signedOf 16 w.toNat)).toNat) ∨ (i = .iHadd ∧ opc =
    0x1D ∧ k = (greg (engine s e) (iRb w)).toNat % 2 ^ 32 ∧ a = (greg (engine s e) (iRa w)).toNat)) ∧ Runs s e w opc ∧ a < 0x20000 ∧ a
    % 4 = 0 ∧ old = leNat (mreadBytes 0 (engine s e).lmem a 4) := by
  refine ⟨(prog 0x7041FFFC [(1, 0x20000)] : State), (255 : Nat), 0x1C, 0x1FFFC, (1 : Nat), (0 : Nat), 0x7041FFFC, .iHinc, ?_, ?_, ?_,
    ?_, ?_⟩
  · exact Or.inl ⟨rfl, rfl, rfl, by decide +kernel⟩
  · exact runs_of (by decide +kernel)
  · decide +kernel
  · decide +kernel
  · decide +kernel

theorem wit_LocalMemory_2b : ∃ (s : State) (e : Nat) (opc : Nat) (a : Nat) (k : Nat) (old : Nat) (w : W32) (i : Nat → Instr), ((i =
    .iHinc ∧ opc = 0x1C ∧ k = 1 ∧ a = (greg (engine s e) (iRa w) + BitVec.ofInt 64 (signedOf 16 w.toNat)).toNat) ∨ (i = .iHadd ∧ opc =
    0x1D ∧ k = (greg (engine s e) (iRb w)).toNat % 2 ^ 32 ∧ a = (greg (engine s e) (iRa w)).toNat)) ∧ Runs s e w opc ∧ a < 0x20000 ∧ a
    % 4 = 0 ∧ old = leNat (mreadBytes 0 (engine s e).lmem a 4) := by
  refine ⟨(prog 0x74411800 [(1, 0x1FFFC), (3, 0x1FFFFFFFF)] : State), (255 : Nat), 0x1D, 0x1FFFC, 0xFFFFFFFF, (0 : Nat), 0x74411800,
    .iHadd, ?_, ?_, ?_, ?_, ?_⟩
  · exact Or.inr ⟨rfl, rfl, by decide +kernel, by decide +kernel⟩
  · exact runs_of (by decide +kernel)
  · decide +kernel
  · decide +kernel
  · decide +kernel

theorem wit_LocalMemory_3 : ∃ (s : State) (e : Nat) (opc : Nat) (n : Nat) (a : Nat) (w : W32) (i : Nat → Instr), (((i = .iLd ∧ opc =
    0x18 ∧ n = 8) ∨ (i = .iLdw ∧ opc = 0x19 ∧ n = 4) ∨ (i = .iSt ∧ opc = 0x1A ∧ n = 8) ∨ (i = .iStw ∧ opc = 0x1B ∧ n = 4) ∨ (i = .iHinc
    ∧ opc = 0x1C ∧ n = 4) ∨ (i = .iHadd ∧ opc = 0x1D ∧ n = 4))) ∧ Runs s e w opc ∧ a = (if opc = 0x1D then (greg (engine s e) (iRa
    w)).toNat else (greg (engine s e) (iRa w) + BitVec.ofInt 64 (signedOf 16 w.toNat)).toNat) ∧ 0x20000 ≤ a := by
  refine ⟨(prog 0x60410000 [(1, 0x20000)] : State), (255 : Nat), 0x18, (8 : Nat), 0x20000, 0x60410000, .iLd, ?_, ?_, ?_, ?_⟩
  · exact Or.inl ⟨rfl, rfl, rfl⟩
  · exact runs_of (by decide +kernel)
  · decide +kernel
  · decide +kernel

theorem wit_LocalMemory_3b : ∃ (s : State) (e : Nat) (opc : Nat) (n : Nat) (a : Nat) (w : W32) (i : Nat → Instr), (((i = .iLd ∧ opc =
    0x18 ∧ n = 8) ∨ (i = .iLdw ∧ opc = 0x19 ∧ n = 4) ∨ (i = .iSt ∧ opc = 0x1A ∧ n = 8) ∨ (i = .iStw ∧ opc = 0x1B ∧ n = 4) ∨ (i = .iHinc
    ∧ opc = 0x1C ∧ n = 4) ∨ (i = .iHadd ∧ opc = 0x1D ∧ n = 4))) ∧ Runs s e w opc ∧ a = (if opc = 0x1D then (greg (engine s e) (iRa
    w)).toNat else (greg (engine s e) (iRa w) + BitVec.ofInt 64 (signedOf 16 w.toNat)).toNat) ∧ a < 0x20000 ∧ a % n ≠ 0 := by
  refine ⟨(prog 0x74410000 [(1, 0x1FFFE)] : State), (255 : Nat), 0x1D, (4 : Nat), 0x1FFFE, 0x74410000, .iHadd, ?_, ?_, ?_, ?_, ?_⟩
  · exact Or.inr (Or.inr (Or.inr (Or.inr (Or.inr ⟨rfl, rfl, rfl⟩))))
  · exact runs_of (by decide +kernel)
  · decide +kernel
  · decide +kernel
  · decide +kernel

theorem wit_PortsAndWaits_0 : ∃ (s : State) (e : Nat) (opc : Nat) (p : Nat) (w : W32) (x : W64) (r : List W64) (i : Nat → Instr), ((i =
    .iPop ∧ opc = 0x20) ∨ (i = .iTrypop ∧ opc = 0x21)) ∧ Runs s e w opc ∧ p = ibits w 0 0 ∧ (portOf (engine s e) p).q = x :: r := by
  refine ⟨(setEngine up 255 { eng 0x80200001 [] with p1 := { q := [9] } } : State), (255 : Nat), 0x20, (1 : Nat), 0x80200001, (9 :
    W64), ([] : List W64), .iPop, ?_, ?_, ?_, ?_⟩
  · exact Or.inl ⟨rfl, rfl⟩
  · exact runs_of (by decide +kernel)
  · decide +kernel
  · decide +kernel

theorem wit_PortsAndWaits_0b : ∃ (s : State) (e : Nat) (opc : Nat) (p : Nat) (w : W32) (x : W64) (r : List W64) (i : Nat → Instr), ((i
    = .iPop ∧ opc = 0x20) ∨ (i = .iTrypop ∧ opc = 0x21)) ∧ Runs s e w opc ∧ p = ibits w 0 0 ∧ (portOf (engine s e) p).q = x :: r := by
  refine ⟨(setEngine up 255 { eng 0x84200000 [] with p0 := { q := [9, 8] } } : State), (255 : Nat), 0x21, (0 : Nat), 0x84200000, (9 :
    W64), ([8] : List W64), .iTrypop, ?_, ?_, ?_, ?_⟩
  · exact Or.inr ⟨rfl, rfl⟩
  · exact runs_of (by decide +kernel)
  · decide +kernel
  · decide +kernel

theorem wit_PortsAndWaits_1 : ∃ (s : State) (e : Nat) (w : W32), Runs s e w 0x20 ∧ (portOf (engine s e) (ibits w 0 0)).q = [] := by
  refine ⟨(prog 0x80200001 [] : State), (255 : Nat), 0x80200001, ?_, ?_⟩
  · exact runs_of (by decide +kernel)
  · decide +kernel

theorem wit_PortsAndWaits_2 : ∃ (s : State) (e : Nat) (p : Nat) (n : Nat) (w : W32) (x : W64) (r : List W64), e < 256 ∧ (engine s e).st
    = 3 ∧ (engine s e).overrun = false ∧ fetch (engine s e) = w ∧ iOpc w = 0x20 ∧ p = ibits w 0 0 ∧ (portOf (engine s e) p).q = x :: r
    ∧ n = eclk s - issueCycle (engine s e) := by
  refine ⟨(setEngine up 255 { eng 0x80200001 [] with st := 3, p1 := { q := [9] } } : State), (255 : Nat), (1 : Nat), (eclk up -
    issueCycle { eng 0x80200001 [] with st := 3, p1 := { q := [9] } } : Nat), 0x80200001, (9 : W64), ([] : List W64), ?_, ?_, ?_, ?_,
    ?_, ?_, ?_, ?_⟩
  all_goals decide +kernel

theorem wit_PortsAndWaits_3 : ∃ (s : State) (e : Nat) (w : W32), Runs s e w 0x21 ∧ (portOf (engine s e) (ibits w 0 0)).q = [] := by
  refine ⟨(prog 0x84200001 [] : State), (255 : Nat), 0x84200001, ?_, ?_⟩
  · exact runs_of (by decide +kernel)
  · decide +kernel

theorem wit_PortsAndWaits_4 : ∃ (s : State) (e : Nat) (p : Nat) (w : W32) (x : W64) (r : List W64), Runs s e w 0x22 ∧ p = ibits w 0 0 ∧
    (portOf (engine s e) p).q = x :: r := by
  refine ⟨(setEngine up 255 { eng 0x88200001 [] with p1 := { q := [9] } } : State), (255 : Nat), (1 : Nat), 0x88200001, (9 : W64), ([]
    : List W64), ?_, ?_, ?_⟩
  · exact runs_of (by decide +kernel)
  · decide +kernel
  · decide +kernel

theorem wit_PortsAndWaits_5 : ∃ (s : State) (e : Nat) (w : W32), Runs s e w 0x22 ∧ (portOf (engine s e) (ibits w 0 0)).q = [] := by
  refine ⟨(prog 0x88200001 [] : State), (255 : Nat), 0x88200001, ?_, ?_⟩
  · exact runs_of (by decide +kernel)
  · decide +kernel

theorem wit_PortsAndWaits_6 : ∃ (s : State) (e : Nat) (p : Nat) (n : Nat) (w : W32), Runs s e w 0x23 ∧ p = ibits w 0 0 ∧ n = min (ibits
    w 15 8) (portOf (engine s e) p).q.length ∧ n ≠ 0 := by
  refine ⟨(setEngine up 255 { eng 0x8C200200 [] with p0 := { q := [9, 8, 7] } } : State), (255 : Nat), (0 : Nat), (2 : Nat),
    0x8C200200, ?_, ?_, ?_, ?_⟩
  all_goals first | decide +kernel | exact reached_of (by decide +kernel) | exact runs_of (by decide +kernel) | exact taken_of (by
    decide +kernel) | exact takes_of (by decide +kernel)

theorem wit_PortsAndWaits_7 : ∃ (s : State) (e : Nat) (w : W32), Runs s e w 0x23 ∧ (portOf (engine s e) (ibits w 0 0)).q = [] := by
  refine ⟨(prog 0x8C200200 [] : State), (255 : Nat), 0x8C200200, ?_, ?_⟩
  · exact runs_of (by decide +kernel)
  · decide +kernel

theorem wit_PortsAndWaits_8 : ∃ (s : State) (e : Nat) (c : Nat) (w : W32), e < 256 ∧ iOpc w = 0x24 ∧ ibits w 3 3 = 0 ∧ (c = (if
    w.getLsbD 0 ∧ (engine s e).p0.q ≠ [] then 1 else 0) + (if w.getLsbD 1 ∧ (engine s e).p1.q ≠ [] then 2 else 0) + (if w.getLsbD 2 ∧
    mailFor s e ≠ [] then 4 else 0)) ∧ Runs s e w 0x24 ∧ c ≠ 0 := by
  refine ⟨(setEngine up 255 { eng 0x90200007 [] with p1 := { q := [9] } } : State), (255 : Nat), (2 : Nat), 0x90200007, ?_, ?_, ?_, ?_,
    ?_, ?_⟩
  all_goals first | decide +kernel | exact reached_of (by decide +kernel) | exact runs_of (by decide +kernel) | exact taken_of (by
    decide +kernel) | exact takes_of (by decide +kernel)

theorem wit_PortsAndWaits_8b : ∃ (s : State) (e : Nat) (c : Nat) (w : W32), e < 256 ∧ iOpc w = 0x24 ∧ ibits w 3 3 = 0 ∧ (c = (if
    w.getLsbD 0 ∧ (engine s e).p0.q ≠ [] then 1 else 0) + (if w.getLsbD 1 ∧ (engine s e).p1.q ≠ [] then 2 else 0) + (if w.getLsbD 2 ∧
    mailFor s e ≠ [] then 4 else 0)) ∧ Runs s e w 0x24 ∧ c = 0 := by
  refine ⟨(prog 0x90200007 [] : State), (255 : Nat), (0 : Nat), 0x90200007, ?_, ?_, ?_, ?_, ?_, ?_⟩
  all_goals first | decide +kernel | exact reached_of (by decide +kernel) | exact runs_of (by decide +kernel) | exact taken_of (by
    decide +kernel) | exact takes_of (by decide +kernel)

theorem wit_PortsAndWaits_8c : ∃ (s : State) (e : Nat) (c : Nat) (n : Nat) (w : W32), e < 256 ∧ iOpc w = 0x24 ∧ ibits w 3 3 = 0 ∧ (c =
    (if w.getLsbD 0 ∧ (engine s e).p0.q ≠ [] then 1 else 0) + (if w.getLsbD 1 ∧ (engine s e).p1.q ≠ [] then 2 else 0) + (if w.getLsbD 2
    ∧ mailFor s e ≠ [] then 4 else 0)) ∧ (engine s e).st = 3 ∧ (engine s e).overrun = false ∧ fetch (engine s e) = w ∧ c ≠ 0 ∧ n = eclk
    s - issueCycle (engine s e) := by
  refine ⟨(setEngine up 255 { eng 0x90200007 [] with st := 3, p1 := { q := [9] } } : State), (255 : Nat), (2 : Nat), (eclk up -
    issueCycle { eng 0x90200007 [] with st := 3, p1 := { q := [9] } } : Nat), 0x90200007, ?_, ?_, ?_, ?_, ?_, ?_, ?_, ?_, ?_⟩
  all_goals decide +kernel

theorem wit_PortsAndWaits_9 : ∃ (s : State) (e : Nat) (c : Nat) (w : W32), Runs s e w 0x24 ∧ w.getLsbD 3 = true ∧ (c = (if w.getLsbD 0
    ∧ (engine s e).p0.q ≠ [] then 1 else 0) + (if w.getLsbD 1 ∧ (engine s e).p1.q ≠ [] then 2 else 0) + (if w.getLsbD 2 ∧ mailFor s e ≠
    [] then 4 else 0)) ∧ ((∀ T, ReadsCopy s (e / 16) T → (BitVec.ofNat 64 T - greg (engine s e) (iRa w)).slt 0 = false)) := by
  refine ⟨(prog 0x90200008 [] : State), (255 : Nat), (0 : Nat), 0x90200008, ?_, ?_, ?_, ?_⟩
  · exact runs_of (by decide +kernel)
  · decide +kernel
  · decide +kernel
  · intro T h; rw [ReadsCopy, if_neg (by decide +kernel)] at h; obtain ⟨k, hk, rfl⟩ := h; revert k; decide +kernel

theorem wit_MailTimeAndResults_0 : ∃ (s : State) (e : Nat) (w : W32) (m : Msg) (pre : List Msg) (post : List Msg), Runs s e w 0x25 ∧
    (cluster s (e / 16)).box = pre ++ m :: post ∧ ((∀ x ∈ pre, ¬(x.dst = e ∧ x.cyc + 2 ≤ eclk s))) ∧ m.dst = e ∧ m.cyc + 2 ≤ eclk s := by
  refine ⟨(setCluster (prog 0x94200005 []) 15 { box := [⟨1, 3, 254, 0⟩, ⟨7, 3, 255, 24999998⟩] } : State), (255 : Nat), 0x94200005,
    (⟨7, 3, 255, 24999998⟩ : Msg), ([⟨1, 3, 254, 0⟩] : List Msg), ([] : List Msg), ?_, ?_, ?_, ?_, ?_⟩
  all_goals first | decide +kernel | exact reached_of (by decide +kernel) | exact runs_of (by decide +kernel) | exact taken_of (by
    decide +kernel) | exact takes_of (by decide +kernel)

theorem wit_MailTimeAndResults_1 : ∃ (s : State) (e : Nat) (w : W32), Runs s e w 0x25 ∧ ((∀ x ∈ (cluster s (e / 16)).box, ¬(x.dst = e ∧
    x.cyc + 2 ≤ eclk s))) := by
  refine ⟨(setCluster (prog 0x94200005 []) 15 { box := [⟨1, 3, 254, 0⟩, ⟨7, 3, 255, 24999999⟩] } : State), (255 : Nat), 0x94200005, ?_,
    ?_⟩
  · exact runs_of (by decide +kernel)
  · decide +kernel

theorem wit_MailTimeAndResults_2 : ∃ (s : State) (e : Nat) (d : Nat) (w : W32), Runs s e w 0x26 ∧ d = e / 16 * 16 + ibits w 20 17 ∧
    active (engine s d) = true ∧ (cluster s (e / 16)).box.length < 16 := by
  refine ⟨(prog 0x983E0005 [(1, 77)] : State), (255 : Nat), (255 : Nat), 0x983E0005, ?_, ?_, ?_, ?_⟩
  all_goals first | decide +kernel | exact reached_of (by decide +kernel) | exact runs_of (by decide +kernel) | exact taken_of (by
    decide +kernel) | exact takes_of (by decide +kernel)

theorem wit_MailTimeAndResults_2b : ∃ (s : State) (e : Nat) (d : Nat) (w : W32), Runs s e w 0x26 ∧ d = e / 16 * 16 + ibits w 20 17 ∧
    active (engine s d) = true ∧ 16 ≤ (cluster s (e / 16)).box.length := by
  refine ⟨(setCluster (prog 0x983E0005 [(1, 77)]) 15 { box := List.replicate 16 ⟨1, 3, 254, 0⟩ } : State), (255 : Nat), (255 : Nat),
    0x983E0005, ?_, ?_, ?_, ?_⟩
  all_goals first | decide +kernel | exact reached_of (by decide +kernel) | exact runs_of (by decide +kernel) | exact taken_of (by
    decide +kernel) | exact takes_of (by decide +kernel)

theorem wit_MailTimeAndResults_2c : ∃ (s : State) (e : Nat) (d : Nat) (w : W32), Runs s e w 0x26 ∧ d = e / 16 * 16 + ibits w 20 17 ∧
    active (engine s d) = false := by
  refine ⟨(prog 0x98200005 [(1, 77)] : State), (255 : Nat), (240 : Nat), 0x98200005, ?_, ?_, ?_⟩
  · exact runs_of (by decide +kernel)
  · decide +kernel
  · decide +kernel

theorem wit_MailTimeAndResults_3 : ∃ (s : State) (e : Nat) (w : W32), Runs s e w 0x27 ∧ ibits w 7 0 ≠ 0 := by
  refine ⟨(prog 0x9C200009 [] : State), (255 : Nat), 0x9C200009, ?_, ?_⟩
  · exact runs_of (by decide +kernel)
  · decide +kernel

theorem wit_MailTimeAndResults_4 : ∃ (s : State) (e : Nat) (w : W32), Runs s e w 0x27 ∧ ibits w 7 0 = 0 := by
  refine ⟨(prog 0x9C200000 [] : State), (255 : Nat), 0x9C200000, ?_, ?_⟩
  · exact runs_of (by decide +kernel)
  · decide +kernel

theorem wit_MailTimeAndResults_5 : ∃ (s : State) (e : Nat) (w : W32) (a : W64) (b : W64), Runs s e w 0x28 ∧ a = greg (engine s e) (iRa
    w) ∧ b = greg (engine s e) (iRb w) := by
  refine ⟨(prog 0xA0611000 [(1, 5), (2, 0x1800000000000)] : State), (255 : Nat), 0xA0611000, (5 : W64), 0x1800000000000, ?_, ?_, ?_⟩
  · exact runs_of (by decide +kernel)
  · decide +kernel
  · decide +kernel

theorem wit_MailTimeAndResults_6 : ∃ (s : State) (e : Nat) (opc : Nat) (pay : Nat) (w : W32) (i : Nat → Instr), ((i = .iEmit ∧ opc =
    0x2C ∧ pay = (greg (engine s e) (iRa w)).toNat % 2 ^ 54) ∨ (i = .iEmitt ∧ opc = 0x2D ∧ pay = (greg (engine s e) (iRb w)).toNat % 2
    ^ 6 * 2 ^ 48 + (greg (engine s e) (iRa w)).toNat % 2 ^ 48)) ∧ Runs s e w opc ∧ (engine s e).rq.length < 8 := by
  refine ⟨(prog 0xB001000E [(1, 77)] : State), (255 : Nat), 0x2C, (77 : Nat), 0xB001000E, .iEmit, ?_, ?_, ?_⟩
  · exact Or.inl ⟨rfl, rfl, by decide +kernel⟩
  · exact runs_of (by decide +kernel)
  · decide +kernel

theorem wit_MailTimeAndResults_6b : ∃ (s : State) (e : Nat) (opc : Nat) (pay : Nat) (w : W32) (i : Nat → Instr), ((i = .iEmit ∧ opc =
    0x2C ∧ pay = (greg (engine s e) (iRa w)).toNat % 2 ^ 54) ∨ (i = .iEmitt ∧ opc = 0x2D ∧ pay = (greg (engine s e) (iRb w)).toNat % 2
    ^ 6 * 2 ^ 48 + (greg (engine s e) (iRa w)).toNat % 2 ^ 48)) ∧ Runs s e w opc ∧ 8 ≤ (engine s e).rq.length := by
  refine ⟨(setEngine up 255 { eng 0xB401100E [(1, 77), (2, 3)] with rq := List.replicate 8 (1, 0) } : State), (255 : Nat), 0x2D, (3 * 2
    ^ 48 + 77 : Nat), 0xB401100E, .iEmitt, ?_, ?_, ?_⟩
  · exact Or.inr ⟨rfl, rfl, by decide +kernel⟩
  · exact runs_of (by decide +kernel)
  · decide +kernel

theorem wit_CarverDecisions_4 : ∃ (s : State) (e : Nat) (c : Nat) (w : W32), Runs s e w 0x34 ∧ inTurn s (clusterEngines (e / 16)) e =
    true ∧ c = e / 16 ∧ isStandby s = false ∧ flag s (CC_GATE_STAT.OPEN c) ≠ w.getLsbD 0 := by
  refine ⟨(prog 0xD0010001 [] : State), (255 : Nat), (15 : Nat), 0xD0010001, ?_, ?_, ?_, ?_, ?_⟩
  all_goals first | decide +kernel | exact reached_of (by decide +kernel) | exact runs_of (by decide +kernel) | exact taken_of (by
    decide +kernel) | exact takes_of (by decide +kernel)

theorem wit_CarverDecisions_5 : ∃ (s : State) (e : Nat) (w : W32), Runs s e w 0x34 ∧ inTurn s (clusterEngines (e / 16)) e = true ∧ flag
    s (CC_GATE_STAT.OPEN (e / 16)) = w.getLsbD 0 := by
  refine ⟨(prog 0xD0010000 [] : State), (255 : Nat), 0xD0010000, ?_, ?_, ?_⟩
  · exact runs_of (by decide +kernel)
  · decide +kernel
  · decide +kernel

theorem wit_CarverDecisions_6 : ∃ (s : State) (e : Nat) (u : Nat) (w : W32), Runs s e w 0x35 ∧ u = ibits w 5 0 ∧ isStandby s = false ∧
    u < nMus s ∧ ownMu s u = enginePart s e := by
  refine ⟨(prog 0xD401007F [(1, 77)] : State), (255 : Nat), (63 : Nat), 0xD401007F, ?_, ?_, ?_, ?_, ?_⟩
  all_goals first | decide +kernel | exact reached_of (by decide +kernel) | exact runs_of (by decide +kernel) | exact taken_of (by
    decide +kernel) | exact takes_of (by decide +kernel)

theorem wit_CarverDecisions_7 : ∃ (s : State) (e : Nat) (w : W32), Runs s e w 0x36 ∧ inTurn s (List.range (nEngines s)) e = true ∧
    isStandby s = false := by
  refine ⟨(prog 0xD8220007 [(1, 77)] : State), (255 : Nat), 0xD8220007, ?_, ?_, ?_⟩
  · exact runs_of (by decide +kernel)
  · decide +kernel
  · decide +kernel

theorem wit_CarverDecisions_9 : ∃ (s : State) (a : Access) (e : Nat) (v : W32), e < 256 ∧ Reached s a (CV_DEC_LAT_MAX.off e) ∧
    v.getLsbD 31 = true := by
  refine ⟨up, a0, (255 : Nat), 0x80000000, ?_, ?_, ?_⟩
  · decide +kernel
  · exact reached_of (by decide +kernel)
  · decide +kernel

theorem wit_EngineLife_0 : ∃ (s : State) (a : Access) (e : Nat) (v : W32), e < 256 ∧ Reached s a (CV_CTRL.off e) ∧ v.getLsbD 31 = true
    ∧ (((engine s e).st = 0 ∨ (engine s e).st = 1)) ∧ heldHalted s e = false := by
  refine ⟨up, a0, (255 : Nat), 0xA0000FFF, ?_, ?_, ?_, ?_, ?_⟩
  all_goals first | decide +kernel | exact reached_of (by decide +kernel) | exact runs_of (by decide +kernel) | exact taken_of (by
    decide +kernel) | exact takes_of (by decide +kernel)

theorem wit_EngineLife_1 : ∃ (s : State) (a : Access) (e : Nat) (v : W32), e < 256 ∧ Reached s a (CV_CTRL.off e) ∧ v.getLsbD 31 = true
    ∧ ((active (engine s e) = true ∨ heldHalted s e = true)) := by
  refine ⟨(prog 0 [] : State), a0, (255 : Nat), 0x80000FFF, ?_, ?_, ?_, ?_⟩
  all_goals first | decide +kernel | exact reached_of (by decide +kernel) | exact runs_of (by decide +kernel) | exact taken_of (by
    decide +kernel) | exact takes_of (by decide +kernel)

theorem wit_EngineLife_2 : ∃ (s : State) (a : Access) (e : Nat) (v : W32), e < 256 ∧ Reached s a (CV_CTRL.off e) ∧ v.getLsbD 30 = true
    ∧ active (engine s e) = true := by
  refine ⟨(setEngine up 255 { eng 0 [] with p1 := { q := [9] } } : State), a0, (255 : Nat), 0x40000000, ?_, ?_, ?_, ?_⟩
  all_goals first | decide +kernel | exact reached_of (by decide +kernel) | exact runs_of (by decide +kernel) | exact taken_of (by
    decide +kernel) | exact takes_of (by decide +kernel)

theorem wit_EngineLife_3 : ∃ (s : State) (e : Nat) (w : W32), Runs s e w 0x3E := by
  refine ⟨(prog 0xF80000FF [] : State), (255 : Nat), 0xF80000FF, ?_⟩
  · exact runs_of (by decide +kernel)

theorem wit_EngineLife_4 : ∃ (s : State) (e : Nat), e < nEngines s ∧ (engine s e).st = 2 ∧ (engine s e).overrun = false ∧ issueCycle
    (engine s e) ≤ eclk s ∧ legal (fetch (engine s e)) = false := by
  refine ⟨(setEngine up 255 { st := 2 } : State), (255 : Nat), ?_, ?_, ?_, ?_, ?_⟩
  all_goals decide +kernel

theorem wit_EngineLife_5 : ∃ (s : State) (e : Nat), e < nEngines s ∧ (engine s e).st = 2 ∧ (engine s e).overrun = true ∧ issueCycle
    (engine s e) ≤ eclk s := by
  refine ⟨(setEngine up 255 { eng 0 [] with overrun := true } : State), (255 : Nat), ?_, ?_, ?_, ?_⟩
  all_goals decide +kernel

theorem wit_EngineLife_6 : ∃ (s : State) (c : Command) (bs : List Byte) (e : Nat) (i : Nat) (n : Nat), CmdTaken s c 0x200 ∧ e = p0f c 7
    0 ∧ i = p0f c 27 16 ∧ n = c.p1.toNat ∧ e < nEngines s ∧ ownCluster s (e / 16) = cmdPart s c ∧ n ≠ 0 ∧ i + n ≤ 4096 ∧ active (engine
    s e) = false ∧ c.data = some bs := by
  refine ⟨cmdUp, (cmd 0x200 0x0FFF00FF 1 (some [1, 2, 3, 4]) : Command), ([1, 2, 3, 4] : List Byte), (255 : Nat), (4095 : Nat), (1 :
    Nat), ?_, ?_, ?_, ?_, ?_, ?_, ?_, ?_, ?_, ?_⟩
  all_goals first | decide +kernel | exact reached_of (by decide +kernel) | exact runs_of (by decide +kernel) | exact taken_of (by
    decide +kernel) | exact takes_of (by decide +kernel)

theorem wit_EngineLife_7 : ∃ (s : State) (c : Command) (bs : List Byte) (e : Nat) (o : Nat) (n : Nat), CmdTaken s c 0x201 ∧ e = p0f c 7
    0 ∧ o = p0f c 48 32 ∧ n = c.p1.toNat ∧ e < nEngines s ∧ ownCluster s (e / 16) = cmdPart s c ∧ 8 ≤ n ∧ n % 8 = 0 ∧ o % 8 = 0 ∧ o + n
    ≤ 0x20000 ∧ active (engine s e) = false ∧ c.data = some bs ∧ bs.length = n := by
  refine ⟨cmdUp, (cmd 0x201 0x1FFF8000000FF 8 (some [1, 2, 3, 4, 5, 6, 7, 8]) : Command), ([1, 2, 3, 4, 5, 6, 7, 8] : List Byte), (255
    : Nat), 0x1FFF8, (8 : Nat), ?_, ?_, ?_, ?_, ?_, ?_, ?_, ?_, ?_, ?_, ?_, ?_, ?_⟩
  all_goals first | decide +kernel | exact reached_of (by decide +kernel) | exact runs_of (by decide +kernel) | exact taken_of (by
    decide +kernel) | exact takes_of (by decide +kernel)

theorem wit_EngineLife_8 : ∃ (s : State) (c : Command) (e : Nat) (o : Nat) (n : Nat), CmdTaken s c 0x202 ∧ e = p0f c 7 0 ∧ o = p0f c 48
    32 ∧ n = c.p1.toNat ∧ e < nEngines s ∧ ownCluster s (e / 16) = cmdPart s c ∧ 8 ≤ n ∧ n % 8 = 0 ∧ o % 8 = 0 ∧ o + n ≤ 0x20000 ∧
    active (engine s e) = false := by
  refine ⟨cmdUp, (cmd 0x202 0x1FFF8000000FF 8 none : Command), (255 : Nat), 0x1FFF8, (8 : Nat), ?_, ?_, ?_, ?_, ?_, ?_, ?_, ?_, ?_, ?_,
    ?_⟩
  all_goals first | decide +kernel | exact reached_of (by decide +kernel) | exact runs_of (by decide +kernel) | exact taken_of (by
    decide +kernel) | exact takes_of (by decide +kernel)

theorem wit_EngineLife_9 : ∃ (s : State) (c : Command) (bs : List Byte) (e : Nat) (p : Nat), CmdTaken s c 0x203 ∧ e = p0f c 7 0 ∧ p =
    p0f c 8 8 ∧ e < nEngines s ∧ ownCluster s (e / 16) = cmdPart s c ∧ c.data = some bs ∧ bs.length = 128 := by
  refine ⟨cmdUp, (cmd 0x203 0xFFFFF00FF01FF 0 (some (List.replicate 128 0xFF)) : Command), (List.replicate 128 0xFF : List Byte), (255
    : Nat), (1 : Nat), ?_, ?_, ?_, ?_, ?_, ?_, ?_⟩
  all_goals first | decide +kernel | exact reached_of (by decide +kernel) | exact runs_of (by decide +kernel) | exact taken_of (by
    decide +kernel) | exact takes_of (by decide +kernel)

theorem wit_CarverDecisions_8 : ∃ (s : State) (e : Nat) (f : Nat) (l : List Nat), f ∈ l ∧ (engine s f).st = 2 ∧ ((issueCycle (engine s
    f) < issueCycle (engine s e) ∨ (issueCycle (engine s f) = issueCycle (engine s e) ∧ f < e))) := by
  refine ⟨(setEngine (prog 0xD0000000 []) 254 { st := 2 } : State), (255 : Nat), (254 : Nat), (clusterEngines 15 : List Nat), ?_, ?_, ?_⟩
  all_goals decide +kernel

theorem wit_DdrChannels_0 : ∃ (s : State) (a : Access) (n : Nat) (v : W32), n < 4 ∧ Reached s a (MC_CMD.off n) ∧ v.getLsbD 31 = true ∧
    flag s (MC_STAT.TRAINING n) = false := by
  refine ⟨up, a0, (3 : Nat), 0x80000000, ?_, ?_, ?_, ?_⟩
  all_goals first | decide +kernel | exact reached_of (by decide +kernel) | exact runs_of (by decide +kernel) | exact taken_of (by
    decide +kernel) | exact takes_of (by decide +kernel)

theorem wit_DdrChannels_1 : ∃ (s : State) (n : Nat) (size : Nat), n < nChans s ∧ flag s (MC_STAT.TRAINING n) = true ∧ (chan s
    n).orgPresent = true ∧ bitsOf (chan s n).org.toNat 17 16 ≤ 1 ∧ bitsOf (chan s n).org.toNat 15 14 ≤ 2 ∧ 8 ≤ size ∧ size ≤ 64 := by
  refine ⟨(setChan (fl [(MC_STAT.TRAINING 3, 1)] up) 3 { orgPresent := true } : State), (3 : Nat), (64 : Nat), ?_, ?_, ?_, ?_, ?_, ?_, ?_⟩
  all_goals decide +kernel

theorem wit_DdrChannels_2 : ∃ (s : State) (n : Nat), n < nChans s ∧ flag s (MC_STAT.TRAINING n) = true := by
  refine ⟨(fl [(MC_STAT.TRAINING 3, 1)] up : State), (3 : Nat), ?_, ?_⟩
  all_goals decide +kernel

theorem wit_DdrChannels_3 : ∃ (s : State) (a : Access) (n : Nat) (v : W32), n < 4 ∧ Reached s a (MC_CMD.off n) ∧ v.getLsbD 30 = true ∧
    chanInUse s n = false := by
  refine ⟨({ ddrUp with ddr := { mem := [(0x2000000005, 7), (0x3000000005, 7)] } } : State), a0, (3 : Nat), 0x40000000, ?_, ?_, ?_, ?_⟩
  all_goals first | decide +kernel | exact reached_of (by decide +kernel) | exact runs_of (by decide +kernel) | exact taken_of (by
    decide +kernel) | exact takes_of (by decide +kernel)

theorem wit_DdrChannels_4 : ∃ (s : State) (a : Access) (n : Nat) (v : W32), n < 4 ∧ Reached s a (MC_CMD.off n) ∧ v.getLsbD 30 = true ∧
    chanInUse s n = true := by
  refine ⟨(ringUp {} : State), a0, (3 : Nat), 0x40000000, ?_, ?_, ?_, ?_⟩
  all_goals first | decide +kernel | exact reached_of (by decide +kernel) | exact runs_of (by decide +kernel) | exact taken_of (by
    decide +kernel) | exact takes_of (by decide +kernel)

theorem wit_DdrChannels_5 : ∃ (s : State) (n : Nat) (blk : Nat), ¬ ScrubTurn s n blk := by
  refine ⟨ddrUp, (3 : Nat), (5 : Nat), ?_⟩
  · intro h; exact absurd h.1 (by decide +kernel)

theorem wit_DdrChannels_6 : ∃ (s : State) (n : Nat) (blk : Nat), ScrubTurn s n blk ∧ ((∀ i < 8, wordErr s (n * 2 ^ 36 + 64 * blk + 8 *
    i) = 0)) := by
  refine ⟨(setChan ddrUp 3 { scrub := 134217727 } : State), (3 : Nat), (134217727 : Nat), ?_, ?_⟩
  · exact ⟨by decide +kernel, by decide +kernel, fun k => by cases k <;> decide +kernel⟩
  · decide +kernel

theorem wit_DdrChannels_7 : ∃ (s : State) (n : Nat) (blk : Nat) (j : Nat), ScrubTurn s n blk ∧ blk < 2 ^ 30 ∧ j < 8 ∧ wordErr s (n * 2
    ^ 36 + 64 * blk + 8 * j) = 1 ∧ ((∀ i < 8, i ≠ j → wordErr s (n * 2 ^ 36 + 64 * blk + 8 * i) = 0)) := by
  refine ⟨({ ddrUp with ddr := { chans := [(3, { scrub := 127 })], err := [((3 * 2 ^ 36 + 64 * 127 + 56) / 8, 1)] } } : State), (3 :
    Nat), (127 : Nat), (7 : Nat), ?_, ?_, ?_, ?_, ?_⟩
  · exact ⟨by decide +kernel, by decide +kernel, fun k => by cases k <;> decide +kernel⟩
  · decide +kernel
  · decide +kernel
  · decide +kernel
  · decide +kernel

theorem wit_DdrChannels_8 : ∃ (s : State) (n : Nat) (blk : Nat) (j : Nat), ScrubTurn s n blk ∧ blk < 2 ^ 30 ∧ j < 8 ∧ wordErr s (n * 2
    ^ 36 + 64 * blk + 8 * j) = 2 ∧ ((∀ i < 8, i ≠ j → wordErr s (n * 2 ^ 36 + 64 * blk + 8 * i) = 0)) := by
  refine ⟨({ ddrUp with ddr := { chans := [(3, { scrub := 127 })], err := [((3 * 2 ^ 36 + 64 * 127 + 56) / 8, 2)] } } : State), (3 :
    Nat), (127 : Nat), (7 : Nat), ?_, ?_, ?_, ?_, ?_⟩
  · exact ⟨by decide +kernel, by decide +kernel, fun k => by cases k <;> decide +kernel⟩
  · decide +kernel
  · decide +kernel
  · decide +kernel
  · decide +kernel

theorem wit_RingCommands_0 : ∃ (s : State) (a : Access) (r : Nat) (v : W32) (x : Region), r < 16 ∧ Reached s a (CR_CMD.off r) ∧
    v.getLsbD 31 = true ∧ flag s (CR_STAT.RUNNING r) = false ∧ x = ⟨fld s (CR_CFG.BIND r), fld s (CR_BASE.VALUE r), fld s
    (CR_SIZE.VALUE r)⟩ ∧ regionOk s x = true ∧ ((∀ y ∈ barRegions s, regionsMeet s x y = false)) ∧ regionOwned s (ownRing s r) x = true
    := by
  refine ⟨(fl [(CR_CFG.BIND 15, 3), (CR_BASE.VALUE 15, 5), (CR_SIZE.VALUE 15, 2)] ddrUp : State), a0, (15 : Nat), 0x80000000, (⟨3, 5,
    2⟩ : Region), ?_, ?_, ?_, ?_, ?_, ?_, ?_, ?_⟩
  all_goals first | decide +kernel | exact reached_of (by decide +kernel) | exact runs_of (by decide +kernel) | exact taken_of (by
    decide +kernel) | exact takes_of (by decide +kernel)

theorem wit_RingCommands_1 : ∃ (s : State) (a : Access) (r : Nat) (v : W32), r < 16 ∧ Reached s a (CR_CMD.off r) ∧ v.getLsbD 31 = true
    ∧ flag s (CR_STAT.RUNNING r) = true := by
  refine ⟨(ringUp {} : State), a0, (15 : Nat), 0x80000000, ?_, ?_, ?_, ?_⟩
  all_goals first | decide +kernel | exact reached_of (by decide +kernel) | exact runs_of (by decide +kernel) | exact taken_of (by
    decide +kernel) | exact takes_of (by decide +kernel)

theorem wit_RingCommands_2 : ∃ (s : State) (a : Access) (r : Nat) (v : W32), r < 16 ∧ Reached s a (CR_CMD.off r) ∧ v.getLsbD 30 = true
    := by
  refine ⟨(ringUp {} : State), a0, (15 : Nat), 0x40000000, ?_, ?_, ?_⟩
  · decide +kernel
  · exact reached_of (by decide +kernel)
  · decide +kernel

theorem wit_RingCommands_3 : ∃ (s : State) (r : Nat) (K : Nat), r < 16 ∧ flag s (CR_STAT.RUNNING r) = true ∧ ((flag s (CR_STAT.MARK_SET
    r) = false ∨ flag s (CR_CFG.MODE r) = false)) ∧ K = min (fld s (CR_LOOKBACK.TILES r)) (min (cring s r).fill ((cring s r).n - 1)) := by
  refine ⟨({ fl [(CR_LOOKBACK.TILES 15, 100)] (ringUp { fill := 64, wp := 5 }) with now := 32000001, fab := { decs := [⟨5, 3, .mark 14⟩, ⟨6, 241, .mark 15⟩], marksIn := [(15, 77)] } } : State), (15 : Nat), (63 : Nat), ?_, ?_, ?_, ?_⟩
  all_goals decide +kernel

theorem wit_RingCommands_5 : ∃ (s : State) (a : Access) (r : Nat) (v : W32), r < 16 ∧ Reached s a (CR_CMD.off r) ∧ v.getLsbD 29 = true
    ∧ flag s (CR_STAT.RUNNING r) = false := by
  refine ⟨up, a0, (15 : Nat), 0x20000000, ?_, ?_, ?_, ?_⟩
  all_goals first | decide +kernel | exact reached_of (by decide +kernel) | exact runs_of (by decide +kernel) | exact taken_of (by
    decide +kernel) | exact takes_of (by decide +kernel)

theorem wit_RingCommands_6 : ∃ (s : State) (a : Access) (r : Nat) (v : W32), r < 16 ∧ Reached s a (CR_CMD.off r) ∧ v.getLsbD 28 = true
    := by
  refine ⟨(fl [(CR_STAT.MARK_SET 15, 1), (CR_STAT.STALLED 15, 1)] (ringUp { m := 3, k := 5, wp := 8, fill := 8 }) : State), a0, (15 :
    Nat), 0x10000000, ?_, ?_, ?_⟩
  · decide +kernel
  · exact reached_of (by decide +kernel)
  · decide +kernel

theorem wit_RingCommands_7 : ∃ (s : State) (a : Access) (r : Nat) (h : Nat) (v : W32), r < 16 ∧ Reached s a (CR_CMD.off r) ∧ v.getLsbD
    27 = true ∧ h = fld s (CR_REPLAY.HRING r) ∧ flag s (CR_STAT.MARK_SET r) = true ∧ (cring s r).replay = none ∧ ownHostRing s h =
    ownRing s r ∧ streamRuns s h = true ∧ (cring s r).k ≠ 0 := by
  refine ⟨(streamOn (fl [(CR_STAT.MARK_SET 15, 1), (CR_REPLAY.HRING 15, 63)] (ringUp { m := 3, k := 5 })) : State), a0, (15 : Nat), (63
    : Nat), 0x08000000, ?_, ?_, ?_, ?_, ?_, ?_, ?_, ?_, ?_⟩
  all_goals first | decide +kernel | exact reached_of (by decide +kernel) | exact runs_of (by decide +kernel) | exact taken_of (by
    decide +kernel) | exact takes_of (by decide +kernel)

theorem wit_RingCommands_8 : ∃ (s : State) (a : Access) (r : Nat) (v : W32) (x : Region), r < 16 ∧ Reached s a (CR_CMD.off r) ∧
    v.getLsbD 26 = true ∧ flag s (CR_STAT.RUNNING r) = true ∧ (cring s r).mig = none ∧ x = ⟨fld s (CR_MIG.BIND r), fld s (CR_MIG.BASE
    r), (cring s r).n / 64⟩ ∧ regionOk s x = true ∧ ((∀ y ∈ barRegions s, regionsMeet s x y = false)) ∧ regionOwned s (ownRing s r) x =
    true := by
  refine ⟨(fl [(CR_MIG.BIND 15, 3), (CR_MIG.BASE 15, 100)] (ringUp { wp := 9 }) : State), a0, (15 : Nat), 0x04000000, (⟨3, 100, 1⟩ :
    Region), ?_, ?_, ?_, ?_, ?_, ?_, ?_, ?_, ?_⟩
  all_goals first | decide +kernel | exact reached_of (by decide +kernel) | exact runs_of (by decide +kernel) | exact taken_of (by
    decide +kernel) | exact takes_of (by decide +kernel)

theorem wit_RingSlots_0 : ∃ (s : State) (r : Nat) (code : Nat) (addr : Nat) (x : Tile) (u : Tile) (w : Option (Nat × Nat)) (rest : List
    Inbound), r < 16 ∧ (cring s r).inbox = ⟨code, .tile x w⟩ :: rest ∧ Served s r .wr ∧ (cring s r).n ≠ 0 ∧ flag s (CR_STAT.STALLED r)
    = false ∧ dropsOf (cring s r) code = 0 ∧ (cring s r).mig = none ∧ ((flag s (CR_STAT.MARK_SET r) = true → (cring s r).k < (cring s
    r).n)) ∧ x.slots.length = 7 ∧ u = (if failsCheck s x then markCorrupt x else x) ∧ addr = slotAddr s (ringRegion s r).bind
    (ringRegion s r).base (cring s r).wp := by
  refine ⟨(ringUp { wp := 63, inbox := [⟨5, .tile good none⟩] } : State), (15 : Nat), (5 : Nat), (3 * 2 ^ 36 + 64 * 63 : Nat), good,
    good, none, ([] : List Inbound), ?_, ?_, ?_, ?_, ?_, ?_, ?_, ?_, ?_, ?_, ?_⟩
  all_goals first | decide +kernel | exact reached_of (by decide +kernel) | exact runs_of (by decide +kernel) | exact taken_of (by
    decide +kernel) | exact takes_of (by decide +kernel) | exact (by unfold Served; decide +kernel)

theorem wit_RingSlots_0b : ∃ (s : State) (r : Nat) (code : Nat) (addr : Nat) (x : Tile) (u : Tile) (w : Option (Nat × Nat)) (rest :
    List Inbound), r < 16 ∧ (cring s r).inbox = ⟨code, .tile x w⟩ :: rest ∧ Served s r .wr ∧ (cring s r).n ≠ 0 ∧ flag s
    (CR_STAT.STALLED r) = false ∧ dropsOf (cring s r) code = 0 ∧ (cring s r).mig = none ∧ ((flag s (CR_STAT.MARK_SET r) = true → (cring
    s r).k < (cring s r).n)) ∧ x.slots.length = 7 ∧ u = (if failsCheck s x then markCorrupt x else x) ∧ addr = slotAddr s (ringRegion s
    r).bind (ringRegion s r).base (cring s r).wp := by
  refine ⟨(ringUp { wp := 63, inbox := [⟨5, .tile tile1 none⟩] } : State), (15 : Nat), (5 : Nat), (3 * 2 ^ 36 + 64 * 63 : Nat), tile1,
    (markCorrupt tile1 : Tile), none, ([] : List Inbound), ?_, ?_, ?_, ?_, ?_, ?_, ?_, ?_, ?_, ?_, ?_⟩
  all_goals first | decide +kernel | exact reached_of (by decide +kernel) | exact runs_of (by decide +kernel) | exact taken_of (by
    decide +kernel) | exact takes_of (by decide +kernel) | exact (by unfold Served; decide +kernel)

theorem wit_RingSlots_1 : ∃ (s : State) (r : Nat) (code : Nat) (x : Tile) (w : Option (Nat × Nat)) (rest : List Inbound), r < 16 ∧
    (cring s r).inbox = ⟨code, .tile x w⟩ :: rest ∧ (cring s r).n ≠ 0 ∧ flag s (CR_STAT.STALLED r) = true := by
  refine ⟨(fl [(CR_STAT.STALLED 15, 1)] (ringUp { wp := 63, inbox := [⟨5, .tile good none⟩] }) : State), (15 : Nat), (5 : Nat), good,
    none, ([] : List Inbound), ?_, ?_, ?_, ?_⟩
  all_goals decide +kernel

theorem wit_RingSlots_10 : ∃ (s : State) (r : Nat) (g : Nat) (num : Nat) (part : Nat) (rest : List Inbound), r < 16 ∧ (cring s r).inbox
    = ⟨g, .reservation num part⟩ :: rest ∧ Served s r .wr ∧ (cring s r).n ≠ 0 ∧ flag s (CR_STAT.STALLED r) = false ∧ flag s
    (CR_STAT.MARK_SET r) = false ∧ fillQueued s (.ring r) g num part = false ∧ ((∀ y ∈ rest, y.code = g → isFillOf num part y.item =
    false)) := by
  refine ⟨(ringUp { wp := 63, inbox := [⟨5, .reservation 7 2⟩] } : State), (15 : Nat), (5 : Nat), (7 : Nat), (2 : Nat), ([] : List
    Inbound), ?_, ?_, ?_, ?_, ?_, ?_, ?_, ?_⟩
  all_goals first | decide +kernel | exact reached_of (by decide +kernel) | exact runs_of (by decide +kernel) | exact taken_of (by
    decide +kernel) | exact takes_of (by decide +kernel) | exact (by unfold Served; decide +kernel)

theorem wit_RingSlots_5 : ∃ (s : State) (r : Nat) (g : Nat) (num : Nat) (part : Nat) (addr : Nat) (rest : List Inbound), r < 16 ∧
    (cring s r).inbox = ⟨g, .reservation num part⟩ :: rest ∧ Served s r .wr ∧ (cring s r).n ≠ 0 ∧ (fillQueued s (.ring r) g num part ||
    rest.any fun y => y.code == g && isFillOf num part y.item) = true ∧ flag s (CR_STAT.STALLED r) = false ∧ flag s (CR_STAT.MARK_SET
    r) = false ∧ (cring s r).mig = none ∧ addr = slotAddr s (ringRegion s r).bind (ringRegion s r).base (cring s r).wp := by
  refine ⟨(fl [(CR_SRC_LO.SRC 15, 32)] (ringUp { wp := 63, inbox := [⟨5, .reservation 7 2⟩, ⟨5, .fill 7 2 good⟩] }) : State), (15 :
    Nat), (5 : Nat), (7 : Nat), (2 : Nat), (3 * 2 ^ 36 + 64 * 63 : Nat), ([⟨5, .fill 7 2 good⟩] : List Inbound), ?_, ?_, ?_, ?_, ?_,
    ?_, ?_, ?_, ?_⟩
  all_goals first | decide +kernel | exact reached_of (by decide +kernel) | exact runs_of (by decide +kernel) | exact taken_of (by
    decide +kernel) | exact takes_of (by decide +kernel) | exact (by unfold Served; decide +kernel)

theorem wit_RingSlots_6 : ∃ (s : State) (r : Nat) (addr : Nat) (R : Replay) (x : Tile), (cring s r).replay = some R ∧ nextReplay s
    R.hring = some r ∧ Served s r .rd ∧ R.held = [] ∧ R.passed = 0 ∧ addr = readAddr s r R.next ∧ ((∀ i < 8, wordErr s (addr + 8 * i) =
    0)) ∧ tileWords x = (List.range 8).map (fun i => ddrWord s (addr + 8 * i)) ∧ isNote (tileWords x) = false ∧ failsCheck s x = false
    := by
  refine ⟨(ddrWrite (streamOn (ringUp { m := 3, k := 2, replay := some ⟨63, 2, 0, 0, 3, 0, [], none⟩ })) (3 * 2 ^ 36 + 192) (tileBytes
    good) : State), (15 : Nat), (3 * 2 ^ 36 + 192 : Nat), (⟨63, 2, 0, 0, 3, 0, [], none⟩ : Replay), good, ?_, ?_, ?_, ?_, ?_, ?_, ?_,
    ?_, ?_, ?_⟩
  all_goals first | decide +kernel | exact reached_of (by decide +kernel) | exact runs_of (by decide +kernel) | exact taken_of (by
    decide +kernel) | exact takes_of (by decide +kernel) | exact (by unfold Served; decide +kernel)

theorem wit_RingSlots_7 : ∃ (s : State) (r : Nat) (k : Nat) (src : Nat) (dst : Nat) (m : Migration), r < 16 ∧ (cring s r).mig = some m
    ∧ Served s r .cp ∧ k = (m.start + m.copied) % (cring s r).n ∧ inNew m (cring s r).n k = false ∧ src = slotAddr s (ringRegion s
    r).bind (ringRegion s r).base k ∧ dst = slotAddr s m.bind m.base k ∧ ((∀ i < 8, wordErr s (src + 8 * i) = 0)) := by
  refine ⟨(ddrWrite (ringUp { mig := some ⟨3, 100, 0, 0, 1, []⟩ }) (3 * 2 ^ 36 + 64) (tileBytes good) : State), (15 : Nat), (1 : Nat),
    (3 * 2 ^ 36 + 64 : Nat), (3 * 2 ^ 36 + 409600 + 64 : Nat), (⟨3, 100, 0, 0, 1, []⟩ : Migration), ?_, ?_, ?_, ?_, ?_, ?_, ?_, ?_⟩
  all_goals first | decide +kernel | exact reached_of (by decide +kernel) | exact runs_of (by decide +kernel) | exact taken_of (by
    decide +kernel) | exact takes_of (by decide +kernel) | exact (by unfold Served; decide +kernel)

theorem wit_RingSlots_9 : ∃ (s : State) (n : Nat) (k : Class3), trained s n = true ∧ (waits3 s n k = true) ∧ turn2 s n = false := by
  refine ⟨(ringUp { mig := some ⟨3, 100, 0, 0, 1, []⟩ } : State), (3 : Nat), .cp, ?_, ?_, ?_⟩
  all_goals decide +kernel

theorem wit_PackerStreams_0 : ∃ (s : State) (h : Nat) (code : Nat) (x : Tile) (w : Option (Nat × Nat)) (b : Blk), h < 64 ∧ EncTurn s h
    ∧ (stream s h).rep = [] ∧ (stream s h).live = some ⟨code, .tile x w⟩ ∧ (stream s h).held = [] ∧ owedDrops s h code = 0 ∧ (stream s
    h).blk = some b ∧ b.rep = false ∧ b.mode = 0 ∧ pkMode s h = 0 ∧ blkSize b 512 0 ≤ b.limit ∧ flushDue s h b = false ∧ x.slots.length
    = 7 ∧ failsCheck s x = false := by
  refine ⟨(setStream (streamOn up) 63 { live := some ⟨5, .tile good none⟩, blk := some blk0, bufs := [buf0] } : State), (63 : Nat), (5
    : Nat), good, none, blk0, ?_, ?_, ?_, ?_, ?_, ?_, ?_, ?_, ?_, ?_, ?_, ?_, ?_, ?_⟩
  all_goals first | decide +kernel | exact reached_of (by decide +kernel) | exact runs_of (by decide +kernel) | exact taken_of (by
    decide +kernel) | exact takes_of (by decide +kernel) | exact ⟨by decide +kernel, by decide +kernel⟩

theorem wit_PackerStreams_2 : ∃ (s : State) (h : Nat) (code : Nat) (x : Tile) (w : Option (Nat × Nat)), h < 64 ∧ EncTurn s h ∧ (stream
    s h).rep = [] ∧ (stream s h).live = some ⟨code, .tile x w⟩ ∧ (stream s h).blk = none ∧ (stream s h).bufs = [] ∧ running s (fld s
    (HI_RING_CFG.PAIR h)) = false := by
  refine ⟨(setStream (streamOn up) 63 { live := some ⟨5, .tile good none⟩ } : State), (63 : Nat), (5 : Nat), good, none, ?_, ?_, ?_,
    ?_, ?_, ?_, ?_⟩
  all_goals first | decide +kernel | exact reached_of (by decide +kernel) | exact runs_of (by decide +kernel) | exact taken_of (by
    decide +kernel) | exact takes_of (by decide +kernel) | exact ⟨by decide +kernel, by decide +kernel⟩

theorem wit_PackerStreams_3 : ∃ (s : State) (h : Nat) (reason : Nat) (code : Nat) (seq : Nat) (count : Nat) (b : Blk), h < 64 ∧ EncTurn
    s h ∧ (stream s h).live = none ∧ (stream s h).rep = [.gap reason code seq count] ∧ (stream s h).blk = some b ∧ b.rep = true ∧
    blkSize b 0 1 ≤ b.limit ∧ flushDue s h b = false := by
  refine ⟨(setStream (streamOn up) 63 { rep := [.gap 3 5 9 2], blk := some { blk0 with rep := true }, bufs := [buf0] } : State), (63 :
    Nat), (3 : Nat), (5 : Nat), (9 : Nat), (2 : Nat), ({ blk0 with rep := true } : Blk), ?_, ?_, ?_, ?_, ?_, ?_, ?_, ?_⟩
  all_goals first | decide +kernel | exact reached_of (by decide +kernel) | exact runs_of (by decide +kernel) | exact taken_of (by
    decide +kernel) | exact takes_of (by decide +kernel) | exact ⟨by decide +kernel, by decide +kernel⟩

theorem wit_PackerStreams_4 : ∃ (s : State) (h : Nat), ¬ EncTurn s h := by
  refine ⟨up, (63 : Nat), ?_⟩
  · intro h; exact absurd h.2 (by decide +kernel)

theorem wit_PackerStreams_5 : ∃ (s : State) (h : Nat) (addr : Nat) (n : Nat) (l : List Buf) (x : Buf) (b : Blk), h < 64 ∧ exportOff s h
    = false ∧ (stream s h).blk = some b ∧ (stream s h).bufs = l ++ [x] ∧ x.closed = false ∧ b.mode < 4 ∧ b.q < 16 ∧ b.at_ + 1600 * max
    1 (fld s (PK_CFG.FLUSH h)) ≤ s.now ∧ addr = x.addr + b.off ∧ n = up64 (64 + 8 * ((b.nbits + 63) / 64) + 8 * b.list.length) := by
  refine ⟨(setStream (streamOn up) 63 { blk := some { blk0 with at_ := 31000000, list := [7] }, bufs := [{ buf0 with used := 1024 }] }
    : State), (63 : Nat), 0x20000, (128 : Nat), ([] : List Buf), ({ buf0 with used := 1024 } : Buf),
    ({ blk0 with at_ := 31000000, list := [7] } : Blk), ?_, ?_, ?_, ?_, ?_, ?_, ?_, ?_, ?_, ?_⟩
  all_goals decide +kernel

theorem wit_PackerStreams_6 : ∃ (s : State) (h : Nat), h < 64 ∧ (stream s h).ratioAt + 1600000 ≤ s.now := by
  refine ⟨(setStream (streamOn up) 63 { inBytes := 640, outBytes := 64, ratioAt := 30400000 } : State), (63 : Nat), ?_, ?_⟩
  all_goals decide +kernel

theorem wit_PackerStreams_7 : ∃ (s : State) (h : Nat) (addr : Nat) (k : Nat) (b : Buf), h < 64 ∧ exportOff s h = false ∧ (stream s
    h).bufs = [b] ∧ b.closed = false ∧ b.pending = 0 ∧ (stream s h).blk = none ∧ b.lastAt = some k ∧ k + 160000 ≤ s.now ∧ addr =
    entryAddr s h (devIdx s h) := by
  refine ⟨(setStream (streamOn up) 63 { bufs := [{ buf0 with blocks := [(5, 0)], used := 64, lastAt := some 31840000 }] } : State), (63
    : Nat), 0x10000, (31840000 : Nat), ({ buf0 with blocks := [(5, 0)], used := 64, lastAt := some 31840000 } : Buf), ?_, ?_, ?_, ?_,
    ?_, ?_, ?_, ?_, ?_⟩
  all_goals decide +kernel

theorem wit_PackerStreams_8 : ∃ (s : State) (r : Nat), r < 64 ∧ stopping s r = true ∧ (fnHost s (ownHostRing s r)).d3hot = false ∧
    ((ringKind s r = 1 → (hring s r).cmd = none)) ∧ ((ringKind s r = 0 → (stream s r).asides = [] ∧ (stream s r).live = none)) := by
  refine ⟨(fl [(HI_RING_STAT.STOPPING 63, 1)] (setStream (streamOn up) 63 { bufs := [buf0] }) : State), (63 : Nat), ?_, ?_, ?_, ?_, ?_⟩
  all_goals decide +kernel

theorem wit_PackerStreams_8b : ∃ (s : State) (r : Nat), r < 64 ∧ stopping s r = true ∧ (fnHost s (ownHostRing s r)).d3hot = false ∧
    ((ringKind s r = 1 → (hring s r).cmd = none)) ∧ ((ringKind s r = 0 → (stream s r).asides = [] ∧ (stream s r).live = none)) := by
  refine ⟨(fl [(HI_RING_STAT.STOPPING 63, 1), (HI_RING_CFG.KIND 63, 1)] (streamOn up) : State), (63 : Nat), ?_, ?_, ?_, ?_, ?_⟩
  all_goals decide +kernel

theorem wit_VlcCode_0 : ∃ (v : Int), -(2 ^ 47) ≤ v ∧ v < 2 ^ 47 := by
  refine ⟨(-(2 ^ 47) : Int), ?_, ?_⟩
  all_goals decide +kernel

theorem wit_VlcCode_0b : ∃ (v : Int), -(2 ^ 47) ≤ v ∧ v < 2 ^ 47 := by
  refine ⟨(2 ^ 47 - 1 : Int), ?_, ?_⟩
  all_goals decide +kernel

theorem wit_RingSlots_2 : ∃ (s : State) (r : Nat) (code : Nat) (addr : Nat) (x : Tile) (w : Option (Nat × Nat)) (rest : List Inbound),
    r < 16 ∧ (cring s r).inbox = ⟨code, .tile x w⟩ :: rest ∧ Served s r .wr ∧ (cring s r).n ≠ 0 ∧ mustStall s r = false ∧ dropsOf
    (cring s r) code ≠ 0 ∧ addr = slotAddr s (ringRegion s r).bind (ringRegion s r).base (cring s r).wp ∧ (cring s r).mig = none := by
  refine ⟨(ringUp { wp := 63, inbox := [⟨5, .tile good none⟩], drops := [(5, 9)] } : State), (15 : Nat), (5 : Nat), (3 * 2 ^ 36 + 64 *
    63 : Nat), good, none, ([] : List Inbound), ?_, ?_, ?_, ?_, ?_, ?_, ?_, ?_⟩
  all_goals first | decide +kernel | exact reached_of (by decide +kernel) | exact runs_of (by decide +kernel) | exact taken_of (by
    decide +kernel) | exact takes_of (by decide +kernel) | exact (by unfold Served; decide +kernel)

theorem wit_RingSlots_4 : ∃ (s : State) (r : Nat) (R : Replay), (cring s r).replay = some R ∧ R.cyc = some (fclk s) := by
  refine ⟨(streamOn (ringUp { m := 3, k := 2, replay := some ⟨63, 2, 0, 0, 3, 0, [], some (fclk up)⟩ }) : State), (15 : Nat), (⟨63, 2,
    0, 0, 3, 0, [], some (fclk up)⟩ : Replay), ?_, ?_⟩
  all_goals decide +kernel

theorem wit_PackerStreams_1 : ∃ (s : State) (h : Nat) (code : Nat) (x : Tile) (w : Option (Nat × Nat)) (b : Blk), h < 64 ∧ EncTurn s h
    ∧ (stream s h).rep = [] ∧ (stream s h).live = some ⟨code, .tile x w⟩ ∧ (stream s h).held = [] ∧ owedDrops s h code = 0 ∧ (stream s
    h).blk = some b ∧ b.rep = false ∧ b.mode ≠ 0 ∧ pkMode s h = b.mode ∧ flushDue s h b = false ∧ failsCheck s x = false ∧ b.mode < 4 ∧
    mustEscape x = true ∧ blkSize b 451 1 ≤ b.limit := by
  refine ⟨(setStream (fl [(PK_CFG.MODE 63, 1)] (streamOn up)) 63
    { live := some ⟨5, .tile (mkTile 5 false true 14 9 [1, 2, 3, 4, 5, 6, 7]) none⟩, blk := some { blk0 with mode := 1 }, bufs := [buf0] } : State), (63 : Nat), (5 : Nat), (mkTile 5 false true 14 9 [1, 2, 3, 4, 5, 6, 7] : Tile), none, ({ blk0 with mode := 1 } : Blk), ?_, ?_, ?_, ?_, ?_, ?_, ?_, ?_, ?_, ?_, ?_, ?_, ?_, ?_, ?_⟩
  all_goals first | decide +kernel | exact reached_of (by decide +kernel) | exact runs_of (by decide +kernel) | exact taken_of (by
    decide +kernel) | exact takes_of (by decide +kernel) | exact ⟨by decide +kernel, by decide +kernel⟩

theorem wit_PackerStreams_1b : ∃ (s : State) (h : Nat) (code : Nat) (x : Tile) (w : Option (Nat × Nat)) (b : Blk), h < 64 ∧ EncTurn s h
    ∧ (stream s h).rep = [] ∧ (stream s h).live = some ⟨code, .tile x w⟩ ∧ (stream s h).held = [] ∧ owedDrops s h code = 0 ∧ (stream s
    h).blk = some b ∧ b.rep = false ∧ b.mode ≠ 0 ∧ pkMode s h = b.mode ∧ flushDue s h b = false ∧ failsCheck s x = false ∧ b.mode = 4 ∧
    irregular x = true ∧ blkSize b 3584 1 ≤ b.limit := by
  refine ⟨(setStream (fl [(PK_CFG.MODE 63, 4)] (streamOn up)) 63
    { live := some ⟨5, .tile (mkTile 5 false true 14 9 [1, 2, 3, 4, 5, 6, 7]) none⟩, blk := some { blk0 with mode := 4 }, bufs := [buf0] } : State), (63 : Nat), (5 : Nat), (mkTile 5 false true 14 9 [1, 2, 3, 4, 5, 6, 7] : Tile), none, ({ blk0 with mode := 4 } : Blk), ?_, ?_, ?_, ?_, ?_, ?_, ?_, ?_, ?_, ?_, ?_, ?_, ?_, ?_, ?_⟩
  all_goals first | decide +kernel | exact reached_of (by decide +kernel) | exact runs_of (by decide +kernel) | exact taken_of (by
    decide +kernel) | exact takes_of (by decide +kernel) | exact ⟨by decide +kernel, by decide +kernel⟩

theorem wit_ServoMessages_0 : ∃ (s : State) (fr : Frame) (p : PtpAt) (e : Nat), fromParent s fr 0 = some p ∧ servoState s = 3 ∧
    s.tp.prov = none ∧ ((∀ d ∈ s.tp.dreq, d.m4 = none)) ∧ s.tp.lastEdge = some e ∧ e < ingressEdge s fr := by
  refine ⟨(fl [(TP_STAT.ANCHORED, 1), (TP_THR.STEP_THR, 100)]
    { servoUp 3 with tp := { (servoUp 3).tp with anchors := [(0, some anchor0)], samples := [10] } } : State), sync9, ptp0, (198400 :
    Nat), ?_, ?_, ?_, ?_, ?_, ?_⟩
  all_goals decide +kernel

theorem wit_ServoMessages_1 : ∃ (s : State) (fr : Frame) (p : PtpAt) (y : SyncPend), fromParent s fr 8 = some p ∧ servoState s = 3 ∧
    s.tp.prov = none ∧ ((∀ d ∈ s.tp.dreq, d.m4 = none)) ∧ s.tp.pend = some y ∧ y.seq = ptpSeq fr.bytes p ∧ y.edges ≠ 0 := by
  refine ⟨(fl [(TP_STAT.ANCHORED, 1)]
    { servoUp 3 with tp := { (servoUp 3).tp with anchors := [(0, some anchor0)], samples := [10], used := [(TP_THR.off, 100)], pend := some ⟨9, 204797952, 0, 200000, 1600⟩ } } : State), follow9, ptp0, (⟨9, 204797952, 0, 200000, 1600⟩ : SyncPend), ?_, ?_, ?_, ?_, ?_, ?_, ?_⟩
  all_goals decide +kernel

theorem wit_ServoMessages_3 : ∃ (s : State) (fr : Frame) (p : PtpAt) (d : DreqOut) (m1 : Int), fromParent s fr 9 = some p ∧ d ∈
    s.tp.dreq ∧ ((∀ x ∈ s.tp.dreq, x.seq = d.seq → x = d)) ∧ ptpSeq fr.bytes p = d.seq ∧ ptpRequester fr.bytes p = portId s (slavePort
    s) ∧ d.m4 = none ∧ d.m1 = some m1 ∧ s.tp.dev = [] := by
  refine ⟨(servoUp 3 : State), resp9, ptp0, (⟨9, 5, 4, some 3, none⟩ : DreqOut), (3 : Int), ?_, ?_, ?_, ?_, ?_, ?_, ?_, ?_⟩
  all_goals decide +kernel

theorem wit_ServoMessages_6 : ∃ (s : State) (fr : Frame) (p : PtpAt), forServo s fr = some p ∧ ptpType fr.bytes p = 11 ∧ flag s
    TP_CFG.BMCA = true ∧ ptpSource fr.bytes p ≠ portId s 0 ∧ ptpSource fr.bytes p ≠ portId s 1 ∧ beAt fr.bytes (p.off + 61) 2 < 255 := by
  refine ⟨(fl [(TP_CFG.BMCA, 1)] (servoUp 3) : State), announce9, ptp0, ?_, ?_, ?_, ?_, ?_, ?_⟩
  all_goals decide +kernel

theorem wit_ServoMessages_7 : ∃ (s : State) (h : List Byte), servoOn s = true ∧ 2 ≤ servoState s ∧ s.tp.syncHead = some h ∧
    s.tp.dreqNext ≤ s.now ∧ wireFree s (slavePort s) = true ∧ (eport s (slavePort s)).fwd = [] ∧ (eport s (slavePort s)).launch = [] := by
  refine ⟨({ servoUp 3 with tp := { (servoUp 3).tp with syncHead := some (ptpFrame 0 9 []) } } : State), (ptpFrame 0 9 [] : List Byte),
    ?_, ?_, ?_, ?_, ?_, ?_, ?_⟩
  all_goals decide +kernel

theorem wit_ServoMessages_8 : ∃ (s : State) (h : List Byte), servoOn s = true ∧ 2 ≤ servoState s ∧ s.tp.syncHead = some h ∧
    s.tp.dreqNext ≤ s.now ∧ wireFree s (slavePort s) = false := by
  refine ⟨({ servoUp 3 with tp := { (servoUp 3).tp with syncHead := some (ptpFrame 0 9 []), ports := [(0, { busy := 4000000001 })] } }
    : State), (ptpFrame 0 9 [] : List Byte), ?_, ?_, ?_, ?_, ?_⟩
  all_goals decide +kernel

theorem wit_ServoMessages_9 : ∃ (s : State) (n : Nat), s.tp.syncAt = some n ∧ servoOn s = true ∧ maySlip s = true ∧ n + max 1 (usedFld
    s TP_QUAR.LOSS_N) * logTicks s.tp.syncLog ≤ s.now := by
  refine ⟨({ servoUp 3 with now := 160000000005, tp := { (servoUp 3).tp with syncAt := some 5 } } : State), (5 : Nat), ?_, ?_, ?_, ?_⟩
  all_goals decide +kernel

theorem wit_ServoMessages_10 : ∃ (s : State) (a : Access) (v : W32) (x : Anchor) (d : Int) (m : Int) (k : Nat), Reached s a TP_CMD.off
    ∧ v.getLsbD 31 = true ∧ servoOn s = true ∧ servoState s = 5 ∧ s.tp.td = some d ∧ latestAnchor s = some x ∧ m = x.at_ d - medianLow
    (s.tp.quar.map (·.ok)) ∧ 0 ≤ m ∧ k = (fld s TP_ANCH_STAT.LATEST + 1) % 256 := by
  refine ⟨(fl [(TP_STAT.ANCHORED, 1)]
    { servoUp 5 with tp := { (servoUp 3).tp with anchors := [(0, some anchor0)], td := some 204800000, quar := [⟨3, 4⟩] } } : State),
    a0, 0x80000000, anchor0, (204800000 : Int), (327680000000000 - 3 : Int), (1 : Nat), ?_, ?_, ?_, ?_, ?_, ?_, ?_, ?_, ?_⟩
  all_goals first | decide +kernel | exact reached_of (by decide +kernel) | exact runs_of (by decide +kernel) | exact taken_of (by
    decide +kernel) | exact takes_of (by decide +kernel)

theorem wit_ServoMessages_11 : ∃ (s : State) (a : Access) (v : W32), Reached s a TP_CMD.off ∧ v.getLsbD 30 = true ∧ servoOn s = true ∧
    s.tp.parent.isSome = true := by
  refine ⟨(servoUp 3 : State), a0, 0x40000000, ?_, ?_, ?_, ?_⟩
  all_goals first | decide +kernel | exact reached_of (by decide +kernel) | exact runs_of (by decide +kernel) | exact taken_of (by
    decide +kernel) | exact takes_of (by decide +kernel)

theorem wit_PortsAndPps_0 : ∃ (s : State) (fr : Frame), portUp s fr.port = true ∧ servoTakes s fr = false ∧ forwardable s fr = false := by
  refine ⟨(fl [(EP_CFG.EN 1, 1), (EP_STAT.LINK 1, 1)] up : State), (⟨1, List.replicate 60 0, true, 5⟩ : Frame), ?_, ?_, ?_⟩
  all_goals decide +kernel

theorem wit_PortsAndPps_1 : ∃ (s : State) (fr : Frame) (p : PtpAt), goodPtp s fr = some p ∧ p.dstOk = true ∧ flag s TP_CFG.TC_EN = true
    ∧ (eport s (1 - fr.port)).fwd.length < 32 := by
  refine ⟨(fl [(TP_CFG.TC_EN, 1)] (servoUp 0) : State), sync9, ptp0, ?_, ?_, ?_, ?_⟩
  all_goals decide +kernel

theorem wit_PortsAndPps_1b : ∃ (s : State) (fr : Frame) (p : PtpAt), goodPtp s fr = some p ∧ p.dstOk = true ∧ flag s TP_CFG.TC_EN =
    true ∧ 32 ≤ (eport s (1 - fr.port)).fwd.length := by
  refine ⟨(setEport (fl [(TP_CFG.TC_EN, 1)] (servoUp 0)) 1 { fwd := List.replicate 32 ⟨[], true, 5⟩ } : State), sync9, ptp0, ?_, ?_,
    ?_, ?_⟩
  all_goals decide +kernel

theorem wit_PortsAndPps_2 : ∃ (s : State) (p : Nat) (f : Fwd), wireFree s p = true ∧ (eport s p).fwd = [f] ∧ (eport s p).launch = [] ∧
    s.tp.ownReq = false := by
  refine ⟨(setEport (fl [(EP_CFG.EN 1, 1), (EP_STAT.LINK 1, 1)] up) 1 { fwd := [⟨sync9.bytes, true, 204700000⟩] } : State), (1 : Nat),
    (⟨sync9.bytes, true, 204700000⟩ : Fwd), ?_, ?_, ?_, ?_⟩
  all_goals decide +kernel

theorem wit_PortsAndPps_3 : ∃ (s : State) (c : Command) (p : Nat) (n : Nat) (bs : List Byte), CmdTaken s c 0x400 ∧ p = bitsOf
    c.p1.toNat 16 16 ∧ n = bitsOf c.p1.toNat 10 0 ∧ 60 ≤ n ∧ n ≤ 1518 ∧ cmdPart s c = 0 ∧ c.data = some bs ∧ bs.length = n ∧ (eport s
    p).launch.length < 256 ∧ (n + 63) / 64 ≤ fld s (EP_LAUNCH_STAT.FREE p) := by
  refine ⟨(fl [(EP_LAUNCH_STAT.FREE 1, 1)] cmdUp : State), (cmd 0x400 204900000 0x1003C (some (List.replicate 60 7)) : Command), (1 :
    Nat), (60 : Nat), (List.replicate 60 7 : List Byte), ?_, ?_, ?_, ?_, ?_, ?_, ?_, ?_, ?_, ?_⟩
  all_goals first | decide +kernel | exact reached_of (by decide +kernel) | exact runs_of (by decide +kernel) | exact taken_of (by
    decide +kernel) | exact takes_of (by decide +kernel)

theorem wit_PortsAndPps_5 : ∃ (s : State) (p : Nat) (w : Nat) (x : Int) (e : Launch) (r : List Launch), p < 2 ∧ (eport s p).launch = e
    :: r ∧ r.length < 256 ∧ portUp s p = true ∧ (eport s p).headAt = some (x, w) ∧ launchPassed s p e x w = false ∧ headLaunch s p e w
    ≤ Int.ofNat (s.now * 125) := by
  refine ⟨(setEport (fl [(EP_STAT.LINK 1, 1), (EP_CFG.EN 1, 1)] up) 1
    { launch := [⟨204800000, 9, [1, 2]⟩], headAt := some (25599872000, 3999999875) } : State), (1 : Nat), (3999999875 : Nat),
    (25599872000 : Int), (⟨204800000, 9, [1, 2]⟩ : Launch), ([] : List Launch), ?_, ?_, ?_, ?_, ?_, ?_, ?_⟩
  all_goals decide +kernel

theorem wit_PortsAndPps_5b : ∃ (s : State) (p : Nat) (w : Nat) (x : Int) (e : Launch) (r : List Launch), p < 2 ∧ (eport s p).launch = e
    :: r ∧ r.length < 256 ∧ portUp s p = true ∧ (eport s p).headAt = some (x, w) ∧ launchPassed s p e x w = false ∧ Int.ofNat (s.now *
    125) < headLaunch s p e w := by
  refine ⟨(setEport (fl [(EP_STAT.LINK 1, 1), (EP_CFG.EN 1, 1)] up) 1
    { launch := [⟨204900000, 9, [1, 2]⟩], headAt := some (25599872000, 3999999875) } : State), (1 : Nat), (3999999875 : Nat),
    (25599872000 : Int), (⟨204900000, 9, [1, 2]⟩ : Launch), ([] : List Launch), ?_, ?_, ?_, ?_, ?_, ?_, ?_⟩
  all_goals decide +kernel

theorem wit_PortsAndPps_5c : ∃ (s : State) (p : Nat) (w : Nat) (x : Int) (e : Launch) (r : List Launch), p < 2 ∧ (eport s p).launch = e
    :: r ∧ r.length < 256 ∧ portUp s p = true ∧ (eport s p).headAt = some (x, w) ∧ launchPassed s p e x w = true := by
  refine ⟨(setEport (fl [(EP_STAT.LINK 1, 1), (EP_CFG.EN 1, 1)] up) 1
    { launch := [⟨204790000, 9, [1, 2]⟩], headAt := some (25599872000, 3999999875) } : State), (1 : Nat), (3999999875 : Nat),
    (25599872000 : Int), (⟨204790000, 9, [1, 2]⟩ : Launch), ([] : List Launch), ?_, ?_, ?_, ?_, ?_, ?_⟩
  all_goals decide +kernel

theorem wit_PortsAndPps_6 : ∃ (s : State) (p : Nat) (e : Launch) (r : List Launch), p < 2 ∧ (eport s p).launch = e :: r ∧ flag s
    (EP_STAT.LINK p) = false := by
  refine ⟨(setEport up 1 { launch := [⟨204790000, 9, [1, 2]⟩] } : State), (1 : Nat), (⟨204790000, 9, [1, 2]⟩ : Launch), ([] : List
    Launch), ?_, ?_, ?_⟩
  all_goals decide +kernel

theorem wit_PortsAndPps_9 : ∃ (s : State) (a : Access) (p : Nat) (v : W32), p < 2 ∧ Reached s a (EP_CMD.off p) ∧ v.getLsbD 31 = true := by
  refine ⟨(setEport up 1 { launch := [⟨204790000, 9, [1, 2]⟩] } : State), a0, (1 : Nat), 0x80000000, ?_, ?_, ?_⟩
  · decide +kernel
  · exact reached_of (by decide +kernel)
  · decide +kernel

theorem wit_PortsAndPps_10 : ∃ (s : State) (a : Access) (p : Nat) (v : W32), p < 2 ∧ Reached s a (EP_CMD.off p) ∧ v.getLsbD 30 = true
    := by
  refine ⟨(fl [(EP_STAT.LINK 1, 1)] up : State), a0, (1 : Nat), 0x40000000, ?_, ?_, ?_⟩
  · decide +kernel
  · exact reached_of (by decide +kernel)
  · decide +kernel

theorem wit_PortsAndPps_11 : ∃ (p : Nat), p < 2 := by
  refine ⟨(1 : Nat), ?_⟩
  all_goals decide +kernel

theorem wit_PortsAndPps_12 : ∃ (s : State) (k : Int), flag s TP_PPS_CFG.OE = true ∧ ppsIndex s = some k ∧ s.tp.ppsSeen < k ∧ ((∀ n,
    s.tp.ppsAt = some n → n + ppsWidth s + 16000 ≤ s.now)) := by
  refine ⟨(fl [(TP_PPS_CFG.OE, 1), (TP_PPS_CFG.SRC, 1), (TP_PPS_CFG.WIDTH, 1)] { up with tp := { ppsSeen := -1, ppsAt := some 5 } } :
    State), (0 : Int), ?_, ?_, ?_, ?_⟩
  · decide +kernel
  · decide +kernel
  · decide +kernel
  · intro n h; cases h; decide +kernel

theorem wit_PortsAndPps_13 : ∃ (s : State) (n : Nat), s.tp.ppsHigh = true ∧ s.tp.ppsAt = some n ∧ n + 16000 * max 1 (fld s
    TP_PPS_CFG.WIDTH) ≤ s.now := by
  refine ⟨(fl [(TP_PPS_CFG.WIDTH, 1)] { up with tp := { ppsHigh := true, ppsAt := some 31984000 } } : State), (31984000 : Nat), ?_, ?_,
    ?_⟩
  all_goals decide +kernel

theorem wit_PortsAndPps_14 : ∃ (s : State), s.pl.running = true := by
  refine ⟨up, ?_⟩
  all_goals decide +kernel

theorem wit_ServoMessages_2 : ∃ (s : State) (fr : Frame) (p : PtpAt) (y : SyncPend) (d : DreqOut) (m4 : Int), fromParent s fr 8 = some
    p ∧ servoState s = 3 ∧ s.tp.pathQ = none ∧ s.tp.samples = [] ∧ s.tp.dreq = [d] ∧ d.t2 = y.t2 ∧ d.m1 = none ∧ d.m4 = some m4 ∧
    s.tp.pend = some y ∧ y.seq = ptpSeq fr.bytes p := by
  refine ⟨({ servoUp 3 with tp := { parent := some parentId, pend := some ⟨9, 5, 0, 200000, 1600⟩, dreq := [⟨4, 9, 5, none, some 99⟩] } } : State), follow9, ptp0, (⟨9, 5, 0, 200000, 1600⟩ : SyncPend), (⟨4, 9, 5, none, some 99⟩ : DreqOut), (99 : Int), ?_, ?_, ?_, ?_, ?_, ?_, ?_, ?_, ?_, ?_⟩
  all_goals decide +kernel

theorem wit_ServoMessages_4 : ∃ (s : State) (fr : Frame) (p : PtpAt) (d : DreqOut), fromParent s fr 9 = some p ∧ d ∈ s.tp.dreq ∧ ((∀ x
    ∈ s.tp.dreq, x.seq = d.seq → x = d)) ∧ ptpSeq fr.bytes p = d.seq ∧ ptpRequester fr.bytes p = portId s (slavePort s) ∧ d.m4 = none ∧
    d.m1 = none := by
  refine ⟨({ servoUp 3 with tp := { (servoUp 3).tp with dreq := [⟨9, 5, 4, none, none⟩] } } : State), resp9, ptp0, (⟨9, 5, 4, none,
    none⟩ : DreqOut), ?_, ?_, ?_, ?_, ?_, ?_, ?_⟩
  all_goals decide +kernel

theorem wit_ServoMessages_5 : ∃ (s : State) (fr : Frame) (p : PtpAt), forServo s fr = some p ∧ ptpType fr.bytes p = 9 ∧ ((ptpRequester
    fr.bytes p = portId s (slavePort s) → ∀ d ∈ s.tp.dreq, d.seq ≠ ptpSeq fr.bytes p)) := by
  refine ⟨({ servoUp 3 with tp := { (servoUp 3).tp with dreq := [] } } : State), resp9, ptp0, ?_, ?_, ?_⟩
  · decide +kernel
  · decide +kernel
  · intro _ d hd; exact nomatch hd

theorem wit_ServoMessages_8b : ∃ (s : State) (h : List Byte), servoOn s = true ∧ 2 ≤ servoState s ∧ s.tp.syncHead = some h ∧ s.now <
    s.tp.dreqNext := by
  refine ⟨({ servoUp 3 with tp := { (servoUp 3).tp with syncHead := some (ptpFrame 0 9 []), dreqNext := 32000001 } } : State),
    (ptpFrame 0 9 [] : List Byte), ?_, ?_, ?_, ?_⟩
  all_goals decide +kernel

theorem wit_SegmentStore_0 : ∃ (s : State) (a : Access) (q : Nat) (v : W32) (x : Region), q < 4 ∧ Reached s a (PG_STORE_CFG.off q) ∧
    v.getLsbD 31 = true ∧ claimOf s q = none ∧ x = ⟨bitsOf v.toNat 10 8, fld s (PG_STORE_BASE.VALUE q), fld s (PG_STORE_SIZE.VALUE q)⟩
    ∧ x.size ≤ 2 ^ 24 ∧ regionOk s x = true ∧ ((∀ y ∈ barRegions s, regionsMeet s x y = false)) ∧ regionOwned s (ownSeq s q) x = true
    := by
  refine ⟨(fl [(PG_STORE_BASE.VALUE 3, 5), (PG_STORE_SIZE.VALUE 3, 2)] ddrUp : State), a0, (3 : Nat), 0x80000300, (⟨3, 5, 2⟩ : Region),
    ?_, ?_, ?_, ?_, ?_, ?_, ?_, ?_, ?_⟩
  all_goals first | decide +kernel | exact reached_of (by decide +kernel) | exact runs_of (by decide +kernel) | exact taken_of (by
    decide +kernel) | exact takes_of (by decide +kernel)

theorem wit_SegmentStore_1 : ∃ (s : State) (a : Access) (q : Nat) (v : W32) (x : Region), q < 4 ∧ Reached s a (PG_STORE_CFG.off q) ∧
    v.getLsbD 31 = false ∧ claimOf s q = some x := by
  refine ⟨(claimUp up : State), a0, (3 : Nat), (0 : W32), (⟨3, 5, 2⟩ : Region), ?_, ?_, ?_, ?_⟩
  all_goals first | decide +kernel | exact reached_of (by decide +kernel) | exact runs_of (by decide +kernel) | exact taken_of (by
    decide +kernel) | exact takes_of (by decide +kernel)

theorem wit_SegmentStore_2 : ∃ (s : State) (c : Command) (q : Nat) (o : Nat) (n : Nat) (x : Region), CmdTaken s c 0x300 ∧ q = p0f c 37
    36 ∧ o = p0f c 35 0 ∧ n = c.p1.toNat ∧ q < nSeqs s ∧ ownSeq s q = cmdPart s c ∧ claimOf s q = some x ∧ o % 64 = 0 ∧ n % 64 = 0 ∧ n
    ≠ 0 ∧ o + n ≤ x.size * 4096 ∧ ((x.bind < 4 ∨ n = 64)) ∧ c.data = some (List.replicate 64 7) := by
  refine ⟨(claimUp cmdUp : State), (cmd 0x300 0x3000001FC0 64 (some (List.replicate 64 7)) : Command), (3 : Nat), (8128 : Nat), (64 :
    Nat), (⟨3, 5, 2⟩ : Region), ?_, ?_, ?_, ?_, ?_, ?_, ?_, ?_, ?_, ?_, ?_, ?_, ?_⟩
  all_goals first | decide +kernel | exact reached_of (by decide +kernel) | exact runs_of (by decide +kernel) | exact taken_of (by
    decide +kernel) | exact takes_of (by decide +kernel)

theorem wit_SegmentStore_2b : ∃ (s : State) (c : Command) (q : Nat) (o : Nat) (n : Nat) (x : Region), CmdTaken s c 0x300 ∧ q = p0f c 37
    36 ∧ o = p0f c 35 0 ∧ n = c.p1.toNat ∧ q < nSeqs s ∧ ownSeq s q = cmdPart s c ∧ claimOf s q = some x ∧ o % 64 = 0 ∧ n % 64 = 0 ∧ n
    ≠ 0 ∧ o + n ≤ x.size * 4096 ∧ ((x.bind < 4 ∨ n = 64)) ∧ c.data = none := by
  refine ⟨(claimUp cmdUp : State), (cmd 0x300 0x3000001FC0 64 none : Command), (3 : Nat), (8128 : Nat), (64 : Nat), (⟨3, 5, 2⟩ :
    Region), ?_, ?_, ?_, ?_, ?_, ?_, ?_, ?_, ?_, ?_, ?_, ?_, ?_⟩
  all_goals first | decide +kernel | exact reached_of (by decide +kernel) | exact runs_of (by decide +kernel) | exact taken_of (by
    decide +kernel) | exact takes_of (by decide +kernel)

theorem wit_SegmentStore_3 : ∃ (s : State) (c : Command) (q : Nat) (e : Nat) (n : Nat) (x : Region) (bs : List Byte) (w : Nat → W64),
    CmdTaken s c 0x301 ∧ q = p0f c 1 0 ∧ e = p0f c 25 16 ∧ n = p0f c 41 32 + 1 ∧ q < nSeqs s ∧ ownSeq s q = cmdPart s c ∧ claimOf s q =
    some x ∧ e + n ≤ 1024 ∧ c.data = some bs ∧ ((∀ k, w k = BitVec.ofNat 64 (leNat ((bs.drop (8 * k)).take 8)))) ∧ (∀ k < n, entryBad
    x.size ⟨e + k, 0, w (2 * k), w (2 * k + 1)⟩ = false) := by
  refine ⟨(claimUp cmdUp : State), (cmd 0x301 0x103FE0003 0 (some (leBytes 0x100000000 8 ++ leBytes 0 8 ++ leBytes 0x100000000 8 ++
    leBytes 7 8)) : Command), (3 : Nat), (1022 : Nat), (2 : Nat), (⟨3, 5, 2⟩ : Region), (leBytes 0x100000000 8 ++ leBytes 0 8 ++
    leBytes 0x100000000 8 ++ leBytes 7 8 : List Byte), (fun k => BitVec.ofNat 64 (leNat (((leBytes 0x100000000 8 ++ leBytes 0 8 ++
    leBytes 0x100000000 8 ++ leBytes 7 8).drop (8 * k)).take 8)) : Nat → W64), ?_, ?_, ?_, ?_, ?_, ?_, ?_, ?_, ?_, ?_, ?_⟩
  · exact taken_of (by decide +kernel)
  · decide +kernel
  · decide +kernel
  · decide +kernel
  · decide +kernel
  · decide +kernel
  · decide +kernel
  · decide +kernel
  · decide +kernel
  · intro k; rfl
  · decide +kernel

theorem wit_SegmentStore_3b : ∃ (s : State) (c : Command) (q : Nat) (e : Nat) (n : Nat) (x : Region) (bs : List Byte) (w : Nat → W64),
    CmdTaken s c 0x301 ∧ q = p0f c 1 0 ∧ e = p0f c 25 16 ∧ n = p0f c 41 32 + 1 ∧ q < nSeqs s ∧ ownSeq s q = cmdPart s c ∧ claimOf s q =
    some x ∧ e + n ≤ 1024 ∧ c.data = some bs ∧ ((∀ k, w k = BitVec.ofNat 64 (leNat ((bs.drop (8 * k)).take 8)))) ∧ (∃ k < n, entryBad
    x.size ⟨e + k, 0, w (2 * k), w (2 * k + 1)⟩ = true) := by
  refine ⟨(claimUp cmdUp : State), (cmd 0x301 0x3FF0003 0 (some (leBytes 0xE0000000 8 ++ leBytes 7 8)) : Command), (3 : Nat), (1023 :
    Nat), (1 : Nat), (⟨3, 5, 2⟩ : Region), (leBytes 0xE0000000 8 ++ leBytes 7 8 : List Byte), (fun k => BitVec.ofNat 64 (leNat
    (((leBytes 0xE0000000 8 ++ leBytes 7 8).drop (8 * k)).take 8)) : Nat → W64), ?_, ?_, ?_, ?_, ?_, ?_, ?_, ?_, ?_, ?_, ?_⟩
  · exact taken_of (by decide +kernel)
  · decide +kernel
  · decide +kernel
  · decide +kernel
  · decide +kernel
  · decide +kernel
  · decide +kernel
  · decide +kernel
  · decide +kernel
  · intro k; rfl
  · exact ⟨0, by decide +kernel, by decide +kernel⟩

theorem wit_SegmentStore_4 : ∃ (s : State) (a : Access) (q : Nat) (v : W32) (x : Region), q < 4 ∧ Reached s a (PG_CMD.off q) ∧
    v.getLsbD 31 = true ∧ seqBusy s q = false ∧ claimOf s q = some x ∧ ((∀ e ∈ reach (seqr s q) 5121 [fld s (PG_CFG.START_ENTRY q)] [],
    entryBad x.size (readEntry (seqr s q) e 0) = false)) := by
  refine ⟨(setSeqr (fl [(PG_CFG.START_ENTRY 3, 5)] (claimUp up)) 3 { table := [(5, (inst8.w0, inst8.w1))] } : State), a0, (3 : Nat),
    0x80000000, (⟨3, 5, 2⟩ : Region), ?_, ?_, ?_, ?_, ?_, ?_⟩
  all_goals first | decide +kernel | exact reached_of (by decide +kernel) | exact runs_of (by decide +kernel) | exact taken_of (by
    decide +kernel) | exact takes_of (by decide +kernel)

theorem wit_SegmentStore_5 : ∃ (s : State) (a : Access) (q : Nat) (v : W32), q < 4 ∧ Reached s a (PG_CMD.off q) ∧ v.getLsbD 31 = true ∧
    ((seqBusy s q = true ∨ claimOf s q = none)) := by
  refine ⟨(seqUp {} : State), a0, (3 : Nat), 0x80000000, ?_, ?_, ?_, ?_⟩
  all_goals first | decide +kernel | exact reached_of (by decide +kernel) | exact runs_of (by decide +kernel) | exact taken_of (by
    decide +kernel) | exact takes_of (by decide +kernel)

theorem wit_SegmentStore_6 : ∃ (s : State) (q : Nat) (F : Fetched) (r : List Fetched), q < 4 ∧ flag s (PG_STAT.START_PEND q) = true ∧
    (seqr s q).path = F :: r ∧ (seqr s q).start ≤ curWord s ∧ (((seqr s q).atOnce = true ∨ passed64 (wordT s) (startTime s q) = true))
    := by
  refine ⟨(setSeqr (fl [(PG_STAT.START_PEND 3, 1)] up) 3 { path := [fetch8], start := 50000 } : State), (3 : Nat), fetch8, ([] : List
    Fetched), ?_, ?_, ?_, ?_, ?_⟩
  all_goals decide +kernel

theorem wit_SegmentStore_7 : ∃ (s : State) (a : Access) (q : Nat) (v : W32), q < 4 ∧ Reached s a (PG_CMD.off q) ∧ v.getLsbD 30 = true ∧
    seqBusy s q = true ∧ (seqr s q).stopAt = none := by
  refine ⟨(seqUp { path := [fetch8] } : State), a0, (3 : Nat), 0x40000000, ?_, ?_, ?_, ?_, ?_⟩
  all_goals first | decide +kernel | exact reached_of (by decide +kernel) | exact runs_of (by decide +kernel) | exact taken_of (by
    decide +kernel) | exact takes_of (by decide +kernel)

theorem wit_SegmentStore_7b : ∃ (s : State) (a : Access) (q : Nat) (v : W32), q < 4 ∧ Reached s a (PG_CMD.off q) ∧ v.getLsbD 30 = true
    ∧ seqBusy s q = false := by
  refine ⟨(setSeqr up 3 { latch := [(2, [5])] } : State), a0, (3 : Nat), 0x40000000, ?_, ?_, ?_, ?_⟩
  all_goals first | decide +kernel | exact reached_of (by decide +kernel) | exact runs_of (by decide +kernel) | exact taken_of (by
    decide +kernel) | exact takes_of (by decide +kernel)

theorem wit_SegmentStore_8 : ∃ (s : State) (q : Nat) (w : Nat), q < 4 ∧ (seqr s q).stopAt = some w ∧ w ≤ curWord s := by
  refine ⟨(seqUp { path := [fetch8], stopAt := some 50000 } : State), (3 : Nat), (50000 : Nat), ?_, ?_, ?_⟩
  all_goals decide +kernel

theorem wit_SequencerPath_0 : ∃ (s : State) (a : Access) (q : Nat) (v : W32), q < 4 ∧ Reached s a (PG_CMD.off q) ∧ v.getLsbD 29 = true
    ∧ commitDue s q = true := by
  refine ⟨(seqUp { path := [fetch8], start := 49984, firstEdge := some 199936, latch := [(2, [49999]), (3, [49999])] } : State), a0, (3
    : Nat), 0x20000000, ?_, ?_, ?_, ?_⟩
  all_goals first | decide +kernel | exact reached_of (by decide +kernel) | exact runs_of (by decide +kernel) | exact taken_of (by
    decide +kernel) | exact takes_of (by decide +kernel)

theorem wit_SequencerPath_0b : ∃ (s : State) (a : Access) (q : Nat) (v : W32), q < 4 ∧ Reached s a (PG_CMD.off q) ∧ v.getLsbD 29 = true
    ∧ commitDue s q = false := by
  refine ⟨(seqUp { latch := [(3, [5])] } : State), a0, (3 : Nat), 0x20000000, ?_, ?_, ?_, ?_⟩
  all_goals first | decide +kernel | exact reached_of (by decide +kernel) | exact runs_of (by decide +kernel) | exact taken_of (by
    decide +kernel) | exact takes_of (by decide +kernel)

theorem wit_SequencerPath_1 : ∃ (s : State) (a : Access) (q : Nat), q < 4 ∧ Reached s a (PG_CMD.off q) := by
  refine ⟨(seqUp {} : State), a0, (3 : Nat), ?_, ?_⟩
  · decide +kernel
  · exact reached_of (by decide +kernel)

theorem wit_SequencerPath_2 : ∃ (s : State) (q : Nat) (j : Nat) (e : Nat) (pre : List JReq) (post : List JReq), q < 4 ∧ isStandby s =
    false ∧ s.play.jreqs = pre ++ ⟨q, j, e⟩ :: post ∧ ((∀ x ∈ pre, x.q ≠ q ∨ 4 * curWord s < x.edge)) ∧ e ≤ 4 * curWord s ∧ (seqr s
    q).clr ≤ curWord s ∧ latchWords (seqr s q) j = [] := by
  refine ⟨({ up with play := { jreqs := [⟨3, 1, 200001⟩, ⟨2, 1, 5⟩, ⟨3, 2, 200000⟩] } } : State), (3 : Nat), (2 : Nat), (200000 : Nat),
    ([⟨3, 1, 200001⟩, ⟨2, 1, 5⟩] : List JReq), ([] : List JReq), ?_, ?_, ?_, ?_, ?_, ?_, ?_⟩
  all_goals decide +kernel

theorem wit_SequencerPath_3 : ∃ (s : State) (q : Nat) (j : Nat) (c : Nat) (e : Nat) (pre : List SentDec) (post : List SentDec), q < 4 ∧
    isStandby s = false ∧ s.play.jreqs = [] ∧ s.fab.decs = pre ++ ⟨c, e, .pjump q j⟩ :: post ∧ ((∀ d ∈ pre, ∀ i, d.d ≠ .pjump q i)) ∧
    inOrder s ⟨c, e, .pjump q j⟩ = true ∧ (seqr s q).clr ≤ curWord s ∧ latchWords (seqr s q) j = [] := by
  refine ⟨({ up with fab := { decs := [⟨5, 1, .pjump 2 1⟩, ⟨6, 1, .pjump 3 2⟩] } } : State), (3 : Nat), (2 : Nat), (6 : Nat), (1 :
    Nat), ([⟨5, 1, .pjump 2 1⟩] : List SentDec), ([] : List SentDec), ?_, ?_, ?_, ?_, ?_, ?_, ?_, ?_⟩
  · decide +kernel
  · decide +kernel
  · decide +kernel
  · decide +kernel
  · intro d hd i e; simp at hd; subst hd; simp at e
  · decide +kernel
  · decide +kernel
  · decide +kernel

theorem wit_SequencerPath_5 : ∃ (s : State) (q : Nat) (F : Fetched) (r : List Fetched), q < 4 ∧ commitDue s q = true ∧ isStandby s =
    false ∧ (seqr s q).path = F :: r ∧ (∀ j < 4, latchWords (seqr s q) j = []) := by
  refine ⟨(seqUp { path := [fetch8], start := 49984, firstEdge := some 199936 } : State), (3 : Nat), fetch8, ([] : List Fetched), ?_,
    ?_, ?_, ?_, ?_⟩
  all_goals decide +kernel

theorem wit_SequencerPath_5b : ∃ (s : State) (q : Nat) (F : Fetched) (r : List Fetched), q < 4 ∧ commitDue s q = true ∧ isStandby s =
    false ∧ (seqr s q).path = F :: r ∧ F.inst.valid 2 = true ∧ latchWords (seqr s q) 2 = [49999] ∧ 49999 < commitWord (seqr s q) F.inst
    ∧ (∀ i < 4, i ≠ 2 → latchWords (seqr s q) i = []) := by
  refine ⟨(seqUp { path := [fetch8], start := 49984, firstEdge := some 199936, latch := [(2, [49999])] } : State), (3 : Nat), fetch8,
    ([] : List Fetched), ?_, ?_, ?_, ?_, ?_, ?_, ?_, ?_⟩
  all_goals decide +kernel

theorem wit_SequencerPath_6 : ∃ (s : State) (q : Nat) (F : Fetched) (r : List Fetched), q < 4 ∧ flag s (PG_STAT.RUNNING q) = true ∧
    (seqr s q).fixed = true ∧ (seqr s q).path = F :: r ∧ (seqr s q).start + 4 * F.inst.len ≤ curWord s ∧ (seqr s q).ending = true := by
  refine ⟨(seqUp { path := [fetch8], start := 49968, fixed := true, ending := true } : State), (3 : Nat), fetch8, ([] : List Fetched),
    ?_, ?_, ?_, ?_, ?_, ?_⟩
  all_goals decide +kernel

theorem wit_SequencerPath_6b : ∃ (s : State) (q : Nat) (F : Fetched) (r : List Fetched), q < 4 ∧ flag s (PG_STAT.RUNNING q) = true ∧
    (seqr s q).fixed = true ∧ (seqr s q).path = F :: r ∧ (seqr s q).start + 4 * F.inst.len ≤ curWord s ∧ r = [fetch8] ∧ (seqr s
    q).ending = false ∧ (seqr s q).starveFrom = none := by
  refine ⟨(seqUp { path := [fetch8, fetch8], start := 49968, fixed := true } : State), (3 : Nat), fetch8, ([fetch8] : List Fetched),
    ?_, ?_, ?_, ?_, ?_, ?_, ?_, ?_⟩
  all_goals decide +kernel

theorem wit_SequencerPath_7 : ∃ (s : State) (q : Nat) (p : Nat) (F : Fetched) (r : List Fetched), q < 4 ∧ flag s (PG_STAT.RUNNING q) =
    true ∧ (seqr s q).path = F :: r ∧ (seqr s q).starveFrom = none ∧ p = (curWord s - (seqr s q).start) / 4 ∧ p < F.inst.len ∧
    F.granule? p = none := by
  refine ⟨(seqUp { path := [fetch8], start := 49996 } : State), (3 : Nat), (1 : Nat), fetch8, ([] : List Fetched), ?_, ?_, ?_, ?_, ?_,
    ?_, ?_⟩
  all_goals decide +kernel

theorem wit_SequencerPath_8 : ∃ (s : State) (q : Nat) (o : Nat) (n : Nat) (x : Region) (F : Fetched), q < 4 ∧ claimOf s q = some x ∧
    seqBusy s q = true ∧ starveDue s q = false ∧ (seqr s q).path = [F] ∧ (seqr s q).starveFrom = none ∧ F.first + F.got.length <
    F.inst.len ∧ mainHeld s (seqr s q) < 1600 ∧ o = (F.inst.off + (F.first + F.got.length)) * 128 ∧ n = chanOf (storeAddr s x o) ∧
    trained s n = true ∧ fld s (MC_SHARE.PG_CAP n) ≠ 0 ∧ (chan s n).pgNext ≤ s.now * 2 ^ 16 ∧ ((∀ i < 8, wordErr s (storeAddr s x o + 8
    * i) = 0 ∧ wordErr s (storeAddr s x (o + 64) + 8 * i) = 0)) := by
  refine ⟨(fl [(MC_SHARE.PG_CAP 3, 1)] (seqUp { path := [{ fetch8 with got := [granule0] }], start := 50000 }) : State), (3 : Nat),
    (128 : Nat), (3 : Nat), (⟨3, 5, 2⟩ : Region), ({ fetch8 with got := [granule0] } : Fetched), ?_, ?_, ?_, ?_, ?_, ?_, ?_, ?_, ?_,
    ?_, ?_, ?_, ?_, ?_⟩
  all_goals decide +kernel

theorem wit_OverridesAndGatePins_0 : ∃ (s : State) (a : Access) (v : W32) (p : Nat), Reached s a PG_OVR_CMD.off ∧ v.getLsbD 31 = true ∧
    p = bitsOf v.toNat 29 24 ∧ pinPresent s p = true ∧ ownPin s p = a.func ∧ overrideOn s p = true := by
  refine ⟨ovrUp, a0, 0xBF100005, (63 : Nat), ?_, ?_, ?_, ?_, ?_, ?_⟩
  all_goals first | decide +kernel | exact reached_of (by decide +kernel) | exact runs_of (by decide +kernel) | exact taken_of (by
    decide +kernel) | exact takes_of (by decide +kernel)

theorem wit_OverridesAndGatePins_0b : ∃ (s : State) (a : Access) (v : W32) (p : Nat), Reached s a PG_OVR_CMD.off ∧ v.getLsbD 31 = true
    ∧ p = bitsOf v.toNat 29 24 ∧ overrideOn s p = false := by
  refine ⟨up, a0, 0xBF100005, (63 : Nat), ?_, ?_, ?_, ?_⟩
  all_goals first | decide +kernel | exact reached_of (by decide +kernel) | exact runs_of (by decide +kernel) | exact taken_of (by
    decide +kernel) | exact takes_of (by decide +kernel)

theorem wit_OverridesAndGatePins_1 : ∃ (s : State) (p : Nat) (act : Nat) (n : Nat) (src : Nat) (k : Nat), s.play.ovrReqs = [⟨p, act, n,
    src, k⟩] ∧ src < 2 ∧ k ≤ 4 * s.pl.edge + 3 ∧ ((∀ d ∈ s.fab.decs, ∀ x y, d.d ≠ .drive p x y)) := by
  refine ⟨({ ovrUp with play := { ovrReqs := [⟨63, 3, 5, 1, 800003⟩] } } : State), (63 : Nat), (3 : Nat), (5 : Nat), (1 : Nat), (800003
    : Nat), ?_, ?_, ?_, ?_⟩
  · decide +kernel
  · decide +kernel
  · decide +kernel
  · intro d hd; exact nomatch hd

theorem wit_OverridesAndGatePins_2 : ∃ (s : State) (p : Nat) (act : Nat) (n : Nat) (c : Nat) (e : Nat) (pre : List SentDec) (post :
    List SentDec), s.play.ovrReqs = [] ∧ s.fab.decs = pre ++ ⟨c, e, .drive p act n⟩ :: post ∧ ((∀ d ∈ pre, ∀ x y, d.d ≠ .drive p x y))
    ∧ overrideOn s p = true ∧ s.pl.edge % 4 = 0 ∧ c < eclk s ∧ inOrder s ⟨c, e, .drive p act n⟩ = true := by
  refine ⟨({ ovrUp with fab := { decs := [⟨5, 1, .drive 62 1 5⟩, ⟨6, 1, .drive 63 0 5⟩] } } : State), (63 : Nat), (0 : Nat), (5 : Nat),
    (6 : Nat), (1 : Nat), ([⟨5, 1, .drive 62 1 5⟩] : List SentDec), ([] : List SentDec), ?_, ?_, ?_, ?_, ?_, ?_, ?_⟩
  · decide +kernel
  · decide +kernel
  · intro d hd x y e; simp at hd; subst hd; simp at e
  · decide +kernel
  · decide +kernel
  · decide +kernel
  · decide +kernel

theorem wit_OverridesAndGatePins_3 : ∃ (s : State) (p : Nat) (f : Nat) (n : Nat), pinOvr s p = some (.pulse f n) ∧ f + n ≤ 4 *
    s.pl.edge := by
  refine ⟨({ ovrUp with play := { ovr := [(63, some (.pulse 799995 5))] } } : State), (63 : Nat), (799995 : Nat), (5 : Nat), ?_, ?_⟩
  all_goals decide +kernel

theorem wit_OverridesAndGatePins_4 : ∃ (s : State) (n : Nat) (b : Bool), n < nGates s ∧ s.inp.gatePins.testBit n ≠ b ∧ s.pl.running =
    false := by
  refine ⟨({ up with pl := {} } : State), (15 : Nat), true, ?_, ?_, ?_⟩
  all_goals decide +kernel

theorem wit_OverridesAndGatePins_5 : ∃ (s : State) (n : Nat) (b : Bool), n < nGates s ∧ s.inp.gatePins.testBit n ≠ b ∧ s.pl.running =
    true := by
  refine ⟨(setReg (fl [(LG_WIN_CFG.EN 63, 1)] up) (PG_GATEJ.off 3) 0x8F000000 : State), (15 : Nat), true, ?_, ?_, ?_⟩
  all_goals decide +kernel

theorem wit_TimeTriggers_0 : ∃ (s : State) (a : Access) (n : Nat) (v : W32), n < 32 ∧ Reached s a (TT_CTRL.off n) ∧ v.getLsbD 31 = true
    ∧ ttArmed s n = false ∧ targetOk s (ownTrigger s n) n = true := by
  refine ⟨(fl [(TT_CFG.TARGET 31, 1), (TT_CFG.SEL 31, 63), (TT_CFG.PERIODIC 31, 1)] up : State), a0, (31 : Nat), 0x80000000, ?_, ?_,
    ?_, ?_, ?_⟩
  all_goals first | decide +kernel | exact reached_of (by decide +kernel) | exact runs_of (by decide +kernel) | exact taken_of (by
    decide +kernel) | exact takes_of (by decide +kernel)

theorem wit_TimeTriggers_0b : ∃ (s : State) (a : Access) (n : Nat) (v : W32), n < 32 ∧ Reached s a (TT_CTRL.off n) ∧ v.getLsbD 31 =
    true ∧ ttArmed s n = true := by
  refine ⟨(trigUp [] : State), a0, (31 : Nat), 0x80000000, ?_, ?_, ?_, ?_⟩
  all_goals first | decide +kernel | exact reached_of (by decide +kernel) | exact runs_of (by decide +kernel) | exact taken_of (by
    decide +kernel) | exact takes_of (by decide +kernel)

theorem wit_TimeTriggers_0c : ∃ (s : State) (a : Access) (n : Nat) (v : W32), n < 32 ∧ Reached s a (TT_CTRL.off n) ∧ v.getLsbD 31 =
    true ∧ ttArmed s n = false ∧ targetOk s (ownTrigger s n) n = false := by
  refine ⟨(fl [(TT_CFG.TARGET 31, 2), (TT_CFG.SEL 31, 0x30)] { up with ft0512 := true } : State), a0, (31 : Nat), 0x80000000, ?_, ?_,
    ?_, ?_, ?_⟩
  all_goals first | decide +kernel | exact reached_of (by decide +kernel) | exact runs_of (by decide +kernel) | exact taken_of (by
    decide +kernel) | exact takes_of (by decide +kernel)

theorem wit_TimeTriggers_1 : ∃ (s : State) (a : Access) (n : Nat) (v : W32), n < 32 ∧ Reached s a (TT_CTRL.off n) ∧ v.getLsbD 30 = true
    := by
  refine ⟨(setSeqr (trigUp []) 0 {} : State), a0, (31 : Nat), 0x40000000, ?_, ?_, ?_⟩
  · decide +kernel
  · exact reached_of (by decide +kernel)
  · decide +kernel

theorem wit_TimeTriggers_2 : ∃ (s : State) (n : Nat), ((fireDue s n = false ∨ ∃ m < n, fireDue s m = true)) := by
  refine ⟨(setReg (fl [(TT_STAT.ARMED 3, 1)] (trigUp [])) (TT_NEXT_LO.off 3) 5 : State), (31 : Nat), ?_⟩
  · exact .inr ⟨3, by decide, by decide +kernel⟩

theorem wit_TimeTriggers_3 : ∃ (s : State) (n : Nat) (x : Int), n < 32 ∧ fireDue s n = true ∧ ((∀ m < n, fireDue s m = false)) ∧ x =
    Int.ofNat (tNow s) - Int.ofNat ((tNow s + 2 ^ 64 - ttNext s n % 2 ^ 64) % 2 ^ 64) ∧ ttPeriodic s n = false ∧ ttTarget s n = 1 ∧
    overrideOn s (ttSel s n % 64) = true := by
  refine ⟨(fl [(TT_STAT.ARMED 31, 1), (TT_CFG.TARGET 31, 1), (TT_CFG.SEL 31, 63)] ovrUp : State), (31 : Nat), (0 : Int), ?_, ?_, ?_,
    ?_, ?_, ?_, ?_⟩
  all_goals decide +kernel

theorem wit_TimeTriggers_3b : ∃ (s : State) (n : Nat) (x : Int), n < 32 ∧ fireDue s n = true ∧ ((∀ m < n, fireDue s m = false)) ∧ x =
    Int.ofNat (tNow s) - Int.ofNat ((tNow s + 2 ^ 64 - ttNext s n % 2 ^ 64) % 2 ^ 64) ∧ ttPeriodic s n = true ∧ ttCount s n = 0 ∧
    ttTarget s n = 2 := by
  refine ⟨(trigUp [(TT_CFG.TARGET 31, 2), (TT_CFG.SEL 31, 0x32), (TT_CFG.PERIODIC 31, 1)] : State), (31 : Nat), (5 : Int), ?_, ?_, ?_,
    ?_, ?_, ?_, ?_⟩
  all_goals decide +kernel

theorem wit_TimeTriggers_3c : ∃ (s : State) (n : Nat) (x : Int), n < 32 ∧ fireDue s n = true ∧ ((∀ m < n, fireDue s m = false)) ∧ x =
    Int.ofNat (tNow s) - Int.ofNat ((tNow s + 2 ^ 64 - ttNext s n % 2 ^ 64) % 2 ^ 64) ∧ ttTarget s n = 3 := by
  refine ⟨(trigUp [(TT_CFG.TARGET 31, 3)] : State), (31 : Nat), (5 : Int), ?_, ?_, ?_, ?_, ?_⟩
  all_goals decide +kernel

theorem wit_TimeTriggers_3d : ∃ (s : State) (n : Nat) (x : Int), n < 32 ∧ fireDue s n = true ∧ ((∀ m < n, fireDue s m = false)) ∧ x =
    Int.ofNat (tNow s) - Int.ofNat ((tNow s + 2 ^ 64 - ttNext s n % 2 ^ 64) % 2 ^ 64) ∧ ttTarget s n = 4 ∧ ttPeriodic s n = false := by
  refine ⟨(trigUp [(TT_CFG.TARGET 31, 4)] : State), (31 : Nat), (5 : Int), ?_, ?_, ?_, ?_, ?_, ?_⟩
  all_goals decide +kernel

theorem wit_TimeTriggers_3e : ∃ (s : State) (n : Nat) (x : Int), n < 32 ∧ fireDue s n = true ∧ ((∀ m < n, fireDue s m = false)) ∧ x =
    Int.ofNat (tNow s) - Int.ofNat ((tNow s + 2 ^ 64 - ttNext s n % 2 ^ 64) % 2 ^ 64) ∧ ttTarget s n = 6 ∧ muMode s (ttSel s n % 64) ≠
    0 := by
  refine ⟨(trigUp [(TT_CFG.TARGET 31, 6), (TT_CFG.SEL 31, 63), (MU_CFG.MODE 63, 1)] : State), (31 : Nat), (5 : Int), ?_, ?_, ?_, ?_,
    ?_, ?_⟩
  all_goals decide +kernel

theorem wit_TimeTriggers_4 : ∃ (s : State) (n : Nat) (c : Int), n < 32 ∧ (trigger s n).gate = some (some c) := by
  refine ⟨({ up with play := { trig := [(31, { gate := some (some 204800000), lastGate := true })] } } : State), (31 : Nat), (204800000
    : Int), ?_, ?_⟩
  all_goals decide +kernel

theorem wit_TimeTriggers_5 : ∃ (s : State) (a : Access) (v : W32), Reached s a TT_HOST_GATE.off ∧ v.getLsbD 31 = true ∧ v.getLsbD 30 =
    false ∧ flag s TT_HOST_GATE.STATE = false := by
  refine ⟨(fl [(LG_WIN_CFG.EN 63, 1)] up : State), a0, 0x80000000, ?_, ?_, ?_, ?_⟩
  all_goals first | decide +kernel | exact reached_of (by decide +kernel) | exact runs_of (by decide +kernel) | exact taken_of (by
    decide +kernel) | exact takes_of (by decide +kernel)

theorem wit_TimeTriggers_6 : ∃ (s : State) (a : Access) (v : W32), Reached s a TT_HOST_GATE.off ∧ v.getLsbD 30 = true ∧ v.getLsbD 31 =
    false ∧ flag s TT_HOST_GATE.STATE = true := by
  refine ⟨(fl [(LG_WIN_CFG.EN 63, 1), (TT_HOST_GATE.STATE, 1)] up : State), a0, 0x40000000, ?_, ?_, ?_, ?_⟩
  all_goals first | decide +kernel | exact reached_of (by decide +kernel) | exact runs_of (by decide +kernel) | exact taken_of (by
    decide +kernel) | exact takes_of (by decide +kernel)

theorem wit_TimeTriggers_7 : ∃ (s : State) (a : Access) (v : W32), Reached s a TT_HOST_GATE.off ∧ v.getLsbD 31 = true ∧ flag s
    TT_HOST_GATE.STATE = true := by
  refine ⟨(fl [(TT_HOST_GATE.STATE, 1)] up : State), a0, 0x80000000, ?_, ?_, ?_⟩
  · exact reached_of (by decide +kernel)
  · decide +kernel
  · decide +kernel

theorem wit_TimeTriggers_7b : ∃ (s : State) (a : Access) (v : W32), Reached s a TT_HOST_GATE.off ∧ v.getLsbD 30 = true ∧ flag s
    TT_HOST_GATE.STATE = false := by
  refine ⟨up, a0, 0x40000000, ?_, ?_, ?_⟩
  · exact reached_of (by decide +kernel)
  · decide +kernel
  · decide +kernel

theorem wit_FuseProgramming_0 : ∃ (s : State) (a : Access), reaches s a = true ∧ a.func = 0 ∧ rights s 0 = true ∧ guardPair s 1 = none
    := by
  refine ⟨(fl [(AR_PROG_ROW.ROW, 4)] { up with ar := { vppSince := some 5 } } : State), a0, ?_, ?_, ?_, ?_⟩
  all_goals decide +kernel

theorem wit_FuseProgramming_1 : ∃ (s : State) (row : Nat) (d : W32), s.ar.run = some (row, d) ∧ s.now < s.ar.runAt + usTicks 20 *
    runBits s row d := by
  refine ⟨({ up with ar := { run := some (127, 0xFF), runAt := 32000000 - 255999 } } : State), (127 : Nat), 0xFF, ?_, ?_⟩
  all_goals decide +kernel

theorem wit_FuseProgramming_2 : ∃ (s : State) (row : Nat) (d : W32) (b : W32), s.ar.run = some (row, d) ∧ s.ar.runAt + usTicks 20 *
    runBits s row d ≤ s.now ∧ ones (d &&& b &&& ~~~fuseRow s row) ≤ runBits s row d := by
  refine ⟨({ up with ar := { run := some (127, 0xFF), array := [(127, 0xF00)] } } : State), (127 : Nat), 0xFF, 0x10F, ?_, ?_, ?_⟩
  all_goals decide +kernel

theorem wit_StepRunsTheFront_0 : ∃ (s : State) (c : Instr) (rest : List Instr), s.pending = c :: rest := by
  refine ⟨({ up with pending := [.mainPllLock, .refLoss] } : State), .mainPllLock, ([.refLoss] : List Instr), ?_⟩
  all_goals decide +kernel

theorem wit_StepRunsTheFront_1 : ∃ (s : State), s.pending = [] := by
  refine ⟨up, ?_⟩
  all_goals decide +kernel

theorem wit_EveryStepKeepsTheMemories_0 : ∃ (s : State) (t : State), State.wf s ∧ step s = .next t := by
  refine ⟨State.reset, (tick State.reset : State), ?_, ?_⟩
  · exact ⟨by decide +kernel, by decide +kernel⟩
  · exact rfl

theorem wit_SequencerPath_4 : ∃ (s : State) (q : Nat) (j : Nat) (w : Nat) (F : Fetched) (r : List Fetched) (pre : List JReq) (post :
    List JReq) (e : Nat), q < 4 ∧ isStandby s = false ∧ commitDue s q = false ∧ flag s (PG_STAT.RUNNING q) = true ∧ (seqr s q).path = F
    :: r ∧ s.play.jreqs = pre ++ ⟨q, j, e⟩ :: post ∧ ((∀ x ∈ pre, x.q ≠ q ∨ 4 * curWord s < x.edge)) ∧ e ≤ 4 * curWord s ∧ (seqr s
    q).clr ≤ curWord s ∧ latchWords (seqr s q) j = [w] := by
  refine ⟨({ seqUp { path := [fetch8], start := 49990, firstEdge := some 199960, latch := [(2, [49999])] } with play := { (seqUp { path := [fetch8], start := 49990, firstEdge := some 199960, latch := [(2, [49999])] }).play with jreqs := [⟨3, 2, 5⟩] } } : State), (3 : Nat), (2 : Nat), (49999 : Nat), fetch8, ([] : List Fetched), ([] : List JReq), ([] : List JReq), (5 : Nat), ?_, ?_, ?_, ?_, ?_, ?_, ?_, ?_, ?_, ?_⟩
  all_goals decide +kernel

theorem wit_MainPll_4 : ∃ (s : State), s.pl.running = false ∧ s.mt.inReset = false ∧ s.mt.asleep = false ∧ s.mt.sleep.isSome = true ∧
    flag s PL_STAT.PLL_LOCK = false := by
  refine ⟨({ up with pl := { up.pl with running := false }, mt := { sleep := some slp } } : State), ?_, ?_, ?_, ?_, ?_⟩
  all_goals decide +kernel

theorem wit_EpochsAndSnapshots_4 : ∃ (T : Nat) (w : Nat), w = (epochWord T).toNat := by
  refine ⟨(5 * 2 ^ 47 + 3 : Nat), ((epochWord (5 * 2 ^ 47 + 3)).toNat : Nat), ?_⟩
  all_goals decide +kernel

theorem wit_EpochsAndSnapshots_5 : ∃ (sub : Nat) (hi : Nat) (T : Nat) (w : Nat), sub < 16 ∧ w = (markWord sub hi T).toNat := by
  refine ⟨(15 : Nat), (255 : Nat), (2 ^ 48 - 1 : Nat), ((markWord 15 255 (2 ^ 48 - 1)).toNat : Nat), ?_, ?_⟩
  all_goals decide +kernel

theorem wit_EpochsAndSnapshots_6 : ∃ (e : Nat) (T : Nat) (w : Nat), w = (sleepGapWord e T).toNat := by
  refine ⟨(63 : Nat), (2 ^ 48 - 1 : Nat), ((sleepGapWord 63 (2 ^ 48 - 1)).toNat : Nat), ?_⟩
  all_goals decide +kernel

theorem wit_StampPath_6 : ∃ (lane : Nat) (q : Nat) (x : Nat) (falling : Bool) (pile : Bool) (w : Nat), w = (stampWord lane falling pile
    q x).toNat := by
  refine ⟨(1023 : Nat), (3 : Nat), (2 ^ 48 - 1 : Nat), true, true, ((stampWord 1023 true true 3 (2 ^ 48 - 1)).toNat : Nat), ?_⟩
  all_goals decide +kernel

theorem wit_TileAssembler_11 : ∃ (tiles : Bool) (valid : Bool) (reason : Nat) (lane : Nat) (k : Nat) (w : Nat), w = (gapWord tiles
    valid reason lane k).toNat := by
  refine ⟨true, true, (6 : Nat), (1023 : Nat), (2 ^ 32 : Nat), ((gapWord true true 6 1023 (2 ^ 32)).toNat : Nat), ?_⟩
  all_goals decide +kernel

theorem wit_WindowsAndBusy_7 : ∃ (s : State) (g : Nat) (pre : List SentDec) (post : List SentDec) (y : SentDec), g < 64 ∧ (group s
    g).vetoes = 0 ∧ s.fab.decs = pre ++ y :: post ∧ y.d = .veto g ∧ ((∀ x ∈ pre, x.d ≠ .veto g)) ∧ inOrder s y = true := by
  refine ⟨(setGroup { up with fab := { decs := [⟨5, 3, .veto 62⟩, ⟨6, 241, .veto 63⟩] } } 63 { win := some win0 } : State), (63 : Nat),
    ([⟨5, 3, .veto 62⟩] : List SentDec), ([] : List SentDec), (⟨6, 241, .veto 63⟩ : SentDec), ?_, ?_, ?_, ?_, ?_, ?_⟩
  all_goals decide +kernel

theorem wit_WindowsAndBusy_9 : ∃ (state : Nat) (part : Nat) (gate : Nat) (len : Nat) (num : Nat) (w : Nat), w = (windowWord state part
    gate len num).toNat := by
  refine ⟨(3 : Nat), (255 : Nat), 0x40, (65535 : Nat), (2 ^ 32 - 1 : Nat), ((windowWord 3 255 0x40 65535 (2 ^ 32 - 1)).toNat : Nat), ?_⟩
  all_goals decide +kernel

theorem wit_InjectionPort_8 : ∃ (g : Nat) (vb : Nat) (seq : Nat) (window : Bool) (injected : Bool) (slots : List W64) (x : Tile) (h :
    Nat), slots.length = 7 ∧ x = mkTile g window injected vb seq slots ∧ h = x.hdr.toNat := by
  refine ⟨0x53, (14 : Nat), (65535 : Nat), false, true, ([1, 2, 3, 4, 5, 6, 7] : List W64), (mkTile 0x53 false true 14 65535 [1, 2, 3,
    4, 5, 6, 7] : Tile), ((mkTile 0x53 false true 14 65535 [1, 2, 3, 4, 5, 6, 7]).hdr.toNat : Nat), ?_, ?_, ?_⟩
  all_goals decide +kernel

theorem wit_InjectionPort_9 : ∃ (recs : List W64), recs.length ≤ 7 := by
  refine ⟨([1, 2, 3, 4, 5, 6, 7] : List W64), ?_⟩
  all_goals decide +kernel

theorem wit_InjectionPort_10 : ∃ (k : W32 → W32), ((∀ c, k c = if c &&& 1#32 = 1#32 then (c >>> 1) ^^^ 0x82F63B78#32 else c >>> 1)) := by
  refine ⟨(fun c => if c &&& 1#32 = 1#32 then (c >>> 1) ^^^ 0x82F63B78#32 else c >>> 1 : W32 → W32), ?_⟩
  · exact fun _ => rfl

theorem wit_CalibrationStore_3 : ∃ (s : State) (i : Nat) (n : Nat), i < 2 ∧ s.cal.op = some (.write i n) ∧ s.cal.aborted = false := by
  refine ⟨({ up with cal := { op := some (.write 1 7) } } : State), (1 : Nat), (7 : Nat), ?_, ?_, ?_⟩
  all_goals decide +kernel

theorem wit_RegisterWrites_12 : ∃ (s : State) (a : Access) (off : Nat) (i : Nat) (j : Nat) (r : RegRow), TakesPlain s off ∧ findReg off
    = some (r, i, j) ∧ maskOf (fun x => x = .cmd || x = .grd) r.fields = 0 ∧ Reached s a off ∧ r.half = .none := by
  refine ⟨up, a0, 0x100040, (0 : Nat), (0 : Nat), (rowAt 0x100040 : RegRow), ?_, ?_, ?_, ?_, ?_⟩
  all_goals first | decide +kernel | exact reached_of (by decide +kernel) | exact runs_of (by decide +kernel) | exact taken_of (by
    decide +kernel) | exact takes_of (by decide +kernel)

theorem wit_RegisterWrites_12b : ∃ (s : State) (a : Access) (off : Nat) (i : Nat) (j : Nat) (r : RegRow), TakesPlain s off ∧ findReg
    off = some (r, i, j) ∧ maskOf (fun x => x = .cmd || x = .grd) r.fields = 0 ∧ Reached s a off ∧ r.half = .lo ∧ isWritable r.fields =
    true := by
  refine ⟨up, a0, 0x30FC0, (63 : Nat), (0 : Nat), (rowAt 0x30FC0 : RegRow), ?_, ?_, ?_, ?_, ?_, ?_⟩
  all_goals first | decide +kernel | exact reached_of (by decide +kernel) | exact runs_of (by decide +kernel) | exact taken_of (by
    decide +kernel) | exact takes_of (by decide +kernel)

theorem wit_RegisterWrites_12c : ∃ (s : State) (a : Access) (off : Nat) (i : Nat) (j : Nat) (r : RegRow), TakesPlain s off ∧ findReg
    off = some (r, i, j) ∧ maskOf (fun x => x = .cmd || x = .grd) r.fields = 0 ∧ Reached s a off ∧ r.half = .hi ∧ isWritable r.fields =
    true ∧ findReg (off - 4) = some (rowAt (off - 4), 63, 0) := by
  refine ⟨up, a0, 0x30FC4, (63 : Nat), (0 : Nat), (rowAt 0x30FC4 : RegRow), ?_, ?_, ?_, ?_, ?_, ?_, ?_⟩
  all_goals first | decide +kernel | exact reached_of (by decide +kernel) | exact runs_of (by decide +kernel) | exact taken_of (by
    decide +kernel) | exact takes_of (by decide +kernel)

theorem wit_RegisterWrites_13 : ∃ (s : State) (a : Access) (off : Nat) (i : Nat) (j : Nat) (b : Nat) (r : RegRow) (ty : Option FTy),
    TakesPlain s off ∧ off % 0x10000 < 0x400 ∧ b < 32 ∧ findReg off = some (r, i, j) ∧ maskOf (fun x => x = .cmd || x = .grd) r.fields
    = 0 ∧ Reached s a off ∧ ty = (fieldAt b r.fields).map (·.ty) ∧ r.half = .none ∧ unitMask s (writerPart s a off) off = 2 ^ 32 - 1 := by
  refine ⟨up, a0, 0xD0010, (0 : Nat), (0 : Nat), (0 : Nat), (rowAt 0xD0010 : RegRow), ((fieldAt 0 (rowAt 0xD0010).fields).map (·.ty) :
    Option FTy), ?_, ?_, ?_, ?_, ?_, ?_, ?_, ?_, ?_⟩
  all_goals first | decide +kernel | exact reached_of (by decide +kernel) | exact runs_of (by decide +kernel) | exact taken_of (by
    decide +kernel) | exact takes_of (by decide +kernel)

theorem wit_RegisterWrites_13b : ∃ (s : State) (a : Access) (off : Nat) (i : Nat) (j : Nat) (b : Nat) (r : RegRow) (ty : Option FTy),
    TakesPlain s off ∧ off % 0x10000 < 0x400 ∧ b < 32 ∧ findReg off = some (r, i, j) ∧ maskOf (fun x => x = .cmd || x = .grd) r.fields
    = 0 ∧ Reached s a off ∧ ty = (fieldAt b r.fields).map (·.ty) ∧ r.half = .lo ∧ ((ty = some .live ∨ ty = some .cnt ∨ ty = some .cfg))
    := by
  refine ⟨up, a0, 0x30000, (0 : Nat), (0 : Nat), (31 : Nat), (rowAt 0x30000 : RegRow), ((fieldAt 31 (rowAt 0x30000).fields).map (·.ty)
    : Option FTy), ?_, ?_, ?_, ?_, ?_, ?_, ?_, ?_, ?_⟩
  all_goals first | decide +kernel | exact reached_of (by decide +kernel) | exact runs_of (by decide +kernel) | exact taken_of (by
    decide +kernel) | exact takes_of (by decide +kernel)

theorem wit_RegisterWrites_14 : ∃ (s : State) (a : Access) (off : Nat) (i : Nat) (j : Nat) (b : Nat) (r : RegRow), off % 4 = 0 ∧ off %
    0x10000 < 0x400 ∧ off < 0x160000 ∧ b < 32 ∧ findReg off = some (r, i, j) ∧ reaches s a = true ∧ regPresent s off = true ∧ isGrdBit
    b r = true := by
  refine ⟨({ up with ar := { shadow := [(5, 4)] } } : State), (⟨2, 0⟩ : Access), 0x20030, (0 : Nat), (0 : Nat), (31 : Nat), (rowAt
    0x20030 : RegRow), ?_, ?_, ?_, ?_, ?_, ?_, ?_, ?_⟩
  all_goals decide +kernel

theorem wit_RegisterWrites_14b : ∃ (s : State) (a : Access) (off : Nat) (i : Nat) (j : Nat) (b : Nat) (r : RegRow), off % 4 = 0 ∧ off %
    0x10000 < 0x400 ∧ off < 0x160000 ∧ b < 32 ∧ findReg off = some (r, i, j) ∧ reaches s a = true ∧ regPresent s off = true ∧ isGrdBit
    b r = true := by
  refine ⟨up, a0, 0x20030, (0 : Nat), (0 : Nat), (31 : Nat), (rowAt 0x20030 : RegRow), ?_, ?_, ?_, ?_, ?_, ?_, ?_, ?_⟩
  all_goals decide +kernel

theorem wit_RegisterWrites_15 : ∃ (s : State) (f : Nat) (off : Nat), ((findReg off = none ∨ regPresent s off = false ∨ mayRead s f off
    = false ∨ (0xF000 ≤ off % 0x10000 ∧ off % 0x10000 < 0xF200))) := by
  refine ⟨up, (1 : Nat), 0x1F000, ?_⟩
  all_goals decide +kernel

theorem wit_RegisterWrites_16 : ∃ (s : State) (f : Nat) (off : Nat) (i : Nat) (j : Nat) (r : RegRow), off / 0x10000 ∈ [6, 9, 12, 17] ∧
    findReg off = some (r, i, j) ∧ regPresent s off = true ∧ mayRead s f off = true ∧ inGuardWindow off = false := by
  refine ⟨up, (0 : Nat), 0x110000, (0 : Nat), (0 : Nat), (rowAt 0x110000 : RegRow), ?_, ?_, ?_, ?_, ?_⟩
  all_goals decide +kernel

theorem wit_RegisterWrites_17 : ∃ (s : State) (f : Nat) (off : Nat) (p : Nat), regOwner s off = .part p ∧ p ≠ f := by
  refine ⟨up, (1 : Nat), 0x150000, (0 : Nat), ?_, ?_⟩
  all_goals decide +kernel

theorem wit_RegisterWrites_18 : ∃ (s : State) (f : Nat) (off : Nat) (b : Nat), barUp s = true ∧ fnExists s f = true ∧ (fnHost s
    f).d3hot = false ∧ off % 4 = 0 ∧ b < 32 := by
  refine ⟨up, (0 : Nat), 0x1503FC, (31 : Nat), ?_, ?_, ?_, ?_, ?_⟩
  all_goals decide +kernel

theorem wit_RegisterWrites_19 : ∃ (s : State) (f : Nat), ((barUp s = false ∨ fnExists s f = false ∨ (fnHost s f).d3hot = true)) := by
  refine ⟨up, (1 : Nat), ?_⟩
  all_goals decide +kernel

theorem wit_RegisterWrites_20 : ∃ (off : Nat) (n : Nat) (k : Nat), off % 8 + n ≤ 8 ∧ k < n := by
  refine ⟨0x150008, (8 : Nat), (7 : Nat), ?_, ?_⟩
  all_goals decide +kernel

theorem wit_MonitorConverters_8 : ∃ (s : State) (a : Access) (c : Nat) (v : W32), c < 2 ∧ Reached s a (MA_CMD.off c) ∧ v.getLsbD 29 =
    true ∧ ((flag s MA_REF.READY = false ∨ (conv s c).run = true ∨ (conv s c).borrowAt.isSome = true)) := by
  refine ⟨up, a0, (1 : Nat), 0x20000000, ?_, ?_, ?_, ?_⟩
  all_goals first | decide +kernel | exact reached_of (by decide +kernel) | exact runs_of (by decide +kernel) | exact taken_of (by
    decide +kernel) | exact takes_of (by decide +kernel)

theorem wit_GateAndArmArrival_2 : ∃ (s : State) (c : Nat) (T : Nat) (o : Bool) (pre : List SentDec) (post : List SentDec) (y :
    SentDec), s.fab.decs = pre ++ y :: post ∧ y.d = .gate c o T ∧ ((∀ x ∈ pre, ∀ o' T', x.d ≠ .gate c o' T')) ∧ inOrder s y = false := by
  refine ⟨(setEngine { up with fab := { decs := [⟨5, 3, .veto 3⟩, ⟨6, 241, .gate 15 true 5⟩] } } 255 { st := 2, at0 := 5 } : State),
    (15 : Nat), (5 : Nat), true, ([⟨5, 3, .veto 3⟩] : List SentDec), ([] : List SentDec), (⟨6, 241, .gate 15 true 5⟩ : SentDec), ?_,
    ?_, ?_, ?_⟩
  · decide +kernel
  · decide +kernel
  · intro x hx o' T' e; simp at hx; subst hx; simp at e
  · decide +kernel

theorem wit_MuResults_6 : ∃ (source : Nat) (payload : Nat) (w : Nat), w = (resultWord source payload).toNat := by
  refine ⟨(255 : Nat), (2 ^ 54 - 1 : Nat), ((resultWord 255 (2 ^ 54 - 1)).toNat : Nat), ?_⟩
  all_goals decide +kernel

theorem wit_RingCommands_4 : ∃ (s : State), (s.now + 1) * 5 / 8 = fclk s := by
  refine ⟨up, ?_⟩
  all_goals decide +kernel

theorem wit_RingSlots_3 : ∃ (s : State) (r : Nat) (code : Nat) (n : Nat) (x : Tile) (w : Option (Nat × Nat)) (rest : List Inbound), r <
    16 ∧ (cring s r).inbox = ⟨code, .tile x w⟩ :: rest ∧ Served s r .wr ∧ (cring s r).n ≠ 0 ∧ mustStall s r = false ∧ dropsOf (cring s
    r) code = 0 ∧ (cring s r).splice = some n := by
  refine ⟨(fl [(CR_STAT.MARK_SET 15, 1)] (ringUp { wp := 63, m := 3, k := 5, splice := some 1, inbox := [⟨5, .tile good none⟩] }) :
    State), (15 : Nat), (5 : Nat), (1 : Nat), good, none, ([] : List Inbound), ?_, ?_, ?_, ?_, ?_, ?_, ?_⟩
  all_goals first | decide +kernel | exact reached_of (by decide +kernel) | exact runs_of (by decide +kernel) | exact taken_of (by
    decide +kernel) | exact takes_of (by decide +kernel) | exact (by unfold Served; decide +kernel)

theorem wit_PortsAndPps_4 : ∃ (s : State) (c : Command) (p : Nat) (n : Nat), CmdTaken s c 0x400 ∧ p = bitsOf c.p1.toNat 16 16 ∧ n =
    bitsOf c.p1.toNat 10 0 ∧ 60 ≤ n ∧ n ≤ 1518 ∧ cmdPart s c = 0 ∧ ((256 ≤ (eport s p).launch.length ∨ fld s (EP_LAUNCH_STAT.FREE p) <
    (n + 63) / 64)) := by
  refine ⟨(fl [(EP_LAUNCH_STAT.FREE 1, 0)] cmdUp : State), (cmd 0x400 204900000 0x1003C none : Command), (1 : Nat), (60 : Nat), ?_, ?_,
    ?_, ?_, ?_, ?_, ?_⟩
  all_goals first | decide +kernel | exact reached_of (by decide +kernel) | exact runs_of (by decide +kernel) | exact taken_of (by
    decide +kernel) | exact takes_of (by decide +kernel)

theorem wit_PortsAndPps_7 : ∃ (s : State) (p : Nat), p < 2 ∧ flag s (EP_STAT.LINK p) = true ∧ flag s (EP_CFG.EN p) = false := by
  refine ⟨(setEport (fl [(EP_STAT.LINK 1, 1)] up) 1 { launch := [⟨204800000, 9, [1, 2]⟩], headAt := some (25599872000, 3999999875) } :
    State), (1 : Nat), ?_, ?_, ?_⟩
  all_goals decide +kernel

theorem wit_PortsAndPps_8 : ∃ (s : State), servoOn s = true ∧ s.tp.syncHead = none ∧ (eport s (slavePort s)).fwd = [] := by
  refine ⟨({ servoUp 2 with tp := { ownReq := true } } : State), ?_, ?_, ?_⟩
  all_goals decide +kernel

/-- Every ALU function has a word that an engine can run. -/
theorem wit_AluFunctions : ∀ fn < 0x15, (decide (fn < nEngines up) && legal (BitVec.ofNat 32 fn) &&
    decide (iOpc (BitVec.ofNat 32 fn) = 0 ∧ iFn (BitVec.ofNat 32 fn) = fn)) = true := by decide +kernel

theorem wit_AluFunctions_runs : Runs (prog 0x014A580B [(10, 5), (11, 7)]) 255 0x014A580B 0x00 ∧ iFn 0x014A580B = 0x0B :=
  ⟨runs_of (by decide +kernel), by decide +kernel⟩

/-- A word of each immediate row. -/
theorem wit_ImmediateInstructions : ∀ x ∈ [(0x0421FFFF, 0x01), (0x0821FFFF, 0x02), (0x0C21FFFF, 0x03), (0x1021FFFF, 0x04), (0x1421007F, 0x05),
    (0x18600008, 0x06), (0x20210D0A, 0x08), (0x2421003F, 0x09)], (legal (BitVec.ofNat 32 x.1) && decide (iOpc (BitVec.ofNat 32 x.1) = x.2)) = true := by
  decide +kernel

theorem wit_ImmediateInstructions_runs : Runs (prog 0x1421007F [(1, 5)]) 255 0x1421007F 0x05 := runs_of (by decide +kernel)

/-- Each decision instruction with an accepted and with a refused decision, and on a standby. -/
theorem wit_CarverDecisions_0 : Runs (setEngine ovrUp 255 (eng 0xC001FE00 [(1, 5)])) 255 0xC001FE00 0x30 ∧
    isStandby ovrUp = false ∧ (pinPresent ovrUp 63 && ownPin ovrUp 63 = enginePart ovrUp 255 && overrideOn ovrUp 63) = true ∧
    overrideOn up 63 = false ∧ Runs (setEngine standby 255 (eng 0xC001FE00 [])) 255 0xC001FE00 0x30 ∧ isStandby standby = true := by
  refine ⟨runs_of (by decide +kernel), ?_, ?_, ?_, runs_of (by decide +kernel), ?_⟩ <;> decide +kernel

theorem wit_CarverDecisions_1 : Runs (prog 0xC400000F []) 255 0xC400000F 0x31 ∧ ownSeq up 3 = enginePart up 255 ∧
    nSeqs { up with ft0512 := true } = 2 := by
  refine ⟨runs_of (by decide +kernel), ?_, ?_⟩ <;> decide +kernel

theorem wit_CarverDecisions_2 : Runs (prog 0xC800003F []) 255 0xC800003F 0x32 ∧ ownGroup up 63 = enginePart up 255 ∧
    nGroups { up with ft0512 := true } = 32 := by
  refine ⟨runs_of (by decide +kernel), ?_, ?_⟩ <;> decide +kernel

theorem wit_CarverDecisions_3 : Runs (prog 0xCC00000F []) 255 0xCC00000F 0x33 ∧ ownRing up 15 = enginePart up 255 := by
  refine ⟨runs_of (by decide +kernel), ?_⟩; decide +kernel

theorem wit_UnveilPath_7 : (∃ n, UBlock.pg 3 = .mc n ∨ UBlock.pg 3 = .ma n ∨ UBlock.pg 3 = .pg n ∨ UBlock.pg 3 = .mt) ∧
    isWaiting { up with bus := { up.bus with waiting := [(.pg 3, 5)] } } (.pg 3) = true ∧
    boundary { up with bus := { up.bus with waiting := [(.pg 3, 5)] } } (.pg 3) = true :=
  ⟨⟨3, Or.inr (Or.inr (Or.inl rfl))⟩, by decide +kernel, by decide +kernel⟩

theorem wit_StateAfterReset_5 : MQ_SCAN_REF.off ≠ AR_STAT.off ∧ MQ_SCAN_REF.off ≠ CA_STORE_STAT.off := by decide

/-! ## Well-formedness -/

/-- A term that fails each check. -/
theorem test_illformed_refused : [
    Instr.lgDllRelock ⟨8, 0⟩ 0 0, .nop ⟨64, List.replicate 32 0, none⟩, .nop ⟨0, List.replicate 31 0, none⟩,
    .ethFrameReceive ⟨2, [], true, 0⟩,
    .groupQueueRead 84 (.ring 0), .groupQueueRead 0 (.ring 16), .groupQueueRead 0 (.stream 64), .unveilLatch (.inLg 64),
    .unveilLatch (.caGrp 64), .unveilLatch (.mu 64), .unveilLatch (.cr 16), .unveilLatch (.pk 64), .unveilLatch (.pg 4),
    .unveilLatch (.mc 4), .unveilLatch (.ma 2), .unveilLatch (.ep 2), .resetRelease ⟨0, 17, 4, []⟩,
    .resetRelease ⟨0, 16, 4, [⟨4, 0⟩]⟩, .wakeEvent [⟨8, 0, 0, 0⟩] false boot, .maExecutionEnd [2048] [], .scrubRead 0 0 [(1024, true)], .scrubRead 4 0 [],
    .calMeasureComplete 0 [⟨1024, List.replicate 512 0, List.replicate 512 0⟩],
    .calMeasureComplete 0 [⟨0, [], List.replicate 512 0⟩], .calMeasureComplete 0 [⟨0, List.replicate 512 0, []⟩],
    .comparatorTransition 1024 false ⟨0, 0, 0, 0⟩ 0, .dllLockDeclare 64, .dllCodeStep 64 0 0, .dllCodeStep 0 16384 0,
    .fabricEntry 84, .busyHoldExpiry 16, .noticeWrite 8 true, .ccDqPeakClr a0 20 0, .iAdd 256, .guardTimeout 22,
    .guardOpen a0 0 64 0, .triggerFire 32, .maAccSnap a0 128 0, .frameLaunch 2, .pgStart a0 4 0].all (fun i => !i.wellFormed) = true := by
  decide +kernel

theorem test_illformed_offsets_refused : [Instr.registerWrite a0 0x405000 0, .registerWrite a0 2 0, .narrowWrite a0 0x400000 0 0,
    .narrowWrite a0 2 0 0, .narrowWrite a0 0 15 0, .oversizeAccess a0 0x400000 0 true, .oversizeAccess a0 0 16 true,
    .aliasWrite a0 0x1FFFFC 0, .aliasWrite a0 0x300000 0, .aliasWrite a0 0x200002 0].all (fun i => !i.wellFormed) = true := by
  decide +kernel

/-- Commands at the ends of their ranges pass. -/
theorem test_wellformed_accepted : [Instr.lgDllRelock ⟨7, 0⟩ 63 0, .nop ⟨63, List.replicate 32 255, none⟩,
    .ethFrameReceive ⟨1, [], true, 0⟩, .groupQueueRead 83 (.stream 63), .unveilLatch (.cr 15), .iAdd 255, .guardTimeout 21,
    .registerWrite a0 0x3FFFFC 0, .narrowWrite a0 0 14 0, .aliasWrite a0 0x2FFFFC 0, .resetRelease ⟨0, 16, 4, [⟨3, 0⟩]⟩].all
    Instr.wellFormed = true := by decide +kernel

/-! ## Worked examples of the manual -/

def nextOf : Host.Outcome State Fault Refusal → State
  | .next t => t
  | _ => {}

/-- 03_chisel_interpolator.md, Worked example: raw code 237 of a table of total 524,800 gives 549. -/
theorem test_fine_value : fineOf (243150 :: List.replicate 236 0 ++ [1010, 280640]) 237 = (549, false) := by decide +kernel

/-- 05_plinth_time_base.md, the example of the rate term: the fraction decides the rounding. -/
theorem test_stamp_time : stampTime 0x300000000 0x7FF0000000 3659174697 549 = 0x300000226 := by decide +kernel

/-- The record of the same example, and 06_records_and_tiles.md, table Decode of a group-2 tile. -/
theorem test_stamp_record : stampWord 37 false true 0 0x300000225 = 0x0254000300000225 ∧
    stampWord 36 true false 1 0x300000419 = 0x0249000300000419 := by decide +kernel

theorem test_tile_words : gapWord false true 0 40 3 = 0xC500A00000000003 ∧ epochWord 0 = 0x4000000000000000 ∧
    wordBytes 0x0254000300000225 = [0x25, 2, 0, 0, 3, 0, 0x54, 2] ∧ filler = 0xC000000000000000 := by decide +kernel

/-- The check value of CRC-32C over the digits 1 to 9, as published for that polynomial. -/
theorem test_crc32c : crc32c [0x31, 0x32, 0x33, 0x34, 0x35, 0x36, 0x37, 0x38, 0x39] = 0xE3069283 := by decide +kernel

/-- 05_plinth_time_base.md, table Records across the epoch-4 boundary. -/
theorem test_rebuild : rebuild 0x1C00000000000 0xFFFFFFFFF800 = 0x1FFFFFFFFF800 ∧ rebuild 0x1C00000000000 0x400 = 0x2000000000400 ∧
    epochWord (4 * 2 ^ 47) = 0x4000000000000004 ∧ rebuild (4 * 2 ^ 47 + 2 ^ 46) 0xFFFFFFFFFC00 = 0x1FFFFFFFFFC00 := by decide +kernel

/-- 07_lane_chains_and_queues.md, the injection example. -/
theorem test_injected_slots : injSlots [0x11110001, 0x22220002, 0x33330003] = [0x2222000211110001, 0x33330003, 0, 0, 0, 0, 0] := by
  decide +kernel

/-- 12_packer.md, table Lane 100 under q = 6: the residuals, with the tie to even, and the code of the first. -/
theorem test_mode3_residuals : roundK 6 1000000000 (-9988) = -156 ∧ roundK 6 999990016 163837 = 2560 ∧ roundK 6 1000317696 (-4) = 0 ∧
    roundK 6 1000481536 32 = 0 ∧ putVlc (0, 0) (-156) = (3 + 311 * 8, 15) ∧ putVlc (0, 0) 2560 = (4 + 5120 * 8, 19) := by decide +kernel

/-- 14_register_behaviour.md, the alias example: bit 17 of IN_CFG[18] is staged. -/
theorem test_alias : (maqOf (nextOf (exec (.aliasWrite a0 0x23A444 1) up)) 0x70120).getLsbD 17 = true ∧
    (maqOf up 0x70120).getLsbD 17 = false := by decide +kernel

/-- 14_register_behaviour.md, the example of a guard pair: its closing half. -/
theorem test_guard_pair : reg (nextOf (exec (.guardClose a0 2 12 0xE5D4C3B2)
    { up with bus := { up.bus with pair := [(2, some ⟨12, 0x1A2B3C4D, 0, 32000000, false, false, false⟩)] } })) MQ_SCAN_REF.off =
    0x1A2B3C4D := by decide +kernel

/-- 09_carver_engines.md, table Coincidence program: each word is legal and has its opcode. -/
theorem test_program_decodes : ([(0x18601000, 0x06), (0x80C00000, 0x20), (0x9CE00000, 0x27), (0xA1063800, 0x28), (0x21260D0A, 0x08),
    (0x4125100D, 0x10), (0x00280000, 0x00), (0x01481001, 0x00), (0x4800000F, 0x12), (0x014A580B, 0x00), (0x41435005, 0x10),
    (0xC0041700, 0x30), (0xCC000002, 0x33), (0xB4080001, 0x2D), (0xB00A0002, 0x2C)] : List (Nat × Nat)).all
    (fun x => legal (BitVec.ofNat 32 x.1) && decide (iOpc (BitVec.ofNat 32 x.1) = x.2)) = true := by decide +kernel

/-- The same program: the result of EMITT g8, g0, 1 on engine 83. -/
theorem test_emitt : (engine (nextOf (exec (.iEmitt 83) (setEngine up 83 (eng 0xB4080001 [(8, 0x1000002000)])))) 83).rq =
    [(0x8C40001000002000, 0)] := by decide +kernel

/-- The same program: TREB g8, g6, g7 rebuilds the stamp's time. -/
theorem test_treb : greg (engine (nextOf (exec (.iTreb 83) (setEngine up 83 (eng 0xA1063800 [(6, 0x0264001000002000), (7, 0x1000001C40)])))) 83) 8 =
    0x1000002000 := by decide +kernel

/-- A mark request of a Carver that has reached its ring's list, and the period that ends its cycle. -/
theorem wit_RingCommands_3_mark : ∃ s : State, flag s (CR_STAT.RUNNING 15) = true ∧ flag s (CR_CFG.MODE 15) = false ∧
    63 = min (fld s (CR_LOOKBACK.TILES 15)) (min (cring s 15).fill ((cring s 15).n - 1)) ∧
    s.fab.decs = [⟨5, 3, .mark 14⟩] ++ ⟨6, 241, .mark 15⟩ :: [] ∧ inOrder s ⟨6, 241, .mark 15⟩ = true ∧
    s.fab.marksIn = [(15, 77)] ∧ (s.now + 1) * 5 / 8 = fclk s + 1 :=
  ⟨{ fl [(CR_LOOKBACK.TILES 15, 100)] (ringUp { fill := 64, wp := 5 }) with
     now := 32000001, fab := { decs := [⟨5, 3, .mark 14⟩, ⟨6, 241, .mark 15⟩], marksIn := [(15, 77)] } }, by decide +kernel⟩

end Sys2Proof.Tests
end

section
/-! What the work of a lane group, a cluster or an MU bank leaves alone of the stamp fabric: the tiles in flight, the entry buffers, the
clusters' input buffers, and the registers of the sets, the grants and the drops. -/

namespace Sys2Proof.FabricPath

open Sys2Proof.Machine Sys2Proof.Laws

/-- The registers that a grant or a delivery reads or counts in: CC_FAB_GRANT, and of each cluster CC_IN_DROP_CNT, CC_GROUPS_LO,
CC_GROUPS_HI and CC_RSRC. -/
def FabricReg (o : Nat) : Prop :=
  o = CC_FAB_GRANT_LO.off ∨ o = CC_FAB_GRANT_HI.off ∨
    0xB0000 ≤ o ∧ o < 0xB1000 ∧ (o % 256 = 0x08 ∨ o % 256 = 0x24 ∨ o % 256 = 0x28 ∨ o % 256 = 0x2C)

theorem fabricReg_inDrop {c : Nat} (hc : c < 16) : FabricReg (CC_IN_DROP_CNT.off c) := by
  simp only [FabricReg, CC_IN_DROP_CNT.off]; omega

theorem fabricReg_groupsLo {c : Nat} (hc : c < 16) : FabricReg (CC_GROUPS_LO.off c) := by
  simp only [FabricReg, CC_GROUPS_LO.off]; omega

theorem fabricReg_groupsHi {c : Nat} (hc : c < 16) : FabricReg (CC_GROUPS_HI.off c) := by
  simp only [FabricReg, CC_GROUPS_HI.off]; omega

theorem fabricReg_rsrc {c : Nat} (hc : c < 16) : FabricReg (CC_RSRC.off c) := by
  simp only [FabricReg, CC_RSRC.off]; omega

/-- The fabric of t is that of s, but that sources may have sealed tiles and earned credits. -/
structure FabricKept (s t : State) : Prop where
  now : t.now = s.now
  ft0512 : t.ft0512 = s.ft0512
  pipe : t.fab.pipe = s.fab.pipe
  grantCyc : t.fab.grantCyc = s.fab.grantCyc
  muIn : t.fab.muIn = s.fab.muIn
  inBuf : ∀ c, (cluster t c).inBuf = (cluster s c).inBuf
  entry : ∀ c, (source t c).entry = (source s c).entry
  earned : ∀ c, (source s c).earned ≤ (source t c).earned
  reg : ∀ o, FabricReg o → reg t o = reg s o

variable {s t u : State}

theorem source_setSource (s : State) (c : Nat) (x : Source) (d : Nat) :
    source (setSource s c x) d = if d = c then x else source s d := sget_sset ..

theorem cluster_setCluster (s : State) (c : Nat) (x : Cluster) (d : Nat) :
    cluster (setCluster s c x) d = if d = c then x else cluster s d := sget_sset ..

namespace FabricKept

theorem refl (s : State) : FabricKept s s :=
  ⟨rfl, rfl, rfl, rfl, rfl, fun _ => rfl, fun _ => rfl, fun _ => Nat.le_refl _, fun _ _ => rfl⟩

theorem trans (h : FabricKept s t) (k : FabricKept t u) : FabricKept s u where
  now := k.now.trans h.now
  ft0512 := k.ft0512.trans h.ft0512
  pipe := k.pipe.trans h.pipe
  grantCyc := k.grantCyc.trans h.grantCyc
  muIn := k.muIn.trans h.muIn
  inBuf c := (k.inBuf c).trans (h.inBuf c)
  entry c := (k.entry c).trans (h.entry c)
  earned c := Nat.le_trans (h.earned c) (k.earned c)
  reg o ho := (k.reg o ho).trans (h.reg o ho)

theorem ite {a b : State} {p : Prop} [Decidable p] (ha : FabricKept s a) (hb : FabricKept s b) : FabricKept s (if p then a else b) := by
  split <;> assumption

theorem foldl {α : Type} {f : State → α → State} (hf : ∀ t x, FabricKept t (f t x)) (l : List α) (s : State) :
    FabricKept s (l.foldl f s) := by
  induction l generalizing s with
  | nil => exact refl s
  | cons x l ih => exact (hf s x).trans (ih (f s x))

/-! ### Updates of one table -/

/-- An update of neither the fabric nor a register. -/
theorem other (h : FabricKept s t) (hn : u.now = t.now) (hf : u.ft0512 = t.ft0512) (hfab : u.fab = t.fab)
    (hr : u.bus.regs = t.bus.regs) : FabricKept s u := by
  refine h.trans ⟨hn, hf, by rw [hfab], by rw [hfab], by rw [hfab], fun c => ?_, fun c => ?_, fun c => Nat.le_of_eq ?_, fun o _ => ?_⟩
  · unfold cluster; rw [hfab]
  · unfold source; rw [hfab]
  · unfold source; rw [hfab]
  · unfold Machine.reg; rw [hr]

theorem after_setGroup (h : FabricKept s t) {g : Nat} {x : Group} : FabricKept s (setGroup t g x) := h.other rfl rfl rfl rfl

theorem after_setBank (h : FabricKept s t) {b : Nat} {x : MuBank} : FabricKept s (setBank t b x) := h.other rfl rfl rfl rfl

theorem after_setHold (h : FabricKept s t) {p n : Nat} : FabricKept s (setHold t p n) := h.other rfl rfl rfl rfl

theorem after_setFnHost (h : FabricKept s t) {f : Nat} {x : FnHost} : FabricKept s (setFnHost t f x) := h.other rfl rfl rfl rfl

theorem after_setEngine (h : FabricKept s t) {e : Nat} {x : Engine} : FabricKept s (setEngine t e x) :=
  h.trans ⟨rfl, rfl, rfl, rfl, rfl, fun _ => rfl, fun _ => rfl, fun _ => Nat.le_refl _, fun _ _ => rfl⟩

theorem after_setCluster (h : FabricKept s t) {c : Nat} {x : Cluster} (hx : x.inBuf = (cluster t c).inBuf := by rfl) :
    FabricKept s (setCluster t c x) := by
  refine h.trans ⟨rfl, rfl, rfl, rfl, rfl, fun d => ?_, fun _ => rfl, fun _ => Nat.le_refl _, fun _ _ => rfl⟩
  rw [cluster_setCluster]; split
  · next hd => subst hd; exact hx
  · rfl

theorem after_setSource (h : FabricKept s t) {c : Nat} {x : Source} (hx : x.entry = (source t c).entry)
    (he : (source t c).earned ≤ x.earned) : FabricKept s (setSource t c x) := by
  refine h.trans ⟨rfl, rfl, rfl, rfl, rfl, fun _ => rfl, fun d => ?_, fun d => ?_, fun _ _ => rfl⟩
  · rw [source_setSource]; split
    · next hd => subst hd; exact hx
    · rfl
  · rw [source_setSource]; split
    · next hd => subst hd; exact he
    · exact Nat.le_refl _

theorem after_setQueue (h : FabricKept s t) {code : Nat} {q : List QEntry} : FabricKept s (setQueue t code q) := by
  unfold setQueue
  refine ite h.after_setGroup (h.trans ⟨rfl, rfl, rfl, rfl, rfl, fun _ => rfl, fun _ => rfl, fun _ => Nat.le_refl _, fun _ _ => rfl⟩)

/-- A write of a field of any other register; `sts`, `setFlag`, `stsBit`, `inc` and `bump` are such writes. -/
theorem after_setFld (h : FabricKept s t) {x : Fld} {v : Nat}
    (hx : ¬ FabricReg x.off := by
      simp only [FabricReg, CC_FAB_GRANT_LO.off, CC_FAB_GRANT_HI.off, PL_STAT.EMITTED, PL_STAT.off, LG_STAT.BUSY, LG_STAT.WM_HIGH_SEEN,
        LG_STAT.WM_LOW_SEEN, LG_STAT.Q_LOST, LG_STAT.off, LG_WM_CROSS_CNT.COUNT, LG_WM_CROSS_CNT.off, LG_Q_OCC.OCC, LG_Q_OCC.PEAK,
        LG_Q_OCC.off, LG_Q_LOST_CNT.COUNT, LG_Q_LOST_CNT.off, LG_CREDIT_WAIT_CNT.COUNT, LG_CREDIT_WAIT_CNT.off, LG_SEQ.SEQ, LG_SEQ.off,
        LG_INJ_CTRL.FILL, LG_INJ_CTRL.off, LG_BUSY_STAT.STATE, LG_BUSY_STAT.SEEN, LG_BUSY_STAT.off, CC_DQ_OCC.OCC, CC_DQ_OCC.PEAK,
        CC_DQ_OCC.off, CC_DQ_LOST_CNT.COUNT, CC_DQ_LOST_CNT.off, CC_DQ_STAT.Q_LOST, CC_DQ_STAT.off, CC_RES_SEQ.SEQ, CC_RES_SEQ.off,
        CC_CREDIT_WAIT_CNT.COUNT, CC_CREDIT_WAIT_CNT.off, CC_FAB_LATE_CNT.COUNT, CC_FAB_LATE_CNT.off, CC_FAB_WAIT_MAX.MAX,
        CC_FAB_WAIT_MAX.SRC, CC_FAB_WAIT_MAX.off, CC_STAT.IN_DROP, CC_STAT.IN_LATE, CC_STAT.off, CC_IN_OCC.PEAK, CC_IN_OCC.off,
        CC_IN_LATE_CNT.COUNT, CC_IN_LATE_CNT.off, CC_PORT_LOST_CNT.COUNT, CC_PORT_LOST_CNT.off, CC_PORT_LOST_MAP.PORT,
        CC_PORT_LOST_MAP.off, MU_BANK_CREDIT_WAIT_CNT.COUNT, MU_BANK_CREDIT_WAIT_CNT.off, MU_BANK_SEQ.SEQ, MU_BANK_SEQ.off,
        MU_BANK_OCC.OCC, MU_BANK_OCC.PEAK, MU_BANK_OCC.off, IR_NDROP_CNT.COUNT, IR_NDROP_CNT.off, IR_NSTAT.OVF, IR_NSTAT.off,
        IR_ALARM_STAT.NOTICE_OVF, IR_ALARM_STAT.off] <;> omega) : FabricKept s (setFld t x v) :=
  h.trans ⟨rfl, rfl, rfl, rfl, rfl, fun _ => rfl, fun _ => rfl, fun _ => Nat.le_refl _,
    fun _ ho => reg_setFld_ne t x v fun e => hx (e ▸ ho)⟩

end FabricKept

/-! ## BUSY pins and queues (R135 to R138, R143, R147, R148) -/

theorem evalPin_fabricKept (s : State) (p : Nat) : FabricKept s (evalPin s p) := by
  have h := FabricKept.refl s
  unfold evalPin clrBit
  exact .ite (.ite h (h.after_setFld.after_setFld).after_setHold) (.ite (.ite h.after_setFld h) h)

theorem evalPins_fabricKept (s : State) : FabricKept s (evalPins s) := FabricKept.foldl evalPin_fabricKept _ s

theorem evalGroupBusy_fabricKept (s : State) {g : Nat} (hg : g < 0x40) : FabricKept s (evalGroupBusy s g) := by
  have h := FabricKept.refl s
  unfold evalGroupBusy
  exact .ite (h.after_setFld.after_setFld.after_setFld.trans (evalPins_fabricKept _))
    (.ite (h.after_setFld.after_setFld.trans (evalPins_fabricKept _)) h)

theorem noteOcc_fabricKept (s : State) (code : Nat) : FabricKept s (noteOcc s code) := by
  have h := FabricKept.refl s
  unfold noteOcc
  split
  · next hg => exact (FabricKept.ite h.after_setFld.after_setFld h.after_setFld).trans (evalGroupBusy_fabricKept _ hg)
  · exact .ite h.after_setFld.after_setFld h.after_setFld

theorem uncount_fabricKept (s : State) (g : Nat) (w : Option (Nat × Nat)) : FabricKept s (uncount s g w) := by
  have h := FabricKept.refl s
  unfold uncount
  split
  · exact h
  · dsimp only
    split
    · exact .ite h.after_setGroup h.after_setGroup
    · exact h.after_setGroup

theorem countDiscard_fabricKept (s : State) (code : Nat) (x : Tile) : FabricKept s (countDiscard s code x) := by
  have h := FabricKept.refl s
  unfold countDiscard
  split
  · exact h.after_setFld.after_setFld.after_setGroup
  · exact .ite h.after_setFld.after_setFld.after_setCluster h.after_setFld.after_setFld.after_setBank

theorem makeRoom_fabricKept {code : Nat} (e : makeRoom s code = some t) : FabricKept s t := by
  unfold makeRoom at e
  split at e
  · cases e
  · cases e
    exact ((FabricKept.refl s).after_setQueue.trans (uncount_fabricKept ..)).trans (countDiscard_fabricKept ..)

theorem appendEntry_fabricKept (s : State) (code : Nat) (it : QItem) (ds : List Dest) : FabricKept s (appendEntry s code it ds) :=
  (FabricKept.refl s).after_setQueue.trans (noteOcc_fabricKept ..)

theorem countIn_fabricKept (s : State) (g : Nat) (w : Option (Nat × Nat)) : FabricKept s (countIn s g w) := by
  unfold countIn
  split
  · exact (FabricKept.refl s).after_setGroup
  · exact .refl s

theorem queueTile_fabricKept (s : State) (code : Nat) (x : Tile) (w : Option (Nat × Nat)) : FabricKept s (queueTile s code x w) := by
  unfold queueTile
  refine .ite (.refl s) (.ite (countDiscard_fabricKept ..) (.ite ((countIn_fabricKept ..).trans (appendEntry_fabricKept ..)) ?_))
  split
  · next e => exact ((makeRoom_fabricKept e).trans (countIn_fabricKept ..)).trans (appendEntry_fabricKept ..)
  · exact countDiscard_fabricKept ..

theorem queueWindow_fabricKept (s : State) (g : Nat) (it : QItem) : FabricKept s (queueWindow s g it) := by
  have h := FabricKept.refl s
  unfold queueWindow
  refine .ite h (.ite h.after_setGroup (.ite (appendEntry_fabricKept ..) ?_))
  split
  · exact ((h.after_setQueue.trans (uncount_fabricKept ..)).trans (countDiscard_fabricKept ..)).trans (appendEntry_fabricKept ..)
  · exact h.after_setGroup

/-! ## A lane group seals (R16, R119, R141, R142, R146) -/

theorem noteFirstSeq_fabricKept (s : State) (g seq : Nat) : FabricKept s (noteFirstSeq s g seq) := by
  have h := FabricKept.refl s
  unfold noteFirstSeq
  dsimp only
  split
  · exact .ite h.after_setGroup h
  · exact h

theorem partLimit_fabricKept (s : State) (g : Nat) : FabricKept s (partLimit s g) := by
  unfold partLimit
  dsimp only
  split
  · exact .ite (.refl s) ((queueWindow_fabricKept ..).after_setFld.after_setGroup.trans (queueWindow_fabricKept ..))
  · exact .refl s

theorem vetoTail_fabricKept (s : State) (g : Nat) (x : Tile) : FabricKept s (vetoTail s g x) := (FabricKept.refl s).after_setGroup

theorem dropTail_fabricKept (s : State) (g : Nat) (x : Tile) : FabricKept s (dropTail s g x) := by
  unfold dropTail
  refine .ite (vetoTail_fabricKept ..) (.ite (countDiscard_fabricKept ..) (.ite (vetoTail_fabricKept ..) ?_))
  split
  · next e => exact ((makeRoom_fabricKept e).trans (noteOcc_fabricKept ..)).trans (vetoTail_fabricKept ..)
  · exact countDiscard_fabricKept ..

theorem issueTile_fabricKept (s : State) (code : Nat) (x : Tile) : FabricKept s (issueTile s code x) :=
  (FabricKept.refl s).after_setSource rfl (Nat.le_max_left _ _)

theorem sealOut_fabricKept (s : State) {g : Nat} (hg : g < 0x40) (x : Tile) : FabricKept s (sealOut s g x) := by
  have h : FabricKept s (noteFirstSeq (setGroup (bump (issueTile s g x) (LG_SEQ.SEQ g)) g
      { group (bump (issueTile s g x) (LG_SEQ.SEQ g)) g with waitCredit := false }) g (tileSeq x)) :=
    (issueTile_fabricKept ..).after_setFld.after_setGroup.trans (noteFirstSeq_fabricKept ..)
  unfold sealOut
  dsimp only
  split
  · exact .ite (h.trans (dropTail_fabricKept ..)) ((h.trans (queueTile_fabricKept ..)).trans (partLimit_fabricKept ..))
  · exact h.trans (queueTile_fabricKept ..)

theorem waitSeal_fabricKept (s : State) {g : Nat} (hg : g < 0x40) : FabricKept s (waitSeal s g) := by
  have h := FabricKept.refl s
  unfold waitSeal
  exact .ite h h.after_setGroup.after_setFld

theorem sealOpen_fabricKept (s : State) {g : Nat} (hg : g < 0x40) : FabricKept s (sealOpen s g) := by
  have h := FabricKept.refl s
  unfold sealOpen
  exact .ite h (.ite (waitSeal_fabricKept s hg) (h.after_setGroup.after_setFld.trans (sealOut_fabricKept _ hg _)))

theorem formInjected_fabricKept (s : State) {g : Nat} (hg : g < 0x40) : FabricKept s (formInjected s g) := by
  have h := FabricKept.refl s
  unfold formInjected
  exact .ite h (.ite h.after_setGroup h.after_setGroup.after_setFld)

theorem injectedTileSeal_fabricKept (s : State) {g : Nat} (hg : g < 0x40) : FabricKept s (injectedTileSeal s g) := by
  have h := FabricKept.refl s
  unfold injectedTileSeal
  dsimp only
  split
  · exact h
  · have k {x} := h.after_setGroup.trans (sealOut_fabricKept (setGroup s g { group s g with injTile := none }) hg x)
    exact .ite h (.ite (waitSeal_fabricKept s hg) (.ite (k.trans (formInjected_fabricKept _ hg)) k))

theorem releaseGroup_fabricKept (s : State) {g : Nat} (hg : g < 0x40) : FabricKept s (releaseGroup s g) := by
  have h := FabricKept.refl s
  unfold releaseGroup
  exact .ite h (.ite (sealOpen_fabricKept s hg) (.ite (injectedTileSeal_fabricKept s hg) h.after_setGroup))

/-! ## A cluster or an MU bank seals (R177, R195) -/

theorem clusterSeal_fabricKept (s : State) (c : Nat) : FabricKept s (clusterSeal s c) := by
  have h := FabricKept.refl s
  unfold clusterSeal
  exact .ite h (.ite (.ite h h.after_setCluster.after_setFld)
    (h.after_setCluster.after_setFld.trans (issueTile_fabricKept ..)).after_setFld)

theorem releaseCluster_fabricKept (s : State) (c : Nat) : FabricKept s (releaseCluster s c) := by
  have h := FabricKept.refl s
  unfold releaseCluster
  exact .ite h (.ite (clusterSeal_fabricKept s c) h.after_setCluster)

theorem bankNote_fabricKept (s : State) (b : Nat) : FabricKept s (bankNote s b) := by
  have h := (FabricKept.refl s).after_setFld (x := MU_BANK_OCC.OCC b) (v := (bank s b).recs.length)
  unfold bankNote
  exact .ite h.after_setFld h

theorem bankSeal_fabricKept (s : State) (b : Nat) : FabricKept s (bankSeal s b) := by
  have h := FabricKept.refl s
  unfold bankSeal
  exact .ite h (.ite (.ite h h.after_setBank.after_setFld)
    ((h.after_setBank.trans (issueTile_fabricKept ..)).after_setFld.after_setFld.trans (bankNote_fabricKept ..)))

theorem bankFull_fabricKept (b k : Nat) (s : State) : FabricKept s (bankFull s b k) := by
  induction k generalizing s with
  | zero => exact .refl s
  | succ k ih => exact .ite ((bankSeal_fabricKept s b).trans (ih _)) (.refl s)

theorem releaseBank_fabricKept (s : State) (b : Nat) : FabricKept s (releaseBank s b) := by
  unfold releaseBank
  exact .ite (.refl s) ((bankSeal_fabricKept s b).trans (bankFull_fabricKept b 20 _))

theorem releaseSource_fabricKept (s : State) (code : Nat) : FabricKept s (releaseSource s code) := by
  unfold releaseSource
  split
  · next hg => exact releaseGroup_fabricKept s hg
  · exact .ite (releaseCluster_fabricKept ..) (releaseBank_fabricKept ..)

end Sys2Proof.FabricPath
end

section
/-! Credits, entry, grant and delivery (R17, R203 to R206, R209), and the statement O31. -/

namespace Sys2Proof.FabricPath

open Sys2Proof.Machine Sys2Proof.Laws

variable {s t u : State}

/-! ## Credits and entry (R17, R203) -/

theorem releaseSource_of_not_waits {c : Nat} (h : sourceWaits s c = false) : releaseSource s c = s := by
  unfold sourceWaits at h
  unfold releaseSource
  split
  · next hg => rw [if_pos hg] at h; exact if_pos (.inl h)
  · next hg =>
    rw [if_neg hg] at h
    split
    · next hc => rw [if_pos hc] at h; exact if_pos (.inl h)
    · next hc => rw [if_neg hc] at h; exact if_pos (.inl h)

/-- Source c has earned one more credit, of which it holds at most 8 (R17). -/
def earnCredit (s : State) (c : Nat) : State :=
  setSource s c { source s c with earned := (source s c).earned + 1, credits := min 8 ((source s c).credits + 1) }

theorem source_earnCredit (s : State) (c : Nat) : source (earnCredit s c) c =
    { source s c with earned := (source s c).earned + 1, credits := min 8 ((source s c).credits + 1) } := by
  unfold earnCredit
  rw [source_setSource, if_pos rfl]

theorem fabricCreditEarn_of_due {c : Nat} (hc : codePresent s c = true) (he : (source s c).earned < creditsDue s) :
    fabricCreditEarn s c = releaseSource (earnCredit s c) c := if_pos ⟨hc, he⟩

theorem fabricCreditEarn_of_not_due {c : Nat} (he : creditsDue s ≤ (source s c).earned) : fabricCreditEarn s c = s :=
  if_neg fun h => absurd h.2 (by omega)

theorem exec_fabricCreditEarn {c : Nat} (hc : codePresent s c = true) (he : (source s c).earned < creditsDue s) :
    ∃ t, exec (.fabricCreditEarn c) s = .next t ∧
    (source s c).earned < (source t c).earned ∧ (source t c).entry = (source s c).entry ∧
    (sourceWaits s c = false → (source t c).earned = (source s c).earned + 1 ∧
      (source t c).credits = min 8 ((source s c).credits + 1) ∧ t = { s with fab := { s.fab with src := t.fab.src } }) := by
  have hr := releaseSource_fabricKept (earnCredit s c) c
  have hsrc := source_earnCredit s c
  refine ⟨_, congrArg Host.Outcome.next (fabricCreditEarn_of_due hc he), ?_, ?_, fun hw => ?_⟩
  · refine Nat.lt_of_lt_of_le ?_ (hr.earned c)
    rw [hsrc]
    exact Nat.lt_succ_self _
  · rw [hr.entry, hsrc]
  · rw [releaseSource_of_not_waits (s := earnCredit s c) hw, hsrc]
    exact ⟨rfl, rfl, rfl⟩

theorem fabricEntry_of_room {c : Nat} {x : Tile} {r : List Tile} (hx : (source s c).crossing = x :: r)
    (hl : (source s c).entry.length < 8) :
    fabricEntry s c = setSource s c { source s c with crossing := r, entry := (source s c).entry ++ [(x, fclk s)] } := by
  unfold fabricEntry
  dsimp only
  rw [hx]
  exact if_pos hl

theorem exec_fabricEntry {c : Nat} {x : Tile} {r : List Tile} (hx : (source s c).crossing = x :: r)
    (hl : (source s c).entry.length < 8) :
    ∃ t, exec (.fabricEntry c) s = .next t ∧ (source t c).crossing = r ∧ (source t c).entry = (source s c).entry ++ [(x, fclk s)] ∧
    (source t c).credits = (source s c).credits ∧ (∀ d, d ≠ c → source t d = source s d) ∧
    t = { s with fab := { s.fab with src := t.fab.src } } := by
  refine ⟨_, congrArg Host.Outcome.next (fabricEntry_of_room hx hl), ?_, ?_, ?_, fun d hd => ?_, rfl⟩
  all_goals rw [source_setSource]
  · rw [if_pos rfl]
  · rw [if_pos rfl]
  · rw [if_pos rfl]
  · rw [if_neg hd]

/-! ## The oldest entry (R204) -/

/-- Source c's head entered first of those below n, ties to the lowest code. -/
def IsOldest (s : State) (n c : Nat) : Prop :=
  c < n ∧ ∃ x k r, (source s c).entry = (x, k) :: r ∧
    ∀ d < n, ∀ y j q, (source s d).entry = (y, j) :: q → k < j ∨ (k = j ∧ c ≤ d)

theorem IsOldest.unique {n b c : Nat} (hb : IsOldest s n b) (hc : IsOldest s n c) : b = c := by
  obtain ⟨hbn, x, k, r, ex, hx⟩ := hb
  obtain ⟨hcn, y, j, q, ey, hy⟩ := hc
  have h₁ := hx c hcn y j q ey
  have h₂ := hy b hbn x k r ex
  omega

/-- One source of the search of `oldestEntry`. -/
def olderOf (s : State) (best : Option Nat) (c : Nat) : Option Nat :=
  match (source s c).entry with
  | [] => best
  | (_, k) :: _ => match best with
    | none => some c
    | some b => match (source s b).entry with
      | (_, j) :: _ => if k < j then some c else best
      | [] => some c

theorem oldestEntry_eq_foldl (s : State) : oldestEntry s = (List.range 0x54).foldl (olderOf s) none := rfl

theorem olderOf_of_empty {c : Nat} (h : (source s c).entry = []) (best : Option Nat) : olderOf s best c = best := by
  unfold olderOf; rw [h]

theorem olderOf_none {c k : Nat} {x : Tile} {r : List (Tile × Nat)} (h : (source s c).entry = (x, k) :: r) :
    olderOf s none c = some c := by
  unfold olderOf; rw [h]

theorem olderOf_some {b c j k : Nat} {x y : Tile} {q r : List (Tile × Nat)} (hb : (source s b).entry = (y, j) :: q)
    (hc : (source s c).entry = (x, k) :: r) : olderOf s (some b) c = if k < j then some c else some b := by
  unfold olderOf; rw [hc]; dsimp only; rw [hb]

/-- The search finds the oldest of the sources that it has seen, or that all are empty. -/
theorem foldl_olderOf (s : State) (n : Nat) :
    ((List.range n).foldl (olderOf s) none = none ∧ ∀ d < n, (source s d).entry = []) ∨
    ∃ c, (List.range n).foldl (olderOf s) none = some c ∧ IsOldest s n c := by
  induction n with
  | zero => exact .inl ⟨rfl, fun d hd => absurd hd (Nat.not_lt_zero d)⟩
  | succ n ih =>
    rw [List.range_succ, List.foldl_append, List.foldl_cons, List.foldl_nil]
    rcases hn : (source s n).entry with _ | ⟨⟨x, k⟩, r⟩
    · rw [olderOf_of_empty hn]
      rcases ih with ⟨e, h⟩ | ⟨c, e, hc, y, j, q, ey, h⟩
      · refine .inl ⟨e, fun d hd => ?_⟩
        rcases Nat.lt_succ_iff_lt_or_eq.mp hd with hd | rfl
        · exact h d hd
        · exact hn
      · refine .inr ⟨c, e, Nat.lt_succ_of_lt hc, y, j, q, ey, fun d hd z i p ez => ?_⟩
        rcases Nat.lt_succ_iff_lt_or_eq.mp hd with hd | rfl
        · exact h d hd z i p ez
        · rw [hn] at ez; cases ez
    · rcases ih with ⟨e, h⟩ | ⟨c, e, hc, y, j, q, ey, h⟩
      · rw [e, olderOf_none hn]
        refine .inr ⟨n, rfl, Nat.lt_succ_self n, x, k, r, hn, fun d hd z i p ez => ?_⟩
        rcases Nat.lt_succ_iff_lt_or_eq.mp hd with hd | rfl
        · rw [h d hd] at ez; cases ez
        · rw [hn] at ez; cases ez; exact .inr ⟨rfl, Nat.le_refl _⟩
      · rw [e, olderOf_some ey hn]
        by_cases hk : k < j
        · rw [if_pos hk]
          refine .inr ⟨n, rfl, Nat.lt_succ_self n, x, k, r, hn, fun d hd z i p ez => ?_⟩
          rcases Nat.lt_succ_iff_lt_or_eq.mp hd with hd | rfl
          · have := h d hd z i p ez; omega
          · rw [hn] at ez; cases ez; exact .inr ⟨rfl, Nat.le_refl _⟩
        · rw [if_neg hk]
          refine .inr ⟨c, rfl, Nat.lt_succ_of_lt hc, y, j, q, ey, fun d hd z i p ez => ?_⟩
          rcases Nat.lt_succ_iff_lt_or_eq.mp hd with hd | rfl
          · exact h d hd z i p ez
          · rw [hn] at ez; cases ez; omega

theorem oldestEntry_cases (s : State) :
    (oldestEntry s = none ∧ ∀ d < 0x54, (source s d).entry = []) ∨ ∃ c, oldestEntry s = some c ∧ IsOldest s 0x54 c :=
  foldl_olderOf s 0x54

theorem IsOldest.oldestEntry {c : Nat} (h : IsOldest s 0x54 c) : oldestEntry s = some c := by
  rcases oldestEntry_cases s with ⟨-, he⟩ | ⟨b, hb, hb'⟩
  · obtain ⟨hc, x, k, r, ex, -⟩ := h
    rw [he c hc] at ex; cases ex
  · rw [hb, hb'.unique h]

/-! ## Grants (R204, R205) -/

theorem testBit_foldl_bits (p : Nat → Bool) (n j : Nat) :
    ((List.range n).foldl (fun m i => if p i then m ||| 2 ^ i else m) 0).testBit j = (decide (j < n) && p j) := by
  induction n with
  | zero => rw [List.range_zero, List.foldl_nil, Nat.zero_testBit, decide_eq_false (Nat.not_lt_zero j), Bool.false_and]
  | succ n ih =>
    rw [List.range_succ, List.foldl_append, List.foldl_cons, List.foldl_nil]
    by_cases hj : j = n
    · subst hj
      rw [decide_eq_true (Nat.lt_succ_self j), Bool.true_and]
      split
      · next hp => rw [Nat.testBit_or, Nat.testBit_two_pow_self, Bool.or_true, hp]
      · next hp => rw [ih, decide_eq_false (Nat.lt_irrefl j), Bool.false_and, Bool.eq_false_iff.mpr hp]
    · have hlt : decide (j < n + 1) = decide (j < n) := by simp only [decide_eq_decide]; omega
      rw [hlt, ← ih]
      split
      · rw [Nat.testBit_or, Nat.testBit_two_pow_of_ne (Ne.symm hj), Bool.or_false]
      · rfl

theorem testBit_bitsWhere (p : Nat → Bool) {j : Nat} (hj : j < 32) : (bitsWhere p).testBit j = p j := by
  rw [bitsWhere, testBit_foldl_bits, decide_eq_true hj, Bool.true_and]

/-- The clusters that a tile of a source goes to, as its grant fixes them (R205). -/
def grantDst (s : State) (code : Nat) : Nat := bitsWhere fun c => c < nClusters s && clusterWants s code c

theorem testBit_grantDst (s : State) (code : Nat) {j : Nat} (hj : j < 16) :
    (grantDst s code).testBit j = (decide (j < nClusters s) && clusterWants s code j) := testBit_bitsWhere _ (by omega)

theorem fld_congr {x : Fld} (h : reg t x.off = reg s x.off) : fld t x = fld s x := by unfold fld; rw [h]

theorem nClusters_le (s : State) : nClusters s ≤ 16 := by unfold nClusters half; split <;> omega

theorem clusterWants_congr (h : ∀ o, FabricReg o → o < 0xB1000 → reg t o = reg s o) {c : Nat} (hc : c < 16) (code : Nat) :
    clusterWants t code c = clusterWants s code c := by
  have hlo : fld t (CC_GROUPS_LO.GROUP c) = fld s (CC_GROUPS_LO.GROUP c) :=
    fld_congr (h _ (fabricReg_groupsLo hc) (show 0xB0024 + 256 * c < _ by omega))
  have hhi : fld t (CC_GROUPS_HI.GROUP c) = fld s (CC_GROUPS_HI.GROUP c) :=
    fld_congr (h _ (fabricReg_groupsHi hc) (show 0xB0028 + 256 * c < _ by omega))
  have hrs : fld t (CC_RSRC.SRC c) = fld s (CC_RSRC.SRC c) :=
    fld_congr (h _ (fabricReg_rsrc hc) (show 0xB002C + 256 * c < _ by omega))
  unfold clusterWants fbit
  rw [hlo, hhi, hrs]

theorem grantDst_congr (hf : t.ft0512 = s.ft0512) (h : ∀ o, FabricReg o → o < 0xB1000 → reg t o = reg s o) (code : Nat) :
    grantDst t code = grantDst s code := by
  have hn : nClusters t = nClusters s := by unfold nClusters half; rw [hf]
  unfold grantDst
  congr 1
  funext c
  rw [hn]
  by_cases hc : c < nClusters s
  · rw [clusterWants_congr h (Nat.lt_of_lt_of_le hc (nClusters_le s))]
  · rw [decide_eq_false hc, Bool.false_and, Bool.false_and]

theorem pair64_setPair64 (s : State) {lo hi : Nat} (h : lo ≠ hi) (v : Nat) : pair64 (setPair64 s lo hi v) lo hi = v % 2 ^ 64 := by
  unfold pair64 setPair64
  rw [reg_setReg_ne _ _ h, reg_setReg_self, reg_setReg_self, BitVec.toNat_ofNat, BitVec.toNat_ofNat]
  omega

theorem noteWait_fabricKept (s : State) (code w : Nat) : FabricKept s (noteWait s code w) := by
  have h : FabricKept s (if 2 < w then inc s CC_FAB_LATE_CNT.COUNT else s) := .ite (FabricKept.refl s).after_setFld (.refl s)
  unfold noteWait
  exact .ite h.after_setFld.after_setFld h

/-- Source c has been granted its head x, and r stays in its entry buffer. -/
structure Granted (s t : State) (c : Nat) (x : Tile) (r : List (Tile × Nat)) : Prop where
  now : t.now = s.now
  ft0512 : t.ft0512 = s.ft0512
  grantCyc : t.fab.grantCyc = s.fab.grantCyc
  pipe : t.fab.pipe = s.fab.pipe ++ [(c, x, fclk s, grantDst s c)]
  entry : ∀ d, (source t d).entry = if d = c then r else (source s d).entry
  sets : ∀ o, FabricReg o → o < 0xB1000 → reg t o = reg s o
  count : pair64 t CC_FAB_GRANT_LO.off CC_FAB_GRANT_HI.off = (pair64 s CC_FAB_GRANT_LO.off CC_FAB_GRANT_HI.off + 1) % 2 ^ 64

theorem FabricKept.grants (h : FabricKept s t) :
    pair64 t CC_FAB_GRANT_LO.off CC_FAB_GRANT_HI.off = pair64 s CC_FAB_GRANT_LO.off CC_FAB_GRANT_HI.off := by
  unfold pair64
  rw [h.reg _ (.inl rfl), h.reg _ (.inr (.inl rfl))]

/-- Source c's entry buffer becomes r, and its wait is noted (R204, R212). -/
def leaveEntry (s : State) (c k : Nat) (r : List (Tile × Nat)) : State :=
  noteWait (setSource s c { source s c with entry := r }) c (fclk s - k)

/-- A grant is counted. -/
def countGrant (s : State) : State :=
  setPair64 s CC_FAB_GRANT_LO.off CC_FAB_GRANT_HI.off (pair64 s CC_FAB_GRANT_LO.off CC_FAB_GRANT_HI.off + 1)

/-- A tile joins those in flight. -/
def enterPipe (s : State) (e : Nat × Tile × Nat × Nat) : State := { s with fab := { s.fab with pipe := s.fab.pipe ++ [e] } }

theorem leaveEntry_fabricKept (s : State) (c k : Nat) (r : List (Tile × Nat)) :
    FabricKept (setSource s c { source s c with entry := r }) (leaveEntry s c k r) := noteWait_fabricKept ..

theorem entry_leaveEntry (s : State) (c k : Nat) (r : List (Tile × Nat)) (d : Nat) :
    (source (leaveEntry s c k r) d).entry = if d = c then r else (source s d).entry := by
  rw [(leaveEntry_fabricKept s c k r).entry, source_setSource]
  split <;> rfl

theorem reg_countGrant (s : State) {o : Nat} (h : o < 0xB1000) : reg (countGrant s) o = reg s o := by
  have hlo : o ≠ CC_FAB_GRANT_LO.off := by unfold CC_FAB_GRANT_LO.off; omega
  have hhi : o ≠ CC_FAB_GRANT_HI.off := by unfold CC_FAB_GRANT_HI.off; omega
  exact (reg_setReg_ne _ _ hhi).trans (reg_setReg_ne _ _ hlo)

theorem grants_countGrant (s : State) : pair64 (countGrant s) CC_FAB_GRANT_LO.off CC_FAB_GRANT_HI.off =
    (pair64 s CC_FAB_GRANT_LO.off CC_FAB_GRANT_HI.off + 1) % 2 ^ 64 := pair64_setPair64 _ (by decide) _

theorem grantOne_of_none (h : oldestEntry s = none) : grantOne s = s := by unfold grantOne; rw [h]

theorem grantOne_of_oldest {c k : Nat} {x : Tile} {r : List (Tile × Nat)} (h : oldestEntry s = some c)
    (e : (source s c).entry = (x, k) :: r) :
    grantOne s = releaseSource (enterPipe (countGrant (leaveEntry s c k r))
      (c, x, fclk (countGrant (leaveEntry s c k r)), grantDst s c)) c := by
  unfold grantOne
  rw [h]
  dsimp only
  rw [e]
  rfl

theorem grantOne_granted {c k : Nat} {x : Tile} {r : List (Tile × Nat)} (h : oldestEntry s = some c)
    (e : (source s c).entry = (x, k) :: r) : Granted s (grantOne s) c x r := by
  rw [grantOne_of_oldest h e]
  have hu := leaveEntry_fabricKept s c k r
  have hentry := entry_leaveEntry s c k r
  generalize leaveEntry s c k r = u at hu hentry ⊢
  have ht : fclk (countGrant u) = fclk s := congrArg (· * 5 / 8) hu.now
  rw [ht]
  have hr := releaseSource_fabricKept (enterPipe (countGrant u) (c, x, fclk s, grantDst s c)) c
  exact {
    now := hr.now.trans hu.now
    ft0512 := hr.ft0512.trans hu.ft0512
    grantCyc := hr.grantCyc.trans hu.grantCyc
    pipe := hr.pipe.trans (congrArg (· ++ [(c, x, fclk s, grantDst s c)]) hu.pipe)
    entry := fun d => (hr.entry d).trans (hentry d)
    sets := fun o ho hlt => (hr.reg o ho).trans ((reg_countGrant u hlt).trans (hu.reg o ho))
    count := by
      rw [hr.grants]
      refine (grants_countGrant u).trans ?_
      rw [hu.grants]
      rfl }

theorem pair64_lt (s : State) (lo hi : Nat) : pair64 s lo hi < 2 ^ 64 := by
  unfold pair64
  have := (reg s lo).isLt
  have := (reg s hi).isLt
  omega

/-- What one grant adds to the pipeline: nothing where all entry buffers are empty, else the head of the oldest. -/
theorem exists_grantOne (s : State) : ∃ l,
    (grantOne s).fab.pipe = s.fab.pipe ++ l ∧ (grantOne s).fab.grantCyc = s.fab.grantCyc ∧ l.length ≤ 1 ∧
    ((∀ d < 0x54, (source s d).entry = []) → l = []) ∧
    (∀ c x k r, IsOldest s 0x54 c → (source s c).entry = (x, k) :: r → l = [(c, x, fclk s, grantDst s c)]) ∧
    pair64 (grantOne s) CC_FAB_GRANT_LO.off CC_FAB_GRANT_HI.off =
      (pair64 s CC_FAB_GRANT_LO.off CC_FAB_GRANT_HI.off + l.length) % 2 ^ 64 := by
  rcases oldestEntry_cases s with ⟨e, hempty⟩ | ⟨c, e, h⟩
  · rw [grantOne_of_none e]
    refine ⟨[], (List.append_nil _).symm, rfl, Nat.zero_le 1, fun _ => rfl, fun c x k r h ex => ?_, ?_⟩
    · rw [hempty c h.1] at ex; cases ex
    · exact (Nat.mod_eq_of_lt (pair64_lt ..)).symm
  · have ⟨hc, x, k, r, ex, _⟩ := h
    have G := grantOne_granted e ex
    refine ⟨_, G.pipe, G.grantCyc, Nat.le_refl _, fun hempty => ?_, fun b y j q hb ey => ?_, G.count⟩
    · rw [hempty c hc] at ex; cases ex
    · obtain rfl := hb.unique h
      rw [ex] at ey; cases ey; rfl

/-- The FCLK cycle of the present grant is noted. -/
def noteGrant (s : State) : State := { s with fab := { s.fab with grantCyc := some (fclk s) } }

theorem fabricGrant_of_granted (hg : s.fab.grantCyc = some (fclk s)) : fabricGrant s = s := if_pos (.inl hg)

theorem fabricGrant_of_oldest {c : Nat} (hg : s.fab.grantCyc ≠ some (fclk s)) (h : IsOldest s 0x54 c) :
    fabricGrant s = grantOne (grantOne (noteGrant s)) := by
  refine if_neg fun hs => ?_
  rw [h.oldestEntry] at hs
  exact hs.elim hg Bool.false_ne_true

theorem exec_fabricGrant {c k : Nat} {x : Tile} {r : List (Tile × Nat)} (hc : c < 0x54) (hg : s.fab.grantCyc ≠ some (fclk s))
    (e : (source s c).entry = (x, k) :: r)
    (hmin : ∀ d < 0x54, ∀ y j q, (source s d).entry = (y, j) :: q → k < j ∨ (k = j ∧ c ≤ d)) :
    ∃ t dst l, exec .fabricGrant s = .next t ∧ t.fab.grantCyc = some (fclk s) ∧
    t.fab.pipe = s.fab.pipe ++ (c, x, fclk s, dst) :: l ∧ l.length ≤ 1 ∧
    (∀ j < 16, dst.testBit j = (decide (j < nClusters s) && clusterWants s c j)) ∧
    ((∀ d < 0x54, (if d = c then r else (source s d).entry) = []) → l = []) ∧
    (∀ (c₂ : Nat) (x₂ : Tile) (k₂ : Nat) (r₂ : List (Tile × Nat)), c₂ < 0x54 →
      (if c₂ = c then r else (source s c₂).entry) = (x₂, k₂) :: r₂ →
      (∀ d < 0x54, ∀ y j q, (if d = c then r else (source s d).entry) = (y, j) :: q → k₂ < j ∨ (k₂ = j ∧ c₂ ≤ d)) →
      ∃ dst₂, l = [(c₂, x₂, fclk s, dst₂)] ∧ ∀ j < 16, dst₂.testBit j = (decide (j < nClusters s) && clusterWants s c₂ j)) ∧
    pair64 t CC_FAB_GRANT_LO.off CC_FAB_GRANT_HI.off =
      (pair64 s CC_FAB_GRANT_LO.off CC_FAB_GRANT_HI.off + 1 + l.length) % 2 ^ 64 := by
  have h : IsOldest (noteGrant s) 0x54 c := ⟨hc, x, k, r, e, hmin⟩
  have G := grantOne_granted h.oldestEntry e
  obtain ⟨l, hpipe, hcyc, hl, hnone, hnext, hcount⟩ := exists_grantOne (grantOne (noteGrant s))
  simp only [IsOldest, G.entry] at hnone hnext
  refine ⟨_, grantDst s c, l, congrArg Host.Outcome.next (fabricGrant_of_oldest hg h), hcyc.trans G.grantCyc, ?_, hl,
    fun j hj => testBit_grantDst s c hj, hnone,
    fun c₂ x₂ k₂ r₂ hc₂ e₂ hmin₂ => ⟨grantDst s c₂, ?_, fun j hj => testBit_grantDst s c₂ hj⟩, ?_⟩
  · rw [hpipe, G.pipe, List.append_assoc]; rfl
  · rw [hnext c₂ x₂ k₂ r₂ ⟨hc₂, x₂, k₂, r₂, e₂, hmin₂⟩ e₂, grantDst_congr G.ft0512 G.sets]
    unfold fclk; rw [G.now]; rfl
  · rw [hcount, G.count]
    exact Nat.mod_add_mod ..

/-! ## Delivery (R204, R206, R209, R210) -/

theorem queueOverflow_fabricKept (s : State) (f : Nat) : FabricKept s (queueOverflow s f) := by
  have h := FabricKept.refl s
  unfold queueOverflow
  exact .ite h.after_setFnHost h

theorem queueNotice_fabricKept (s : State) (f : Nat) (n : Notice) : FabricKept s (queueNotice s f n) := by
  have h := queueOverflow_fabricKept s f
  unfold queueNotice
  exact .ite h.after_setFnHost h.after_setFnHost.after_setFld.after_setFld.after_setFld

theorem post_fabricKept (s : State) (ty src aux data : Nat) : FabricKept s (post s ty src aux data) := by
  have h := FabricKept.refl s
  unfold post postAt
  refine .ite h ?_
  dsimp only
  split
  · exact h.after_setFnHost
  · exact queueNotice_fabricKept ..

theorem portLost_fabricKept (s : State) (e p n : Nat) : FabricKept s (portLost s e p n) := by
  have h := FabricKept.refl s
  unfold portLost
  exact .ite h h.after_setEngine.after_setFld.after_setFld

theorem noteInput_fabricKept (s : State) {c : Nat} (hc : c < 16) : FabricKept s (noteInput s c) := by
  have h := FabricKept.refl s
  unfold noteInput
  exact .ite h.after_setFld h

theorem inputDrop_fabricKept (s : State) {c : Nat} (hc : c < 16) (code : Nat) (x : Tile) :
    FabricKept (inc s (CC_IN_DROP_CNT.COUNT c)) (inputDrop s c code x) := by
  unfold inputDrop clusterEvent
  have h := FabricKept.foldl (f := fun s (e, p) =>
    let E := engine s e
    if active E = false ∨ tileInjected x then s
    else portLost s e p (x.slots.filter fun w => admits (portOf E p) code w).length)
    (fun t ep => .ite (.refl t) (portLost_fabricKept ..)) (portsOf c) (inc s (CC_IN_DROP_CNT.COUNT c))
  exact .ite (h.after_setFld.trans (post_fabricKept ..)) h.after_setFld

/-- A tile is counted as dropped at cluster c's full input buffer, or enters it (R206). -/
def enterInput (s : State) (c : Nat) (x : Tile) : State :=
  if 32 ≤ inputOcc s c then inc s (CC_IN_DROP_CNT.COUNT c)
  else setCluster s c { cluster s c with inBuf := (cluster s c).inBuf ++ [(x, fclk s + 1 + inputOcc s c)] }

theorem clusterArrive_fabricKept (s : State) {c : Nat} (hc : c < 16) (code : Nat) (x : Tile) :
    FabricKept (enterInput s c x) (clusterArrive s c code x) := by
  unfold enterInput clusterArrive
  dsimp only
  split
  · exact inputDrop_fabricKept s hc code x
  · have h := noteInput_fabricKept (setCluster s c
      { cluster s c with inBuf := (cluster s c).inBuf ++ [(x, fclk s + 1 + inputOcc s c)] }) hc
    exact .ite h.after_setFld.after_setFld h

/-- Cluster c has received tile x in t, where b holds, and nothing else has changed at its input. -/
structure Received (s t : State) (x : Tile) (c : Nat) (b : Bool) : Prop where
  now : t.now = s.now
  pipe : t.fab.pipe = s.fab.pipe
  muIn : t.fab.muIn = s.fab.muIn
  inBuf : (cluster t c).inBuf = if b ∧ inputOcc s c < 32 then (cluster s c).inBuf ++ [(x, fclk s + 1 + inputOcc s c)]
    else (cluster s c).inBuf
  drops : fld t (CC_IN_DROP_CNT.COUNT c) = if b ∧ 32 ≤ inputOcc s c then sat 32 (fld s (CC_IN_DROP_CNT.COUNT c)) 1
    else fld s (CC_IN_DROP_CNT.COUNT c)

theorem Received.refl (s : State) (x : Tile) (c : Nat) : Received s s x c false := 
  ⟨rfl, rfl, rfl, (if_neg fun h => Bool.false_ne_true h.1).symm, (if_neg fun h => Bool.false_ne_true h.1).symm⟩

theorem Received.fabricKept {x : Tile} {c : Nat} {b : Bool} (h : Received s t x c b) (hc : c < 16) (k : FabricKept t u) :
    Received s u x c b where
  now := k.now.trans h.now
  pipe := k.pipe.trans h.pipe
  muIn := k.muIn.trans h.muIn
  inBuf := (k.inBuf c).trans h.inBuf
  drops := (fld_congr (k.reg _ (fabricReg_inDrop hc))).trans h.drops

/-- A cluster receives a tile once: before or after what does not reach it. -/
theorem Received.trans {x : Tile} {c : Nat} {a b : Bool} (h : Received s t x c a) (k : Received t u x c b)
    (hab : (a && b) = false) : Received s u x c (a || b) := by
  cases a with
  | false =>
    have hbuf : (cluster t c).inBuf = (cluster s c).inBuf := by
      rw [h.inBuf]; exact if_neg fun h => Bool.false_ne_true h.1
    have hcnt : fld t (CC_IN_DROP_CNT.COUNT c) = fld s (CC_IN_DROP_CNT.COUNT c) := by
      rw [h.drops]; exact if_neg fun h => Bool.false_ne_true h.1
    have hclk : fclk t = fclk s := congrArg (· * 5 / 8) h.now
    have hocc : inputOcc t c = inputOcc s c := by unfold inputOcc; rw [hbuf, hclk]
    refine ⟨k.now.trans h.now, k.pipe.trans h.pipe, k.muIn.trans h.muIn, ?_, ?_⟩
    · rw [k.inBuf, hbuf, hclk, hocc, Bool.false_or]
    · rw [k.drops, hcnt, hocc, Bool.false_or]
  | true =>
    obtain rfl : b = false := hab
    refine ⟨k.now.trans h.now, k.pipe.trans h.pipe, k.muIn.trans h.muIn, ?_, ?_⟩
    · rw [k.inBuf, if_neg fun h => Bool.false_ne_true h.1]; exact h.inBuf
    · rw [k.drops, if_neg fun h => Bool.false_ne_true h.1]; exact h.drops

theorem enterInput_received (s : State) (c : Nat) (x : Tile) (d : Nat) : Received s (enterInput s d x) x c (decide (c = d)) := by
  have hoff : c ≠ d → (CC_IN_DROP_CNT.COUNT c).off ≠ (CC_IN_DROP_CNT.COUNT d).off := by
    intro h; show 0xB0008 + 256 * c ≠ 0xB0008 + 256 * d; omega
  unfold enterInput
  split
  · next hfull =>
    refine ⟨rfl, rfl, rfl, ?_, ?_⟩
    · rw [if_neg]
      · rfl
      · rintro ⟨hcd, hlt⟩; rw [of_decide_eq_true hcd] at hlt; omega
    · by_cases hcd : c = d
      · subst hcd
        rw [if_pos ⟨decide_eq_true rfl, hfull⟩]
        exact fld_addCnt_self _ _ _ (by decide : 0 ≤ 31) (by decide : 31 < 32)
      · rw [if_neg fun h => hcd (of_decide_eq_true h.1)]
        exact fld_setFld_off _ _ _ _ (hoff hcd)
  · next hroom =>
    refine ⟨rfl, rfl, rfl, ?_, ?_⟩
    · rw [cluster_setCluster]
      by_cases hcd : c = d
      · subst hcd
        rw [if_pos rfl, if_pos ⟨decide_eq_true rfl, by omega⟩]
      · rw [if_neg hcd, if_neg fun h => hcd (of_decide_eq_true h.1)]
    · rw [if_neg]
      · rfl
      · rintro ⟨hcd, hle⟩; rw [of_decide_eq_true hcd] at hle; omega

/-- A tile that arrives at each cluster of a list is received by those, and by no other. -/
theorem forEach_clusterArrive_received (code : Nat) (x : Tile) {c : Nat} (hc : c < 16) {l : List Nat} (hl : l.Nodup)
    (h16 : ∀ d ∈ l, d < 16) (s : State) : Received s (forEach l s fun s d => clusterArrive s d code x) x c (decide (c ∈ l)) := by
  induction l generalizing s with
  | nil => exact .refl s x c
  | cons d l ih =>
    have hd := (enterInput_received s c x d).fabricKept hc (clusterArrive_fabricKept s (h16 d List.mem_cons_self) code x)
    have hr := ih hl.of_cons (fun e he => h16 e (List.mem_cons_of_mem d he)) (clusterArrive s d code x)
    have hone : (decide (c = d) && decide (c ∈ l)) = false := by
      rw [← Bool.decide_and, decide_eq_false_iff_not]
      rintro ⟨rfl, hm⟩
      exact (List.nodup_cons.mp hl).1 hm
    rw [show decide (c ∈ d :: l) = (decide (c = d) || decide (c ∈ l)) by rw [← Bool.decide_or, decide_eq_decide, List.mem_cons]]
    exact hd.trans hr hone

/-- The tile reaches the clusters that its grant fixed. -/
def deliver (s : State) (code : Nat) (x : Tile) (dst : Nat) : State :=
  forEach ((List.range 16).filter dst.testBit) s fun s c => clusterArrive s c code x

theorem deliver_received (s : State) (code : Nat) (x : Tile) (dst : Nat) {c : Nat} (hc : c < 16) :
    Received s (deliver s code x dst) x c (dst.testBit c) := by
  have h := forEach_clusterArrive_received code x hc (l := (List.range 16).filter dst.testBit) (List.nodup_range.filter _)
    (fun d hd => List.mem_range.mp (List.mem_filter.mp hd).1) s
  have hmem : decide (c ∈ (List.range 16).filter dst.testBit) = dst.testBit c := by
    rw [decide_eq_decide.mpr List.mem_filter, Bool.decide_and, decide_eq_true (List.mem_range.mpr hc), Bool.true_and, Bool.decide_eq_true]
  rwa [hmem] at h

theorem fabricDelivery_of_due {code k dst : Nat} {x : Tile} {r : List (Nat × Tile × Nat × Nat)}
    (e : s.fab.pipe = (code, x, k, dst) :: r) (hk : k + 12 ≤ fclk s) :
    fabricDelivery s =
      let t := deliver { s with fab := { s.fab with pipe := r } } code x dst
      if code < 0x40 then { t with fab := { t.fab with muIn := t.fab.muIn ++ [x] } } else queueTile t code x none := by
  unfold fabricDelivery
  rw [e]
  exact if_neg (by omega)

theorem exec_fabricDelivery {code k dst : Nat} {x : Tile} {r : List (Nat × Tile × Nat × Nat)}
    (e : s.fab.pipe = (code, x, k, dst) :: r) (hk : k + 12 ≤ fclk s) :
    ∃ t, exec .fabricDelivery s = .next t ∧ t.fab.pipe = r ∧
    t.fab.muIn = (if code < 0x40 then s.fab.muIn ++ [x] else s.fab.muIn) ∧
    ∀ c < 16,
      (cluster t c).inBuf = (if dst.testBit c ∧ inputOcc s c < 32 then (cluster s c).inBuf ++ [(x, fclk s + 1 + inputOcc s c)]
        else (cluster s c).inBuf) ∧
      fld t (CC_IN_DROP_CNT.COUNT c) = (if dst.testBit c ∧ 32 ≤ inputOcc s c
        then sat 32 (fld s (CC_IN_DROP_CNT.COUNT c)) 1 else fld s (CC_IN_DROP_CNT.COUNT c)) := by
  have hR {c : Nat} (hc : c < 16) := deliver_received { s with fab := { s.fab with pipe := r } } code x dst hc
  refine ⟨_, congrArg Host.Outcome.next (fabricDelivery_of_due e hk), ?_⟩
  dsimp only
  generalize deliver { s with fab := { s.fab with pipe := r } } code x dst = t at hR ⊢
  by_cases hg : code < 0x40
  · rw [if_pos hg, if_pos hg]
    exact ⟨(hR (Nat.zero_lt_succ 15)).pipe, congrArg (· ++ [x]) (hR (Nat.zero_lt_succ 15)).muIn,
      fun c hc => ⟨(hR hc).inBuf, (hR hc).drops⟩⟩
  · rw [if_neg hg, if_neg hg]
    have hQ {c : Nat} (hc : c < 16) := (hR hc).fabricKept hc (queueTile_fabricKept t code x none)
    exact ⟨(hQ (Nat.zero_lt_succ 15)).pipe, (hQ (Nat.zero_lt_succ 15)).muIn, fun c hc => ⟨(hQ hc).inBuf, (hQ hc).drops⟩⟩

/-! ## The statement -/

/-- Settles O31: what a source seals as it earns a credit or is granted leaves the entry buffers, the sets and the tiles in flight alone
(`FabricKept`), so each clause reads off the one event that the command is. -/
theorem fabricPath : Obligations.FabricPath := by
  unfold Obligations.FabricPath
  exact ⟨fun _ _ hc he => exec_fabricCreditEarn hc he,
    fun _ _ he => congrArg Host.Outcome.next (fabricCreditEarn_of_not_due he),
    fun _ _ _ _ hx hl => exec_fabricEntry hx hl,
    fun _ _ _ _ _ hc hg e hmin => exec_fabricGrant hc hg e hmin,
    fun _ hg => congrArg Host.Outcome.next (fabricGrant_of_granted hg),
    fun _ _ _ _ _ _ e hk _ => exec_fabricDelivery e hk⟩

end Sys2Proof.FabricPath
end

section
/-! The decisions on their way to their targets (R213, R214). -/

namespace Sys2Proof.GateAndArm

open Sys2Proof.Machine Sys2Proof.Laws

variable {s : State} {p : Decision → Bool} {pre post : List SentDec} {y : SentDec}

theorem takeDec_of_oldest (hpre : ∀ x ∈ pre, p x.d = false) (hy : p y.d = true) :
    takeDec p (pre ++ y :: post) = some (y.d, pre ++ post) := by
  induction pre with
  | nil => exact if_pos hy
  | cons x pre ih =>
    have hx : ¬ p x.d = true := Bool.eq_false_iff.mp (hpre x List.mem_cons_self)
    rw [List.cons_append, takeDec, if_neg hx, ih fun z hz => hpre z (List.mem_cons_of_mem x hz)]
    rfl

theorem find?_of_oldest (hpre : ∀ x ∈ pre, p x.d = false) (hy : p y.d = true) :
    (pre ++ y :: post).find? (fun x => p x.d) = some y := by
  rw [List.find?_append, List.find?_eq_none.mpr fun x hx => Bool.eq_false_iff.mp (hpre x hx), Option.none_or]
  exact List.find?_cons_of_pos hy

/-- The oldest decision that a test picks reaches its target once it is in order there. -/
theorem reached_of_oldest (e : s.fab.decs = pre ++ y :: post) (hpre : ∀ x ∈ pre, p x.d = false) (hy : p y.d = true) :
    reached s p = if inOrder s y then some (y.d, pre ++ post) else none := by
  unfold reached
  rw [e, find?_of_oldest hpre hy, takeDec_of_oldest hpre hy]

end Sys2Proof.GateAndArm
end

section
/-! A gate event at the lane groups and at the measurement units (R139, R140, R144, R154). -/

namespace Sys2Proof.GateAndArm

open Sys2Proof.Machine Sys2Proof.Laws

variable {s t : State}

theorem group_setGroup (s : State) (g : Nat) (x : Group) (d : Nat) :
    group (setGroup s g x) d = if d = g then x else group s d := sget_sset ..

/-- A part of the groups that an update of one keeps is kept in all of them. -/
theorem group_setGroup_keeps {β : Type} (π : Group → β) {g : Nat} {x : Group} (hx : π x = π (group s g)) (d : Nat) :
    π (group (setGroup s g x) d) = π (group s d) := by
  rw [group_setGroup]
  split
  · next hd => rw [hd]; exact hx
  · rfl

theorem mu_setMu (s : State) (u : Nat) (x : Mu) (v : Nat) : mu (setMu s u x) v = if v = u then x else mu s v := sget_sset ..

theorem forEach_range_succ (n : Nat) (s : State) (f : State → Nat → State) :
    forEach (List.range (n + 1)) s f = f (forEach (List.range n) s f) n := by
  unfold forEach
  rw [List.range_succ, List.foldl_append, List.foldl_cons, List.foldl_nil]

/-- What each pass of a loop leaves alone, the loop leaves alone. -/
theorem forEach_keeps {β : Type} (π : State → β) {f : State → Nat → State} (hf : ∀ s n, π (f s n) = π s) (l : List Nat) (s : State) :
    π (forEach l s f) = π s := by
  induction l generalizing s with
  | nil => rfl
  | cons n l ih => exact (ih (f s n)).trans (hf s n)

/-! ## Lane groups -/

/-- From s to t the groups below n have heard the gate event e, each in the list of its windows where it concerns them; windows and all
but the lane groups are as before. -/
structure Heard (s t : State) (e : GateEv) (n : Nat) : Prop where
  frame : t = { s with lg := t.lg }
  win : ∀ g, (group t g).win = (group s g).win
  winEv : ∀ g, (group t g).winEv = if g < n ∧ windowEvent s g e.id then (group s g).winEv ++ [e] else (group s g).winEv

theorem Heard.none (s : State) (e : GateEv) : Heard s s e 0 :=
  ⟨rfl, fun _ => rfl, fun g => (if_neg fun h => Nat.not_lt_zero g h.1).symm⟩

theorem Heard.ite {e : GateEv} {n : Nat} {a b : State} {p : Prop} [Decidable p] (ha : Heard s a e n) (hb : Heard s b e n) :
    Heard s (if p then a else b) e n := by
  split <;> assumption

/-- A marker joins those due to a group: nothing that its windows follow changes. -/
theorem groupMark_heard {e : GateEv} {n : Nat} (h : Heard s t e n) (g cls : Nat) (w : W64) : Heard s (groupMark t g cls w) e n := by
  unfold groupMark
  dsimp only
  split
  · refine ⟨?_, fun d => ?_, fun d => ?_⟩
    · rw [h.frame]; rfl
    · exact (group_setGroup_keeps Group.win (by rfl) d).trans (h.win d)
    · exact (group_setGroup_keeps Group.winEv (by rfl) d).trans (h.winEv d)
  · exact h

/-- Whether an event concerns a group's windows rests on the open window, the group's registers and the fuses. -/
theorem Heard.windowEvent {e : GateEv} {n : Nat} (h : Heard s t e n) (g id : Nat) : windowEvent t g id = windowEvent s g id := by
  have hreg : (flag t (LG_WIN_CFG.EN g) && framesWindow t g id) = (flag s (LG_WIN_CFG.EN g) && framesWindow s g id) := by
    rw [h.frame]; rfl
  unfold Machine.windowEvent
  rw [h.win, hreg]

/-- The event joins the list of group n where it concerns its windows. -/
theorem Heard.next {e : GateEv} {n : Nat} (h : Heard s t e n) :
    Heard s (if Machine.windowEvent t n e.id then setGroup t n { group t n with winEv := (group t n).winEv ++ [e] } else t) e (n + 1) := by
  have hn : (group t n).winEv = (group s n).winEv := by rw [h.winEv]; exact if_neg fun k => Nat.lt_irrefl n k.1
  have hlt {g : Nat} (hg : g ≠ n) : (group t g).winEv =
      if g < n + 1 ∧ Machine.windowEvent s g e.id then (group s g).winEv ++ [e] else (group s g).winEv :=
    (h.winEv g).trans (ite_congr (propext (and_congr_left fun _ => by omega)) (fun _ => rfl) fun _ => rfl)
  rw [h.windowEvent]
  split
  · next hw =>
    refine ⟨?_, fun g => ?_, fun g => ?_⟩
    · rw [h.frame]; rfl
    · exact (group_setGroup_keeps Group.win (by rfl) g).trans (h.win g)
    · rw [group_setGroup]
      by_cases hg : g = n
      · subst hg
        rw [if_pos rfl, if_pos ⟨Nat.lt_succ_self g, hw⟩, ← hn]
      · rw [if_neg hg]
        exact hlt hg
  · next hw =>
    refine ⟨h.frame, h.win, fun g => ?_⟩
    by_cases hg : g = n
    · subst hg
      rw [hn, if_neg fun k => hw k.2]
    · exact hlt hg

theorem gateToGroups_heard {id : Nat} (hp : gatePresent s id = true) (o : Bool) (T : Nat) :
    Heard s (gateToGroups s id o T) ⟨o, id, T⟩ (nGroups s) := by
  unfold gateToGroups
  rw [if_neg (ne_false_of_eq_true hp)]
  generalize nGroups s = n
  induction n with
  | zero => exact .none s _
  | succ n ih =>
    rw [forEach_range_succ]
    exact Heard.next (.ite (groupMark_heard ih ..) ih)

theorem gatePresent_cluster {c : Nat} (hc : c < nClusters s) : gatePresent s (0x30 + c) = true := by
  have hle : nClusters s ≤ 16 := by unfold nClusters half; split <;> omega
  unfold gatePresent
  rw [if_neg (by omega), if_neg (by omega), if_pos (by omega), Nat.add_sub_cancel_left]
  exact decide_eq_true hc

/-! ## Measurement units -/

theorem muPost_keeps (s : State) (u : Nat) (e : MuEv) : (muPost s u e).fab = s.fab ∧ (muPost s u e).lg = s.lg := by
  unfold muPost
  split <;> exact ⟨rfl, rfl⟩

theorem muPostAt_keeps (s : State) (u T : Nat) (e : Nat → Bool → MuEv) :
    (muPostAt s u T e).fab = s.fab ∧ (muPostAt s u T e).lg = s.lg := by
  unfold muPostAt
  dsimp only
  split
  · exact ⟨rfl, rfl⟩
  · split
    · exact muPost_keeps (sts s (MU_STAT.LATE u)) ..
    · exact muPost_keeps ..

theorem gateToMus_fab (s : State) (id : Nat) (o : Bool) (T : Nat) : (gateToMus s id o T).fab = s.fab  := by
  refine forEach_keeps (·.fab) (fun s u => ?_) _ s
  split
  · exact (muPostAt_keeps s u ..).1
  · rfl

theorem gateToMus_lg (s : State) (id : Nat) (o : Bool) (T : Nat) : (gateToMus s id o T).lg = s.lg  := by
  refine forEach_keeps (·.lg) (fun s u => ?_) _ s
  split
  · exact (muPostAt_keeps s u ..).2
  · rfl

theorem muPost_of_on {u : Nat} (hm : muMode s u ≠ 0) (e : MuEv) :
    muPost s u e = setMu s u { mu s u with evs := (mu s u).evs ++ [e] } := if_neg hm

theorem muMode_late (s : State) (u : Nat) : muMode (sts s (MU_STAT.LATE u)) u = muMode s u := by
  have h : fld (sts s (MU_STAT.LATE u)) (MU_CFG.MODE u) = fld s (MU_CFG.MODE u) :=
    fld_setFld_off _ _ _ _ (show 0xC0000 + 256 * u ≠ 0xC0020 + 256 * u by omega)
  unfold muMode
  rw [h]

/-- An event below the frontier of a unit that is on: it is taken at the frontier, and LATE is set (R158). -/
theorem muPostAt_of_late {u T : Nat} (hm : muMode s u ≠ 0) (hT : T < (mu s u).frontier) (e : Nat → Bool → MuEv) :
    muPostAt s u T e = setMu (sts s (MU_STAT.LATE u)) u { mu s u with evs := (mu s u).evs ++ [e (mu s u).frontier true] } := by
  unfold muPostAt
  dsimp only
  rw [if_neg hm, if_pos hT, muPost_of_on (by rwa [muMode_late])]
  rfl

/-- An event at or after the frontier of a unit that is on keeps its T. -/
theorem muPostAt_of_in_time {u T : Nat} (hm : muMode s u ≠ 0) (hT : ¬ T < (mu s u).frontier) (e : Nat → Bool → MuEv) :
    muPostAt s u T e = setMu s u { mu s u with evs := (mu s u).evs ++ [e T false] } := by
  unfold muPostAt
  dsimp only
  rw [if_neg hm, if_neg hT, muPost_of_on hm]

end Sys2Proof.GateAndArm
end

section
/-! The arrival of a gate or arm decision (R139, R158, R213, R214), and the statement O34. -/

namespace Sys2Proof.GateAndArm

open Sys2Proof.Machine Sys2Proof.Laws

variable {s : State} {pre post : List SentDec} {y : SentDec}

/-- The decisions on their way become l. -/
def setDecs (s : State) (l : List SentDec) : State := { s with fab := { s.fab with decs := l } }

theorem clusterGateArrival_of_oldest {c T : Nat} {o : Bool} (e : s.fab.decs = pre ++ y :: post) (hy : y.d = .gate c o T)
    (hpre : ∀ x ∈ pre, ∀ o' T', x.d ≠ .gate c o' T') :
    clusterGateArrival s c =
      if inOrder s y then gateToMus (gateToGroups (setDecs s (pre ++ post)) (0x30 + c) o T) (0x30 + c) o T else s := by
  unfold clusterGateArrival
  rw [reached_of_oldest e, hy]
  · cases inOrder s y <;> rfl
  · intro x hx
    split
    · next d o' T' hd => exact decide_eq_false fun hdc => hpre x hx o' T' (hdc ▸ hd)
    · rfl
  · rw [hy]; exact decide_eq_true rfl

theorem muarmArrival_of_oldest {u T : Nat} (e : s.fab.decs = pre ++ y :: post) (hy : y.d = .muarm u T)
    (hpre : ∀ x ∈ pre, ∀ T', x.d ≠ .muarm u T') :
    muarmArrival s u = if inOrder s y then muPostAt (setDecs s (pre ++ post)) u T .arm else s := by
  unfold muarmArrival
  dsimp only
  rw [reached_of_oldest e, hy]
  · cases inOrder s y <;> rfl
  · intro x hx
    split
    · next v T' hd => exact decide_eq_false fun hvu => hpre x hx T' (hvu ▸ hd)
    · rfl
  · rw [hy]; exact decide_eq_true rfl

theorem exec_clusterGateArrival {c T : Nat} {o : Bool} (hc : c < nClusters s) (e : s.fab.decs = pre ++ y :: post)
    (hy : y.d = .gate c o T) (hpre : ∀ x ∈ pre, ∀ o' T', x.d ≠ .gate c o' T') (ho : inOrder s y = true) :
    ∃ t, exec (.clusterGateArrival c) s = .next t ∧ t.fab.decs = pre ++ post ∧
    ∀ g < nGroups s, (group t g).winEv =
      (if windowEvent s g (0x30 + c) then (group s g).winEv ++ [⟨o, 0x30 + c, T⟩] else (group s g).winEv) := by
  have h := gateToGroups_heard (s := setDecs s (pre ++ post)) (gatePresent_cluster hc) o T
  refine ⟨_, congrArg Host.Outcome.next ((clusterGateArrival_of_oldest e hy hpre).trans (if_pos ho)), ?_, fun g hg => ?_⟩
  · rw [gateToMus_fab, h.frame]; rfl
  · have hg' : group (gateToMus (gateToGroups (setDecs s (pre ++ post)) (0x30 + c) o T) (0x30 + c) o T) g =
        group (gateToGroups (setDecs s (pre ++ post)) (0x30 + c) o T) g := by unfold group; rw [gateToMus_lg]
    rw [hg', h.winEv]
    exact ite_congr (propext (and_iff_right hg)) (fun _ => rfl) fun _ => rfl

theorem exec_muarmArrival {u T : Nat} (e : s.fab.decs = pre ++ y :: post) (hy : y.d = .muarm u T)
    (hpre : ∀ x ∈ pre, ∀ T', x.d ≠ .muarm u T') (ho : inOrder s y = true) (hm : muMode s u ≠ 0) :
    ∃ t, exec (.muarmArrival u) s = .next t ∧ t.fab.decs = pre ++ post ∧
    (mu t u).evs = (mu s u).evs ++ [if T < (mu s u).frontier then .arm (mu s u).frontier true else .arm T false] ∧
    (T < (mu s u).frontier → flag t (MU_STAT.LATE u) = true) := by
  have hm' : muMode (setDecs s (pre ++ post)) u ≠ 0 := hm
  refine ⟨_, congrArg Host.Outcome.next ((muarmArrival_of_oldest e hy hpre).trans (if_pos ho)), ?_, ?_⟩
  · rw [(muPostAt_keeps ..).1]; rfl
  by_cases hT : T < (mu s u).frontier
  · rw [muPostAt_of_late hm' hT, mu_setMu, if_pos rfl, if_pos hT]
    exact ⟨rfl, fun _ => flag_sts_self _ (MU_STAT.LATE u) rfl (by decide : 8 < 32)⟩
  · rw [muPostAt_of_in_time hm' hT, mu_setMu, if_pos rfl, if_neg hT]
    exact ⟨rfl, fun h => absurd h hT⟩

/-! ## The statement -/

/-- Settles O34: the decision that a command picks is the one `reached_of_oldest` names; a gate event passes the groups one by one, each
hearing it by its own window and registers, which those before it leave alone (`Heard`). -/
theorem gateAndArmArrival : Obligations.GateAndArmArrival := by
  unfold Obligations.GateAndArmArrival
  refine ⟨fun _ _ _ _ _ _ _ hc e hy hpre ho => exec_clusterGateArrival hc e hy hpre ho,
    fun _ _ _ _ _ _ _ e hy hpre ho hm => exec_muarmArrival e hy hpre ho hm,
    fun _ _ _ _ _ _ _ e hy hpre ho => congrArg Host.Outcome.next ?_⟩
  exact (clusterGateArrival_of_oldest e hy hpre).trans (if_neg (Bool.eq_false_iff.mp ho))

end Sys2Proof.GateAndArm
end
